-- ==== Sys2Proof/Word.lean ====
section
/-! DEFINITION. The word types of the Xeile XW8 block and the sparse tables every store of State is made of. -/
namespace Sys2Proof

/-- One byte. -/
abbrev Byte := BitVec 8

/-- A 32-bit lane, scalar or direct register. -/
abbrev W32 := BitVec 32

/-- A 64-bit program word, descriptor or check weight. -/
abbrev W64 := BitVec 64

/-- The 32 lanes of a flit, an SRAM row of 128 B or a vector register (R77, R169). -/
abbrev Row128 := BitVec 1024

/-- A fault code: class, block, cause (R10). -/
abbrev Code := BitVec 16

/-- A sparse store: keys strictly rising, no entry equal to what an unlisted key reads as.
A store of bytes is a list of `Host.Cell`. -/
abbrev Tab (α : Type) := List (Nat × α)

/-- A flit: 1,024 data bits and one sour mark per 128-bit segment (R77, R93), whether it is DMA, load or fill traffic, which exact mode
does not count (R213), and the Shuttle port whose slot it came in by (R285, R315). -/
structure Flit where
  data : Row128
  sour : Byte
  loose : Bool := false
  port : Option Nat := none
deriving DecidableEq, Repr, Inhabited

end Sys2Proof
end

