-- ==== Sys2Proof/Syntax.lean ====
section
/-! DEFINITION. The commands the block takes (one constructor a row of spec/opcode_table.json) and the operands they carry.
An operand is what comes from outside the device: a unit's number, a value a host writes, a program word, a received
frame, a sensor reading, or the outcome of a physical test (log 13). -/
namespace Sys2Proof

/-- Why a port reset begins (R334). -/
inductive PortResetKind where
  | perst | hotReset | linkDown | flr
deriving DecidableEq, Repr

/-- A site that failed a test: the fence-map cause of R423, whether its switch failed, the links that failed
(one bit an output port), and whether it does not answer on the management ring. -/
structure SiteFailure where
  site : Nat
  cause : Nat
  swOff : Bool
  links : Nat
  unreach : Bool
deriving DecidableEq, Repr

/-- A channel's training: the rate reached (0 to 2) or none where it failed at 6.4 Gb/s, and its margin (R418). -/
structure ChannelTraining where
  stack : Nat
  ch : Nat
  rate : Option Nat
  margin : Nat
deriving DecidableEq, Repr

/-- What bring-up's physical tests found (R413-R421). -/
structure BringUpOutcome where
  regionsFailed : List Nat
  sitesFailed : List SiteFailure
  crossingsFailed : List (Nat × Nat)
  training : List ChannelTraining
  enginesFailed : List Nat
  microcodeFailed : List SiteFailure
  refDiffers : List SiteFailure
  refAgain : Bool
  fusesFailed : List Nat
  elapsed : Nat
deriving DecidableEq, Repr

/-- What a self-test of R431 found. -/
structure TestOutcome where
  sitesFailed : List SiteFailure
  training : List ChannelTraining
  regionsFailed : List Nat
  elapsedMs : Nat
deriving DecidableEq, Repr

/-- What a scald found and reached (R447, R460). -/
structure ScaldOutcome where
  sitesFailed : List SiteFailure
  offset : Int
  temperature : Nat
  elapsedMs : Nat
deriving DecidableEq, Repr

/-- A unit the watch list or a report can name (R460). -/
inductive WatchUnit where
  | site (n : Nat)
  | link (site out : Nat)
  | lane (port lane : Nat)
  | channel (stack ch : Nat)
deriving DecidableEq, Repr

/-- The self-tests of remapping (R438 step 1): the units whose test fails. -/
structure RemapOutcome where
  failed : List WatchUnit
deriving DecidableEq, Repr

/-- What befell a flit on its link: the segments with a correctable and with an uncorrectable error, and
whether the two flit-valid wires disagree (R78, R80). -/
structure LinkUpset where
  ce : List Nat
  ue : List Nat
  validBad : Bool
deriving DecidableEq, Repr

/-- How a lane codeword decoded (R275): its superframe's first pick, its role, its lane, its index, whether it was corrected, whether it failed,
whether it is the spare's copy of its role (MIRROR, R292). -/
structure CodewordOutcome where
  first : Nat
  role : Nat
  lane : Nat
  cwi : Nat
  corrected : Bool
  failed : Bool
  mirror : Bool := false
deriving DecidableEq, Repr

/-- A received pick frame (R276): the peer's pick it belongs to, its 84-byte header, none where it is lost (R278),
and the 512-byte payloads of the slots that arrived. -/
structure RxFrame where
  pick : Nat
  header : Option (List Byte)
  slots : List (Nat × BitVec 4096)
deriving DecidableEq, Repr

/-- What training settled (R290): the spare lane, the lanes that are usable (one bit a lane), and the margins. -/
structure TrainOutcome where
  spare : Nat
  usable : Nat
  margins : List Nat
deriving DecidableEq, Repr

/-- One interval's measurements (R383): per region output voltage (mV), current (0.1 A), power (0.1 W); the feeds'
voltages (10 mV); the input power's means over the interval, 10 us, 100 us and 1 ms (W). -/
structure PowerSample where
  regions : List (Nat × Nat × Nat × Nat)
  voltA : Nat
  voltB : Nat
  mean1us : Nat
  mean10us : Nat
  mean100us : Nat
  mean1ms : Nat
deriving DecidableEq, Repr

/-- A millisecond's energy of the shared rails (uJ) and each area's traffic through them (R402). -/
structure SharedEnergy where
  stks : Nat
  stackBeats : List Nat
  optics : Nat
  opticUnits : List Nat
  hub : Nat
  hubBytes : List Nat
deriving DecidableEq, Repr

/-- The retest of a tripped or isolated region (R432). -/
structure RetestOutcome where
  regulatorOk : Bool
  sitesFailed : List SiteFailure
deriving DecidableEq, Repr

/-- The coolant sensors (R407): inlet and outlet (1/16 degC), flow (0.01 L/min), and the 1 s means of inlet and flow. -/
structure CoolantSample where
  inlet : Int
  outlet : Int
  flow : Nat
  meanInlet : Int
  meanFlow : Nat
deriving DecidableEq, Repr

/-- A triplicated field (R372). -/
inductive TriField where
  | secLock | pmax | pmin | cap | prio | fabId | dbgEn
  | secOwner (w : Nat)
  | owned (port : Nat)
  | areaOwner (area : Nat)
  | mmRemap (site entry : Nat)
  | hbmRate (stack ch : Nat)
  | hbmFail (stack ch : Nat)
  | hbmRemap (stack entry : Nat)
deriving DecidableEq, Repr

/-- The commands and events of the block: one constructor a row of spec/opcode_table.json, with the row's operands. -/
inductive Instr where
  /-- POWER_ON_RESET (R334): Power is applied or power-good is lost; everything resets and bring-up starts from stage 1. -/
  | powerOnReset (feedId : Nat) (rackPos : Nat)
  /-- BRING_UP (R412): Bring-up runs its nine stages in order; HPC_STAT.READY becomes 1 when stage 9 ends. -/
  | bringUp (o : BringUpOutcome)
  /-- BRINGUP_STAGE_TIMEOUT (R412): A bring-up stage exceeds its bound, and bring-up ends with RAS_BRINGUP_FAIL. -/
  | bringupStageTimeout (stage : Nat)
  /-- DEVICE_RESET_DRST (R334): DRST resets every DRST and PRST field, removes all areas and jobs, and reruns bring-up from stage 3. -/
  | deviceResetDrst (feedId : Nat) (rackPos : Nat)
  /-- PORT_RESET (R335): PERST, a hot reset, a link-down or an FLR resets one host port's configuration, mailboxes, event queue and MSI-X state. -/
  | portReset (port : Nat) (kind : PortResetKind)
  /-- NOP (R343): The mailbox NOP command completes with no effect. -/
  | nop (port : Nat) (m : Nat)
  /-- IDENTIFY (R343): Returns IDN_DEVICE, the port number and the area ownership masks. -/
  | identify (port : Nat) (m : Nat)
  /-- EVQ_SETUP (R350): Replaces or removes the port's event ring and resets its producer and consumer indexes. -/
  | evqSetup (port : Nat) (m : Nat)
  /-- ABORT (R354): Aborts an area or the device within 20 ms, leaving the state that R354 defines. -/
  | abort (port : Nat) (m : Nat)
  /-- DEVICE_RESET (R343): With the key 0x4452_5354, completes and then starts DRST. -/
  | deviceReset (port : Nat) (m : Nat)
  /-- AREA_CREATE (R25): Creates a job area from a valid, non-overlapping area word, owned by the posting port. -/
  | areaCreate (port : Nat) (m : Nat)
  /-- AREA_CHANGE (R25): Changes the area word of an area that has no running job. -/
  | areaChange (port : Nat) (m : Nat)
  /-- AREA_REMOVE (R25): Removes an area that has no running job. -/
  | areaRemove (port : Nat) (m : Nat)
  /-- AREA_CLEAR (R344): Ends the job of a halted area with the state that ABORT leaves. -/
  | areaClear (port : Nat) (m : Nat)
  /-- AREA_TAKE (R352): Moves ownership of an area to the posting port when the owning link has been down for 1 s. -/
  | areaTake (port : Nat) (m : Nat)
  /-- DRAFT_LOAD (R190): Reads a draft image from the stacks, checks it in order, and loads it into the inactive banks. -/
  | draftLoad (port : Nat) (m : Nat)
  /-- LOAD_FLIT (R194): An SU accepts a load flit whose offset matches, writes the payload and checks the record CRCs. -/
  | loadFlit (su : Nat)
  /-- WARM_LOAD_COMPLETE (R197): Every heddle stream and attachment record is complete, and the draft-load command succeeds. -/
  | warmLoadComplete (area : Nat)
  /-- JOB_START (R344): Creates the job of an area holding a complete cold-loaded draft, starting at pick P. -/
  | jobStart (port : Nat) (m : Nat)
  /-- JOB_START_PICK (R204): At pick P every SU of the area begins word 0 of bank 0, and its JOIN opens step 0. -/
  | jobStartPick (area : Nat)
  /-- JOB_STATUS (R343): Returns the job state, committed step index, DRAFT_ID and last halt record. -/
  | jobStatus (port : Nat) (m : Nat)
  /-- BULK_WRITE (R346): Moves host data to stack memory, creels or site SRAM under a scatter list. -/
  | bulkWrite (port : Nat) (m : Nat) (hostErr : Option Nat)
  /-- BULK_READ (R347): Moves device data to host memory, returning committed state or refusing it. -/
  | bulkRead (port : Nat) (m : Nat) (hostErr : Option Nat)
  /-- REMOTE_READ (R313): Splits a remote read into RMA_RD requests of at most one 4 KiB block each and gathers the responses. -/
  | remoteRead (port : Nat) (m : Nat)
  /-- REMOTE_WRITE (R313): Splits a remote write into RMA_WR requests and completes when every write is answered. -/
  | remoteWrite (port : Nat) (m : Nat)
  /-- SET_FABRIC_ID (R302): Sets the fabric and device ids in flash and restarts hello on every port. -/
  | setFabricId (port : Nat) (m : Nat)
  /-- PWR_SET_CAP (R410): Sets the host power cap within PMIN to PMAX, applied at the shadow apply point. -/
  | pwrSetCap (port : Nat) (m : Nat)
  /-- PWR_STATUS (R410): Returns input power, the effective cap, region powers, temperatures and energies. -/
  | pwrStatus (port : Nat) (m : Nat)
  /-- RACK_BUDGET (R398): Joins or leaves a power group with a budget, floor and member list. -/
  | rackBudget (port : Nat) (m : Nat)
  /-- SELFTEST_TEST (R431): Runs self-test, crossing checks and stack training over an area or the device, and adds failures to the fence map. -/
  | selftestTest (port : Nat) (m : Nat) (o : TestOutcome)
  /-- SELFTEST_INSTALL (R431): Checks an image as a draft against the device-wide map and stores it as the reference draft. -/
  | selftestInstall (port : Nat) (m : Nat)
  /-- FENCE_READ (R430): Returns fence-map entries for sites, regions or channels, or a summary. -/
  | fenceRead (port : Nat) (m : Nat)
  /-- REPAIR_ROW (R431): Remaps an MM or stack row to a spare, or performs post-package repair. -/
  | repairRow (port : Nat) (m : Nat) (pprOk : Bool)
  /-- REPAIR_SITE_FENCE (R431): Fences a site at host request with cause 0x20. -/
  | repairSiteFence (port : Nat) (m : Nat)
  /-- REPAIR_SITE_RETEST (R431): Retests a site and its links, and clears its entry if all tests pass. -/
  | repairSiteRetest (port : Nat) (m : Nat) (pass : Bool)
  /-- REPAIR_CHANNEL_RETRAIN (R431): Retrains a stack channel at its recorded rate and clears FAIL if it passes. -/
  | repairChannelRetrain (port : Nat) (m : Nat) (pass : Bool)
  /-- REPAIR_CHANNEL_SET_RATE (R431): Trains a channel at a given rate and records that rate if it passes. -/
  | repairChannelSetRate (port : Nat) (m : Nat) (pass : Bool)
  /-- SCALD (R447): Runs self-test patterns over a job-free area at selected stress corners, then fences or reports failures. -/
  | scald (port : Nat) (m : Nat) (o : ScaldOutcome)
  /-- WATCH_READ (R460): Returns watch-list entries. -/
  | watchRead (port : Nat) (m : Nat)
  /-- SKIM_PARTNER_SET (R454): Sets the skim partner, port, buffers and ranges for an area. -/
  | skimPartnerSet (port : Nat) (m : Nat)
  /-- SKIM_PARTNER_CLEAR (R454): Clears the skim partner of an area. -/
  | skimPartnerClear (port : Nat) (m : Nat)
  /-- SKIM_OVERRIDE_SET (R454): Permits a partner on a shared or unknown feed, and the risk score is doubled. -/
  | skimOverrideSet (port : Nat) (m : Nat)
  /-- SKIM_OVERRIDE_CLEAR (R454): Clears the feed override of an area. -/
  | skimOverrideClear (port : Nat) (m : Nat)
  /-- RESTORE (R459): Reads a skim seal and its ranges from the partner, writes them back, and checks the digests. -/
  | restore (port : Nat) (m : Nat)
  /-- RESTORE_RESUME (R439): Resumes a multi-device job awaiting resume at start pick P. -/
  | restoreResume (port : Nat) (m : Nat)
  /-- DRASAL_CERT (R468): Returns the module identity certificate. -/
  | drasalCert (port : Nat) (m : Nat)
  /-- DRASAL_ATTEST (R469): Samples the device state at one pick and writes a signed attestation report to the host. -/
  | drasalAttest (port : Nat) (m : Nat)
  /-- OWNER_ENROL (R473): Sets or removes the owner key hash in flash. -/
  | ownerEnrol (port : Nat) (m : Nat)
  /-- DEBUG_UNLOCK_CHALLENGE (R475): Returns a 32-byte debug challenge that stays valid for 60 s. -/
  | debugUnlockChallenge (port : Nat) (m : Nat) (random : BitVec 256)
  /-- DEBUG_UNLOCK_RESPONSE (R475): Verifies a signature over the serial and the challenge, and enables debug. -/
  | debugUnlockResponse (port : Nat) (m : Nat)
  /-- DEBUG_UNLOCK_DISABLE (R475): Clears the debug enable. -/
  | debugUnlockDisable (port : Nat) (m : Nat)
  /-- DEBUG_CHALLENGE_EXPIRY (R475): A debug challenge becomes stale 60 s after issue. -/
  | debugChallengeExpiry
  /-- FW_UPDATE (R466): Stages, checks and writes a firmware image to the non-booted slot and marks it preferred. -/
  | fwUpdate (port : Nat) (m : Nat)
  /-- BOTTOM_TREE_READY (R472): The background build of a successor bottom signing tree completes. -/
  | bottomTreeReady
  /-- HPC_ABORT_WRITE (R354): A write of HPC_ABORT requests an abort of the named areas or of the device. -/
  | hpcAbortWrite (port : Nat) (value : Nat)
  /-- ABORT_HW_TIMEOUT (R355): An abort not completed by Prijan within 10 ms is performed by the hub. -/
  | abortHwTimeout
  /-- HPC_DRST_WRITE (R334): Writing the key to HPC_DRST starts DRST. -/
  | hpcDrstWrite (port : Nat) (value : Nat)
  /-- REGISTER_WRITE (R357): A write to a register with no row of its own takes effect under the staging, shadow, live and lock rules. -/
  | registerWrite (port : Nat) (bar : Nat) (offset : Nat) (size : Nat) (value : Nat)
  /-- TIM_PICK_LO_READ (R358): A read of TIM_PICK_LO latches pick-count bits 63:32 into that port's TIM_PICK_HI. -/
  | timPickLoRead (port : Nat) (size : Nat)
  /-- IDX_DATA_READ (R363): A read of IDX_DATA_LO performs an indirect read at INDEX and advances the index. -/
  | idxDataRead (port : Nat) (window : Nat)
  /-- IDX_DATA_WRITE (R363): A write of IDX_DATA_LO performs an indirect write at INDEX and advances the index. -/
  | idxDataWrite (port : Nat) (window : Nat) (value : Nat)
  /-- IDX_ACCESS_TIMEOUT (R364): An indirect access is abandoned after 100 µs, and TMO is set. -/
  | idxAccessTimeout (window : Nat) (write : Option Nat)
  /-- SEC_LOCK_WRITE (R370): Writing 1 to a SEC_LOCK bit sets that lock until POR or DRST. -/
  | secLockWrite (port : Nat) (value : Nat)
  /-- TRIPLE_VOTE_SWEEP (R372): Every 10 ms each triplicated field is voted, and differing copies are rewritten. -/
  | tripleVoteSweep
  /-- MM_STAGE_APPLY (R122): Applies the staged creel descriptors and resets their pointers, or rejects the whole group. -/
  | mmStageApply (window : Nat) (site : Nat) (value : Nat)
  /-- XS_STAGE_APPLY (R492): Applies the staged ring descriptors and resets their pointers, or rejects the whole group. -/
  | xsStageApply (window : Nat) (site : Nat) (value : Nat)
  /-- PWR_STAGE_APPLY (R386): Commits the staged PMIN and PMAX into the shadow, or rejects them. -/
  | pwrStageApply (port : Nat) (value : Nat)
  /-- SHADOW_APPLY (R376): At the apply point, pending shadows of the PWR, THM and PMON blocks take effect. -/
  | shadowApply
  /-- CAL_USER_WRITE (R378): A calibration adjustment is written, and the effective value applies at the next pick. -/
  | calUserWrite (port : Nat) (i : Nat) (value : Nat)
  /-- MM_INJ_WRITE (R141): Arms a one-shot symbol corruption of a named cell while debug is enabled. -/
  | mmInjWrite (window : Nat) (site : Nat) (value : Nat)
  /-- MM_RDATA_READ (R150): A read of MM_RDATA_0 reads the named row, corrected, into the sixteen words. -/
  | mmRdataRead (window : Nat) (site : Nat)
  /-- MM_RDATA_WRITE (R150): A write of MM_RDATA_15 writes the sixteen words to the row as a clean grain. -/
  | mmRdataWrite (window : Nat) (site : Nat) (value : Nat)
  /-- MM_PWR_REQUEST (R147): A sub-bank power request stops grants, sends RECALL and sets WAIT. -/
  | mmPwrRequest (window : Option Nat) (site : Nat) (value : Nat)
  /-- MM_PWR_FORCE (R147): FORCE forces the pending sub-bank power change at once. -/
  | mmPwrForce (window : Nat) (site : Nat) (value : Nat)
  /-- SUBBANK_STATE_CHANGE (R147): A sub-bank changes power state at the first pick after all its credits are back. -/
  | subbankStateChange (site : Nat) (sub : Nat)
  /-- SUBBANK_FORCE_TIMEOUT (R147): A sub-bank power change is forced 200 picks after the request. -/
  | subbankForceTimeout (site : Nat) (sub : Nat)
  /-- SUBBANK_RETURN_ON (R148): A sub-bank reaches ON, writes late grains sour and grants fresh credits. -/
  | subbankReturnOn (site : Nat) (sub : Nat)
  /-- SHT_CTL_WRITE (R299): A write of SHT_CTL holds the port down or disables rotation, refused while the area has a job. -/
  | shtCtlWrite (window : Nat) (p : Nat) (value : Nat)
  /-- FAB_ROUTE_WRITE (R310): A write pins, blocks or releases a routing entry. -/
  | fabRouteWrite (window : Nat) (d : Nat) (value : Nat)
  /-- STEP_START (R31): At S_k each unit saves its step state, and exact-mode counts are reset. -/
  | stepStart (area : Nat)
  /-- STEP_END_PICK (R31): At E_k, JOIN selects the barrier page, and the end-of-step checks and records run. -/
  | stepEndPick (area : Nat)
  /-- EXACT_DIGEST (R214): Each SU folds its heddle's exact-mode counts into a digest and compares it with the expectation. -/
  | exactDigest (su : Nat)
  /-- STEP_COMMIT (R34): At C_k the step commits if R34 holds, making its results visible, or fails. -/
  | stepCommit (area : Nat)
  /-- REMAP (R438): Named units are tested, fenced, adjusted or watched, and the area returns to service. -/
  | remap (area : Nat) (o : RemapOutcome)
  /-- REMAP_TIMEOUT (R438): The area returns to service 90 s after the remap decision. -/
  | remapTimeout (area : Nat)
  /-- JOB_RESUME (R439): A single-device job resumes at the first pick at least 1,000 picks after the return to service. -/
  | jobResume (area : Nat)
  /-- HALT_REACH (R108): The halt of an area reaches a site, which stops issuing at the next pick boundary. -/
  | haltReach (site : Nat)
  /-- WEAVE_ENTRY_EXEC (R83): Each ACLK an output port executes its current weave entry: forward, reduce or idle. -/
  | weaveEntryExec (site : Nat) (out : Nat)
  /-- FLIT_ARRIVAL (R78): A flit arrives at a switch input, is checked segment by segment, and is pushed to the join slack FIFO. -/
  | flitArrival (site : Nat) (inp : Nat) (u : LinkUpset)
  /-- CONTROL_TOKEN_ARRIVAL (R97): A control token arrives in a token latch and is matched to an entry in its window. -/
  | controlTokenArrival (su : Nat) (flip : BitVec 24)
  /-- TOKEN_WINDOW_EXPIRY (R98): A TOK entry or a token is still unmatched at the end of its ±2 ACLK window. -/
  | tokenWindowExpiry (site : Nat) (out : Nat)
  /-- FELL_BANK_SWITCH (R97): At t_e + 2 a port whose entry met a FELL token changes to the named bank. -/
  | fellBankSwitch (site : Nat) (out : Nat)
  /-- PAGE_TAKE_EFFECT (R88): A treadle page selected by the SU takes effect at ACLK 0 of its pick. -/
  | pageTakeEffect (su : Nat)
  /-- CREDIT_RETURN (R102): An elastic credit returns to its sender. -/
  | creditReturn (att : Nat) (loop : Nat)
  /-- WRP_CREDIT_HANG (R105): A credit is not returned within 10,000 picks. -/
  | wrpCreditHang (att : Nat) (loop : Nat)
  /-- TOKEN_TABLE_EMIT (R177): The SU sends a DLV token at t_e − 2 for each port-L TOK entry, from its token table. -/
  | tokenTableEmit (su : Nat) (pos : Nat)
  /-- MM_DELIVERY (R114): A flit delivered to an MM local port under a DLV tag is pushed into creels or handled as a DMA or accumulator delivery. -/
  | mmDelivery (site : Nat)
  /-- PULL_ENTRY_EXEC (R117): Each ACLK the pull plan executes an entry: a pull, a DMA return or idle. -/
  | pullEntryExec (site : Nat)
  /-- ECC_WRITE_BACK (R137): A corrected row is written back in a free ACLK. -/
  | eccWriteBack (site : Nat)
  /-- DMA_OP_ARRIVAL (R131): A DMA delivery flit arrives at an MM site and its operation is queued. -/
  | dmaOpArrival (site : Nat)
  /-- DMA_QUEUE_SERVICE (R133): The DMA operation at the head of a sub-bank queue performs its push, read or drain. -/
  | dmaQueueService (site : Nat) (sub : Nat)
  /-- EDGE_DMA_SLOT (R129): The edge DMA engine fills a DMA delivery slot with an operation or a blank. -/
  | edgeDmaSlot (att : Nat) (site : Nat)
  /-- FILL_SLOT (R196): An attachment's fill engine places a load flit or a blank in a fill slot. -/
  | fillSlot (att : Nat) (heddle : Nat)
  /-- MM_SCRUB (R140): Each sub-bank scrubs one row every 64 picks. -/
  | mmScrub (site : Nat) (sub : Nat)
  /-- RING_DELIVERY (R158): A flit delivered to an MX or SF site is written into its delivery ring. -/
  | ringDelivery (site : Nat)
  /-- SITE_START (R155): A start from the SU begins an MX or SF program at its start address. -/
  | siteStart (site : Nat)
  /-- MX_NOP (R164): MX NOP. -/
  | mxNop (site : Nat) (w : W64)
  /-- MX_END (R155): The MX site idles until its next start. -/
  | mxEnd (site : Nat) (w : W64)
  /-- MX_WAIT (R164): Delays the next MX instruction by N ACLK. -/
  | mxWait (site : Nat) (w : W64)
  /-- MX_WPK (R164): The next MX instruction issues at a given pick and ACLK. -/
  | mxWpk (site : Nat) (w : W64)
  /-- MX_LOOP (R164): Repeats a block of MX words without overhead. -/
  | mxLoop (site : Nat) (w : W64)
  /-- SETM (R163): Loads the MX mode word. -/
  | setm (site : Nat) (w : W64)
  /-- SETA (R164): Sets an MX address register. -/
  | seta (site : Nat) (w : W64)
  /-- ADDA (R164): Adds a value to an MX address register. -/
  | adda (site : Nat) (w : W64)
  /-- SETF (R164): Sets the FP32 output multiplier. -/
  | setf (site : Nat) (w : W64)
  /-- REL (R159): Advances a ring's release pointer. -/
  | rel (site : Nat) (w : W64)
  /-- LDS (R165): Loads stationary rows into the lane stores, clearing check-valid bits. -/
  | lds (site : Nat) (w : W64)
  /-- LDSS (R165): Loads rows into the scale store. -/
  | ldss (site : Nat) (w : W64)
  /-- LDC (R165): Loads check weights into the check store. -/
  | ldc (site : Nat) (w : W64)
  /-- GENC (R70): Generates check weights for stationary blocks. -/
  | genc (site : Nat) (w : W64)
  /-- MAC (R166): Runs streaming vectors against stationary blocks in the multiply array. -/
  | mac (site : Nat) (w : W64)
  /-- MAC_BLOCK_ENTRY (R166): A block result enters its accumulator at u + 6 after its row check. -/
  | macBlockEntry (site : Nat) (upset : List Int)
  /-- OUT (R167): Converts accumulators and emits them as flits or SRAM rows. -/
  | out (site : Nat) (w : W64)
  /-- OUTS (R164): Sends the scale staging row and clears it. -/
  | outs (site : Nat) (w : W64)
  /-- ACC (R491): Clears accumulator entries or loads them as FP32 from SRAM. -/
  | acc (site : Nat) (w : W64)
  /-- SPMAC (R229): Multiplies sparse records from a ring by lane-store elements and emits update flits. -/
  | spmac (site : Nat) (w : W64)
  /-- LDK (R237): Loads the 256-bit skip mask. -/
  | ldk (site : Nat) (w : W64)
  /-- SETAU (R237): Loads the audit threshold. -/
  | setau (site : Nat) (w : W64)
  /-- SF_NOP (R170): SF NOP. -/
  | sfNop (site : Nat) (w : W64)
  /-- SF_END (R155): The SF site idles until its next start. -/
  | sfEnd (site : Nat) (w : W64)
  /-- SF_WAIT (R170): Delays the next SF instruction. -/
  | sfWait (site : Nat) (w : W64)
  /-- SF_WPK (R170): The next SF instruction issues at a given pick and ACLK. -/
  | sfWpk (site : Nat) (w : W64)
  /-- SF_LOOP (R170): An SF loop. -/
  | sfLoop (site : Nat) (w : W64)
  /-- SF_BR (R170): An SF unconditional branch. -/
  | sfBr (site : Nat) (w : W64)
  /-- BZ (R170): Branches if a scalar is zero. -/
  | bz (site : Nat) (w : W64)
  /-- BNZ (R170): Branches if a scalar is non-zero. -/
  | bnz (site : Nat) (w : W64)
  /-- SLI (R170): Loads a scalar immediate. -/
  | sli (site : Nat) (w : W64)
  /-- SADD (R170): A scalar add. -/
  | sadd (site : Nat) (w : W64)
  /-- SMOVV (R170): Moves a vector lane to a scalar. -/
  | smovv (site : Nat) (w : W64)
  /-- GETPK (R170): Reads the pick offset from S_k. -/
  | getpk (site : Nat) (w : W64)
  /-- FADD (R71): FP32 vector add. -/
  | fadd (site : Nat) (w : W64)
  /-- FSUB (R71): FP32 vector subtract. -/
  | fsub (site : Nat) (w : W64)
  /-- FMUL (R71): FP32 vector multiply. -/
  | fmul (site : Nat) (w : W64)
  /-- FFMA (R71): FP32 fused multiply-add. -/
  | ffma (site : Nat) (w : W64)
  /-- FMIN (R71): FP32 minimum. -/
  | fmin (site : Nat) (w : W64)
  /-- FMAX (R71): FP32 maximum. -/
  | fmax (site : Nat) (w : W64)
  /-- FCMP (R170): FP32 compare into a predicate. -/
  | fcmp (site : Nat) (w : W64)
  /-- IADD (R170): 32-bit integer add. -/
  | iadd (site : Nat) (w : W64)
  /-- ISUB (R170): 32-bit integer subtract. -/
  | isub (site : Nat) (w : W64)
  /-- IMUL (R170): Integer multiply, low half. -/
  | imul (site : Nat) (w : W64)
  /-- IMULH (R170): Integer multiply, unsigned high half. -/
  | imulh (site : Nat) (w : W64)
  /-- IAND (R170): Bitwise AND. -/
  | iand (site : Nat) (w : W64)
  /-- IOR (R170): Bitwise OR. -/
  | ior (site : Nat) (w : W64)
  /-- IXOR (R170): Bitwise XOR. -/
  | ixor (site : Nat) (w : W64)
  /-- ISHL (R170): Shift left. -/
  | ishl (site : Nat) (w : W64)
  /-- ISHR (R170): Logical shift right. -/
  | ishr (site : Nat) (w : W64)
  /-- ISRA (R170): Arithmetic shift right. -/
  | isra (site : Nat) (w : W64)
  /-- ICMP (R170): Integer compare. -/
  | icmp (site : Nat) (w : W64)
  /-- SEL (R170): Selects lanes by predicate. -/
  | sel (site : Nat) (w : W64)
  /-- CVT (R170): Converts between formats and sets the SF rounding mode. -/
  | cvt (site : Nat) (w : W64)
  /-- CVTMX (R53): Converts 32 lanes to one MX block. -/
  | cvtmx (site : Nat) (w : W64)
  /-- FEXP (R73): exp. -/
  | fexp (site : Nat) (w : W64)
  /-- FEXP2 (R73): exp2. -/
  | fexp2 (site : Nat) (w : W64)
  /-- FEXPSUB (R73): exp of an exact difference. -/
  | fexpsub (site : Nat) (w : W64)
  /-- FLOG (R73): Natural log. -/
  | flog (site : Nat) (w : W64)
  /-- FLOG2 (R73): log2. -/
  | flog2 (site : Nat) (w : W64)
  /-- FRCP (R73): Reciprocal. -/
  | frcp (site : Nat) (w : W64)
  /-- FRSQ (R73): Reciprocal square root. -/
  | frsq (site : Nat) (w : W64)
  /-- FSQRT (R73): Square root. -/
  | fsqrt (site : Nat) (w : W64)
  /-- FTANH (R73): tanh. -/
  | ftanh (site : Nat) (w : W64)
  /-- FSIG (R73): Sigmoid. -/
  | fsig (site : Nat) (w : W64)
  /-- FERF (R73): erf. -/
  | ferf (site : Nat) (w : W64)
  /-- FGELU (R73): GELU. -/
  | fgelu (site : Nat) (w : W64)
  /-- RSUM (R74): Pairwise-tree sum across lanes. -/
  | rsum (site : Nat) (w : W64)
  /-- RMAX (R170): Maximum across lanes. -/
  | rmax (site : Nat) (w : W64)
  /-- RMIN (R170): Minimum across lanes. -/
  | rmin (site : Nat) (w : W64)
  /-- RRSUM (R73): Reciprocal of the lane sum. -/
  | rrsum (site : Nat) (w : W64)
  /-- PERM (R170): Lane permute. -/
  | perm (site : Nat) (w : W64)
  /-- BCAST (R170): Lane broadcast. -/
  | bcast (site : Nat) (w : W64)
  /-- LDV (R170): Loads an SRAM row into a vector register. -/
  | ldv (site : Nat) (w : W64)
  /-- STV (R170): Stores a vector register to an SRAM row. -/
  | stv (site : Nat) (w : W64)
  /-- SEND (R170): Sends a vector into the switch local input. -/
  | send (site : Nat) (w : W64)
  /-- HASH (R173): Hashes 16 64-bit keys with a seed. -/
  | hash (site : Nat) (w : W64)
  /-- RNG (R174): Stateless counter-based random numbers. -/
  | rng (site : Nat) (w : W64)
  /-- SORTCX (R175): One bitonic compare-exchange. -/
  | sortcx (site : Nat) (w : W64)
  /-- TOPKI (R176): Initialises the top-k list as empty. -/
  | topki (site : Nat) (w : W64)
  /-- TOPK (R176): Merges new pairs into the top-k list. -/
  | topk (site : Nat) (w : W64)
  /-- SU_NOP (R178): SU NOP. -/
  | suNop (site : Nat) (w : W64)
  /-- SU_WAIT (R178): Delays the next SU instruction. -/
  | suWait (site : Nat) (w : W64)
  /-- WT (R178): The next SU instruction issues at T + DELTA. -/
  | wt (site : Nat) (w : W64)
  /-- SU_LOOP (R178): An SU loop. -/
  | suLoop (site : Nat) (w : W64)
  /-- SU_BR (R178): An SU branch. -/
  | suBr (site : Nat) (w : W64)
  /-- SETT (R178): Sets the time register T. -/
  | sett (site : Nat) (w : W64)
  /-- ADDT (R178): Advances T. -/
  | addt (site : Nat) (w : W64)
  /-- GO (R180): Queues a timed start of the masked sites at ADDR. -/
  | go (site : Nat) (w : W64)
  /-- PAGE (R180): Queues a treadle page selection. -/
  | page (site : Nat) (w : W64)
  /-- FELL (R180): Queues a FELL token, sent at e − 2. -/
  | fell (site : Nat) (w : W64)
  /-- CWAIT (R178): Adds a creel occupancy or free-space ready condition. -/
  | cwait (site : Nat) (w : W64)
  /-- QWAIT (R178): Adds a selvedge queue occupancy condition. -/
  | qwait (site : Nat) (w : W64)
  /-- JOIN (R182): Joins the start barrier of the next step. -/
  | join (site : Nat) (w : W64)
  /-- JOIN_READY (R182): At a pick boundary where all conditions and the holdoff hold, the SU becomes ready. -/
  | joinReady (su : Nat)
  /-- BARRIER_FLIT (R181): An SU receives an up or down barrier flit, combines READY and STATUS, and completes its JOIN when START is known. -/
  | barrierFlit (su : Nat)
  /-- BARRIER_FLIT_SEND (R181): Each pick an SU sends an up flit at ACLK 0 and a down flit at ACLK 4. -/
  | barrierFlitSend (su : Nat) (down : Bool)
  /-- BARRIER_WINDOW_END (R317): A cross-device SU has no START when its barrier window ends. -/
  | barrierWindowEnd (su : Nat)
  /-- SAMP (R185): Writes one sample record to the sample buffer. -/
  | samp (site : Nat) (w : W64)
  /-- DESCRIPTOR_FLIT (R224): A descriptor flit starts a sparse reader operation and/or a flush. -/
  | descriptorFlit (site : Nat)
  /-- READER_EMIT (R225): The sparse reader emits one flit of records per ACLK. -/
  | readerEmit (site : Nat)
  /-- UPDATE_FLIT (R232): An update flit's groups are coalesced and added into accumulator buffer banks. -/
  | updateFlit (site : Nat)
  /-- ACC_QUEUE_SERVE (R233): A waiting group in a conflict queue is applied to its entry. -/
  | accQueueServe (site : Nat) (bank : Nat)
  /-- FLUSH_EMIT (R234): A flush flit reads accumulator entries and clears them. -/
  | flushEmit (site : Nat)
  /-- SKIP_ALARM_EVAL (R241): Every 1 ms Prijan compares skip audit misses with LIMIT for each area. -/
  | skipAlarmEval
  /-- HBM_REQUEST (R253): A scheduled stack request header enters the inbound queue and is checked and queued. -/
  | hbmRequest (stack : Nat)
  /-- HBM_GRAIN_ACCESS (R256): A channel performs a grain access in arrival order, with skim mirroring where it applies. -/
  | hbmGrainAccess (stack : Nat) (ch : Nat)
  /-- HBM_WRITE_BACK (R263): A corrected grain is written back in free beats. -/
  | hbmWriteBack (stack : Nat) (ch : Nat)
  /-- HBM_RETURN_RELEASE (R255): A return flit is released on its edge link at its release ACLK. -/
  | hbmReturnRelease (stack : Nat)
  /-- HBM_FRAME_START (R249): Each 31-pick frame sets the rest picks and rotates the out channel. -/
  | hbmFrameStart (stack : Nat)
  /-- GATHER_WINDOW_START (R259): At each 31-pick window of a step, the series row counters are reset. -/
  | gatherWindowStart (stack : Nat)
  /-- HBM_SCRUB (R250): The out channel scrubs 180 grains in its out frame. -/
  | hbmScrub (stack : Nat)
  /-- HBM_TRAIN_STEP (R267): The out channel takes one periodic training step. -/
  | hbmTrainStep (stack : Nat) (margin : Nat) (temp : Nat) (converged : Bool)
  /-- HBM_CA_PAR (R264): The stack reports a command parity error and the command is issued again. -/
  | hbmCaPar (stack : Nat) (ch : Nat)
  /-- HBM_ODECC (R265): The stack reports an on-die ECC correction. -/
  | hbmOdecc (stack : Nat) (ch : Nat)
  /-- ELASTIC_STACK_ACCESS (R261): An elastic stack access is performed in unclaimed beats, merging partial writes. -/
  | elasticStackAccess (dpa : Nat) (len : Nat) (data : Option (List Byte))
  /-- PICK_FRAME_SEND (R276): Each pick a port sends its pick frame, starting at ACLK 0. -/
  | pickFrameSend (p : Nat)
  /-- SLOT_TAKE (R284): At ACLK 0 of p − 1 the framer takes flits for send or hold slots, or releases a held slot. -/
  | slotTake (p : Nat)
  /-- CODEWORD_DECODE (R275): The receiver decodes a lane codeword. -/
  | codewordDecode (p : Nat) (o : CodewordOutcome)
  /-- LANE_FAIL (R293): A lane is declared failed, and its role moves to the spare. -/
  | laneFail (p : Nat) (lane : Nat)
  /-- PICK_HEADER_RECEIVE (R278): A decoded pick header updates credits, time status and lane control. -/
  | pickHeaderReceive (p : Nat) (f : RxFrame)
  /-- SLOT_PUSH (R285): Received RX slot flits are pushed to the outbound partition at p + RELEASE − 1. -/
  | slotPush (p : Nat)
  /-- ELASTIC_FRAME_RECEIVE (R280): A whole elastic frame is received, checked and dispatched. -/
  | elasticFrameReceive (p : Nat) (frame : List Byte) (bad : Bool)
  /-- ELASTIC_FRAME_SEND (R281): A sender starts a queued elastic frame once its credits allow. -/
  | elasticFrameSend (p : Nat)
  /-- LINK_FRAME_SEND (R291): Every 1,024 picks a port sends a LINK frame with its delay measurement. -/
  | linkFrameSend (p : Nat)
  /-- LINK_FRAME (R291): A LINK frame is received, and the delay, offset and LAT are updated. -/
  | linkFrame (p : Nat) (ownDelta : Int) (payload : List Byte)
  /-- SIGNAL_DETECT (R290): Signal appears on a port, and training begins. -/
  | signalDetect (p : Nat)
  /-- PORT_TRAINED (R290): Deskew completes and the port enters state 2. -/
  | portTrained (p : Nat) (o : TrainOutcome)
  /-- TRAINING_TIMEOUT (R290): State 2 is not reached within 250 ms, and the port returns to state 0. -/
  | trainingTimeout (p : Nat)
  /-- LOSS_OF_SIGNAL (R290): A port loses signal or usable lanes and enters state 0. -/
  | lossOfSignal (p : Nat)
  /-- ROTATION_POINT (R292): At a rotation point the spare mirrors and then takes over a logical lane. -/
  | rotationPoint (p : Nat)
  /-- PICK_STEER (R294): Each pick a slave chooses its upstream and steers its pick boundary toward θ = 0. -/
  | pickSteer
  /-- UPSTREAM_LOSS (R296): The upstream leaves service, and a new upstream or holdover follows. -/
  | upstreamLoss
  /-- HOLDOVER_EXPIRY (R296): Holdover exceeds TIM_CTL.HOLD; LOCKED clears and ports leave state 3. -/
  | holdoverExpiry
  /-- BETTER_OFFER (R296): A better time offer is adopted, or its port enters state 4. -/
  | betterOffer (p : Nat)
  /-- MASTER_PROPOSAL (R295): After 100 µs without upstream, or 1 s locked with higher priority, the device proposes itself as master. -/
  | masterProposal
  /-- EPOCH_IN_EDGE (R297): An accepted EPOCH_IN edge loads TIM_EPOCH into the pick count. -/
  | epochInEdge (width : Nat)
  /-- EPOCH_OUT_PULSE (R298): EPOCH_OUT pulses at each pick boundary that is a multiple of PERIOD. -/
  | epochOutPulse
  /-- REFCLK_LOSS (R379): REFCLK is outside its limits or absent for 1 µs and is treated as lost. -/
  | refclkLoss
  /-- HELLO_SEND (R304): Every 100 µs a port sends a HELLO frame. -/
  | helloSend (p : Nat)
  /-- HELLO_RECEIVE (R305): A HELLO is received, latched in FAB_PEER_p, and hello completion is judged. -/
  | helloReceive (p : Nat) (payload : List Byte)
  /-- HELLO_TIMEOUT (R305): No qualifying HELLO for 300 µs; the port leaves state 3. -/
  | helloTimeout (p : Nat)
  /-- ROUTE_SEND (R306): Every 250 µs Prijan sends a ROUTE fragment on each hello-complete port. -/
  | routeSend (p : Nat)
  /-- ROUTE_RECEIVE (R307): A ROUTE fragment updates the unpinned routing entries. -/
  | routeReceive (p : Nat) (payload : List Byte)
  /-- ROUTED_FRAME (R309): A routed frame is delivered locally or forwarded with TTL reduced. -/
  | routedFrame (frame : List Byte)
  /-- RMA_REQUEST (R312): A target serves an RMA_RD or RMA_WR and answers with RMA_RSP. -/
  | rmaRequest (frame : List Byte)
  /-- RMA_RESPONSE (R313): The requester receives an RMA_RSP for an outstanding request. -/
  | rmaResponse (frame : List Byte)
  /-- RMA_TIMEOUT (R313): A request is unanswered after 100 ms and counts as TIMEOUT. -/
  | rmaTimeout (tag : Nat)
  /-- TALLY_BUILD (R321): At the build pick a port queues a TALLY frame for its contribution. -/
  | tallyBuild (p : Nat)
  /-- TALLY_RECEIVE (R322): A received tally is verified, and the verdict enters the home SU status. -/
  | tallyReceive (p : Nat) (payload : List Byte)
  /-- FB_PAGE_SEND (R327): The fallback engine reads a committed page and sends it in FBPAGE frames within LIMIT. -/
  | fbPageSend (exch : Nat) (peer : Nat)
  /-- FB_PAGE_RECEIVE (R329): The landing engine accepts the next FBPAGE fragment and pushes its rows. -/
  | fbPageReceive (frame : List Byte)
  /-- FBGRANT_SEND (R328): The landing engine sends FBGRANT every 100 µs and on change. -/
  | fbgrantSend (exch : Nat) (peer : Nat)
  /-- FBGRANT_RECEIVE (R327): The source engine updates NEXT and LIMIT and drains passed pages. -/
  | fbgrantReceive (frame : List Byte)
  /-- FB_RESEND_TIMEOUT (R327): NEXT has not advanced for 1 ms, and the engine resends from NEXT. -/
  | fbResendTimeout (exch : Nat) (peer : Nat)
  /-- REGULATOR_SAMPLE (R383): Each 1 µs regulators and feeds report power; estimates, energy and clamp conditions update. -/
  | regulatorSample (r : PowerSample)
  /-- CLAMP_END (R397): The clamp ends at a 1 ms boundary once power is below the cap, with holdoff at least 256. -/
  | clampEnd
  /-- SENSE_COMPARE (R384): Every 1 ms the input power is compared with the sum of the rails. -/
  | senseCompare (shared : Nat)
  /-- BUDGET_ADJUST (R391): Every 100 µs the controller adjusts region stall budgets against the cap. -/
  | budgetAdjust
  /-- HOLDOFF_UPDATE (R392): At each 1 ms boundary the holdoff of each area is doubled, halved or kept. -/
  | holdoffUpdate
  /-- ENERGY_SHARE (R402): Each ms shared-rail energy is divided among areas by traffic. -/
  | energyShare (r : SharedEnergy)
  /-- DROOP_ALARM (R393): A regulator droop stops the arrays of its region within 20 ns. -/
  | droopAlarm (region : Nat)
  /-- DROOP_CLEAR (R393): Consumption resumes 8 ACLK after the droop alarm clears. -/
  | droopClear (region : Nat)
  /-- FEED_LOSS (R379): A feed leaves its limits, becomes absent, and the effective cap is recomputed. -/
  | feedLoss (feed : Nat)
  /-- FEED_RETURN (R397): A feed becomes present again. -/
  | feedReturn (feed : Nat)
  /-- ONE_FEED_LIMIT_LIFT (R397): The one-feed limit is lifted 1 s after the feed returns. -/
  | oneFeedLimitLift
  /-- GROUP_REPORT_SEND (R399): Each ms a group member sends its REPORT on the SMBus. -/
  | groupReportSend
  /-- GROUP_REPORT_RECEIVE (R400): A REPORT block write to the group address is taken by the members. -/
  | groupReportReceive (block : List Byte) (pecOk : Bool)
  /-- GROUP_ASSIGN_SEND (R400): The coordinator sends at most one budget move per millisecond. -/
  | groupAssignSend
  /-- GROUP_ASSIGN_RECEIVE (R400): A member applies an ASSIGN at the next pick boundary. -/
  | groupAssignReceive (block : List Byte) (pecOk : Bool)
  /-- GROUP_ASSIGN_TIMEOUT (R401): No ASSIGN for 50 ms; the member falls to FLOOR. -/
  | groupAssignTimeout
  /-- COORDINATOR_TAKEOVER (R401): After 10 ms coordinator absence the next member by index takes over. -/
  | coordinatorTakeover
  /-- DIODE_READ (R403): Every 10 µs each SU reads its diode and the region temperature updates. -/
  | diodeRead (heddle : Nat) (reading : Int)
  /-- THROTTLE_HOLDOFF (R404): After 10 ms at THROT the area takes the holdoff rule. -/
  | throttleHoldoff (region : Nat)
  /-- REGION_RETURN (R406): A tripped region cooled below 85 °C for 10 s is retested and returned. -/
  | regionReturn (region : Nat) (o : RetestOutcome)
  /-- COOLANT_SAMPLE (R407): Every 10 ms the coolant sensors are sampled and the coolant limit is updated. -/
  | coolantSample (c : CoolantSample)
  /-- SHORT_DETECT (R449): A regulator detects a short, disconnects and isolates the region. -/
  | shortDetect (region : Nat)
  /-- WATCH_TEST (R445): Every 10 min, or 24 h when unlisted, a unit is self-tested when its area allows. -/
  | watchTest (u : WatchUnit) (pass : Bool)
  /-- WATCH_CLEAR (R446): An entry is removed after 7 days without trigger. -/
  | watchClear (u : WatchUnit)
  /-- RISK_EVAL (R452): Every second the risk score, level and skim interval are computed for each area. -/
  | riskEval
  /-- SKIM_SEND (R456): After the skim step commits, the hub sends stages to the partner's buffer and then the seal. -/
  | skimSend (area : Nat)
  /-- SKIM_WRITE_ANSWER (R456): A skim RMA write is answered, and the last answer seals the skim. -/
  | skimWriteAnswer (area : Nat) (status : Nat)
  /-- SKIM_STALL (R458): No skim write answered for 10 s; the skim fails. -/
  | skimStall (area : Nat)
  /-- SMB_READ_STATUS (R486): SMBus command 0x01 returns power, cap, temperature and status, and clears SMB_ALERT_N. -/
  | smbReadStatus
  /-- SMB_READ_IDENTITY (R486): SMBus command 0x02 returns serial, member, feed id and RACKPOS. -/
  | smbReadIdentity
  /-- SMBUS_TIMEOUT (R379): The SMBus clock is low for 25 ms, and the transaction is discarded. -/
  | smbusTimeout
  /-- SAMPLE_DRAIN (R185): Prijan drains SU sample records over the management ring and copies those of selected heddles into PMON windows. -/
  | sampleDrain (su : Nat)
  /-- DMA_RETURN_ARRIVAL (R147): A DMA-return flit reaches the edge DMA engine, which takes read data, GRANT credits and RECALL and stops pushes for recalled sub-banks. -/
  | dmaReturnArrival (site : Nat) (flit : Flit)
  /-- TRIPLICATED_READ (R372): A read of a triplicated field returns the majority and votes, rewriting differing copies and counting FIX or SPLIT. -/
  | triplicatedRead (f : TriField)
  /-- HOST_LINK_UP (R352): A host port's PCIe link reaches L0 after its reset, setting OTHERUP and restarting the 1 s window that AREA_TAKE tests. -/
  | hostLinkUp (port : Nat)
deriving DecidableEq, Repr

end Sys2Proof
end

