-- ==== Sys2Proof/Config.lean ====
section
/-! DEFINITION. What a module fixes and the manual does not (R493), and the free values: opaque constants that no proof can evaluate. -/
namespace Sys2Proof.Config

/-- DESIGN CHOICE (log 11): the n-th free value, where the manual leaves a value open and the machine goes on. -/
opaque freeValue : Nat → Nat

/-- DESIGN CHOICE (log 23): byte `a` of a row that the MAC or SPMAC issued at ACLK `t` did not get, its access having clashed (R160). -/
opaque unreadByte (t a : Nat) : BitVec 8

/-- DESIGN CHOICE (log 26): the block result of a lane on the special path none of whose products is infinite or NaN (R50), by its
scale codes and the result of R61. -/
opaque specialBlock (ea ei : Nat) (r : BitVec 32) : BitVec 32

/-- DESIGN CHOICE (log 70): the 64 bytes that a read yields which is not performed or meets a failed channel, at ACLK or grain `at_` of a unit. -/
opaque lostGrain (unit at_ : Nat) : BitVec 512

/-- UNVERIFIED (log 12): the site's approximation of the function numbered `f` of R73 at operands `x`, `y`
away from its special cases; R73 bounds its error only, R74 makes it a function of the operands. -/
opaque elementary (f : Nat) (x y : BitVec 32) : BitVec 32

/-- DESIGN CHOICE (log 15): does the HSS signature `sig` of `msg` verify under the public key `key` with the
parameter sets permitted (`owner` = true: those of R470, else those of R462)? RFC 8554 fixes it. -/
opaque hssVerify (owner : Bool) (key msg sig : List (BitVec 8)) : Bool

/-- DESIGN CHOICE (log 15): the device's own signature of `msg` with top index `t` and bottom index `q` (R470, R471). -/
opaque hssSign (t q : Nat) (msg : List (BitVec 8)) : List (BitVec 8)

/-- DESIGN CHOICE (log 15): the module's identity certificate of R468 (made at the factory). -/
opaque certificate : List (BitVec 8)

/-- DESIGN CHOICE (log 15): the boot ROM version an attestation report names (R469). -/
opaque romVersion : Nat

/-- A slot series on an edge link (R129, R196, R21): from ACLK `first` of a step, one slot each `period` ACLK, `count` of them (log 16). -/
structure Slots where
  link : Nat
  first : Nat
  period : Nat
  count : Nat
deriving DecidableEq, Repr, Inhabited

/-- A DMA lane of an attachment (R129): its MM site, its delivery slots and its DMA-return slots. -/
structure Lane where
  site : Nat
  send : Slots
  back : Slots
deriving DecidableEq, Repr, Inhabited

/-- What an EDGE record declares (R189): partition sizes (R100), DMA lanes (R129), fill slots by heddle (R196), and at the hub the
slots of the edge links at y = 0-3 that the draft assigns to it (R21). -/
structure Edge where
  sIn : Nat
  sOut : Nat
  lanes : List Lane
  fill : List (Nat × Slots)
  hub : List Slots
deriving DecidableEq, Repr, Inhabited

/-- DESIGN CHOICE (log 16): the byte layout of an EDGE payload, which the manual does not give. -/
opaque edgeOf : List (BitVec 8) → Option Edge

/-- One preload extent of an INIT record (R189): the store (0 SRAM, 1 lane store, 2 scale store, 3 check store),
the first row, and the bytes of its rows. -/
structure Extent where
  store : Nat
  sub : Nat
  row : Nat
  data : List (BitVec 8)
deriving DecidableEq, Repr, Inhabited

/-- DESIGN CHOICE (log 16): the byte layout of an INIT payload: the seed of R55, then the extents. -/
opaque initOf : List (BitVec 8) → Option (BitVec 32 × List Extent)

/-- DESIGN CHOICE (log 16): the CLASSES section of a static report (R211): opening JOIN address, LEN, D, barrier page per class. -/
opaque classesOf : List (BitVec 8) → List (Nat × Nat × Nat × Nat)

/-- DESIGN CHOICE (log 16): the counts of EXPECT for a heddle in a step class, in the order of R214. -/
opaque expectOf : List (BitVec 8) → Nat → Nat → List Nat

end Sys2Proof.Config
end

