-- ==== Sys2Proof/Machine/State.lean ====
section
/-! DEFINITION. The state of one Xeile XW8 module: every register, store, queue, counter and mode the spec names, as plain data.
Sparse stores are `Tab`s: an unlisted key reads as the value its reader names (0 unless said otherwise, log 2). -/
namespace Sys2Proof.Machine

/-- Why the machine stops with a fault. -/
inductive Fault where
  /-- Raised by a command that names a site, stack, port, region, area or other unit beyond the grid (R13, R14): no such unit exists. Safe. -/
  | absentUnit
deriving DecidableEq, Repr

/-- Why a command is refused by the model. -/
inductive Refusal where
  /-- Raised by exec for a command that has no meaning yet. Safe. -/
  | notModelled (mnemonic : String)
  /-- Raised by a site's instruction or event that names a site of another type (R15): the spec gives it no effect there. Safe. -/
  | wrongUnit
deriving DecidableEq, Repr

/-- The three copies of a triplicated field (R372). -/
structure Tri where
  a : Nat
  b : Nat
  c : Nat
deriving DecidableEq, Repr, Inhabited

/-! ## Warp -/

/-- A flit in flight to a switch input: the ACLK of its arrival (R83, R90). -/
structure Fly where
  due : Nat
  inp : Nat
  flit : Flit
deriving DecidableEq, Repr

/-- A flit that left output port L toward the site: its ACLK of delivery, the ACLK of its entry, whether the entry
met or awaits a DLV token, and the token's ARG once met (R97, R113). -/
structure Deliv where
  due : Nat
  te : Nat
  tok : Bool
  tag : Option Nat
  flit : Flit
deriving DecidableEq, Repr

/-- A join slack FIFO (R94) and whether an entry of this ACLK pops its head (R84). -/
structure Inp where
  q : List Flit
  pop : Bool
deriving DecidableEq, Repr, Inhabited

/-- A token in a token latch and its ACLK of arrival (R96, R97). -/
structure Tok where
  word : BitVec 24
  arr : Nat
deriving DecidableEq, Repr

/-- A TOK entry that waits for the tokens it must meet (R97). -/
structure TokWait where
  te : Nat
  needFell : Bool
  needDlv : Bool
deriving DecidableEq, Repr

/-- One output port of a switch: active bank, selected page, the ACLK the page took effect, the ACLK in which a reduce
result leaves, its token latch, waiting entries, a matched FELL (the ACLK from which it executes from the named bank),
and whether the fell mark of this step has passed (R88, R97, R201). -/
structure OutPort where
  bank : Nat
  page : Nat
  since : Nat
  redAt : Option Nat
  latch : List Tok
  waits : List TokWait
  fell : Option (Nat × Nat)
  fellDone : Bool
deriving DecidableEq, Repr, Inhabited

/-- A switch and what the heddle's SU keeps for its site (R82, R87, R94, R177, R195, R213). Weave entry e of bank b of
port p is at key (5b + p) * 1024 + e, page descriptor n at (5b + p) * 64 + n, token e of bank b at 1024b + e. -/
structure Switch where
  weave : Tab (BitVec 16)
  pages : Tab W32
  tokens : Tab (BitVec 12)
  inp : Tab Inp
  outp : Tab OutPort
  fly : List Fly
  deliv : List Deliv
  route : Option (Nat × Nat)
  hiwater : Tab Nat
  exc : Tab W32
  stopped : Bool
  savedBank : List (Nat × List Nat)
deriving DecidableEq, Repr, Inhabited

/-! ## MM site -/

/-- The code state of a 128-bit word (R137): good, sour, one symbol in error, or uncorrectable. -/
inductive CellCode where
  | good | sour | ce | ue
deriving DecidableEq, Repr, Inhabited

/-- A creel: staged and in-force descriptors (CRL_DESC_n), its pointers (bit 15 is the wrap bit), the pairs saved with
their descriptors at each uncommitted S_k, the TAIL recorded at each E_k, the transfers freed in each uncommitted step
(R121-R127), and the TAIL recorded when its sub-bank left ON (R148). -/
structure Creel where
  staged : W64
  desc : W64
  head : Nat
  tail : Nat
  ctail : Nat
  saved : List (Nat × W64 × Nat × Nat)
  eTail : List (Nat × Nat)
  freed : List (Nat × Nat)
  offTail : Option Nat
deriving DecidableEq, Repr, Inhabited

/-- The first half of a read whose four cells lie in two rows (R130): the pointer of its first cell, how many of the four are visible, the
cells read and their sour marks. -/
structure HalfRead where
  ptr : Nat
  vis : Nat
  cells : List Byte
  sour : Nat
deriving DecidableEq, Repr

/-- A DMA operation in a sub-bank's queue (R130, R133): OP (1 push, 2 read, 3 drain), creel, ARG, TAG, data and sour marks, the ACLK of its
arrival, and what the first of a read's two accesses gave. -/
structure DmaOp where
  op : Nat
  creel : Nat
  arg : Nat
  tag : Nat
  data : BitVec 512
  sour : Nat
  arr : Nat
  half : Option HalfRead
deriving DecidableEq, Repr

/-- An entry of the return queue (R135): OP, creel, STATUS, TAG, data and sour marks of segments 0-3. -/
structure DmaRet where
  op : Nat
  creel : Nat
  status : Nat
  tag : Nat
  data : BitVec 512
  sour : Nat
deriving DecidableEq, Repr

/-- An operation waiting at the edge for a DMA lane (R129): the operation, and the bulk command it belongs to. -/
structure EdgeOp where
  op : DmaOp
  job : Option Nat
deriving DecidableEq, Repr

/-- What a scheduled access of a sub-bank found, should a clash undo it (R119, R124): a push or a read, its creel (16: none) as it stood, its
row, the row's bytes and cells. -/
structure Access where
  push : Bool
  creel : Nat
  old : Creel
  row : Nat
  bytes : List Byte
  codes : List CellCode
deriving DecidableEq, Repr

/-- A sub-bank: power state (0 ON, 1 RETAIN, 2 OFF), pending request and its time, the start of a return to ON, whether its contents are lost, the
row the scrub reads next and the 64-pick window (from 1) of its last, rows waiting for write-back, the DMA queue, MM_ECC counts, the ACLK of the
last scheduled access with what the accesses of that ACLK found, the ACLK after the last access of lower priority, WAIT (R119, R133, R137, R140,
R145-R148). -/
structure SubBank where
  power : Nat
  req : Option (Nat × Nat)
  waking : Option Nat
  lost : Bool
  scrubRow : Nat
  scrubWin : Nat
  writeBack : List Nat
  dmaq : List DmaOp
  ce : Nat
  ue : Nat
  scrubUe : Nat
  lastSched : Option Nat
  undo : List Access
  lowNext : Nat
  waits : Bool
deriving DecidableEq, Repr, Inhabited

/-- A remap entry: VALID and LROW triplicated (VALID * 8192 + LROW), FACT (R142). -/
structure Remap where
  v : Tri
  fact : Bool
deriving DecidableEq, Repr, Inhabited

/-- An armed corruption of MM_INJ (R141). -/
structure Inj where
  sub : Nat
  row : Nat
  cell : Nat
  sym1 : Nat
  sym2 : Nat
  two : Bool
deriving DecidableEq, Repr

/-- An entry of the accumulator buffer (R231). -/
structure AccE where
  v : W32
  sour : Bool
deriving DecidableEq, Repr, Inhabited

/-- A coalesced group (R232, R233): entry, sum, sour, the ACLK in which its bank serves it. -/
structure Group where
  addr : Nat
  sum : W32
  sour : Bool
  at_ : Nat
deriving DecidableEq, Repr

/-- A sparse reader operation in progress: delivery ACLK, descriptor fields, next flit, segment counter, and the IDX and VAL rows
last read with their sour marks (R224-R226). -/
structure Reader where
  d : Nat
  isub : Nat
  irow : Nat
  vsub : Nat
  vrow : Nat
  nf : Nat
  vfmt : Nat
  nlog : Nat
  del : Nat
  next : Nat
  seg : Nat
  started : Bool
  idx : BitVec 512 × Bool
  val : BitVec 512 × Bool
deriving DecidableEq, Repr

/-- A flush in progress (R224, R234). -/
structure Flush where
  d : Nat
  fdel : Nat
  addr : Nat
  num : Nat
  next : Nat
deriving DecidableEq, Repr

/-- The sparse machinery of an MM site (R222-R236): `landing` the groups served whose entries change at the end of their ACLK + 3, `free` the first
ACLK in which a bank serves again, `rdAt`, `flAt` the ACLK after the last reader and flush flit, `flBase` that flush's first entry. -/
structure Sparse where
  acc : Tab AccE
  queues : Tab (List Group)
  landing : List Group
  free : Tab Nat
  rd : Option Reader
  fl : Option Flush
  rdAt : Nat
  flAt : Nat
  flBase : Nat
  segs : Nat
  rdFlit : Nat
  flFlit : Nat
  conflict : Nat
  segOvf : Nat
deriving DecidableEq, Repr, Inhabited

/-- An MM site. `lane` is its DMA lane (attachment, edge link); `recalled` the sub-banks whose RECALL the edge has seen, `recall`
those whose RECALL is still to be sent (R147). Byte b of row r of sub-bank s is at (6176 s + r) * 64 + b, rows 6144-6175 the spares; the code state of the
cell holding a byte is at that key div 16 (R111, R112). Remap entry e of sub-bank s is at 32 s + e. -/
structure Mm where
  mem : Tab Byte
  code : Tab CellCode
  pull : Tab (BitVec 16)
  pages : Tab W32
  bank : Nat
  page : Nat
  since : Nat
  creels : Tab Creel
  subs : Tab SubBank
  lane : Option (Nat × Nat)
  edgeq : List EdgeOp
  credits : Tab Nat
  granted : Tab Nat
  grants : Tab Nat
  recalled : Nat
  recallSet : Nat
  pwrReq : Nat
  retq : List DmaRet
  inj : Option Inj
  remap : Tab Remap
  raddr : Nat
  rsour : Bool
  rdata : Tab W32
  sp : Sparse
  lateDrop : Nat
deriving DecidableEq, Repr, Inhabited

/-! ## Sequencers and sites -/

/-- A loop level: first and last word, repetitions left. -/
structure Loop where
  start : Nat
  last : Nat
  left : Nat
deriving DecidableEq, Repr

/-- A sequencer: active bank, program address, running, the earliest ACLK of the next issue, loop stack, and the step in which it was started (R154, R155). -/
structure Seq where
  bank : Nat
  pc : Nat
  running : Bool
  next : Nat
  loops : List Loop
  step : Nat
  stopped : Bool
deriving DecidableEq, Repr, Inhabited

/-- A delivery ring: staged and in-force descriptor fields of XS_RING_n, pointers (bit 15 wrap), saved pairs (R158, R159). -/
structure Ring where
  staged : W64
  desc : W64
  wptr : Nat
  rptr : Nat
  saved : List (Nat × W64 × Nat × Nat)
deriving DecidableEq, Repr, Inhabited

/-- An accumulator entry: in window form or FP32 form, its code (the low 32 bits in FP32 form), its sour mark (R63, R68). -/
structure Acc where
  window : Bool
  v : BitVec 96
  sour : Bool
deriving DecidableEq, Repr, Inhabited

/-- A row of operand SRAM as a MAC has read it: whether for its scales, its address, its bytes, the marks of its two grains (R69, R166). -/
structure MacRow where
  scale : Bool
  addr : Nat
  data : Row128
  lo : Bool
  hi : Bool
deriving DecidableEq, Repr

/-- A MAC in progress: issue ACLK, program address, mode word, SLK, AE, AS as they stood, M0, N, B0, KB, stalls of R390 and of droops, the
vectors skipped at issue, those audited, the next block entry, the audit accumulators, the rows read whose bytes are still needed (R166, R238,
R239, R390, R393). -/
structure MacOp where
  t : Nat
  pc : Nat
  mode : W32
  slk : Nat
  ae : Nat
  sa : Nat
  m0 : Nat
  n : Nat
  b0 : Nat
  kb : Nat
  st : Nat
  stalls : Nat
  skips : List Bool
  audit : List Bool
  next : Nat
  auditAcc : List Acc
  rows : List MacRow
deriving DecidableEq, Repr

/-- What an MX site does at a later ACLK than the one that commands it: a row written to operand SRAM (a delivery, OUT, OUTS); one row of
LDS with its mode, LDSS, LDC, LDK, ACC OP 1; sixteen or fewer entries of ACC OP 0; a block of GENC with its mode; a row of elements or
scales read for the MAC issued at ACLK t; the failed check of an SPMAC product (R160, R165, R166, R167, R230, R237, R491). -/
inductive MxAct where
  | row (a : Nat) (f : Flit)
  | lds (a lane row : Nat) (mode : W32)
  | ldss (a q : Nat)
  | ldc (a q : Nat)
  | ldk (a : Nat)
  | acc (a e k : Nat)
  | zero (e k : Nat)
  | genc (b : Nat) (mode : W32)
  | mac (t : Nat) (scale : Bool) (a : Nat)
  | rowchk
deriving DecidableEq, Repr

/-- A due act: its ACLK and the program address of its instruction, none for a delivery. -/
structure MxDue where
  at_ : Nat
  pc : Option Nat
  act : MxAct
deriving DecidableEq, Repr

/-- What an SF site does later: a row written to its SRAM; the row that LDV reads for the result due at an ACLK (R169, R170). -/
inductive SfAct where
  | row (a : Nat) (f : Flit)
  | load (a due v : Nat)
deriving DecidableEq, Repr

structure SfDue where
  at_ : Nat
  pc : Option Nat
  act : SfAct
deriving DecidableEq, Repr

/-- An SPMAC in progress: issue ACLK, program address, mode word, ring, NLOG, NF, a number whose bit j is 1 where an upset strikes sub-step j, the
ACLK up to which it has come, the flits released, and the flit last read (R228-R230). -/
structure SpOp where
  t : Nat
  pc : Nat
  mode : W32
  ring : Nat
  nlog : Nat
  nf : Nat
  upset : Nat
  at_ : Nat
  freed : Nat
  flit : Flit
deriving DecidableEq, Repr

/-- Predicted skip: mask, threshold, the current step's counts, each uncommitted step's, and MX_SKIP (R237-R240). -/
structure Skip where
  mask : BitVec 256
  thr : W32
  skipped : Nat
  audited : Nat
  misses : Nat
  steps : List (Nat × Nat × Nat × Nat)
  total : Nat × Nat × Nat
deriving DecidableEq, Repr, Inhabited

/-- An MX site. Operand SRAM by byte address; sour marks of its 64-B grains by address div 64; lane store byte o of lane i at
1024 i + o, its sour marks by 64 B at 16 i + o div 64; accumulator m of lane i at 256 i + m. `busy`: the intervals (start, length) in which the
array consumes since S_k; `macsDone`: MACs whose blocks have all entered but whose accumulators may not be read yet; `outs`: accumulators M0, N an OUT or ACC uses and until when;
`stage`: the staging row's scales with the marks of the accumulators they come from; `acts`: what is due at later ACLK (R160-R168). -/
structure Mx where
  seq : Seq
  prog : Tab W64
  a : Tab (BitVec 18)
  mode : W32
  mult : W32
  sr : W32
  srSaved : List (Nat × W32)
  mem : Tab Byte
  gsour : Tab Bool
  lanes : Tab Byte
  lsour : Tab Bool
  scales : Tab Byte
  ssour : Tab Bool
  check : Tab W64
  valid : BitVec 64
  ldcRows : BitVec 128
  stage : List (Byte × Bool)
  acc : Tab Acc
  loadTill : Nat
  genTill : Nat
  arrTill : Nat
  outTill : Nat
  macs : List MacOp
  macsDone : List MacOp
  spmac : Option SpOp
  busy : List (Nat × Nat)
  outs : List (Nat × Nat × Nat)
  rings : Tab Ring
  skip : Skip
  acts : List MxDue
deriving DecidableEq, Repr, Inhabited

/-- A vector register: 32 lanes and one sour bit for each 4-lane segment (R169). -/
structure Vec where
  data : Row128
  sour : Byte
deriving DecidableEq, Repr, Inhabited

/-- Where a result of the SF site is written. -/
inductive SfDst where
  | v (n : Nat)
  | s (n : Nat)
  | p (n : Nat)
deriving DecidableEq, Repr

/-- A result on its way: the ACLK at whose end it is written, its destination, the lanes it writes, its value (R154, R169). -/
structure SfWb where
  due : Nat
  dst : SfDst
  mask : W32
  val : Vec
deriving DecidableEq, Repr

/-- An SF site: bytes of its SRAM by address; unit busy times; RM (2 bits) and OV of its conversions (R169-R172). -/
structure Sf where
  seq : Seq
  prog : Tab W64
  v : Tab Vec
  s : Tab W32
  p : Tab W32
  mem : Tab Byte
  gsour : Tab Bool
  rings : Tab Ring
  sr : W32
  srSaved : List (Nat × W32)
  rm : Nat
  ov : Bool
  vecTill : Nat
  trTill : Nat
  memTill : Nat
  hashTill : Nat
  topTill : Nat
  wb : List SfWb
  acts : List SfDue
deriving DecidableEq, Repr, Inhabited

/-- A pending timed action of an SU (R180), or the barrier page it selects again after a failed step (R184). -/
inductive Timed where
  | go (mask addr : Nat)
  | page (pg : Nat)
  | fell (bank port site : Nat)
  | barrier (pg : Nat)
deriving DecidableEq, Repr

/-- A ready condition (R178): creel occupancy or free space, or a selvedge queue's elastic partition. -/
inductive Cond where
  | creel (n : Nat) (free : Bool) (creel site : Nat)
  | queue (n : Nat) (free outbound : Bool) (att : Nat)
deriving DecidableEq, Repr

/-- A JOIN in progress: its fields, the step it closes (none for the JOIN that opens step 0 or replays), the pick the step
ends, the pick the SU became ready, the largest READY of its children, START (R182). -/
structure Join where
  len : Nat
  d : Nat
  bpg : Nat
  nch : Nat
  root : Bool
  dev : Bool
  endPick : Nat
  opens : Nat
  ready : Option Nat
  start : Option Nat
  startSeen : Nat
deriving DecidableEq, Repr

/-- What an SU has heard from a child: READY and STATUS, and the pick in which it heard (R181, R182); `far`: a child on another device (R314). -/
structure Kid where
  heddle : Nat
  far : Bool
  ready : Nat
  status : Nat
  seen : Nat
deriving DecidableEq, Repr

/-- An SU site: program, T (pick offset and ACLK), timer queue, conditions, barrier state, tokens on its token net, starts
on its start net (ACLK, site, address, GO's address), sample buffer, load stream (R177-R185, R193, R194, R214), the port its cross-device edge
comes by (R314). Program word a of bank b is at 512 b + a. -/
structure Su where
  seq : Seq
  prog : Tab W64
  tOff : Nat
  tAc : Nat
  timers : List (Nat × Timed)
  conds : List Cond
  join : Option Join
  savedJoin : List (Nat × Nat × List Loop × Nat × W64)
  kids : List Kid
  status : Nat
  inStep : Nat
  barrier : Option Nat
  lastJoin : Option Join
  tokOut : List (Nat × BitVec 24)
  starts : List (Nat × Nat × Nat × Nat)
  goMask : Nat
  samples : List W64
  loadPos : Nat
  loadBuf : List Byte
  loadLast : Bool
  loadBad : Bool
  digest : W64
  downOut : Option (List Nat)
  farPort : Option Nat
deriving DecidableEq, Repr, Inhabited

/-! ## Selvedge -/

/-- An entry of a selvedge queue: flit, edge link, ACLK of entry. -/
structure QEntry where
  flit : Flit
  link : Nat
  arr : Nat
deriving DecidableEq, Repr

/-- A selvedge attachment's queues: partition sizes of the inbound and outbound queue, their scheduled and elastic
partitions, per credit loop of R103 (0 stack request, 1 stack return, 2 port transmit, 3 port receive, 4 hub, 5 ring inject, 6 ring eject)
the ACLKs and edge links at which the flits whose credits are out entered it, how many of these have hung (R105), the EDGE record in
force, what each edge link has delivered in this ACLK (R84; none: a flit was discarded), and the fill slots filled in a step by heddle (R100-R105, R196). -/
structure Attach where
  sIn : Nat
  sOut : Nat
  inS : List QEntry
  inE : List QEntry
  outS : List QEntry
  outE : List QEntry
  flying : Tab (List (Nat × Nat))
  hung : Tab Nat
  series : Config.Edge
  taken : List (Nat × Option Flit)
  filled : Tab Nat
deriving DecidableEq, Repr, Inhabited

/-! ## Memory stacks -/

/-- A scheduled grain access queued at a channel: grain address, write data with sour flag or a read for a return, and its beats (R256, R257). -/
structure GrainOp where
  grain : Nat
  write : Option (BitVec 512 × Bool)
  req : Nat
  part : Nat
  beats : Nat
  arr : Nat
deriving DecidableEq, Repr

/-- A return flit staged for its edge link: release ACLK, link, request, data and sour marks, grains still to come (R255). -/
structure Staged where
  at_ : Nat
  link : Nat
  req : Nat
  part : Nat
  flit : Flit
  waiting : Nat
deriving DecidableEq, Repr

/-- A channel of a stack: HBM_CH_c, HBM_EV_c, consecutive margin misses, scrub grain, write-backs and accesses waiting; the pick of its last
access and the beats used in that pick (R248-R268). -/
structure Channel where
  rate : Tri
  fail : Tri
  margin : Nat
  minm : Nat
  ce : Nat
  odecc : Nat
  ue : Nat
  capar : Nat
  misses : Nat
  scrub : Nat
  wbq : List Nat
  ops : List GrainOp
  raise : Nat
  usedAt : Nat
  used : Nat
deriving DecidableEq, Repr, Inhabited

/-- A memory stack: bytes by offset, code state of the 128-bit word at offset div 16, channels, remap entries (entry e of
channel c at 64 c + e: VALID * 2^20 + BANK * 2^14 + ROW), staged returns, series counters at 32 * SERIES + channel, one more than the last frame
with a training step and with a scrub (R243-R266). -/
structure Stack where
  mem : Tab Byte
  code : Tab CellCode
  chans : Tab Channel
  remap : Tab Remap
  temp : Nat
  trained : Bool
  staged : List Staged
  nextReq : Nat
  series : Tab Nat
  window : Nat
  trainedIn : Nat
  scrubbedIn : Nat
deriving DecidableEq, Repr, Inhabited

/-! ## Shuttle ports and time -/

/-- A received lane: ROLE, FAILED, MARGIN, CE, UE of SHT_LANE_l, and uncorrectable codewords among the last 1,024 (R293). -/
structure Lane where
  role : Nat
  failed : Bool
  margin : Nat
  ce : Nat
  ue : Nat
  recent : List Bool
  steps : Nat
deriving DecidableEq, Repr, Inhabited

/-- The last HELLO of a peer as FAB_PEER_p and FAB_PSER_p latch it, when it arrived, whether it is complete, its ACK, and whether its XGEN and
SERIAL meet R305. -/
structure Peer where
  hello : Bool
  mismatch : Bool
  serial : Nat
  fabric : Nat
  valid : Bool
  devid : Nat
  port : Nat
  feed : Nat
  rackpos : Nat
  member : Nat
  at_ : Option Nat
  lastSerial : Option Nat
  ack : Bool
  sound : Bool
deriving DecidableEq, Repr, Inhabited

/-- A held slot: the step that held it, its flits and SOUR word (R286). -/
structure HeldSlot where
  area : Nat
  step : Nat
  data : BitVec 4096
  sour : W32
deriving DecidableEq, Repr

/-- A slot the framer has taken for the pick frame of pick p (R284): its step and offset, whether the offset lies before LEN (R319), and whether
it is a release, whose held slot is found when the frame is sent (R286). -/
structure TxSlot where
  pick : Nat
  slot : Nat
  step : Nat
  off : Nat
  inLen : Bool
  rel : Bool
  data : BitVec 4096
  sour : W32
deriving DecidableEq, Repr

/-- A received slot that waits for its push: peer pick, slot, SLOTMAP code, payload, SOUR (R285). -/
structure RxSlot where
  pick : Nat
  slot : Nat
  kind : Nat
  data : BitVec 4096
  sour : W32
deriving DecidableEq, Repr

/-- A tally of one step on one port (R319-R322): the CRC register over the blocks folded so far, slots, the first offset not yet
folded, the offset of the last slot, whether it is built or verified, the tally received. -/
structure Tally where
  crc : Nat
  slots : Nat
  next : Nat
  last : Nat
  done : Bool
  got : Option W64
deriving DecidableEq, Repr, Inhabited

/-- A Shuttle port (R271-R300): state, SHT_CTL, spare readiness, spare lane, received and transmit lanes, delay, counters of SHT_ERR,
rotation count, last decoded PICK, the peer's TSTAT and LCTL and its run of SPRDY headers, credits of both classes (units started, the
peer's LIM, units freed), frames waiting, the stream being sent (frames, bytes of the first already sent), held, taken and received slots,
the pick pushed last, words of frames lost to codewords, delay pairs, own measurement, offset, hello, adverts, tallies, FIRST awaited; `mirror`:
the superframe in which the spare mirrors, and the lane it relieves after it (R292); `frames`: the frames of the current superframe by pick
(R273); `copies`: superframe, role and index of codewords that decoded (R292). -/
structure Shuttle where
  state : Nat
  ctl : Nat
  sprdy : Bool
  spare : Nat
  nospare : Bool
  lat : Nat
  delay : Nat
  lanes : Tab Lane
  txRole : Tab Nat
  txSpare : Nat
  eldrop : Nat
  miss : Nat
  rotskip : Nat
  rot : Nat
  signalAt : Option Nat
  lastPick : Option Nat
  tstat : Nat
  peerLctl : Nat
  sprdyRun : Nat
  sent : Tab Nat
  lim : Tab Nat
  freed : Tab Nat
  txq : List (List Byte)
  stream : List (List Byte)
  streamOff : Nat
  held : List HeldSlot
  txSlots : List TxSlot
  rxSlots : List RxSlot
  pushed : Nat
  lostWords : List (Nat × Nat)
  deltas : List (Int × Int)
  ownDelta : Nat × Int
  theta : Int
  peer : Peer
  adverts : Tab (Nat × Nat × Nat)
  nextFrag : Nat
  txTally : Tab Tally
  rxTally : Tab Tally
  engineOff : Bool
  resync : Bool
  mirror : Option (Nat × Nat)
  frames : List (Nat × List Byte)
  copies : List (Nat × Nat × Nat)
deriving DecidableEq, Repr, Inhabited

/-- The time registers and the time state of the device (R294-R298). -/
structure Time where
  hold : Nat
  eparm : Bool
  prio : Tri
  locked : Bool
  master : Bool
  holdover : Bool
  upport : Nat
  tprio : Nat
  gen : Nat
  tmid : Nat
  hops : Nat
  theta : Int
  epoch : Nat
  period : Nat
  refclk : Bool
  hasUp : Bool
  upLostAt : Nat
  lockedAt : Nat
  holdAt : Nat
  lastEdge : Option Nat
  hiLatch : Tab Nat
deriving DecidableEq, Repr, Inhabited

/-! ## Fabric -/

/-- A remote request (R313): tag, command, device, DPA, length, read or write, when it was sent, its data, its answer as a mailbox
status, its place in the command's bytes. -/
structure Rma where
  tag : Nat
  job : Nat
  dev : Nat
  dpa : Nat
  len : Nat
  write : Bool
  sentAt : Option Nat
  data : List Byte
  answer : Option Nat
  off : Nat
deriving DecidableEq, Repr

/-- A fallback engine's source side for an exchange and peer: SEQ of the oldest undrained page, NEXT and LIMIT of the peer, the
fragment sent next, when it last sent one (R327). -/
structure FbSrc where
  seq : Nat
  nextSeq : Nat
  nextFrag : Nat
  limit : Nat
  sentSeq : Nat
  sentFrag : Nat
  lastAt : Nat
deriving DecidableEq, Repr, Inhabited

/-- A landing engine for an exchange and source: NEXT, COUNT and DROPPED of the page being landed (R329). -/
structure FbDst where
  nextSeq : Nat
  nextFrag : Nat
  count : Nat
  dropped : Nat
deriving DecidableEq, Repr, Inhabited

/-- The fabric's registers and engines (R301-R331). Route entry d: VALID * 2^31 + PIN * 2^30 + PORT * 2^22 + HOPS * 2^16. -/
structure Fabric where
  id : Tri
  noauto : Bool
  rmawr : Bool
  rmard : Bool
  conflict : Bool
  route : Tab Nat
  rmas : List Rma
  nextTag : Nat
  fbSrc : Tab FbSrc
  fbDst : Tab FbDst
deriving DecidableEq, Repr, Inhabited

/-! ## Host ports -/

/-- A mailbox: STATE, SEQ, STATUS, command and response areas by byte (R337-R340). -/
structure Mbx where
  state : Nat
  seq : Nat
  status : Nat
  cmd : Tab Byte
  rsp : Tab Byte
  donepick : Nat
deriving DecidableEq, Repr, Inhabited

/-- An event ring: address, entries, producer and consumer index, phase, LOST, next SEQNO (R349, R350). -/
structure Evq where
  addr : Nat
  count : Nat
  pi : Nat
  ci : Nat
  phase : Bool
  lost : Bool
  seqno : Nat
deriving DecidableEq, Repr, Inhabited

/-- A host port: link in L0, when it last changed, HPC_ABORT_STAT and an abort asked for (areas in bits 15:0, device in bit 16) that Prijan
has not performed, mailboxes, event ring, MSI-X vectors sent, MSI-X table, IRQ_MASK_p, RAS_REGERR_p, the data of its last register
read, the memory of its host, the ACLK after the one in which hardware last set bits of HPC_ABORT_STAT and of RAS_REGERR_p, and which, and its writes in
an ACLK (ACLK, offset, size, value), kept of port 1 (R361). -/
structure Port where
  up : Bool
  downAt : Nat
  upAt : Nat
  abortBusy : Bool
  abortReq : Nat
  abortAt : Nat
  abortHw : Bool
  abortDone : Nat
  mbx : Tab Mbx
  evq : Evq
  msix : List Nat
  msixTable : Tab Byte
  irqMask : Nat
  regerrCode : Nat
  regerrOff : Nat
  regerrValid : Bool
  regerrOvf : Bool
  readData : Nat
  mem : Tab Byte
  abortSet : Nat × Nat
  regerrSet : Nat × Nat
  writes : List (Nat × Nat × Nat × Nat)
deriving DecidableEq, Repr, Inhabited

/-- An indirect window (R363): ADDR, CTRL, DATA_LO, DATA_HI, SITE, STAT; the ACLK after the one in which STAT bits were last set, and which (R361). -/
structure Window where
  addr : Nat
  ctrl : Nat
  lo : Nat
  hi : Nat
  site : Nat
  stat : Nat
  hwSet : Nat × Nat
deriving DecidableEq, Repr, Inhabited

/-! ## Jobs and drafts -/

/-- A record of a draft image (R188): offset of its header, TYPE, BANKSEL, TARGET, payload. -/
structure Rec where
  off : Nat
  type : Nat
  banksel : Nat
  target : Nat
  crc : Nat
  data : List Byte
deriving DecidableEq, Repr

/-- What an area keeps of a loaded draft (R187-R211): header fields, FENCE_DIGEST, its records with their patches, the step at which it begins. -/
structure Draft where
  id : Nat
  flags : Nat
  steps : Nat
  commitV : Nat
  fill : Nat
  content : List Byte
  fenceDigest : List Byte
  recs : List Rec
  first : Nat
deriving DecidableEq, Repr, Inhabited

/-- A load in progress: the bank it writes, the draft, the stream of each heddle, the offset sent next in each, the command it answers, and by
attachment the ACLK in which the root of its tree last carried a flit (R192-R197). -/
structure Load where
  bank : Nat
  draft : Draft
  streams : List (Nat × List Byte)
  sent : Tab Nat
  port : Nat
  m : Nat
  rootAt : Tab Nat := []
deriving DecidableEq, Repr

/-- An uncommitted step (R31-R39, R434-R442): index, S, length, V, status bits of R181, sour origin seen, a class 0x3 report raised, units
named, whether the end pick has passed, PWR_CLAMP raised, a second failure by FAB_BARRIER_LATE, first stored sour read, the bank it ran from;
`ramp`: the heddles whose arrays the ramp holds, and from which ACLK (R395). -/
structure Step where
  k : Nat
  s : Nat
  len : Nat
  v : Nat
  status : Nat
  origin : Bool
  failed : Bool
  named : List WatchUnit
  ended : Bool
  clamp : Bool
  second : Bool
  stored : Option (Nat × Nat)
  bank : Nat
  ramp : List (Nat × Nat)
deriving DecidableEq, Repr, Inhabited

/-- A skim range: source DPA, stage DPA, length, flits mirrored in the step, digest (R455). -/
structure SkimRange where
  src : Nat
  stage : Nat
  len : Nat
  count : Nat
  digest : W64
deriving DecidableEq, Repr, Inhabited

/-- The skim of an area (R454-R458): RAS_SKIM_a, buffers, ranges, the step, draft and area word it copies, bytes sent, writes outstanding,
whether the buffer's MAGIC has been zeroed and the seal sent, RAS_SEAL_a_b, the last answer, stopped by a changed feed. -/
structure Skim where
  state : Nat
  buf : Nat
  port : Nat
  partner : Nat
  bufs : Nat × Nat
  ranges : List SkimRange
  step : Nat
  draftId : Nat
  word : Nat
  sent : Nat
  outstanding : Nat
  began : Bool
  sealing : Bool
  seals : Nat × Nat
  lastAt : Nat
  stopped : Bool
deriving DecidableEq, Repr, Inhabited

/-- A step as the slot plans of its ports know it (R282): index, S, class and its LEN, the PORTPLAN records of its draft, and whether its run
has ended without a commit (R287). -/
structure PlanStep where
  k : Nat
  s : Nat
  cls : Nat
  len : Nat
  plans : List Rec
  dead : Bool
deriving DecidableEq, Repr

/-- The job of an area: JOB_STATUS state, start pick, exact flag, committed step index, the uncommitted steps (oldest first),
next step to start, RAS_AREA_a and the counts of R435, units named in both runs, when remapping began, the resume pick,
the sequence number of the halt record, the first step index not yet started once, the steps whose slot plans still run, oldest first (R282). -/
structure Job where
  state : Nat
  p : Nat
  exact : Bool
  committed : Option Nat
  steps : List Step
  nextK : Nat
  ras : Nat
  run : Nat
  cycle : Nat
  named1 : List WatchUnit
  named2 : List WatchUnit
  remapAt : Nat
  resumeP : Option Nat
  haltSeq : Nat
  top : Nat
  plan : List PlanStep
deriving DecidableEq, Repr, Inhabited

/-- A job area (R23-R28): word, owner, banks, job, skim, risk, power and fabric counters; `recs`: the attachment and area-wide records in force
(R205); `applyAt`: their apply offsets (R206). -/
structure Area where
  defined : Bool
  word : Nat
  owner : Tri
  bank : Nat
  drafts : Tab Draft
  complete : Nat
  swapOpen : Bool
  load : Option Load
  job : Job
  halted : Bool
  replays : Nat
  remaps : Nat
  skim : Skim
  applyAt : Tab Nat
  recs : List Rec
deriving DecidableEq, Repr, Inhabited

/-- Registers of an area number that stand whether or not the area is defined (R240, R241, R392, R402, R452, and FAB_XCNT, FAB_TCNT); `energy`
is kept in 0.1 µJ. -/
structure AreaRegs where
  hold : Nat
  energy : Nat
  skpCtl : Nat
  auditBase : Nat × Nat
  fbrec : Nat
  fbdrop : Nat
  resend : Nat
  verified : Nat
  bad : Nat
  late : Nat
  floor : Nat
  ceil : Nat
  score : Nat
  est : Nat
  level : Nat
  ovr : Bool
deriving DecidableEq, Repr, Inhabited

/-- A bulk command that waits for its DMA operations (R346): mailbox, kind, operations left and in all, status, sour grains, site and
creel, host destinations, area. -/
structure BulkJob where
  id : Nat
  port : Nat
  m : Nat
  kind : Nat
  left : Nat
  status : Nat
  sours : Nat
  site : Nat
  creel : Nat
  dests : List (Nat × Nat)
  total : Nat
  off : Nat
  area : Option Nat
deriving DecidableEq, Repr

/-- What a RESTORE keeps between its reads (R459): area, partner, the buffers it reads, and the seal once chosen. -/
structure Restore where
  area : Nat
  dev : Nat
  bufs : List Nat
  sealRec : Option (List Byte)
  base : Nat
deriving DecidableEq, Repr

/-- A remote command in progress (R313): mailbox, host chunks (address and length) in list order, sour grains, whether its list breaks R345 after
them; of a RESTORE, what it keeps. -/
structure RemoteJob where
  id : Nat
  port : Nat
  m : Nat
  list : List (Nat × Nat)
  sours : Nat
  bad : Bool
  restore : Option Restore
deriving DecidableEq, Repr

/-! ## Power and thermal -/

/-- A power region with its regulator: VRG_STAT, VRG_SET, estimates per phase key in 1/64 of 0.1 W, stall budget, the ACLK of a standing
droop, THM_REGION_r, when the throttle and the cooling began, throttled by a neighbour's difference, powered, 1 ms mean (W), the samples of
the running millisecond (sum, count), 10 ms at THROT, throttled for its own temperature (R383-R406). `throtAt`: since when it stands at or above THROT. -/
structure Region where
  vstate : Nat
  vout : Nat
  iout : Nat
  power : Nat
  droop : Nat
  vnom : Nat
  vset : Nat
  est : Tab Nat
  st : Nat
  drooping : Option Nat
  tstate : Nat
  heddle : Nat
  tmax : Int
  throtAt : Option Nat
  coolAt : Option Nat
  envHot : Bool
  on : Bool
  power1ms : Nat
  acc : Nat × Nat
  hot10 : Bool
  ownHot : Bool
deriving DecidableEq, Repr, Inhabited

/-- A diode: last reading, unchanged reads, power at the first of them, whether the power has changed by more than 10 % since, marked bad, read
at all (R403). -/
structure Diode where
  last : Int
  same : Nat
  base : Nat
  moved : Bool
  bad : Bool
  seen : Bool
deriving DecidableEq, Repr, Inhabited

/-- A member's last REPORT as this device saw it (R399, R400). -/
structure Report where
  power : Nat
  slack : Nat
  lim : Nat
  applied : Nat
  at_ : Nat
deriving DecidableEq, Repr, Inhabited

/-- The power group (R398-R401): `given` the assignments as the coordinator counts them, `move` an update half done (index that gives, its
assignment, index that gets, its assignment), `sentAt` when the last update began, `lost` once PWR_GROUP_LOST was raised. -/
structure Group2 where
  budget : Nat
  floor : Nat
  n : Nat
  index : Nat
  list : List Nat
  assign : Nat
  lastAssign : Nat
  reports : Tab Report
  seqno : Nat
  move : Option (Nat × Nat × Nat × Nat)
  coord : Bool
  slackSum : Nat
  slackN : Nat
  given : Tab Nat
  sentAt : Option Nat
  lost : Bool
deriving DecidableEq, Repr, Inhabited

/-- Power and thermal control (R381-R411). `inSeen`: the feeds have been sampled since reset, before which PWR_IN reads 0; `effDue`: the pick at which the effective cap takes a new
value, and the value (R385). Staged, shadow and in-force values of PWR_LIMIT and PWR_CAP, means, clamp, feeds;
`idle` is kept in 0.1 µJ. -/
structure Power where
  pmax : Tri
  pmin : Tri
  stagedMax : Nat
  stagedMin : Nat
  shadowLim : Option (Nat × Nat)
  cap : Tri
  shadowCap : Option Nat
  clamp : Option Nat
  eff : Nat
  effDue : Option (Nat × Nat)
  volta : Nat
  voltb : Nat
  presA : Bool
  presB : Bool
  inSeen : Bool
  backAt : Option Nat
  oneFeed : Bool
  power : Nat
  mean1ms : Nat
  mean100us : Nat
  mean10us : Nat
  outBand : Nat
  inBand : Nat
  mismatch : Bool
  shared : Nat
  idle : Nat
  coolLimit : Option Nat
  grp : Option Group2
  throt : Nat
  shadowThrot : Option Nat
  flow : Nat
  outlet : Int
  inlet : Int
  excursion : Bool
  diodes : Tab Diode
  mean1us : Nat
deriving DecidableEq, Repr, Inhabited

/-! ## Bring-up, recovery, security -/

/-- A fence map (R423-R425): site entries, region states, channel entries, its sequence number, whether the copy is valid. -/
structure Fence where
  sites : Tab Nat
  regions : Tab Nat
  chans : Tab Nat
  seqno : Nat
  valid : Bool
deriving DecidableEq, Repr, Inhabited

/-- Bring-up (R412-R433): the stage that ended last, its outcome, and whether DRST runs (R336). -/
structure BringUp where
  stage : Nat
  fail : Bool
  refStale : Bool
  refFail : Bool
  overAllow : Bool
  elapsed : Nat
  ready : Bool
  everUp : Bool
  fatal : Bool
  drst : Bool
deriving DecidableEq, Repr, Inhabited

/-- An entry of the watch list (R444, R460), and the recurrences of its trigger not yet treated (R445). -/
structure Watch where
  u : WatchUnit
  steps : Nat
  code : Nat
  added : Nat
  lastTrig : Nat
  testedOk : Bool
  lastTest : Nat
  recur : Nat
deriving DecidableEq, Repr

/-- Recovery's lists: the watch list, the recent occurrences of its triggers, the adjustment steps kept in flash (R444, R445). -/
structure Ras where
  watch : List Watch
  trig : List (Nat × WatchUnit × Nat)
  adjust : List (WatchUnit × Nat)
  recent : List (Nat × Nat × Nat)
  split : Nat
  fix : Nat
deriving DecidableEq, Repr, Inhabited

/-- A firmware image in a slot (R463): header, code and signature as one byte string. -/
structure Slot where
  image : List Byte
deriving DecidableEq, Repr, Inhabited

/-- Identity and boot security (R462-R476). -/
structure Sec where
  lock : Tri
  owner : List Tri
  dbgEn : Tri
  challenge : Option (BitVec 256 × Nat)
  rollback : Nat
  rootKey : List Byte
  dbgKey : List Byte
  topFuse : Nat
  slots : Tab Slot
  pref : Nat
  slot : Nat
  fallback : Bool
  pendingFw : Bool
  recovery : Bool
  top : Nat
  bottom : Nat
  topQ : Nat
  bottomQ : Nat
  nextRdy : Bool
deriving DecidableEq, Repr, Inhabited

/-- PMON windows (R362): selections in force and in shadow, records, the index written next. -/
structure Pmon where
  sel : Nat
  shadow : Option Nat
  next : Nat
  recs : Tab W64
deriving DecidableEq, Repr, Inhabited

/-- A calibration item (R378): FACT, USER, EFF, and the value that takes effect at a pick. -/
structure Cal where
  fact : Int
  user : Int
  eff : Int
  due : Option (Nat × Int)
deriving DecidableEq, Repr, Inhabited

/-- The module: member, the Device ID of its host ports (R2, R332), identity, straps, pins, calibration (02, 12, 17); `shadowAt`: by block, the pick of the newest write of a shadow (R207). -/
structure Module where
  member : Nat
  pciId : Nat
  fwver : Nat
  stepping : Nat
  serial : Nat
  feedId : Nat
  rackPos : Nat
  alertN : Bool
  faultN : Bool
  pwrgd : Bool
  smbLast : Nat
  cal : Tab Cal
  pmon : Tab Pmon
  refDraft : List Byte
  flash0 : Fence
  flash1 : Fence
  shadowAt : Tab Nat
deriving DecidableEq, Repr, Inhabited

/-- Something the device has put out: an elastic frame on a port, a pick header, an SMBus block, a pulse (the model's output list, log 14). -/
inductive Sent where
  | frame (port : Nat) (bytes : List Byte)
  | pick (port p : Nat) (header : List Byte) (slots : List (Nat × BitVec 4096)) (tail : List Byte)
  | codeword (port lane : Nat) (symbols : List Nat)
  | smbus (code : Nat) (bytes : List Byte)
  | epochOut (pick : Nat)
  | ring (bytes : List Byte)
deriving DecidableEq, Repr

/-- The state of the module. `now` counts ACLKs of the pick count (8 a pick); `up` is the ACLKs elapsed since power-on (log 7). -/
structure State where
  pending : List Instr
  now : Nat
  up : Nat
  freeCtr : Nat
  counts : Tab Nat
  sent : List Sent
  ports : Tab Port
  wins : Tab Window
  areas : Tab Area
  aregs : Tab AreaRegs
  sw : Tab Switch
  mm : Tab Mm
  mx : Tab Mx
  sf : Tab Sf
  su : Tab Su
  att : Tab Attach
  stks : Tab Stack
  sht : Tab Shuttle
  time : Time
  fab : Fabric
  bulk : List BulkJob
  remote : List RemoteJob
  nextJob : Nat
  regions : Tab Region
  pwr : Power
  fence : Fence
  bru : BringUp
  ras : Ras
  sec : Sec
  mod : Module
deriving DecidableEq, Repr, Inhabited

/-- The items of a fault report (R109, R349): area, unit (a site number or an indirect index), port and direction,
page, entry, offset from S_k, program address, further bytes; the heddle whose SU carries its STATUS, the unit it names (R434), the step it is about
where that is not the last started. -/
structure Report349 where
  area : Option Nat
  unit : Nat
  portio : Nat
  page : Nat
  entry : Nat
  offset : Nat
  paddr : Nat
  aux : List Byte
  heddle : Option Nat
  wu : Option WatchUnit
  step : Option Nat
deriving DecidableEq, Repr, Inhabited

/-! ## Reset -/

/-- Three equal copies. -/
def Tri.of (n : Nat) : Tri := ⟨n, n, n⟩

/-- RAS_RISK_a after reset: CEIL 7 (R452). -/
def AreaRegs.reset : AreaRegs := { (default : AreaRegs) with ceil := 7 }

/-- RAS_SEAL_a_b after reset: all ones. -/
def Skim.reset : Skim := { (default : Skim) with seals := (2 ^ 64 - 1, 2 ^ 64 - 1) }

/-- An area number that no area has: no job, skim off. -/
def Area.reset : Area := { (default : Area) with skim := Skim.reset }

/-- A regulator and its region after reset: switched off until the power wave; VNOM from flash is 750 mV (log 5). -/
def Region.reset : Region := { (default : Region) with vnom := 750, vset := 750 }

/-- The time registers after reset (09): HOLD 2, MASTER 1, TMID 0xFFF, PERIOD 100,000; PRIO from flash is 1 (log 5). -/
def Time.reset : Time :=
  { (default : Time) with hold := 2, prio := Tri.of 1, master := true, tmid := 0xFFF, period := 100000, refclk := true }

/-- The fabric registers after reset: unassigned, DEVID 0xFFF (log 5). -/
def Fabric.reset : Fabric := { (default : Fabric) with id := Tri.of 0xFFF }

/-- The power registers of a member after reset (13): PMAX, PMIN and CAP in 50 W; both feeds present (log 5). -/
def Power.reset (m : Nat) : Power :=
  let pmax := if m = 8 then 400 else if m = 4 then 210 else 110
  let pmin := if m = 8 then 120 else if m = 4 then 60 else 30
  let cap := if m = 8 then 360 else if m = 4 then 190 else 100
  { (default : Power) with
    pmax := Tri.of pmax, pmin := Tri.of pmin, stagedMax := pmax, stagedMin := pmin,
    cap := Tri.of cap, eff := cap, presA := true, presB := true, throt := 95 }

/-- A firmware image without code (R463): MAGIC, VERSION 1, SVN 0, the SHA-256 of no bytes, and room for a signature (log 5). -/
def factoryImage : List Byte :=
  ([0x58, 0x58, 0x46, 0x57, 1, 0, 0, 0] : List Byte) ++ List.replicate 16 0
  ++ [0xe3, 0xb0, 0xc4, 0x42, 0x98, 0xfc, 0x1c, 0x14, 0x9a, 0xfb, 0xf4, 0xc8, 0x99, 0x6f, 0xb9, 0x24,
      0x27, 0xae, 0x41, 0xe4, 0x64, 0x9b, 0x93, 0x4c, 0xa4, 0x95, 0x99, 0x1b, 0x78, 0x52, 0xb8, 0x55]
  ++ List.replicate 200 0 ++ List.replicate 3604 0

/-- Boot and identity security after power-on (16): slot A holds an image and is preferred, no owner, no fuse blown (log 5). -/
def Sec.reset : Sec :=
  { (default : Sec) with
    owner := List.replicate 8 (Tri.of 0)
    rootKey := List.replicate 60 0
    dbgKey := List.replicate 60 0
    slots := [(0, ⟨factoryImage⟩)] }

/-- The PCIe Device ID by member (R332). -/
def pciDevice (m : Nat) : Nat := if m = 8 then 0xA808 else if m = 4 then 0xA804 else 0xA802

/-- The module after power-on: an XW8 (log 6) whose factory content is as log 5 says; FEED_ID and RACKPOS strapped 0,
SMB_ALERT_N and FAULT_N released. -/
def Module.reset : Module :=
  let f : Fence := { (default : Fence) with valid := true }
  { (default : Module) with
    member := 8
    pciId := pciDevice 8
    fwver := 1
    stepping := 1
    serial := 1
    alertN := true
    faultN := true
    pwrgd := true
    smbLast := 24
    flash0 := f
    flash1 := f }

/-- The machine right after power-on reset: every register at the value the spec states, or at the value its log entry names. -/
def State.reset : State :=
  { (default : State) with
    time := Time.reset
    fab := Fabric.reset
    pwr := Power.reset 8
    fence := { (default : Fence) with valid := true }
    sec := Sec.reset
    mod := Module.reset }

end Sys2Proof.Machine
end

