-- ==== Sys2Proof/Machine/Bits.lean ====
section
/-! DEFINITION. Bit fields, byte order (R46, R77: little-endian) and the sparse stores: reading, writing, mapping, canonical form. -/
namespace Sys2Proof.Machine

/-- Bits hi:lo of a word. -/
def bits (w hi lo : Nat) : Nat := (w / 2 ^ lo) % 2 ^ (hi + 1 - lo)

/-- Bit i of a word. -/
def bit (w i : Nat) : Bool := (w / 2 ^ i) % 2 == 1

/-- 1 for true. -/
def b2n (b : Bool) : Nat := if b then 1 else 0

/-- Two's complement: the value of an n-bit field. -/
def signed (n x : Nat) : Int := if x % 2 ^ n < 2 ^ (n - 1) then (x % 2 ^ n : Nat) else ((x % 2 ^ n : Nat) : Int) - 2 ^ n

/-- The n-bit field that holds an integer. -/
def field (n : Nat) (x : Int) : Nat := (x % (2 ^ n : Nat)).toNat

/-- A count that stops at `cap`. -/
def satAdd (cap x n : Nat) : Nat := min cap (x + n)

/-- The number that little-endian bytes spell. -/
def leNat : List Byte → Nat
  | [] => 0
  | b :: r => b.toNat + 256 * leNat r

/-- The low n bytes of x, little-endian. -/
def leBytes : Nat → Nat → List Byte
  | 0, _ => []
  | n + 1, x => BitVec.ofNat 8 x :: leBytes n (x / 256)

/-- The n bytes of a big-endian field. -/
def beBytes (n x : Nat) : List Byte := (leBytes n x).reverse

/-- The number that big-endian bytes spell. -/
def beNat (l : List Byte) : Nat := leNat l.reverse

/-- Bytes o to o + n - 1 of a list, zeros beyond its end. -/
def sub (l : List Byte) (o n : Nat) : List Byte := ((l.drop o).take n) ++ List.replicate (n - (l.drop o).length) 0

/-- The little-endian field of n bytes at offset o. -/
def fld (l : List Byte) (o n : Nat) : Nat := leNat (sub l o n)

/-- The value at key k, `d` where the store lists none. -/
def look {α : Type} (d : α) : Tab α → Nat → α
  | [], _ => d
  | (a, v) :: t, k => if k = a then v else look d t k

/-- The store with a listed value v at key k, keeping keys rising. -/
def insertAt {α : Type} : Tab α → Nat → α → Tab α
  | [], k, v => [(k, v)]
  | (a, w) :: t, k, v =>
    if k < a then (k, v) :: (a, w) :: t
    else if k = a then (k, v) :: t
    else (a, w) :: insertAt t k v

/-- The store with v at key k, keeping keys rising and listing no `d`. -/
def put {α : Type} [DecidableEq α] (d : α) (t : Tab α) (k : Nat) (v : α) : Tab α :=
  if v = d then t.filter fun kv => decide (kv.1 ≠ k) else insertAt t k v

/-- Change the value at key k. -/
def alter {α : Type} [DecidableEq α] (d : α) (t : Tab α) (k : Nat) (f : α → α) : Tab α := put d t k (f (look d t k))

/-- Change every listed value. -/
def mapTab {α : Type} [DecidableEq α] (d : α) (f : Nat → α → α) (t : Tab α) : Tab α :=
  t.filterMap fun kv => if f kv.1 kv.2 = d then none else some (kv.1, f kv.1 kv.2)

/-- The store with v at every key of lo, …, lo + n - 1. -/
def fillTab {α : Type} (lo n : Nat) (v : α) (t : Tab α) : Tab α :=
  (t.filter fun kv => decide (kv.1 < lo)) ++ (List.range n).map (fun i => (lo + i, v)) ++ (t.filter fun kv => decide (lo + n ≤ kv.1))

/-- The entries whose key passes. -/
def keepTab {α : Type} (p : Nat → Bool) (t : Tab α) : Tab α := t.filter fun kv => p kv.1

/-- The canonical form: keys strictly rising, no listed default. -/
def TabWf {α : Type} [DecidableEq α] (d : α) : Tab α → Bool
  | [] => true
  | (a, v) :: t => decide (v ≠ d) && (t.all fun kv => decide (a < kv.1)) && TabWf d t

/-- n bytes of a byte store from address a; a byte nothing has written reads 0 (log 2). -/
def bytesAt (m : Tab Byte) (a : Nat) : Nat → List Byte
  | 0 => []
  | n + 1 => look 0 m a :: bytesAt m (a + 1) n

/-- Store bytes from address a upward. -/
def putBytes (m : Tab Byte) (a : Nat) : List Byte → Tab Byte
  | [] => m
  | b :: l => putBytes (put 0 m a b) (a + 1) l

/-- The n bytes of a value as stored little-endian. -/
def putLe (m : Tab Byte) (a n x : Nat) : Tab Byte := putBytes m a (leBytes n x)

/-- A row of 128 B from its little-endian bytes (R77). -/
def rowOf (l : List Byte) : Row128 := BitVec.ofNat 1024 (leNat l)

/-- The bytes of a row of 128 B. -/
def rowBytes (r : Row128) : List Byte := leBytes 128 r.toNat

/-- Lane i of a row (R77). -/
def laneOf (r : Row128) (i : Nat) : W32 := BitVec.ofNat 32 (r.toNat / 2 ^ (32 * i))

/-- A row from its 32 lanes, lane 0 first. -/
def ofLanes (l : List W32) : Row128 := BitVec.ofNat 1024 (l.foldr (fun x acc => x.toNat + 2 ^ 32 * acc) 0)

/-- The 32 lanes of a row. -/
def lanesOf (r : Row128) : List W32 := (List.range 32).map (laneOf r)

/-- A list with element i replaced. -/
def setAt {α : Type} (l : List α) (i : Nat) (v : α) : List α := l.set i v

/-- The largest of a list of numbers. -/
def maxOf (l : List Nat) : Nat := l.foldl max 0

/-- Is x in the closed range? -/
def within (lo hi x : Nat) : Bool := decide (lo ≤ x) && decide (x ≤ hi)

end Sys2Proof.Machine
end

