-- ==== Sys2Proof/Machine/Num.lean ====
section
/-! DEFINITION. Number formats and arithmetic (02): exact values, one rounding, FP32 operations, MX blocks, the functions
of R73, stochastic rounding (R54, R55). -/
namespace Sys2Proof.Machine

/-- An exact value: NaN, an infinity, or ± m * 2 ^ e (both zeros are kept, R48). -/
inductive Num where
  | nan
  | inf (neg : Bool)
  | fin (neg : Bool) (m : Nat) (e : Int)
deriving DecidableEq, Repr, Inhabited

/-! ## Formats (R44, R162) -/

/-- Width of a format code of R162. -/
def fmtWidth (f : Nat) : Nat :=
  if f = 0 ∨ f = 11 then 32 else if f = 1 ∨ f = 2 then 16 else if f = 5 ∨ f = 6 then 6 else if f = 7 ∨ f = 10 then 4 else 8

/-- Exponent bits, mantissa bits and bias of a floating-point format. -/
def fmtE (f : Nat) : Nat := if f = 0 ∨ f = 2 then 8 else if f = 1 ∨ f = 4 then 5 else if f = 3 then 4 else if f = 5 then 3 else 2
def fmtM (f : Nat) : Nat := if f = 0 then 23 else if f = 1 then 10 else if f = 2 then 7 else if f = 3 ∨ f = 6 then 3 else if f = 4 ∨ f = 5 then 2 else 1
def fmtBias (f : Nat) : Nat := if f = 0 ∨ f = 2 then 127 else if f = 1 ∨ f = 4 then 15 else if f = 3 then 7 else if f = 5 then 3 else 1

/-- Formats with infinities: FP32, FP16, BF16, E5M2. -/
def fmtIeee (f : Nat) : Bool := f == 0 || f == 1 || f == 2 || f == 4

/-- Two's complement formats: MXINT8, INT8, INT4, INT32. -/
def fmtInt (f : Nat) : Bool := within 8 11 f

/-- The largest finite magnitude code (R44, R48, R52). -/
def fmtMax (f : Nat) : Nat :=
  if f = 0 then 0x7F7FFFFF else if f = 1 then 0x7BFF else if f = 2 then 0x7F7F else if f = 3 then 0x7E else if f = 4 then 0x7B
  else if f = 5 ∨ f = 6 then 0x1F else 0x7

/-- The canonical NaN, 0 where the format has none (R49, R52). -/
def fmtNan (f : Nat) : Nat :=
  if f = 0 then 0x7FC00000 else if f = 1 then 0x7E00 else if f = 2 then 0x7FC0 else if f = 3 ∨ f = 4 then 0x7F else 0

/-- The value a code stands for (R44, R45). -/
def decodeNum (f code : Nat) : Num :=
  if fmtInt f then
    let v := signed (fmtWidth f) code
    .fin (decide (v < 0)) v.natAbs (if f = 8 then -6 else 0)
  else
    let mb := fmtM f
    let neg := bit code (fmtE f + mb)
    let e := bits code (fmtE f + mb - 1) mb
    let m := code % 2 ^ mb
    if fmtIeee f && e == 2 ^ fmtE f - 1 then (if m = 0 then .inf neg else .nan)
    else if f = 3 ∧ e = 15 ∧ m = 7 then .nan
    else if e = 0 then .fin neg m (1 - (fmtBias f : Int) - mb)
    else .fin neg (2 ^ mb + m) ((e : Int) - fmtBias f - mb)

/-- The value of an FP32 code. -/
def ofF32 (x : W32) : Num := decodeNum 0 x.toNat

/-- floor (log2 m) for m > 0. -/
def log2 (m : Nat) : Nat := Nat.log2 m

/-- m * 2 ^ k rounded to an integer: rounding mode (0 RNE, 1 RTZ, 2 SR with random word r), R51, R54. -/
def roundShift (rm r m : Nat) (k : Int) : Nat :=
  if 0 ≤ k then m * 2 ^ k.toNat
  else
    let d := (-k).toNat
    let q := m / 2 ^ d
    let rem := m % 2 ^ d
    let up := if rm = 0 then decide (2 ^ d < 2 * rem) || (decide (2 * rem = 2 ^ d) && decide (q % 2 = 1))
              else if rm = 1 then false
              else decide (2 ^ 32 ≤ rem * 2 ^ 32 / 2 ^ d + r)
    if up then q + 1 else q

/-- The magnitude code of m * 2 ^ e in a floating-point format after rounding, unbounded above. -/
def floatCode (f rm r m : Nat) (e : Int) : Nat :=
  if m = 0 then 0 else
    let mb := fmtM f
    let low : Int := 1 - (fmtBias f : Int) - mb
    let q : Int := max ((log2 m : Int) + e - mb) low
    let n := roundShift rm r m (e - q)
    if n < 2 ^ mb then n else ((q - low + 1).toNat) * 2 ^ mb + (n - 2 ^ mb)

/-- A code with its sign bit. -/
def signCode (f : Nat) (neg : Bool) (mag : Nat) : Nat := mag + b2n neg * 2 ^ (fmtWidth f - 1)

/-- The limit of an integer format on a side (R52). -/
def intLimit (f : Nat) (neg : Bool) : Nat :=
  if f = 11 then (if neg then 2 ^ 31 else 2 ^ 31 - 1) else if f = 10 then 7 else 127

/-- A narrowing conversion (R51-R54): code, and whether it saturated. ov: non-saturating. -/
def convert (f rm : Nat) (ov : Bool) (r : Nat) (x : Num) : Nat × Bool :=
  if fmtInt f then
    match x with
    | .nan => (0, false)
    | .inf neg => (field (fmtWidth f) (if neg then -(intLimit f neg : Int) else intLimit f neg), true)
    | .fin neg m e =>
      let n := roundShift rm r m (if f = 8 then e + 6 else e)
      let lim := intLimit f neg
      let v := min n lim
      (field (fmtWidth f) (if neg then -(v : Int) else v), decide (lim < n))
  else
    let tooFull (neg : Bool) : Nat × Bool :=
      if ov && fmtIeee f then (signCode f neg ((2 ^ fmtE f - 1) * 2 ^ fmtM f), false)
      else if ov && f == 3 then (fmtNan f, false)
      else (signCode f neg (fmtMax f), true)
    match x with
    | .nan => (fmtNan f, false)
    | .inf neg => tooFull neg
    | .fin neg m e =>
      let c := floatCode f rm r m e
      if c ≤ fmtMax f then (signCode f neg c, false) else tooFull neg

/-- One RNE rounding to FP32, overflow to infinity (R51, R61). -/
def toF32 (x : Num) : W32 := BitVec.ofNat 32 (convert 0 0 true 0 x).1

/-! ## Exact arithmetic -/

/-- Signed mantissa. -/
def sgn (neg : Bool) (m : Nat) : Int := if neg then -(m : Int) else m

/-- An integer times a power of two; zero takes the given sign. -/
def ofInt (zneg : Bool) (v : Int) (e : Int) : Num := if v = 0 then .fin zneg 0 0 else .fin (decide (v < 0)) v.natAbs e

/-- Exact sum; a zero sum of unlike signs is +0 (RNE, R49). -/
def Num.add : Num → Num → Num
  | .nan, _ => .nan
  | _, .nan => .nan
  | .inf a, .inf b => if a = b then .inf a else .nan
  | .inf a, _ => .inf a
  | _, .inf b => .inf b
  | .fin a m e, .fin b n f =>
    let l := min e f
    ofInt (a && b) (sgn a m * 2 ^ (e - l).toNat + sgn b n * 2 ^ (f - l).toNat) l

/-- Exact product. -/
def Num.mul : Num → Num → Num
  | .nan, _ => .nan
  | _, .nan => .nan
  | .inf a, .inf b => .inf (a != b)
  | .inf a, .fin b n _ => if n = 0 then .nan else .inf (a != b)
  | .fin a m _, .inf b => if m = 0 then .nan else .inf (a != b)
  | .fin a m e, .fin b n f => .fin (a != b) (m * n) (e + f)

/-- The negative. -/
def Num.neg : Num → Num
  | .nan => .nan
  | .inf a => .inf (!a)
  | .fin a m e => .fin (!a) m e

/-- The value times 2 ^ k. -/
def Num.scale (k : Int) : Num → Num
  | .fin a m e => .fin a m (e + k)
  | x => x

def Num.isNan : Num → Bool
  | .nan => true
  | _ => false

def Num.isInf : Num → Bool
  | .inf _ => true
  | _ => false

def Num.isFin : Num → Bool
  | .fin .. => true
  | _ => false

def Num.isZero : Num → Bool
  | .fin _ m _ => m == 0
  | _ => false

/-- Compare two values, neither NaN: the sign of x - y, zeros equal. -/
def Num.cmp : Num → Num → Int
  | .inf a, .inf b => if a = b then 0 else if a then -1 else 1
  | .inf a, _ => if a then -1 else 1
  | _, .inf b => if b then 1 else -1
  | .fin a m e, .fin b n f =>
    let l := min e f
    let d := sgn a m * 2 ^ (e - l).toNat - sgn b n * 2 ^ (f - l).toNat
    if d = 0 then 0 else if d < 0 then -1 else 1
  | _, _ => 0

/-- x compared with the rational p / q, q > 0: the sign of x - p / q; x finite. -/
def Num.cmpRat (x : Num) (p : Int) (q : Nat) : Int :=
  match x with
  | .fin a m e =>
    let d := if 0 ≤ e then sgn a m * 2 ^ e.toNat * q - p else sgn a m * q - p * 2 ^ (-e).toNat
    if d = 0 then 0 else if d < 0 then -1 else 1
  | .inf a => if a then -1 else 1
  | .nan => 0

/-- Is the sign negative? -/
def Num.isNeg : Num → Bool
  | .inf a => a
  | .fin a _ _ => a
  | .nan => false

/-! ## FP32 operations (R49, R71) -/

def fAdd (a b : W32) : W32 := toF32 ((ofF32 a).add (ofF32 b))
def fSub (a b : W32) : W32 := toF32 ((ofF32 a).add (ofF32 b).neg)
def fMul (a b : W32) : W32 := toF32 ((ofF32 a).mul (ofF32 b))
def fFma (a b c : W32) : W32 := toF32 (((ofF32 a).mul (ofF32 b)).add (ofF32 c))

/-- Minimum: the non-NaN operand when exactly one is NaN; −0 below +0 (R71). -/
def fMin (a b : W32) : W32 :=
  let x := ofF32 a
  let y := ofF32 b
  if x.isNan then toF32 y else if y.isNan then toF32 x
  else if x.cmp y < 0 then a else if 0 < x.cmp y then b else if x.isNeg then a else b

/-- Maximum, as the minimum. -/
def fMax (a b : W32) : W32 :=
  let x := ofF32 a
  let y := ofF32 b
  if x.isNan then toF32 y else if y.isNan then toF32 x
  else if 0 < x.cmp y then a else if x.cmp y < 0 then b else if x.isNeg then b else a

/-- Comparison codes of FCMP (R170): 0 EQ, 1 LT, 2 LE, 3 NE, 4 UNORD. -/
def fCmp (op : Nat) (a b : W32) : Bool :=
  let x := ofF32 a
  let y := ofF32 b
  let un := x.isNan || y.isNan
  if op = 0 then !un && decide (x.cmp y = 0)
  else if op = 1 then !un && decide (x.cmp y < 0)
  else if op = 2 then !un && decide (x.cmp y ≤ 0)
  else if op = 3 then un || decide (x.cmp y ≠ 0)
  else un

/-- Is the FP32 code a NaN? -/
def f32Nan (a : W32) : Bool := (ofF32 a).isNan
def f32Special (a : W32) : Bool := !(ofF32 a).isFin

/-! ## The exact values that R73 bounds -/

/-- Fractional bits of the fixed point in which the exact values are taken (log 12). -/
def fxBits : Nat := 400

/-- A finite value in fixed point. -/
def fxOf : Num → Int
  | .fin neg m e => sgn neg m * 2 ^ (e + fxBits).toNat / 2 ^ (-(e + fxBits)).toNat
  | _ => 0

/-- A fixed-point value as a number. -/
def fxNum (v : Int) : Num := ofInt false v (-(fxBits : Int))

def fxMul (a b : Int) : Int := a * b / 2 ^ fxBits
def fxDiv (a b : Int) : Int := a * 2 ^ fxBits / b

/-- The sum of t, t z / 3, t z ^ 2 / 5, … from term i. -/
def oddSum (z : Int) : Nat → Nat → Int → Int
  | 0, _, _ => 0
  | n + 1, i, t => t / (2 * i + 1 : Nat) + oddSum z n (i + 1) (fxMul t z)

/-- The sum of t, t r / i, t r ^ 2 / (i (i + 1)), …. -/
def expSum (r : Int) : Nat → Nat → Int → Int
  | 0, _, _ => 0
  | n + 1, i, t => t + expSum r n (i + 1) (fxMul t r / (i : Int))

/-- The sum of t_n / (2 n + 1) with t_(n + 1) = - t_n w / (n + 1). -/
def erfSum (w : Int) : Nat → Nat → Int → Int
  | 0, _, _ => 0
  | k + 1, n, t => t / (2 * n + 1 : Nat) + erfSum w k (n + 1) (-(fxMul t w) / (n + 1 : Nat))

def fxLn2 : Int := 2 * oddSum (2 ^ fxBits / 9) 130 0 (2 ^ fxBits / 3)
def fxPi : Int := 16 * oddSum (-(2 ^ fxBits) / 25) 90 0 (2 ^ fxBits / 5) - 4 * oddSum (-(2 ^ fxBits) / 57121) 90 0 (2 ^ fxBits / 239)

/-- exp of a fixed-point value. -/
def fxExp (x : Int) : Num :=
  let k := x / fxLn2
  .fin false (expSum (x - k * fxLn2) 90 1 (2 ^ fxBits)).toNat (k - fxBits)

/-- log of a positive m * 2 ^ e. -/
def fxLog (m : Nat) (e : Int) : Int :=
  let y : Int := (m : Int) * 2 ^ (fxBits - log2 m)
  let z := fxDiv (y - 2 ^ fxBits) (y + 2 ^ fxBits)
  2 * oddSum (fxMul z z) 130 0 z + ((log2 m : Int) + e) * fxLn2

/-- floor (sqrt n): the bits below 2 ^ k, from the top. -/
def isqrt (n : Nat) : Nat → Nat → Nat
  | 0, r => r
  | k + 1, r => let c := r + 2 ^ k; if c * c ≤ n then isqrt n k c else isqrt n k r

/-- erf of a fixed-point value by its series to n terms. -/
def fxErf (n : Nat) (y : Int) : Int :=
  fxMul (2 * 2 ^ (2 * fxBits) / (isqrt ((fxPi * 2 ^ fxBits).toNat) 402 0 : Int)) (erfSum (fxMul y y) n 0 y)

/-- The free value where it lies within `bound` of the exact value, else the exact value rounded (R73, log 12). -/
def limitTo (bound exact : Num) (free : W32) : W32 :=
  match (ofF32 free).add exact.neg with
  | .fin _ m e => if (Num.fin false m e).cmp bound ≤ 0 then free else toF32 exact
  | _ => toF32 exact

/-- n units in the last place of a value. -/
def ulps (n : Nat) : Num → Num
  | .fin _ m e => .fin false n (if m = 0 then -149 else max ((log2 m : Int) + e - 23) (-149))
  | _ => .fin false n (-149)

/-- A value within n ulp of the exact one. -/
def nearUlp (n : Nat) (exact : Num) (free : W32) : W32 := limitTo (ulps n exact) exact free

/-! ## The functions of R73 -/

/-- sqrt, correctly rounded (R73). -/
def fSqrt (a : W32) : W32 :=
  match ofF32 a with
  | .nan => 0x7FC00000#32
  | .inf neg => if neg then 0x7FC00000#32 else 0x7F800000#32
  | .fin neg m e =>
    if m = 0 then a
    else if neg then 0x7FC00000#32
    else
      let e2 := e - e % 2
      let m2 := m * 2 ^ (e % 2).toNat * 2 ^ 60
      let r := isqrt m2 44 0
      let sticky := if r * r = m2 then 0 else 1
      toF32 (.fin false (2 * r + sticky) (e2 / 2 - 31))

/-- The FP32 code at or below p / q * 2 ^ e in magnitude (p, q > 0), and whether it is exact. -/
def floorF32 (p q : Nat) (e : Int) : Nat × Bool :=
  let s := 2 ^ 64
  let n := p * s * 2 ^ 64 / q
  let c := floatCode 0 1 0 n (e - 128)
  (min c 0x7F7FFFFF, decide (n * q = p * s * 2 ^ 64) && decide (floatCode 0 1 0 n (e - 128) = floatCode 0 0 0 n (e - 128))
    && (match decodeNum 0 c with | .fin _ m k => decide (m * 2 ^ (k - (e - 128)).toNat = n) | _ => false))

/-- One of the codes within 1 ulp of a magnitude whose lower neighbour is known: the free value picks (log 12). -/
def pickUlp (lo : Nat × Bool) (free : W32) : Nat :=
  if lo.2 then (let k := free.toNat % 3; if k = 1 then lo.1 + 1 else if k = 2 ∧ 0 < lo.1 then lo.1 - 1 else lo.1)
  else lo.1 + free.toNat % 2

/-- Reciprocal within 1 ulp (R73): from 2 ^ 128 on it is infinite. -/
def fRcp (a : W32) : W32 :=
  match ofF32 a with
  | .nan => 0x7FC00000#32
  | .inf neg => BitVec.ofNat 32 (signCode 0 neg 0)
  | .fin neg m e =>
    if m = 0 ∨ (e + 128 ≤ 0 ∧ m ≤ 2 ^ (-(e + 128)).toNat) then BitVec.ofNat 32 (signCode 0 neg 0x7F800000)
    else BitVec.ofNat 32 (signCode 0 neg (pickUlp (floorF32 1 m (-e)) (Config.elementary 5 a 0)))

/-- Reciprocal square root within 1 ulp (R73): the root of 1 / x taken to 64 extra bits. -/
def fRsq (a : W32) : W32 :=
  match ofF32 a with
  | .nan => 0x7FC00000#32
  | .inf neg => if neg then 0x7FC00000#32 else 0#32
  | .fin neg m e =>
    if m = 0 then BitVec.ofNat 32 (signCode 0 neg 0x7F800000)
    else if neg then 0x7FC00000#32
    else
      let e2 := e + e % 2
      let r := isqrt (2 ^ 200 * 2 ^ (e % 2).toNat / m) 102 0
      let c := floatCode 0 1 0 r (-100 - e2 / 2)
      let v := floatCode 0 0 0 r (-100 - e2 / 2)
      let ex := decide (r * r * m = 2 ^ 200 * 2 ^ (e % 2).toNat) && decide (c = v) &&
        (match decodeNum 0 c with | .fin _ mm k => decide (mm * 2 ^ (k + 100 + e2 / 2).toNat = r) | _ => false)
      BitVec.ofNat 32 (pickUlp (c, ex) (Config.elementary 6 a 0))

/-- exp at an exact argument: the special cases of R73, else a free value within 1 ulp (log 12). -/
def fExpAt (x : Num) (free : W32) : W32 :=
  match x with
  | .nan => 0x7FC00000#32
  | .inf neg => if neg then 0#32 else 0x7F800000#32
  | .fin .. => if 0 < x.cmpRat 887228 10000 then 0x7F800000#32 else if x.cmpRat (-103973) 1000 < 0 then 0#32 else nearUlp 1 (fxExp (fxOf x)) free

def fExp (a : W32) : W32 := fExpAt (ofF32 a) (Config.elementary 0 a 0)

def fExp2 (a : W32) : W32 :=
  match ofF32 a with
  | .nan => 0x7FC00000#32
  | .inf neg => if neg then 0#32 else 0x7F800000#32
  | x => if 0 ≤ x.cmpRat 128 1 then 0x7F800000#32 else if x.cmpRat (-150) 1 < 0 then 0#32
    else nearUlp 1 (fxExp (fxMul (fxOf x) fxLn2)) (Config.elementary 1 a 0)

/-- expsub: x − m taken exactly (R73). -/
def fExpSub (a b : W32) : W32 := fExpAt ((ofF32 a).add (ofF32 b).neg) (Config.elementary 2 a b)

/-- log (f = 3) and log2. -/
def fLogOf (f : Nat) (a : W32) : W32 :=
  match ofF32 a with
  | .nan => 0x7FC00000#32
  | .inf neg => if neg then 0x7FC00000#32 else 0x7F800000#32
  | .fin neg m e =>
    if m = 0 then 0xFF800000#32
    else if neg then 0x7FC00000#32
    else nearUlp 1 (fxNum (if f = 3 then fxLog m e else fxDiv (fxLog m e) fxLn2)) (Config.elementary f a 0)

def fTanh (a : W32) : W32 :=
  match ofF32 a with
  | .nan => 0x7FC00000#32
  | x => if 0 ≤ x.cmpRat 901 100 then 0x3F800000#32 else if x.cmpRat (-901) 100 ≤ 0 then 0xBF800000#32
    else
      let e := fxOf (fxExp (2 * fxOf x))
      nearUlp 2 (fxNum (fxDiv (e - 2 ^ fxBits) (e + 2 ^ fxBits))) (Config.elementary 8 a 0)

def fSig (a : W32) : W32 :=
  match ofF32 a with
  | .nan => 0x7FC00000#32
  | x => if 0 ≤ x.cmpRat 1733 100 then 0x3F800000#32 else if x.cmpRat (-10397) 100 ≤ 0 then 0#32
    else
      let e := fxOf (fxExp (fxOf x))
      nearUlp 2 (fxNum (fxDiv e (2 ^ fxBits + e))) (Config.elementary 9 a 0)

def fErf (a : W32) : W32 :=
  match ofF32 a with
  | .nan => 0x7FC00000#32
  | x => if 0 ≤ x.cmpRat 392 100 then 0x3F800000#32 else if x.cmpRat (-392) 100 ≤ 0 then 0xBF800000#32
    else nearUlp 2 (fxNum (fxErf 200 (fxOf x))) (Config.elementary 10 a 0)

/-- GELU of a finite value above -14; from 14 on it is the value itself to far below an ulp. -/
def geluExact (x : Num) : Num :=
  if 0 ≤ x.cmpRat 14 1 then x
  else fxNum (fxMul (fxOf x) (2 ^ fxBits + fxErf 500 (fxDiv (fxOf x) (isqrt (2 * 2 ^ (2 * fxBits)) 402 0 : Int))) / 2)

/-- GELU: within 3 ulp, or 2 ^ -120 below 2 ^ -100 (R73). -/
def fGelu (a : W32) : W32 :=
  match ofF32 a with
  | .nan => 0x7FC00000#32
  | .inf neg => if neg then 0x80000000#32 else 0x7F800000#32
  | x =>
    if x.cmpRat (-14) 1 ≤ 0 then 0x80000000#32
    else
      let v := geluExact x
      let small : Bool := match v with | .fin _ m e => decide ((Num.fin false m e).cmp (.fin false 1 (-100)) < 0) | _ => false
      limitTo (if small then .fin false 1 (-120) else ulps 3 v) v (Config.elementary 11 a 0)

/-- rsum's reciprocal of the rounded sum: sum 0 gives +∞ (R73). -/
def fRcpSum (a : W32) : W32 := if (ofF32 a).isZero then 0x7F800000#32 else fRcp a

/-- One level of the pairwise tree. -/
def pairs (f : W32 → W32 → W32) : List W32 → List W32
  | a :: b :: r => f a b :: pairs f r
  | l => l

/-- The fixed pairwise tree over 32 lanes (R74). -/
def tree (f : W32 → W32 → W32) (l : List W32) : W32 :=
  (pairs f (pairs f (pairs f (pairs f (pairs f l))))).headD 0

/-! ## Stochastic rounding (R55, R56) -/

/-- One Galois shift. -/
def srShift (s : W32) : W32 := if s.toNat ≥ 2 ^ 31 then (s <<< 1) ^^^ 0x00400007#32 else s <<< 1

/-- n shifts. -/
def srShifts : Nat → W32 → W32
  | 0, s => s
  | n + 1, s => srShifts n (srShift s)

/-- The next random word, which is also the new state. -/
def srNext (s : W32) : W32 := srShifts 32 s

/-- A seed as loaded: 0 becomes 1. -/
def srSeed (x : W32) : W32 := if x = 0 then 1 else x

/-- Convert a list in order; under SR each element consumes one word. Codes, saturations, new state. -/
def convertAll (f rm : Nat) (ov : Bool) : List Num → W32 → List Nat × Nat × W32
  | [], sr => ([], 0, sr)
  | x :: xs, sr =>
    let sr := if rm = 2 then srNext sr else sr
    let c := convert f rm ov sr.toNat x
    let rest := convertAll f rm ov xs sr
    (c.1 :: rest.1, b2n c.2 + rest.2.1, rest.2.2)

/-- e_max of an MX element format (R53). -/
def fmtEmax (f : Nat) : Int := if f = 3 then 8 else if f = 4 then 15 else if f = 5 then 4 else if f = 6 ∨ f = 7 then 2 else 0

/-- An infinite source stands for the largest finite FP32 (R53). -/
def finiteOf : Num → Num
  | .inf neg => .fin neg (2 ^ 24 - 1) 104
  | x => x

/-- The exponent of floor (log2 |x|), none for zero. -/
def flog2 : Num → Option Int
  | .fin _ m e => if m = 0 then none else some ((log2 m : Int) + e)
  | _ => none

/-- The largest exponent among values. -/
def maxExp (l : List Num) : Option Int :=
  l.foldl (fun acc x => match flog2 x, acc with | some e, some a => some (max e a) | some e, none => some e | none, a => a) none

/-- One MX block (R53): scale code, element codes, saturations, new state of the register. -/
def toBlock (f rm : Nat) (ov : Bool) (l : List Num) (sr : W32) : Nat × List Nat × Nat × W32 :=
  if l.any Num.isNan then
    (0xFF, l.map (fun _ => 0), 0, if rm = 2 then l.foldl (fun s _ => srNext s) sr else sr)
  else
    let l := l.map finiteOf
    let k : Int := match maxExp l with | none => -127 | some e => min 127 (max (-127) (e - fmtEmax f))
    let c := convertAll f rm ov (l.map (Num.scale (-k))) sr
    ((k + 127).toNat, c.1, c.2.1, c.2.2)

/-! ## Packing (R46) -/

/-- Codes of width w packed from bit 0. -/
def packCodes (w : Nat) (l : List Nat) : Nat := l.foldr (fun c acc => c % 2 ^ w + 2 ^ w * acc) 0

/-- Element k of width w of a packed vector. -/
def elemAt (w : Nat) (v : Nat) (k : Nat) : Nat := bits v (w * k + w - 1) (w * k)

/-! ## The window and the block sum (R60, R61, R63) -/

/-- The value of a 96-bit window code. -/
def windowNum (v : BitVec 96) : Num := ofInt false v.toInt (-32)

/-- An FP32 value taken into the window (R63): nearest multiple, saturated; ±∞ the limits, NaN 0. -/
def toWindow (x : Num) : BitVec 96 :=
  match x with
  | .nan => 0
  | .inf neg => if neg then BitVec.ofInt 96 (-(2 ^ 95)) else BitVec.ofInt 96 (2 ^ 95 - 1)
  | .fin neg m e =>
    let n := roundShift 0 0 m (e + 32)
    BitVec.ofInt 96 (if neg then -(min n (2 ^ 95) : Nat) else (min n (2 ^ 95 - 1) : Nat))

/-- Σ a_j w_j in units of 2 ^ -32, over finite values (R60). -/
def blockSum (a w : List Num) : Int :=
  (List.zipWith (fun x y => match x.mul y with | .fin neg m e => sgn neg m * 2 ^ (e + 32).toNat | _ => 0) a w).foldl (· + ·) 0

end Sys2Proof.Machine
end

