-- ==== Sys2Proof/Machine/Operands.lean ====
section
/-! DEFINITION. The operand forms every family shares: the geometry of 01 (R13-R15, R20, R23, R24), unit indexes (R349, R367),
the mailbox header (R339) and device addresses (R245). -/
namespace Sys2Proof.Machine

/-! ## Sites -/

/-- A site's type (R15). -/
inductive SiteKind where
  | mx | mm | sf | su
deriving DecidableEq, Repr

/-- Column of a site. -/
def siteX (n : Nat) : Nat := n % 512
/-- Row of a site. -/
def siteY (n : Nat) : Nat := n / 512

/-- Columns and rows of the grid of a member (R2). -/
def gridCols (m : Nat) : Nat := if m = 2 then 256 else 512
def gridRows (m : Nat) : Nat := if m = 8 then 448 else 224

/-- Is the site fitted (R3)? -/
def sitePresent (m n : Nat) : Bool := decide (siteX n < gridCols m) && decide (siteY n < gridRows m)

/-- Position in the heddle, py * 4 + px. -/
def posOf (n : Nat) : Nat := (siteY n % 4) * 4 + siteX n % 4

/-- The type of a position (R15). -/
def kindOfPos (p : Nat) : SiteKind :=
  if p = 10 then .su
  else if p = 5 ∨ p = 14 then .sf
  else if p = 1 ∨ p = 3 ∨ p = 7 ∨ p = 8 ∨ p = 13 then .mm
  else .mx

/-- The type of a site (R15). -/
def kindOf (n : Nat) : SiteKind := kindOfPos (posOf n)

/-- Heddle number of a site (R14). -/
def heddleOf (n : Nat) : Nat := (siteY n / 4) * 128 + siteX n / 4

/-- The site at position p of heddle h. -/
def siteOf (h p : Nat) : Nat := ((h / 128) * 4 + p / 4) * 512 + (h % 128) * 4 + p % 4

/-- The SU of a heddle, at (2, 2). -/
def suOf (h : Nat) : Nat := siteOf h 10

/-- The sixteen sites of a heddle. -/
def heddleSites (h : Nat) : List Nat := (List.range 16).map (siteOf h)

/-- Bolt of a site (R14). -/
def boltOf (n : Nat) : Nat := siteX n / 128 + 4 * (siteY n / 224)

/-- Clock region of a site (R14). -/
def clockRegion (n : Nat) : Nat := boltOf n * 4 + (siteY n % 224) / 56

/-- Power region of a site (R14). -/
def powerRegion (n : Nat) : Nat := boltOf n * 8 + (siteY n % 224) / 28

/-- Power-region column and row of a region (R14). -/
def regionPc (r : Nat) : Nat := (r / 8) % 4
def regionPr (r : Nat) : Nat := 8 * (r / 32) + r % 8

/-- Region id from column and row (R14). -/
def regionId (pc pr : Nat) : Nat := 8 * (pc + 4 * (pr / 8)) + pr % 8

/-- Power regions of a member. -/
def numRegions (m : Nat) : Nat := 8 * m

/-- The heddles of a power region: 7 rows of 32. -/
def regionHeddles (r : Nat) : List Nat :=
  (List.range 7).flatMap fun j => (List.range 32).map fun i => (regionPr r * 7 + j) * 128 + regionPc r * 32 + i

/-- The step in a direction: N 0, E 1, S 2, W 3. -/
def neighbour (m n dir : Nat) : Option Nat :=
  if dir = 0 then (if siteY n = 0 then none else some (n - 512))
  else if dir = 1 then (if siteX n + 1 < gridCols m then some (n + 1) else none)
  else if dir = 2 then (if siteY n + 1 < gridRows m then some (n + 512) else none)
  else if dir = 3 then (if siteX n = 0 then none else some (n - 1))
  else none

/-- The input port a flit enters that left by output port `dir`. -/
def facing (dir : Nat) : Nat := (dir + 2) % 4

/-- Extra ACLK of the link out of n in a direction: 6 across bolts, 3 across clock regions of a bolt (R19). -/
def linkExtra (n dir : Nat) : Nat :=
  let x := siteX n
  let y := siteY n
  let b := if dir = 0 then y else if dir = 2 then y + 1 else if dir = 1 then x + 1 else x
  if dir = 0 ∨ dir = 2 then
    if b % 224 = 0 then 6 else if b % 224 = 56 ∨ b % 224 = 112 ∨ b % 224 = 168 then 3 else 0
  else if b % 128 = 0 then 6 else 0

/-- The attachment (ATT code of R178: 0-31 stacks, 32-63 ports) and its edge link at an output port of a site (R20).
The hub shares the edge links of port 0 at y = 0-3 (R21). -/
def attOf (m n dir : Nat) : Option (Nat × Nat) :=
  let x := siteX n
  let y := siteY n
  if dir = 0 ∧ y = 0 then some (x / 32, x % 32)
  else if dir = 2 ∧ y = 447 ∧ m = 8 then some (16 + x / 32, x % 32)
  else if dir = 3 ∧ x = 0 then some (32 + y / 28, y % 28)
  else if dir = 1 ∧ x = 511 ∧ m ≠ 2 then some (48 + y / 28, y % 28)
  else none

/-- The edge site of link l of an attachment, and the port that faces it (R20). -/
def edgeSite (att l : Nat) : Nat × Nat :=
  if att < 16 then (32 * att + l, 0)
  else if att < 32 then (447 * 512 + 32 * (att - 16) + l, 2)
  else if att < 48 then ((28 * (att - 32) + l) * 512, 3)
  else if att < 64 then ((28 * (att - 48) + l) * 512 + 511, 1)
  else (l * 512, 3)

/-- Stacks and ports fitted (R2, R3). -/
def stackPresent (m s : Nat) : Bool := decide (s < 4 * m)
def portPresent (m p : Nat) : Bool :=
  if m = 8 then decide (p < 32) else if m = 4 then decide (p < 8) || (decide (16 ≤ p) && decide (p < 24)) else decide (p < 8)

/-- Is the attachment fitted? -/
def attPresent (m a : Nat) : Bool :=
  if a < 32 then stackPresent m a else if a < 64 then portPresent m (a - 32) else decide (a = 64)

/-- The power region of an attachment (R20). -/
def attRegion (a : Nat) : Nat :=
  if a < 16 then 8 * (a / 4)
  else if a < 32 then 8 * (4 + (a - 16) / 4) + 7
  else if a < 48 then 8 * (4 * ((a - 32) / 8)) + (a - 32) % 8
  else if a < 64 then 8 * (3 + 4 * ((a - 48) / 8)) + (a - 48) % 8
  else 0

/-- Edge links of an attachment: 32 of a stack, 28 of a port, 4 of the hub. -/
def attLinks (a : Nat) : Nat := if a < 32 then 32 else if a < 64 then 28 else 4

/-- The heddle of an edge link of an attachment. -/
def attHeddles (a : Nat) : List Nat := ((List.range (attLinks a)).map fun l => heddleOf (edgeSite a l).1).eraseDups

/-! ## Area words (R23, R24) -/

def wPr1 (w : Nat) : Nat := bits w 15 12
def wPr0 (w : Nat) : Nat := bits w 11 8
def wPc1 (w : Nat) : Nat := bits w 7 6
def wPc0 (w : Nat) : Nat := bits w 5 4
def wArea (w : Nat) : Nat := bits w 3 0

/-- Does the word cover power region r (R23)? -/
def wCovers (w r : Nat) : Bool := within (wPc0 w) (wPc1 w) (regionPc r) && within (wPr0 w) (wPr1 w) (regionPr r)

/-- The regions a word covers. -/
def wRegions (w : Nat) : List Nat := (List.range 64).filter (wCovers w)

/-- Is the word valid on a member (R24)? -/
def wValid (m w : Nat) : Bool :=
  decide (wPc0 w ≤ wPc1 w) && decide (wPr0 w ≤ wPr1 w)
  && (if m = 8 then true else decide (wPr1 w ≤ 7)) && (if m = 2 then decide (wPc1 w ≤ 1) else true)
  && (decide (wPc0 w = 0) || (decide (m ≠ 2) && decide (wPc1 w = 3)) || decide (wPr0 w = 0) || (decide (m = 8) && decide (wPr1 w = 15)))

/-- Does the word cover a site? -/
def wHasSite (w n : Nat) : Bool := wCovers w (powerRegion n)

/-- Does an attachment lie in the area of the word (R21, R26)? -/
def wHasAtt (w a : Nat) : Bool := wCovers w (attRegion a)

/-- The heddles of an area word. -/
def wHeddles (w : Nat) : List Nat := (wRegions w).flatMap regionHeddles

/-! ## Units in reports: indirect indexes (R349, R367) -/

def stackIdx (s : Nat) : Nat := 0x10000000 + 0x100000 * s
def portIdx (p : Nat) : Nat := 0x20000000 + 0x100000 * p
def clockIdx (r : Nat) : Nat := 0x01000000 + 0x10000 * r
def regionIdx (r : Nat) : Nat := 0x02000000 + 0x10000 * r
def regulatorIdx (r : Nat) : Nat := 0x30000000 + 0x10000 * r
def hubIdx : Nat := 0x50000000

/-- The unit of an attachment. -/
def attIdx (a : Nat) : Nat := if a < 32 then stackIdx a else if a < 64 then portIdx (a - 32) else hubIdx

/-! ## The mailbox header (R339) -/

def hdrOpcode (c : Tab Byte) : Nat := leNat (bytesAt c 0 2)
def hdrSeq (c : Tab Byte) : Nat := leNat (bytesAt c 2 2)
def hdrPlen (c : Tab Byte) : Nat := leNat (bytesAt c 4 2)
def hdrArea (c : Tab Byte) : Nat := leNat (bytesAt c 6 2)
def hdrFlags (c : Tab Byte) : Nat := leNat (bytesAt c 8 2)
def hdrTag (c : Tab Byte) : Nat := leNat (bytesAt c 16 8)

/-- Are the header's reserved bytes and bits zero? -/
def hdrReservedOk (c : Tab Byte) : Bool :=
  decide (hdrFlags c < 4) && decide (leNat (bytesAt c 10 6) = 0) && decide (leNat (bytesAt c 24 8) = 0)

/-- n bytes of parameters at offset o (from byte 32). -/
def par (c : Tab Byte) (o n : Nat) : Nat := leNat (bytesAt c (32 + o) n)

/-- The parameter bytes. -/
def parBytes (c : Tab Byte) (o n : Nat) : List Byte := bytesAt c (32 + o) n

end Sys2Proof.Machine
end

