-- ==== Sys2Proof/Machine/Array.lean ====
section
/-! DEFINITION. The stores of MX and SF sites (R160-R169, R217-R230): the mode word, lane, scale and check stores, the rows of operand SRAM, the
sum of an SPMAC, and what each due act changes. Pure functions of one site. -/
namespace Sys2Proof.Machine

/-! ## Pointers and rings -/

/-- A pointer moved on by k cells, its wrap bit inverted past the last cell (R121). -/
def ptrAdd (cap p k : Nat) : Nat :=
  let i := p % 32768 + k
  if i < cap then p / 32768 * 32768 + i else (1 - p / 32768 % 2) * 32768 + (i - cap)

/-- The distance b − a of two pointers. -/
def ptrSub (cap b a : Nat) : Nat :=
  if b / 32768 = a / 32768 then b % 32768 - a % 32768 else cap + b % 32768 - a % 32768

/-- Does the low half of a flit hold a sour segment, and the high half? -/
def lowSour (f : Flit) : Bool := decide (f.sour.toNat % 16 ≠ 0)
def highSour (f : Flit) : Bool := decide (f.sour.toNat / 16 ≠ 0)

/-! ## Delivery rings (R158, R159) -/

def rgEn (d : W64) : Bool := bit d.toNat 63
def rgBase (d : W64) : Nat := bits d.toNat 62 52
def rgLenM1 (d : W64) : Nat := bits d.toNat 51 41

/-- Rows held: pointers are row indexes with a wrap bit, as a creel's with one row a cell. -/
def ringOcc (r : Ring) : Nat := ptrSub (rgLenM1 r.desc + 1) r.wptr r.rptr

/-- May ring descriptors stand together on a site with `rows` rows (R492)? -/
def ringSetOk (rows : Nat) (l : List W64) : Bool :=
  l.all (fun d => decide (rgBase d + rgLenM1 d ≤ rows - 1)) && (List.range l.length).all fun i => (List.range i).all fun j =>
    let x := l.getD i 0
    let y := l.getD j 0
    !(rgEn x && rgEn y && decide (rgBase x ≤ rgBase y + rgLenM1 y) && decide (rgBase y ≤ rgBase x + rgLenM1 x))

/-- Apply a ring descriptor: in force, pointers 0. -/
def Ring.apply (d : W64) (r : Ring) : Ring := { r with desc := d, staged := d, wptr := 0, rptr := 0 }

/-- RPTR moves on by n rows, unless it would pass WPTR (R159). -/
def Ring.release (n : Nat) (r : Ring) : Option Ring :=
  if ringOcc r < n then none else some { r with rptr := ptrAdd (rgLenM1 r.desc + 1) r.rptr n }

/-- The ring a tag names, if it is well formed (R158): KIND 0, bits 9:4 zero, below `rings`. -/
def ringTag (rings tag : Nat) : Option Nat := if bits tag 11 4 = 0 ∧ tag % 16 < rings then some (tag % 16) else none

/-! ## Fields of the mode word (R163) -/

def mFS (m : W32) : Nat := bits m.toNat 3 0
def mFA (m : W32) : Nat := bits m.toNat 7 4
def mFO (m : W32) : Nat := bits m.toNat 11 8
def mSCS (m : W32) : Bool := bit m.toNat 12
def mSCA (m : W32) : Bool := bit m.toNat 13
def mSCO (m : W32) : Bool := bit m.toNat 14
def mRM (m : W32) : Nat := bits m.toNat 16 15
def mOV (m : W32) : Bool := bit m.toNat 17
def mCHK (m : W32) : Bool := bit m.toNat 18
def mIO (m : W32) : Bool := bit m.toNat 19
def mSP (m : W32) : Bool := bit m.toNat 20
def mOM (m : W32) : Bool := bit m.toNat 21

/-- INT8 or INT4. -/
def isIntOp (f : Nat) : Bool := f == 9 || f == 10
def isMxElem (f : Nat) : Bool := f == 5 || f == 6 || f == 7 || f == 8
def isMxOut (f : Nat) : Bool := within 3 8 f

/-- INT operand pairs accumulate in the window (R63). -/
def mWindow (m : W32) : Bool := isIntOp (mFS m) && isIntOp (mFA m)

/-- May two formats be paired (R59)? -/
def pairOk (fs fa : Nat) : Bool :=
  (decide (fmtWidth fs ≤ 8) && decide (fmtWidth fa ≤ 8)) || (within 1 2 fs && within 1 2 fa) || (fs == 0 && fa == 0)

/-- A mode word without a reserved code (R153, R162, R163). -/
def modeCodesOk (m : W32) : Bool :=
  decide (mFS m ≤ 10) && decide (mFA m ≤ 10) && decide (mFO m ≤ 11) && decide (mRM m ≠ 3) && decide (m.toNat < 2 ^ 22)

/-- The load rules of R163. -/
def modeOk (m : W32) : Bool :=
  modeCodesOk m && pairOk (mFS m) (mFA m)
  && (!isMxElem (mFS m) || mSCS m) && (!isMxElem (mFA m) || mSCA m)
  && !(mSCS m && (decide (8 < fmtWidth (mFS m)) || isIntOp (mFS m))) && !(mSCA m && (decide (8 < fmtWidth (mFA m)) || isIntOp (mFA m)))
  && (!mSCO m || isMxOut (mFO m)) && !(mSP m && decide (8 < fmtWidth (mFS m)))
  && (!mWindow m || (if mIO m then decide (mFO m ≤ 8) else (decide (9 ≤ mFO m) && !mSCO m)))

/-! ## The lane store (R162, R217, R218) -/

/-- Bytes and count of lane-store blocks of FS. -/
def blockBytes (m : W32) : Nat :=
  let w := fmtWidth (mFS m)
  if mSP m then (if w = 8 then 20 else if w = 6 then 16 else 12) else 4 * w
def laneBlocks (m : W32) : Nat :=
  let w := fmtWidth (mFS m)
  if mSP m then (if w = 8 then 51 else if w = 6 then 64 else 85)
  else if w = 4 then 64 else if w = 16 then 16 else if w = 32 then 8 else 32

/-- Twice the ACLK per block: the row of the wider operand (R58, R166, R219). -/
def cpb2 (m : W32) : Nat :=
  let w := max (fmtWidth (mFS m)) (fmtWidth (mFA m))
  if w = 32 then 64 else if w = 16 then 16 else if w = 8 then (if mSP m then 2 else 4) else if mSP m then 1 else 2

/-- Bytes o … o + n - 1 of lane i. -/
def laneBytes (x : Mx) (i o n : Nat) : List Byte := bytesAt x.lanes (1024 * i + o) n

/-- Is any 64-B grain of a byte range of the lane sour? -/
def laneSour (x : Mx) (i o n : Nat) : Bool :=
  (List.range ((o + n - 1) / 64 - o / 64 + 1)).any fun j => look false x.lsour (16 * i + o / 64 + j)

/-- The 32 stationary elements of block b of lane i as dense positions: under SP the stored values whose index maps to each
position, one list each (R217). -/
def stationary (x : Mx) (m : W32) (i b : Nat) : List (List Num) :=
  let p := blockBytes m
  let w := fmtWidth (mFS m)
  let v := leNat (laneBytes x i (b * p) p)
  if mSP m then
    (List.range 32).map fun j =>
      ((List.range 16).filter fun k => decide (4 * (k / 2) + bits v (2 * w * 8 + 2 * k + 1) (2 * w * 8 + 2 * k) = j)).map fun k =>
        decodeNum (mFS m) (elemAt w v k)
  else (List.range 32).map fun j => [decodeNum (mFS m) (elemAt w v j)]

/-- Scale code of block b of lane i; 127 without scales. -/
def laneScale (x : Mx) (m : W32) (i b : Nat) : Nat := if mSCS m then (look 0 x.scales (64 * i + b)).toNat else 127

/-- Blocks with a valid bit whose bytes a write to bytes o … o + n - 1 of a lane touches. -/
def blocksOf (m : W32) (o n : Nat) : List Nat :=
  (List.range 64).filter fun b => decide (b * blockBytes m < o + n) && decide (o < (b + 1) * blockBytes m)

/-- Clear valid bits, and with each the record of its written check rows (R165). -/
def invalidate (l : List Nat) (x : Mx) : Mx :=
  l.foldl (fun x b => { x with valid := BitVec.ofNat 64 (x.valid.toNat &&& (2 ^ 64 - 1 - 2 ^ b))
                               ldcRows := BitVec.ofNat 128 (x.ldcRows.toNat &&& (2 ^ 128 - 1 - 3 * 2 ^ (2 * b))) }) x

/-- Set valid bits. -/
def validate (l : List Nat) (x : Mx) : Mx := l.foldl (fun x b => { x with valid := x.valid ||| BitVec.ofNat 64 (2 ^ b) }) x


/-! ## Rows of operand SRAM (R160) -/

/-- Is a row address of n rows good (R160)? -/
def rowsOk (a n : Nat) : Bool := decide (a % 128 = 0) && decide (a + 128 * n ≤ 196608)

/-- Is a grain range of operand SRAM sour? -/
def mxSour (x : Mx) (a n : Nat) : Bool :=
  (List.range ((a + n - 1) / 64 - a / 64 + 1)).any fun j => look false x.gsour (a / 64 + j)

/-- Write a row of operand SRAM; sour segments 0-3 and 4-7 mark its two grains. -/
def mxPutRow (a : Nat) (f : Flit) (x : Mx) : Mx :=
  { x with mem := putBytes x.mem a (rowBytes f.data)
           gsour := put false (put false x.gsour (a / 64) (lowSour f)) (a / 64 + 1) (highSour f) }

/-! ## Check weights (R66, R70, R220) -/

/-- Σ of a list of exact values in units of 2 ^ -k; NaN and infinities contribute 0. -/
def unitSum (k : Nat) (l : List Num) : Int :=
  l.foldl (fun acc x => match x with | .fin neg m e => acc + sgn neg m * 2 ^ (e + k).toNat | _ => acc) 0

/-- The smallest scale code of the sixteen lanes of block b. -/
def minScale (x : Mx) (m : W32) (b : Nat) : Nat := (List.range 16).foldl (fun a i => min a (laneScale x m i b)) 255

/-- The sixteen lanes' stationary elements of block b, with d_i. -/
def blockLanes (x : Mx) (m : W32) (b : Nat) : List (Nat × List (List Num)) :=
  (List.range 16).map fun i => (laneScale x m i b - minScale x m b, stationary x m i b)

/-- The CW code of element j (R66): Σ 2 ^ d_i w_ij in units of 2 ^ -16 modulo 2 ^ 64. -/
def checkWeight (l : List (Nat × List (List Num))) (j : Nat) : W64 :=
  BitVec.ofInt 64 ((l.map fun x => (2 : Int) ^ x.1 * unitSum 16 (x.2.getD j [])).foldl (· + ·) 0)

/-- Generate the check weights of a block (R70). -/
def genBlock (b : Nat) (m : W32) (x : Mx) : Mx :=
  let l := blockLanes x m b
  validate [b] { x with check := (List.range 32).foldl (fun t j => put 0 t (32 * b + j) (checkWeight l j)) x.check }

/-! ## What a MAC reads (R166) -/

/-- Bytes of the streaming operand of one block. -/
def streamBytes (m : W32) : Nat := 4 * fmtWidth (mFA m)

/-- Stalls of R390 that stand before block g: they are spread evenly between the blocks. -/
def MacOp.stallsTo (o : MacOp) (g : Nat) : Nat := if o.n * o.kb ≤ 1 then 0 else g * o.st / (o.n * o.kb - 1)

/-- The ACLK in which block g's last byte is consumed (R166), later by the stalls so far (R390) and by droops (R393). -/
def MacOp.lastUse (o : MacOp) (g : Nat) : Nat := o.t + 2 + ((g + 1) * cpb2 o.mode + 1) / 2 - 1 + o.stallsTo g + o.stalls

/-- The ACLK at which block g enters its accumulator: u + 6 (R166). -/
def MacOp.entryAt (o : MacOp) (g : Nat) : Nat := o.lastUse g + 6

/-- The end of a MAC's busy time (R166) without what droops add. -/
def MacOp.busyEnd (o : MacOp) : Nat := o.t + (o.n * o.kb * cpb2 o.mode + 1) / 2 + 8 + 2 * o.slk
/-- The ACLK from which its accumulators may be read. -/
def MacOp.readable (o : MacOp) : Nat := o.busyEnd + 8

/-- Is vector v of a MAC formed: not skipped, or audited (R238, R239)? -/
def MacOp.forms (o : MacOp) (v : Nat) : Bool := !(o.skips.getD v false) || o.audit.getD v false

/-- The first byte, counted from `base`, that the vectors formed use of the row at r; each vector has vb bytes from base on. -/
def MacOp.firstUse (o : MacOp) (base vb r : Nat) : Option Nat :=
  (List.range o.n).findSome? fun v =>
    let b := base + v * vb
    if o.forms v ∧ b < r + 128 ∧ r < b + vb then some (max r b - base) else none

/-- The rows of n · vb bytes at `base` that are read, `lead` ACLK before the first of their bytes is consumed; a block has bb bytes. -/
def MacOp.rowsRead (o : MacOp) (base vb bb lead : Nat) : List (Nat × Nat) :=
  (List.range ((base + o.n * vb - 1) / 128 - base / 128 + 1)).filterMap fun q =>
    let r := 128 * (base / 128 + q)
    (o.firstUse base vb r).map fun k => (o.t + 2 + k * cpb2 o.mode / (2 * bb) + o.stallsTo (k / bb) - lead, r)

/-- Element rows are read in the ACLK before their first byte is consumed, scale rows two before (R166). -/
def macReads (o : MacOp) : List MxDue :=
  let f := fun (sc : Bool) (y : Nat × Nat) => ({ at_ := y.1, pc := some o.pc, act := .mac o.t sc y.2 } : MxDue)
  (o.rowsRead o.ae (o.kb * streamBytes o.mode) (streamBytes o.mode) 1).map (f false)
  ++ (if mSCA o.mode then (o.rowsRead o.sa o.kb 1 2).map (f true) else [])

/-- A row of operand SRAM as it stands. -/
def Mx.readRow (x : Mx) (sc : Bool) (a : Nat) : MacRow :=
  { scale := sc, addr := a, data := rowOf (bytesAt x.mem a 128), lo := look false x.gsour (a / 64), hi := look false x.gsour (a / 64 + 1) }

/-- The row that holds a byte of an operand of the MAC, if it has got it. -/
def MacOp.rowAt (o : MacOp) (sc : Bool) (a : Nat) : Option MacRow := o.rows.find? fun r => r.scale == sc && decide (r.addr = a / 128 * 128)

/-- A byte of an operand: a byte of a row that the MAC did not get is free (R160, log 23). -/
def MacOp.byteAt (o : MacOp) (sc : Bool) (a : Nat) : Byte :=
  match o.rowAt sc a with
  | some r => BitVec.ofNat 8 (r.data.toNat / 2 ^ (8 * (a % 128)))
  | none => Config.unreadByte o.t a

/-- n streaming bytes at a, and whether a grain of them is sour. -/
def MacOp.operand (o : MacOp) (sc : Bool) (a n : Nat) : List Byte := (List.range n).map fun j => o.byteAt sc (a + j)
def MacOp.operandSour (o : MacOp) (sc : Bool) (a n : Nat) : Bool :=
  (List.range n).any fun j => match o.rowAt sc (a + j) with
    | some r => if (a + j) % 128 < 64 then r.lo else r.hi
    | none => false

/-- The rows still needed once `next` blocks have entered. -/
def MacOp.trimmed (o : MacOp) (next : Nat) : MacOp :=
  { o with next := next, rows := o.rows.filter fun r =>
      if r.scale then decide (o.sa + next < r.addr + 128) else decide (o.ae + next * streamBytes o.mode < r.addr + 128) }

/-- The sixteen lanes' entries of accumulator e. -/
def accsAt (x : Mx) (e : Nat) : List Acc := (List.range 16).map fun i => look default x.acc (256 * i + e)
def putAccs (e : Nat) (l : List Acc) (x : Mx) : Mx :=
  { x with acc := (List.zip l (List.range 16)).foldl (fun t y => put default t (256 * y.2 + e) y.1) x.acc }

/-! ## What a due act changes (R165, R167, R237, R491) -/

/-- One source row of LDS into a lane-store row, with its grains' marks; the blocks it touches lose their valid bits. -/
def ldsRow (a lane row : Nat) (m : W32) (x : Mx) : Mx :=
  invalidate (blocksOf m (128 * row) 128) { x with
    lanes := putBytes x.lanes (1024 * lane + 128 * row) (bytesAt x.mem a 128)
    lsour := put false (put false x.lsour (16 * lane + 2 * row) (look false x.gsour (a / 64))) (16 * lane + 2 * row + 1) (look false x.gsour (a / 64 + 1)) }

/-- One source row of LDSS: a scale-store row holds every block of two lanes, so every valid bit is cleared. -/
def ldssRow (a q : Nat) (x : Mx) : Mx :=
  invalidate (List.range 64) { x with
    scales := putBytes x.scales (128 * q) (bytesAt x.mem a 128)
    ssour := put false (put false x.ssour (2 * q) (look false x.gsour (a / 64))) (2 * q + 1) (look false x.gsour (a / 64 + 1)) }

/-- One check row of LDC: 16 CW words; a block whose two rows are written becomes valid. -/
def ldcRow (a q : Nat) (x : Mx) : Mx :=
  let x := { x with check := (List.range 16).foldl (fun t j => put 0 t (16 * q + j) (BitVec.ofNat 64 (leNat (bytesAt x.mem (a + 8 * j) 8)))) x.check
                    ldcRows := x.ldcRows ||| BitVec.ofNat 128 (2 ^ q) }
  if bits x.ldcRows.toNat (q / 2 * 2 + 1) (q / 2 * 2) = 3 then validate [q / 2] x else x

/-- Load k entries from e on from a row (R491): lane i of entry e + r takes element 16 r + i; sour grains mark what they load. -/
def accRow (a e k : Nat) (x : Mx) : Mx :=
  (List.range k).foldl (fun x r => putAccs (e + r) ((List.range 16).map fun i =>
    { window := false, v := BitVec.ofNat 96 (leNat (bytesAt x.mem (a + 4 * (16 * r + i)) 4)), sour := look false x.gsour (a / 64 + r) }) x) x

/-- k entries from e on set to +0, clean. -/
def zeroAccs (e k : Nat) (x : Mx) : Mx := (List.range k).foldl (fun x j => putAccs (e + j) (List.replicate 16 default) x) x

/-- The address whose row an act accesses, if it accesses operand SRAM (R160). -/
def MxAct.addr : MxAct → Option Nat
  | .row a _ => some a
  | .lds a _ _ _ => some a
  | .ldss a _ => some a
  | .ldc a _ => some a
  | .ldk a => some a
  | .acc a _ _ => some a
  | .mac _ _ a => some a
  | .zero _ _ => none
  | .genc _ _ => none
  | .rowchk => none

/-- What an act that is performed changes. -/
def MxAct.perform (x : Mx) : MxAct → Mx
  | .row a f => mxPutRow a f x
  | .lds a l r m => ldsRow a l r m x
  | .ldss a q => ldssRow a q x
  | .ldc a q => ldcRow a q x
  | .ldk a => { x with skip := { x.skip with mask := BitVec.ofNat 256 (leNat (bytesAt x.mem a 32)) } }
  | .acc a e k => accRow a e k x
  | .mac t sc a => { x with macs := x.macs.map fun o => if o.t = t then { o with rows := o.rows ++ [x.readRow sc a] } else o }
  | .zero e k => zeroAccs e k x
  | .genc b m => genBlock b m x
  | .rowchk => x

/-- n acts, one an ACLK from t on, of the instruction at pc. -/
def dueActs (t n : Nat) (pc : Nat) (f : Nat → MxAct) : List MxDue := (List.range n).map fun q => { at_ := t + q, pc := some pc, act := f q }

/-! ## SPMAC (R228-R230) -/

/-- Elements a lane holds in FS. -/
def laneElems (m : W32) : Nat := 32 * laneBlocks m

/-- One update flit of a record flit: sub-step j of N (R229, R230): the flit, and whether a COL was beyond the lane. -/
def spUpdate (x : Mx) (o : SpOp) (f : Flit) (j : Nat) : Flit × Bool :=
  let n := 2 ^ o.nlog
  let w := fmtWidth (mFS o.mode)
  let recOf := fun k => j * (16 / n) + k / n
  let tag := fun k => (laneOf f.data (2 * recOf k + 1)).toNat
  let col := fun k => bits (tag k) 26 15
  let bad := fun k => decide (laneElems o.mode ≤ col k)
  let elem := fun k => let v := leNat (laneBytes x k (w * col k / 8) 5); decodeNum (mFS o.mode) (bits v (w * col k % 8 + w - 1) (w * col k % 8))
  let prod := fun k => if bad k then (0 : W32) else toF32 ((ofF32 (laneOf f.data (2 * recOf k))).mul (elem k))
  let addr := fun k => BitVec.ofNat 32 ((bits (tag k) 14 0 * n + k % n) % 32768 + (if bit (tag k) 30 then 0 else 2 ^ 31))
  let sour := fun k => bit f.sour.toNat (2 * recOf k / 4) || laneSour x k (w * col k / 8) ((w + 7) / 8)
  let marks := (List.range 16).foldl (fun b k => if sour k then
    b ||| BitVec.ofNat 8 (2 ^ (k / 4)) ||| (if bit f.sour.toNat (2 * recOf k / 4) then BitVec.ofNat 8 (2 ^ (4 + k / 4)) else 0) else b) (0 : Byte)
  ({ data := ofLanes ((List.range 16).map prod ++ (List.range 16).map addr), sour := marks }, (List.range 16).any bad)

/-- A flit as a row gives it back: a sour grain gives four sour segments. -/
def MacRow.flit (r : MacRow) : Flit := { data := r.data, sour := BitVec.ofNat 8 (15 * b2n r.lo + 240 * b2n r.hi) }

/-- The row address of the flit d rows on from RPTR. -/
def ringRow (r : Ring) (d : Nat) : Nat := 128 * (rgBase r.desc + ptrAdd (rgLenM1 r.desc + 1) r.rptr d % 32768)

/-- The flit that an SPMAC reads in ACLK u, if it reads one: t + 1 + f N (R229). -/
def SpOp.readAt (o : SpOp) (u : Nat) : Option Nat :=
  let n := 2 ^ o.nlog
  if o.t + 1 ≤ u ∧ (u - o.t - 1) % n = 0 ∧ (u - o.t - 1) / n < o.nf then some ((u - o.t - 1) / n) else none

/-- The ring row it reads in ACLK u. -/
def Mx.spRow (x : Mx) (u : Nat) : Option Nat :=
  match x.spmac with
  | some o => if o.at_ = u then (o.readAt u).map fun f => ringRow (look default x.rings o.ring) (f - o.freed) else none
  | none => none

/-- An SPMAC takes a flit; one whose read clashed is free (log 23). -/
def spTake (ok : Bool) (a : Nat) (x : Mx) : Mx :=
  { x with spmac := x.spmac.map fun o => { o with flit :=
      if ok then (x.readRow false a).flit else { data := rowOf ((List.range 128).map fun i => Config.unreadByte o.t (a + i)), sour := 0 } } }

/-- The end of ACLK u for an SPMAC: RPTR passes flit f at t + 2 + (f + 1) N; the SPMAC is over with the last (R229). -/
def spEnd (u : Nat) (x : Mx) : Mx :=
  match x.spmac with
  | none => x
  | some o =>
    if o.at_ ≠ u then x else
    let n := 2 ^ o.nlog
    let k := u - o.t - 1
    let free := decide (o.t + 1 + n ≤ u) && decide (k % n = 0)
    { x with
      rings := if free then alter default x.rings o.ring (fun r => { r with rptr := ptrAdd (rgLenM1 r.desc + 1) r.rptr 1 }) else x.rings
      spmac := if o.nf * n ≤ k then none else some { o with at_ := u + 1, freed := o.freed + b2n free } }

/-! ## The SF site's SRAM (R169, R170) -/

/-- Write a row of the SRAM with the marks of its two grains. -/
def sfPutRow (a : Nat) (x : Flit) (f : Sf) : Sf :=
  { f with mem := putBytes f.mem a (rowBytes x.data)
           gsour := put false (put false f.gsour (a / 64) (lowSour x)) (a / 64 + 1) (highSour x) }

/-- The row at an address: a sour grain gives four sour segments. -/
def sfRow (f : Sf) (a : Nat) : Vec :=
  { data := rowOf (bytesAt f.mem a 128)
    sour := BitVec.ofNat 8 (15 * b2n (look false f.gsour (a / 64)) + 240 * b2n (look false f.gsour (a / 64 + 1))) }

/-- The address an act accesses. -/
def SfAct.addr : SfAct → Nat
  | .row a _ => a
  | .load a _ _ => a

/-- The result of LDV due at ACLK d in v[n]. -/
def isLoad (d n : Nat) (x : SfWb) : Bool := decide (x.due = d) && decide (x.dst = .v n)

/-- What an act that is performed changes: LDV's result takes the row's value. -/
def SfAct.perform (f : Sf) : SfAct → Sf
  | .row a x => sfPutRow a x f
  | .load a d n => { f with wb := f.wb.map fun x => if isLoad d n x then { x with val := sfRow f a } else x }

/-- An act that is not performed: LDV's result is not written (R160). -/
def SfAct.drop (f : Sf) : SfAct → Sf
  | .row _ _ => f
  | .load _ d n => { f with wb := f.wb.filter fun x => !isLoad d n x }

end Sys2Proof.Machine
end

