-- ==== Sys2Proof/Machine/Flags.lean ====
section
/-! DEFINITION. Flags: the classes of fault codes (R10, R434), the STATUS bits of a barrier flit (R181), the vote of a
triplicated field (R372), mailbox status values (R341). -/
namespace Sys2Proof.Machine

/-- Class and block of a fault code (R10). -/
def codeClass (c : Nat) : Nat := bits c 15 12
def codeBlock (c : Nat) : Nat := bits c 11 8

/-- Counted events whose owning chapter marks them with an interrupt (R349). -/
def interrupting (c : Nat) : Bool :=
  [0x1119, 0x1609, 0x1711, 0x1713, 0x1714, 0x1721, 0x1802, 0x1D11, 0x1A04, 0x1A05, 0x1A07, 0x1A09, 0x1B01, 0x1B03,
   0x1B06, 0x1D20, 0x1D21, 0x1D23, 0x1E02, 0x1E03, 0x1D44, 0x1D45, 0x1D52, 0x1C31, 0x1C32].contains c

/-- Does a code write an event record (R349)? -/
def recorded (c : Nat) : Bool := within 3 7 (codeClass c) || interrupting c

/-- The MSI-X vector of a record (R348). -/
def vectorOf (c : Nat) : Nat := if codeClass c ≤ 3 then 8 else 9

/-- STATUS bits of R181. -/
def stRow : Nat := 1
def stSour : Nat := 2
def stTiming : Nat := 4

/-- Does a class 0x3 report fail the step by itself? MM_UE fails it only where its sour reaches a result (R139). -/
def failsStep (c : Nat) : Bool := c != 0x3202

/-- The STATUS bit that a class 0x3 report sets: the row check's own, none for MM_UE, else timing-broken (log 20). -/
def statusOf (c : Nat) : Nat := if c = 0x3101 then stRow else if failsStep c then stTiming else 0

/-- Sour origins of R434. -/
def sourOrigin (c : Nat) : Bool := [0x3101, 0x3202, 0x3603, 0x3502, 0x3702, 0x3703, 0x3810, 0x3520].contains c

/-- OR of two STATUS words. -/
def stOr (a b : Nat) : Nat := a ||| b

/-! ## Triplicated fields (R372) -/

/-- The bitwise majority of the copies. -/
def Tri.val (t : Tri) : Nat := (t.a &&& t.b) ||| (t.a &&& t.c) ||| (t.b &&& t.c)

/-- Do the copies agree? -/
def Tri.agree (t : Tri) : Bool := decide (t.a = t.b) && decide (t.b = t.c)

/-- Are no two copies equal? -/
def Tri.split (t : Tri) : Bool := decide (t.a ≠ t.b) && decide (t.b ≠ t.c) && decide (t.a ≠ t.c)

/-- The copies after a vote. -/
def Tri.voted (t : Tri) : Tri := Tri.of t.val

/-! ## Mailbox status values (R341) -/

def mOk : Nat := 0
def mBadOpcode : Nat := 0x0001
def mBadHeader : Nat := 0x0002
def mBadParam : Nat := 0x0003
def mNotOwner : Nat := 0x0004
def mAborted : Nat := 0x0005
def mTimeout : Nat := 0x0006
def mHostDma : Nat := 0x0007
def mNoUnit : Nat := 0x0008
def mLateWrite : Nat := 0x0009
def mNotReady : Nat := 0x000A
def mAreaShape : Nat := 0x0010
def mAreaOverlap : Nat := 0x0011
def mAreaLimit : Nat := 0x0012
def mAreaBusy : Nat := 0x0013
def mAreaFenced : Nat := 0x0014
def mNoArea : Nat := 0x0015
def mJobRunning : Nat := 0x0020
def mNoDmaLane : Nat := 0x0021
def mEmpty : Nat := 0x0022
def mNoDraft : Nat := 0x0023
def mStartLate : Nat := 0x0024
def mNoExpect : Nat := 0x0025
def mAccessLive : Nat := 0x0030
def mAccessLocked : Nat := 0x0031
def mNoRoute : Nat := 0x0040
def mDenied : Nat := 0x0041
def mRange : Nat := 0x0042
def mSour : Nat := 0x0043

/-- Job states of JOB_STATUS (R343). -/
def jNone : Nat := 0
def jLoaded : Nat := 1
def jRunning : Nat := 2
def jHalted : Nat := 3
def jEnded : Nat := 4

end Sys2Proof.Machine
end

