-- ==== Sys2Proof/Machine/Ops.lean ====
section
/-! DEFINITION. The named operations every family uses: access to units, areas and steps, counting and reporting faults
(R10, R349, R434), halting (R108), ending a job (R354), and the advance of time. -/
namespace Sys2Proof.Machine

/-! ## Units -/

def portAt (s : State) (i : Nat) : Port := look default s.ports i
def modPort (i : Nat) (g : Port → Port) (s : State) : State := { s with ports := alter default s.ports i g }

def winAt (s : State) (i : Nat) : Window := look default s.wins i
def modWin (i : Nat) (g : Window → Window) (s : State) : State := { s with wins := alter default s.wins i g }

def areaAt (s : State) (i : Nat) : Area := look Area.reset s.areas i
def modArea (i : Nat) (g : Area → Area) (s : State) : State := { s with areas := alter Area.reset s.areas i g }

def aregAt (s : State) (i : Nat) : AreaRegs := look AreaRegs.reset s.aregs i
def modAreg (i : Nat) (g : AreaRegs → AreaRegs) (s : State) : State := { s with aregs := alter AreaRegs.reset s.aregs i g }

def swAt (s : State) (i : Nat) : Switch := look default s.sw i
def modSw (i : Nat) (g : Switch → Switch) (s : State) : State := { s with sw := alter default s.sw i g }

def mmAt (s : State) (i : Nat) : Mm := look default s.mm i
def modMm (i : Nat) (g : Mm → Mm) (s : State) : State := { s with mm := alter default s.mm i g }

def mxAt (s : State) (i : Nat) : Mx := look default s.mx i
def modMx (i : Nat) (g : Mx → Mx) (s : State) : State := { s with mx := alter default s.mx i g }

def sfAt (s : State) (i : Nat) : Sf := look default s.sf i
def modSf (i : Nat) (g : Sf → Sf) (s : State) : State := { s with sf := alter default s.sf i g }

def suAt (s : State) (i : Nat) : Su := look default s.su i
def modSu (i : Nat) (g : Su → Su) (s : State) : State := { s with su := alter default s.su i g }

def attAt (s : State) (i : Nat) : Attach := look default s.att i
def modAtt (i : Nat) (g : Attach → Attach) (s : State) : State := { s with att := alter default s.att i g }

def stackAt (s : State) (i : Nat) : Stack := look default s.stks i
def modStack (i : Nat) (g : Stack → Stack) (s : State) : State := { s with stks := alter default s.stks i g }

def shtAt (s : State) (i : Nat) : Shuttle := look default s.sht i
def modSht (i : Nat) (g : Shuttle → Shuttle) (s : State) : State := { s with sht := alter default s.sht i g }

def regionAt (s : State) (i : Nat) : Region := look Region.reset s.regions i
def modRegion (i : Nat) (g : Region → Region) (s : State) : State := { s with regions := alter Region.reset s.regions i g }

/-- Change every unit of one kind that a predicate picks. -/
def whereTab {α : Type} [DecidableEq α] (d : α) (p : Nat → Bool) (f : α → α) (t : Tab α) : Tab α :=
  mapTab d (fun k v => if p k then f v else v) t

/-- The family member (R5). -/
def State.member (s : State) : Nat := s.mod.member

/-- Fold a state change over a list. -/
def each {α : Type} (l : List α) (f : α → State → State) (s : State) : State := l.foldl (fun s x => f x s) s

/-- Change the state only if c. -/
def onlyIf (c : Bool) (f : State → State) (s : State) : State := if c then f s else s

/-! ## Time (R29) -/

/-- The pick and the ACLK within it. -/
def State.pick (s : State) : Nat := s.now / 8
def State.ac (s : State) : Nat := s.now % 8

/-- What f does, dated at ACLK n. -/
def dated (n : Nat) (f : State → State) (s : State) : State := { f { s with now := n } with now := s.now }

/-- A number no proof can see, and the counter moved on (log 11). -/
def freshValue (s : State) : Nat × State := (Config.freeValue s.freeCtr, { s with freeCtr := s.freeCtr + 1 })

/-- Bits that hardware sets in ACLK t, with those it has set earlier in it (R361); the ACLK is counted from 1. -/
def noteSet (t b : Nat) (x : Nat × Nat) : Nat × Nat :=
  if b = 0 then x else (t + 1, if x.1 = t + 1 then x.2 ||| b else b)

/-- Bits left by a W1C write of v in ACLK t: those written 1 are cleared, but what hardware has set in that ACLK stays 1 (R361). -/
def w1c (t : Nat) (set : Nat × Nat) (old v : Nat) : Nat :=
  let v := if set.1 = t + 1 then v - (v &&& set.2) else v
  old - (old &&& v)

/-! ## Areas -/

/-- The defined area with a number, if any. -/
def areaDefined (s : State) (a : Nat) : Bool := (areaAt s a).defined

/-- The numbers of the defined areas. -/
def areaList (s : State) : List Nat := (s.areas.filter fun kv => kv.2.defined).map Prod.fst

/-- The area that covers a power region. -/
def areaOfRegion (s : State) (r : Nat) : Option Nat :=
  (s.areas.find? fun kv => kv.2.defined && wCovers kv.2.word r).map Prod.fst

/-- The area of a site (R23). -/
def areaOfSite (s : State) (n : Nat) : Option Nat := areaOfRegion s (powerRegion n)

/-- The area of an attachment (R21, R26). -/
def areaOfAtt (s : State) (a : Nat) : Option Nat := areaOfRegion s (attRegion a)

/-- Does the area hold a job that has not ended (R25, R377): running or halted? -/
def hasJob (s : State) (a : Nat) : Bool := (areaAt s a).job.state == jRunning || (areaAt s a).job.state == jHalted

/-- Is the area's job running and not halted? -/
def jobRuns (s : State) (a : Nat) : Bool := (areaAt s a).job.state == jRunning

/-- Does the site's area hold a job? The regions of an area without one are idle (R28, R203, R354; DEDUCED, log 29). -/
def siteJob (s : State) (n : Nat) : Bool := match areaOfSite s n with | some a => hasJob s a | none => false

/-- Does any area have a job? -/
def anyJob (s : State) : Bool := (areaList s).any (hasJob s)

/-- Does the area of an optional number have a job? -/
def optJob (s : State) (a : Option Nat) : Bool := match a with | some a => hasJob s a | none => false

/-- Is the unit's area, if any, running? -/
def optRuns (s : State) (a : Option Nat) : Bool := match a with | some a => jobRuns s a | none => false

/-- The step running in an area: the last started (R31, R38). -/
def curStep (s : State) (a : Nat) : Option Step := (areaAt s a).job.steps.getLast?

/-- S_k of the running step, as an ACLK; 0 where none runs. -/
def stepBase (s : State) (a : Option Nat) : Nat :=
  match a with
  | some a => match curStep s a with | some k => 8 * k.s | none => 0
  | none => 0

/-- The ACLK offset from S_k of the running step (R109); 0 where none runs (R349). -/
def stepOffset (s : State) (a : Option Nat) : Nat :=
  match a with
  | some a => match curStep s a with | some k => s.now - 8 * k.s | none => 0
  | none => 0

/-- Is a running job's draft, or a loaded one, in force? The draft of the area's active bank (R192). -/
def draftOf (s : State) (a : Nat) : Draft := look default (areaAt s a).drafts (areaAt s a).bank

/-- Change the step at the end of the list of uncommitted steps. -/
def modCurStep (a : Nat) (f : Step → Step) (s : State) : State :=
  modArea a (fun x => { x with job := { x.job with steps := match x.job.steps.reverse with
    | [] => []
    | k :: r => (f k :: r).reverse } }) s

/-! ## Fences (R106, R423, R424) -/

/-- Is the site fenced? -/
def siteFenced (s : State) (n : Nat) : Bool :=
  bit (look 0 s.fence.sites n) 15 || decide (look 0 s.fence.regions (powerRegion n) ≠ 0)

/-- Is its switch in service? -/
def switchOn (s : State) (n : Nat) : Bool :=
  !(bit (look 0 s.fence.sites n) 14) && decide (look 0 s.fence.regions (powerRegion n) ≠ 2)

/-- Is the link leaving output port p in service? -/
def linkOn (s : State) (n p : Nat) : Bool := !(bit (look 0 s.fence.sites n) (8 + p))

/-- Does the site answer on the management ring (R369)? -/
def siteReach (s : State) (n : Nat) : Bool :=
  sitePresent s.member n && !(bit (look 0 s.fence.sites n) 13) && decide (look 0 s.fence.regions (powerRegion n) ≠ 2)

/-! ## Counting and event records (R349) -/

/-- The key of a count. -/
def countKey (code unit : Nat) : Nat := code * 2 ^ 32 + unit

/-- How often a code has been counted at a unit. -/
def counted (s : State) (code unit : Nat) : Nat := look 0 s.counts (countKey code unit)

/-- Count n events of a code at a unit. -/
def count (code unit n : Nat) (s : State) : State := { s with counts := alter 0 s.counts (countKey code unit) (· + n) }

/-- Send an MSI-X vector on a port. -/
def msix (p v : Nat) (s : State) : State := modPort p (fun x => { x with msix := x.msix ++ [v] }) s

/-- The 64 bytes of a record (R349). A report of an area or of the device as a whole names no unit (log 69). -/
def recordBytes (code flags step draft pick seqno : Nat) (r : Report349) : List Byte :=
  leBytes 2 code ++ leBytes 1 flags ++ leBytes 1 (r.area.getD 0) ++ leBytes 4 (if r.unit = hubIdx ∧ r.heddle = none then 0 else r.unit) ++ leBytes 8 pick ++ leBytes 8 step
  ++ leBytes 8 draft ++ leBytes 1 r.portio ++ leBytes 1 r.page ++ leBytes 2 r.entry ++ leBytes 4 r.offset
  ++ leBytes 4 r.paddr ++ sub r.aux 0 12 ++ leBytes 8 seqno

/-- Write a record into a port's ring, or drop it (R349); a masked class sends no vector (12, IRQ_MASK_p). -/
def pushRecord (code step draft : Nat) (r : Report349) (p : Nat) (s : State) : State :=
  let q := (portAt s p).evq
  if q.count = 0 then s
  else if (q.pi + 1) % q.count = q.ci % q.count then
    count 0x1903 p 1 (modPort p (fun x => { x with evq := { x.evq with lost := true } }) s)
  else
    let flags := b2n q.phase + 2 * b2n r.area.isSome + 4 * b2n q.lost
    let bytes := recordBytes code flags step draft s.pick q.seqno r
    let pi := (q.pi + 1) % q.count
    let s := modPort p (fun x => { x with
      mem := putBytes x.mem (q.addr + 64 * q.pi) bytes
      evq := { x.evq with pi := pi, phase := if pi = 0 then !x.evq.phase else x.evq.phase, lost := false,
                          seqno := x.evq.seqno + 1 } }) s
    if bit (portAt s p).irqMask (codeClass code) then s else msix p (vectorOf code) s

/-- The ports a record goes to: the owner of the area it names, or both (R349). -/
def recordPorts (s : State) (r : Report349) : List Nat :=
  match r.area with
  | some a => if areaDefined s a then [(areaAt s a).owner.val % 2] else [0, 1]
  | none => [0, 1]

/-- Write the record of a report. -/
def writeRecord (code : Nat) (r : Report349) (s : State) : State :=
  let step := match r.step with
    | some k => k
    | none => match r.area with
    | some a => match curStep s a with | some k => k.k | none => 2 ^ 64 - 1
    | none => 2 ^ 64 - 1
  let draft := match r.area with
    | some a => (draftOf s a).id
    | none => 0
  each (recordPorts s r) (pushRecord code step draft r) s

/-! ## What a class leads to (R434) -/

/-- OR bits into the STATUS of a heddle for its step (R181). -/
def heddleStatus (h b : Nat) (s : State) : State := modSu (suOf h) (fun u => { u with status := stOr u.status b }) s

/-- A class 0x3 report fails the run of the running step (R434), MM_UE apart (R139); its heddle's STATUS takes the bit. -/
def failStep (code : Nat) (r : Report349) (s : State) : State :=
  match r.area with
  | none => s
  | some a =>
    if (curStep s a).isNone then s else
    let s := modCurStep a (fun k => { k with
      status := stOr k.status (statusOf code)
      failed := k.failed || failsStep code
      origin := k.origin || sourOrigin code
      clamp := k.clamp || code == 0x3A06
      second := k.second || code == 0x3812
      named := match r.wu with | some u => if k.named.contains u then k.named else k.named ++ [u] | none => k.named }) s
    match r.heddle with
    | some h => heddleStatus h (statusOf code) s
    | none => s

/-- A scheduled write stored or sent sour data at a unit of area a (R34): STATUS bit 1. -/
def noteSour (a : Option Nat) (h : Option Nat) (s : State) : State :=
  match a with
  | none => s
  | some a =>
    let s := modCurStep a (fun k => { k with status := stOr k.status stSour }) s
    match h with
    | some h => heddleStatus h stSour s
    | none => s

/-- The first read of an already-sour grain in the run (R442). -/
def noteStoredSour (a : Option Nat) (unit grain : Nat) (s : State) : State :=
  match a with
  | none => s
  | some a => modCurStep a (fun k => { k with stored := match k.stored with | none => some (unit, grain) | x => x }) s

/-- A schedule defect halts the area at this pick (R108). -/
def haltArea (r : Report349) (s : State) : State :=
  match r.area with
  | none => s
  | some a =>
    if jobRuns s a then
      modArea a (fun x => { x with
        halted := true
        job := { x.job with state := jHalted, haltSeq := (portAt s (x.owner.val % 2)).evq.seqno - 1 } }) s
    else s

/-- What holds FAULT_N low (R485): a device-fatal fault, recovery, the clamp, a coolant excursion. -/
def faultAsserted (s : State) : Bool := s.bru.fatal || s.sec.recovery || s.pwr.clamp.isSome || s.pwr.excursion

/-- Byte 6 of the SMBus status block (R486). -/
def smbFlags (s : State) : Nat :=
  b2n s.bru.ready + 2 * b2n (faultAsserted s) + 4 * b2n s.pwr.clamp.isSome + 8 * b2n s.pwr.presA + 16 * b2n s.pwr.presB + 32 * b2n s.pwr.excursion

/-- The sideband outputs follow the state (R485, R486): FAULT_N, PWRGD, and SMB_ALERT_N asserted by a change of byte 6. -/
def refreshPins (s : State) : State :=
  let b := smbFlags s
  { s with mod := { s.mod with
      faultN := !(faultAsserted s), pwrgd := s.pwr.presA || s.pwr.presB
      alertN := s.mod.alertN && decide (b = s.mod.smbLast), smbLast := b } }

/-- Quiesce the device (R334, R434): commands but those of R422 complete NOT_READY; FAULT_N is asserted (R485). -/
def quiesce (s : State) : State := refreshPins { s with bru := { s.bru with fatal := true } }

/-- Complete the command of a mailbox that runs one: the response, STATUS and STATE 3, then MSI-X vector m (R338, R340).
A mailbox that a port reset has cleared gets nothing (R335). -/
def mbxComplete (p m st detail : Nat) (rsp : List Byte) (s : State) : State :=
  let b := look default (portAt s p).mbx m
  if b.state ≠ 2 then s else
    let c := b.cmd
    let hdr := leBytes 2 (hdrOpcode c) ++ leBytes 2 (hdrSeq c) ++ leBytes 2 st ++ leBytes 2 rsp.length
      ++ leBytes 8 s.pick ++ leBytes 8 (hdrTag c) ++ leBytes 8 detail
    msix p m (modPort p (fun x => { x with mbx := put default x.mbx m { b with
      state := 3
      status := st
      donepick := s.pick
      rsp := putBytes [] 0 (hdr ++ rsp) } }) s)

/-! ## Ending a job (R354) -/

/-- A creel left by an abort: TAIL = CTAIL in commit mode, other pointers kept; nothing saved. -/
def Creel.ended (c : Creel) : Creel :=
  { c with tail := if bits c.desc.toNat 63 62 = 3 then c.ctail else c.tail, saved := [], eTail := [], freed := [] }

/-- Switch contents that an abort empties: FIFOs and token latches. -/
def Switch.cleared (w : Switch) : Switch :=
  { w with inp := [], fly := [], deliv := [], outp := mapTab default (fun _ p =>
      { p with latch := [], waits := [], fell := none, redAt := none }) w.outp }

/-- Every row of a sub-bank written sour, as a return from OFF does (R145). -/
def Mm.wipe (b : Nat) (m : Mm) : Mm := { m with code := fillTab (6176 * b * 4) (6176 * 4) .sour m.code }

/-- Wipe the sub-banks that were OFF (R145, R354). -/
def Mm.wakeAll (m : Mm) : Mm := (List.range 4).foldl (fun m b => if (look default m.subs b).power = 2 || (look default m.subs b).lost then m.wipe b else m) m

/-- The sparse machinery stopped: the buffer +0 and clean, no group, no operation (R236). -/
def Sparse.stopped (p : Sparse) : Sparse := { p with acc := [], queues := [], landing := [], free := [], rd := none, fl := none, rdAt := 0, flAt := 0 }

/-- An MM site an abort leaves: creels as above, accumulator buffer and queues empty, every sub-bank ON. -/
def Mm.ended (m : Mm) : Mm :=
  { m.wakeAll with
    creels := mapTab default (fun _ c => c.ended) m.creels
    subs := mapTab default (fun _ b => { b with power := 0, req := none, waking := none, lost := false }) m.subs
    sp := m.sp.stopped }

/-- A sequencer that idles. -/
def Seq.idle (q : Seq) : Seq := { q with running := false, stopped := false, loops := [], next := 0 }

/-- An MX site left idle: operations in progress stop. -/
def Mx.idle (m : Mx) : Mx := { m with seq := m.seq.idle, macs := [], macsDone := [], spmac := none, outs := [], acts := [], loadTill := 0, genTill := 0, arrTill := 0, outTill := 0 }

/-- An SF site left idle: results not yet written are discarded (R156). -/
def Sf.idle (f : Sf) : Sf := { f with seq := f.seq.idle, wb := [], acts := [], vecTill := 0, trTill := 0, memTill := 0, hashTill := 0, topTill := 0 }

/-- An SU left idle. -/
def Su.idle (u : Su) : Su :=
  { u with seq := u.seq.idle, timers := [], conds := [], join := none, lastJoin := none, kids := [], status := 0,
           barrier := none, tokOut := [], starts := [], savedJoin := [], loadPos := 0, loadBuf := [], loadLast := false,
           loadBad := false, downOut := none }

/-- Empty the selvedge queues of an attachment. -/
def Attach.cleared (q : Attach) : Attach := { q with inS := [], inE := [], outS := [], outE := [], flying := [], hung := [], taken := [] }

/-- Empty what a port holds for an area: held and received slots, slots taken, tallies. -/
def Shuttle.cleared (p : Shuttle) : Shuttle := { p with held := [], txSlots := [], rxSlots := [], txTally := [], rxTally := [] }

/-- Empty what a stack holds for scheduled requests: queued accesses and staged returns (R260). -/
def Stack.cleared (k : Stack) : Stack :=
  { k with chans := mapTab default (fun _ c => { c with ops := [] }) k.chans, staged := [], series := [] }

/-- A skim whose job ends before its step commits fails; one that is sending goes on (R456). -/
def Skim.jobEnd (k : Skim) : Skim := if k.state = 2 then { k with state := 1 } else k

/-- Count one RAS_SKIM_FAIL with its record (R458); the cause is in AUX. -/
def skimFailRecord (a cause : Nat) (s : State) : State :=
  writeRecord 0x1D52 { (default : Report349) with area := some a, unit := hubIdx, aux := leBytes 1 cause ++ leBytes 1 (areaAt s a).skim.buf }
    (count 0x1D52 a 1 s)

/-- Leave an area without a job, as ABORT does (R354): creels, queues, latches and accumulators as the rule lists them. -/
def clearArea (a : Nat) (s : State) : State :=
  let w := (areaAt s a).word
  let site := fun n => wHasSite w n
  let att := fun t => wHasAtt w t
  { s with
    sw := whereTab default site Switch.cleared s.sw
    mm := whereTab default site Mm.ended s.mm
    mx := whereTab default site Mx.idle s.mx
    sf := whereTab default site Sf.idle s.sf
    su := whereTab default site Su.idle s.su
    att := whereTab default att Attach.cleared s.att
    sht := whereTab default (fun p => att (32 + p)) Shuttle.cleared s.sht
    stks := whereTab default att Stack.cleared s.stks }

/-- No draft covers the area any more: no record is in force, its attachments' scheduled partitions are empty and its sites have no DMA lane
(R100, R129). -/
def dropRecords (a : Nat) (s : State) : State :=
  let w := (areaAt s a).word
  let s := modArea a (fun x => { x with recs := [], applyAt := [] }) s
  { s with
    mm := whereTab default (fun n => wHasSite w n) (fun m => { m with lane := none }) s.mm
    att := whereTab default (fun t => wHasAtt w t) (fun q => { q with sIn := 0, sOut := 0, series := default }) s.att }

/-- End the job of an area as ABORT leaves it: no job, committed step index final, no uncommitted step, no load. -/
def endJob (a : Nat) (s : State) : State :=
  let skimming := decide ((areaAt s a).skim.state = 2)
  let s := match (areaAt s a).load with
    | some l => mbxComplete l.port l.m mAborted 0 [] s
    | none => s
  let s := modArea a (fun x => { x with
    job := { x.job with state := jEnded, steps := [], plan := x.job.plan.map fun y => { y with dead := true }, ras := 0, run := 0, cycle := 0, named1 := [], named2 := [], resumeP := none }
    drafts := keepTab (· == x.bank) x.drafts, complete := 0, swapOpen := false, load := none
    halted := false
    skim := x.skim.jobEnd }) (clearArea a s)
  if skimming then skimFailRecord a 0 s else s

/-- End the job of an area if it has one. -/
def endJobOf (a : Option Nat) (s : State) : State :=
  match a with
  | some a => if hasJob s a then endJob a s else s
  | none => s

/-! ## The watch list (R444) and the risk estimator's events (R452) -/

def hour : Nat := 3600 * 800000000
def minute : Nat := 60 * 800000000
def second : Nat := 800000000
def milli : Nat := 800000

/-- Add a unit to the watch list unless it is listed; the 1,025th is not added (R444). -/
def watchAdd (u : WatchUnit) (code : Nat) (s : State) : State :=
  if s.ras.watch.any (fun w => w.u == u) then
    { s with ras := { s.ras with watch := s.ras.watch.map fun w => if w.u = u then { w with lastTrig := s.up, recur := w.recur + 1 } else w } }
  else if s.ras.watch.length ≥ 1024 then count 0x1D43 hubIdx 1 s
  else
    count 0x1D40 hubIdx 1 { s with ras := { s.ras with watch := s.ras.watch ++
      [{ u := u, steps := 0, code := code, added := s.pick, lastTrig := s.up, testedOk := true, lastTest := s.up, recur := 0 }] } }

/-- A trigger of R444: the n-th occurrence at a unit within an hour adds the unit. -/
def watchTrigger (code n : Nat) (u : WatchUnit) (s : State) : State :=
  let t := s.ras.trig.filter (fun x => decide (s.up < x.2.2 + hour)) ++ [(code, u, s.up)]
  let s := { s with ras := { s.ras with trig := t } }
  if (t.filter fun x => x.1 == code && x.2.1 == u).length ≥ n then
    watchAdd u code { s with ras := { s.ras with trig := t.filter fun x => !(x.1 == code && x.2.1 == u) } }
  else s

/-- Remember an event the risk score counts, with its power region (R452). -/
def riskEvent (code region : Nat) (s : State) : State :=
  { s with ras := { s.ras with recent := s.ras.recent.filter (fun x => decide (s.up < x.1 + hour)) ++ [(s.up, code, region)] } }

/-! ## Reporting -/

/-- Raise a fault code (R10, R349, R434): count it, write its record, and do what its class leads to. The fencing of a
class 0x6 code is its caller's. -/
def report (code : Nat) (r : Report349) (s : State) : State :=
  let s := count code r.unit 1 s
  let s := if recorded code then writeRecord code r s else s
  if codeClass code = 3 then failStep code r s
  else if codeClass code = 4 then haltArea r s
  else if codeClass code = 5 ∨ codeClass code = 6 then endJobOf r.area s
  else if codeClass code = 7 then quiesce s
  else s

/-- The items of a report that names a site (R109). -/
def siteReport (s : State) (n : Nat) : Report349 :=
  let a := areaOfSite s n
  { (default : Report349) with
    area := a, unit := n, offset := stepOffset s a, heddle := some (heddleOf n), wu := some (.site n) }

/-- Raise a code at a site. -/
def reportSite (code n : Nat) (s : State) : State := report code (siteReport s n) s

/-- Raise a code at a site's program address (R186). -/
def reportProg (code n paddr : Nat) (s : State) : State := report code { siteReport s n with paddr := paddr } s

/-- The items of a report that names an attachment. -/
def attReport (s : State) (t : Nat) : Report349 :=
  let a := areaOfAtt s t
  { (default : Report349) with
    area := a, unit := attIdx t, offset := stepOffset s a, heddle := some (heddleOf (edgeSite t 0).1) }

/-- Raise a code at an attachment. -/
def reportAtt (code t : Nat) (s : State) : State := report code (attReport s t) s

/-- Raise a code at a unit of no area. -/
def reportUnit (code unit : Nat) (s : State) : State := report code { (default : Report349) with unit := unit } s

/-- Raise a code that names an area. -/
def reportArea (code a : Nat) (s : State) : State := report code { (default : Report349) with area := some a, unit := hubIdx } s

/-! ## The ends of ACLK -/

/-- A join slack FIFO at the end of an ACLK: the marked head popped, a 17th flit discarded (R84, R94). -/
def Inp.settled (i : Inp) : Inp := { q := (if i.pop then i.q.drop 1 else i.q).take 16, pop := false }

/-- Would the FIFO hold more than 16 flits after the pops? -/
def Inp.tooFull (i : Inp) : Bool := decide (16 < (if i.pop then i.q.drop 1 else i.q).length)

/-- The inputs of a switch that overflow at the end of this ACLK. -/
def overInputs (w : Switch) : List Nat := (w.inp.filter fun kv => kv.2.tooFull).map Prod.fst

/-- The edge links are free for the next flit (R84, R100). -/
def Attach.settled (q : Attach) : Attach := { q with taken := [] }

/-- The high-water mark of join slack a sample reads (R185), after the pops. -/
def settleSwitch (w : Switch) : Switch :=
  let inp := mapTab default (fun _ i => i.settled) w.inp
  { w with inp := inp, hiwater := inp.foldl (fun t kv => alter 0 t kv.1 (max kv.2.q.length)) w.hiwater }

/-- Lanes of `new` where the mask is set, else of `old` (R169). -/
def mergeLanes (mask : W32) (old new : Row128) : Row128 :=
  ofLanes ((List.range 32).map fun i => if bit mask.toNat i then laneOf new i else laneOf old i)

/-- Sour marks of a masked write: a segment keeps its old mark as far as it keeps lanes. -/
def mergeSour (mask : W32) (old new : Byte) : Byte :=
  BitVec.ofNat 8 ((List.range 8).foldl (fun acc k =>
    let m := bits mask.toNat (4 * k + 3) (4 * k)
    let b := (decide (m ≠ 0) && bit new.toNat k) || (decide (m ≠ 15) && bit old.toNat k)
    acc + b2n b * 2 ^ k) 0)

/-- A vector register after a masked write. -/
def mergeVec (mask : W32) (old new : Vec) : Vec := { data := mergeLanes mask old.data new.data, sour := mergeSour mask old.sour new.sour }

/-- A group reaches its entry of the accumulator buffer (R231). -/
def Sparse.land (p : Sparse) (g : Group) : Sparse :=
  { p with acc := alter default p.acc g.addr (fun e => { v := fAdd e.v g.sum, sour := e.sour || g.sour }) }

/-- The groups whose entries change at the end of an ACLK before t have changed them, in order (R231). -/
def Mm.settled (t : Nat) (m : Mm) : Mm :=
  if m.sp.landing.isEmpty then m
  else
    let d := m.sp.landing.filter fun g => decide (g.at_ + 3 < t)
    { m with sp := { d.foldl Sparse.land m.sp with landing := m.sp.landing.filter fun g => !decide (g.at_ + 3 < t) } }

/-- Write one result of the SF site (R154): s0 and p0 take no write (05). -/
def Sf.write (f : Sf) (w : SfWb) : Sf :=
  match w.dst with
  | .v n => { f with v := alter default f.v n (fun o => mergeVec w.mask o w.val) }
  | .s n => if n = 0 then f else { f with s := put 0 f.s n (laneOf w.val.data 0) }
  | .p n => if n = 0 then f else { f with p := alter 0 f.p n (fun o => (o &&& ~~~w.mask) ||| (laneOf w.val.data 0 &&& w.mask)) }

/-- The results due before ACLK t are written. -/
def Sf.settled (t : Nat) (f : Sf) : Sf :=
  let d := f.wb.filter fun w => decide (w.due < t)
  { d.foldl Sf.write f with wb := f.wb.filter fun w => !decide (w.due < t) }

/-! ## The ramp (R208, R395) -/

/-- t₀ of a heddle's ramp (R208). -/
def rampT0 (h : Nat) : Nat := ([0, 52, 103, 154] : List Nat).getD (h % 4) 0

/-- Ramp allowance of a heddle in the first n ACLK from S_k, times 4 (R208): the sum of 4 r(u) over u = 0 … n - 1. -/
def rampAllowance4 (h n : Nat) : Nat :=
  8 * min n (rampT0 h) + (List.range 8).foldl (fun acc j => acc + (8 + 3 * j) * min 200 (n - rampT0 h - 200 * j)) 0
  + 32 * (n - (rampT0 h + 1600))

/-- How many of the first n ACLK lie in the intervals (start, length). -/
def busyIn (l : List (Nat × Nat)) (n : Nat) : Nat := l.foldl (fun acc x => acc + min x.2 (n - x.1)) 0

/-- The first ACLK before `till` in which 4 · busy exceeds the allowance: between the points where either rate changes, both are linear. -/
def rampFirst (h : Nat) (l : List (Nat × Nat)) (till : Nat) : Option Nat :=
  let points := (till :: l.flatMap (fun x => [x.1, x.1 + x.2]) ++ (List.range 9).map (fun j => rampT0 h + 200 * j)).filter fun n => decide (n ≤ till)
  match points.filter (fun n => decide (rampAllowance4 h n < 4 * busyIn l n)) with
  | [] => none
  | q :: r =>
    let q := r.foldl min q
    let p := (points.filter fun n => decide (n < q)).foldl max 0
    some (p + (rampAllowance4 h p - 4 * busyIn l p) * (q - p) / (4 * (busyIn l q - busyIn l p) - (rampAllowance4 h q - rampAllowance4 h p)))

/-- Intervals cut off at ACLK t. -/
def cutAt (t : Option Nat) (x : Nat × Nat) : Nat × Nat := match t with | some t => (x.1, min x.2 (t - x.1)) | none => x

/-- Intervals with k stall ACLK put in at ACLK t. -/
def stallAt (t k : Nat) (x : Nat × Nat) : List (Nat × Nat) :=
  if x.1 + x.2 ≤ t then [x] else if t ≤ x.1 then [(x.1 + k, x.2)] else [(x.1, t - x.1), (t + k, x.1 + x.2 - t)]

/-- The array-busy intervals of a heddle's MX sites, counted from S_k: none while the droop of its region lasts (R393). -/
def heddleBusy (s : State) (h base : Nat) : List (Nat × Nat) :=
  (heddleSites h).flatMap fun n => if kindOf n = .mx then
    (mxAt s n).busy.map fun x => let y := cutAt (regionAt s (powerRegion n)).drooping x; (y.1 - base, y.2)
  else []

/-- The ACLK from which the arrays of heddle h consume nothing more in the running step of area a (R395). -/
def heldFrom (s : State) (a h : Nat) : Option Nat :=
  match curStep s a with
  | some k => (k.ramp.find? fun x => decide (x.1 = h)).map Prod.snd
  | none => none

/-- Does the ramp keep the array of a site from consuming in ACLK u? -/
def arrayHeld (s : State) (n u : Nat) : Bool :=
  match areaOfSite s n with
  | some a => match heldFrom s a (heddleOf n) with | some f => decide (f ≤ u) | none => false
  | none => false

/-- The SU of heddle h compares its count with the allowance in every ACLK before t: in the first that exceeds it PWR_RAMP_OVER is raised, and
its arrays are held from there (R395). -/
def rampCheck (t h : Nat) (s : State) : State :=
  match areaOfSite s (suOf h) with
  | none => s
  | some a =>
    if s.pwr.clamp.isSome || (swAt s (suOf h)).stopped || (curStep s a).isNone || (heldFrom s a h).isSome then s else
    let base := stepBase s (some a)
    match rampFirst h (heddleBusy s h base) (t - base) with
    | none => s
    | some f =>
      let r := { siteReport s (suOf h) with offset := f }
      dated (base + f) (report 0x4A10 r) (modCurStep a (fun k => { k with ramp := k.ramp ++ [(h, base + f)] }) s)

/-- The heddles with an array that has consumed since S_k. -/
def busyHeddles (s : State) : List Nat := ((s.mx.filter fun kv => !kv.2.busy.isEmpty).map fun kv => heddleOf kv.1).eraseDups

/-- Put something on the model's output list (log 14). -/
def emitSent (x : Sent) (s : State) : State := { s with sent := s.sent ++ [x] }

/-- A command that only ever answers a next state. -/
abbrev Out := Host.Outcome State Fault Refusal

/-- Perform f where the unit exists, else fault. -/
def guardUnit (c : Bool) (f : State → State) (s : State) : Out := if c then .next (f s) else .fault .absentUnit

/-- Perform f where the site exists and is of the kind, else stop by name. -/
def onSite (k : SiteKind) (n : Nat) (f : State → State) (s : State) : Out :=
  if sitePresent s.member n then (if kindOf n = k then .next (f s) else .refused .wrongUnit) else .fault .absentUnit

/-- Perform f at any fitted site. -/
def atSite (n : Nat) (f : State → State) (s : State) : Out := guardUnit (sitePresent s.member n) f s

/-- Perform f at a fitted stack, port, region, attachment, or for a job area number. -/
def atStack (k : Nat) (f : State → State) (s : State) : Out := guardUnit (stackPresent s.member k) f s
def atShuttle (p : Nat) (f : State → State) (s : State) : Out := guardUnit (portPresent s.member p) f s
def atRegion (r : Nat) (f : State → State) (s : State) : Out := guardUnit (decide (r < numRegions s.member)) f s
def atAtt (a : Nat) (f : State → State) (s : State) : Out := guardUnit (attPresent s.member a) f s
def atArea (a : Nat) (f : State → State) (s : State) : Out := guardUnit (decide (a < 16)) f s
def atPort (p : Nat) (f : State → State) (s : State) : Out := guardUnit (decide (p < 2)) f s

end Sys2Proof.Machine
end

