-- ==== Sys2Proof/Machine/Clock.lean ====
section
/-! DEFINITION. The advance of time (R29, R154): what sites do at the ACLK after their instructions' issue, the ends of ACLK, and the clocks. -/
namespace Sys2Proof.Machine

/-! ## Exact-mode counts (R213) -/

/-- One more of count i at a site; the counts are 32 bits and wrap. -/
def excUp (n i k : Nat) (s : State) : State :=
  modSw n (fun w => { w with exc := alter 0 w.exc i (· + BitVec.ofNat 32 k) }) s

/-- A flit the site issues at ACLK t enters its switch's local input in the next ACLK (R90). -/
def inject (n t : Nat) (f : Flit) (s : State) : State :=
  modSw n (fun w => { w with fly := w.fly ++ [{ due := t + 1, inp := 4, flit := f }] }) s

/-! ## Accesses and acts of the sites (R160-R169, R229-R230, R491) -/

/-- Is a MAC's row read held back, by a droop of the site's region (R393) or by the ramp (R395)? -/
def mxHeld (s : State) (n : Nat) (d : MxDue) : Bool :=
  match d.act with
  | .mac _ _ _ => arrayHeld s n (d.at_ + 1) || (match (regionAt s (powerRegion n)).drooping with | some t => decide (t ≤ d.at_) | none => false)
  | _ => false

/-- The earliest ACLK before t in which a site has something due. -/
def siteDue (t : Nat) (s : State) : Option Nat :=
  let l := s.mx.flatMap (fun kv => (kv.2.acts.filter fun d => !mxHeld s kv.1 d).map MxDue.at_ ++ kv.2.spmac.toList.map SpOp.at_)
    ++ s.sf.flatMap fun kv => kv.2.acts.map SfDue.at_
  (l.filter fun u => decide (u < t)).foldl (fun o u => match o with | some v => some (min v u) | none => some u) none

/-- The array's product of an SPMAC in ACLK u (R229, R230). A sub-step of `upset` fails its check under CHK: its value lanes are sour. -/
def spEmit (u n : Nat) (o : SpOp) (s : State) : State :=
  let j := u - o.t - 2
  if 2 ≤ u - o.t ∧ j < o.nf * 2 ^ o.nlog ∧ ¬ arrayHeld s n u then
    let y := spUpdate (mxAt s n) o o.flit (j % 2 ^ o.nlog)
    let fails := mCHK o.mode && bit o.upset j
    let sour := if fails then y.1.sour ||| 15 else y.1.sour
    inject n (u + 2) { y.1 with sour := sour } (onlyIf fails
      (modMx n fun x => { x with acts := x.acts ++ [{ at_ := u + 2, pc := some o.pc, act := .rowchk }] }) (onlyIf y.2 (reportProg 0x4117 n o.pc) s))
  else s

/-- Has the flit that an SPMAC reads next in ACLK u not been delivered (R229)? -/
def spStarved (u n : Nat) (o : SpOp) (s : State) : Bool :=
  let k := u - o.t
  let w := 2 ^ o.nlog
  decide (k % w = 0 ∧ k / w < o.nf ∧ ringOcc (look default (mxAt s n).rings o.ring) ≤ k / w - o.freed)

/-- An SPMAC in ACLK u: its product, and the end of one whose next flit is late. -/
def spClock (u n : Nat) (s : State) : State :=
  match (mxAt s n).spmac with
  | none => s
  | some o =>
    if o.at_ ≠ u then s else
    let s := spEmit u n o s
    onlyIf (spStarved u n o s) (fun s => reportProg 0x4114 n o.pc (modMx n (fun x => { x with spmac := none }) s)) s

/-- What performing an act at a site raises: a write of sour segments, the failed check of an SPMAC product (R34, R230). -/
def mxRaise (n : Nat) (d : MxDue) (s : State) : State :=
  match d.act with
  | .row _ f => if f.sour = 0 then s else noteSour (areaOfSite s n) (some (heddleOf n)) s
  | .rowchk => watchTrigger 0x3101 2 (.site n) (reportProg 0x3101 n (d.pc.getD 0) s)
  | _ => s

/-- ACLK u at an MX site: what falls due is performed, but two accesses to one bank raise MX_BANK_CLASH at the later instruction of them, and
neither is performed (R160, DEDUCED, log 23). -/
def mxClock (u n : Nat) (s : State) : State :=
  let x := mxAt s n
  let due := x.acts.filter fun d => decide (d.at_ = u) && !mxHeld s n d
  if due.isEmpty ∧ x.spmac.isNone then s else
  let s := spClock u n (modMx n (fun x => { x with acts := x.acts.filter fun d => !(decide (d.at_ = u) && !mxHeld s n d) }) s)
  let sp := (mxAt s n).spRow u
  let spPc := (mxAt s n).spmac.map SpOp.pc
  let rows := due.filterMap (fun d => d.act.addr.map fun a => (a / 65536, d.pc)) ++ sp.toList.map fun a => (a / 65536, spPc)
  let clash := fun b => decide (2 ≤ (rows.filter fun y => decide (y.1 = b)).length)
  let s := each ((List.range 3).filter clash) (fun b s =>
    reportProg 0x4111 n (((rows.filter fun y => decide (y.1 = b)).filterMap Prod.snd).getLast?.getD 0) s) s
  let done := due.filter fun d => match d.act.addr with | some a => !clash (a / 65536) | none => true
  let s := each done (fun d s => mxRaise n d (modMx n (fun x => d.act.perform x) s)) s
  modMx n (fun x => spEnd u (match sp with | some a => spTake (!clash (a / 65536)) a x | none => x)) s

/-- ACLK u at an SF site (R169): as on the MX; each access performed is counted for exact mode (R213). -/
def sfClock (u n : Nat) (s : State) : State :=
  let due := (sfAt s n).acts.filter fun d => decide (d.at_ = u)
  if due.isEmpty then s else
  let s := modSf n (fun f => { f with acts := f.acts.filter fun d => !decide (d.at_ = u) }) s
  let clash := fun b => decide (2 ≤ (due.filter fun d => decide (d.act.addr / 32768 = b)).length)
  let s := each ((List.range 2).filter clash) (fun b s =>
    reportProg 0x4311 n (((due.filter fun d => decide (d.act.addr / 32768 = b)).filterMap SfDue.pc).getLast?.getD 0) s) s
  each due (fun d s =>
    if clash (d.act.addr / 32768) then modSf n (fun f => d.act.drop f) s
    else
      let s := excUp n 4 1 (modSf n (fun f => d.act.perform f) s)
      match d.act with
      | .row _ x => if x.sour = 0 then s else noteSour (areaOfSite s n) (some (heddleOf n)) s
      | .load _ _ _ => s) s

/-- Everything that falls due at sites before ACLK t, ACLK by ACLK; the first argument bounds their number. -/
def siteClock : Nat → Nat → State → State
  | 0, _, s => s
  | k + 1, t, s =>
    match siteDue t s with
    | none => s
    | some u => siteClock k t (dated u (fun s => each (s.sf.map Prod.fst) (sfClock u) (each (s.mx.map Prod.fst) (mxClock u) s)) s)

/-- The starts and FELL tokens of an SU that are sent before ACLK t leave its timer queue and count as performed (R180, R213). -/
def suClock (t n : Nat) (s : State) : State :=
  let sent := fun (x : Nat × Timed) => decide (x.1 < t) && (match x.2 with | .go _ _ => true | .fell _ _ _ => true | _ => false)
  let l := (suAt s n).timers.filter sent
  if l.isEmpty then s else excUp n 4 l.length (modSu n (fun u => { u with timers := u.timers.filter fun x => !sent x }) s)

/-! ## The clocks -/

/-- End-of-ACLK effects of everything due before ACLK t. -/
def settle (t : Nat) (s : State) : State :=
  let tooFull := s.sw.flatMap fun kv => (overInputs kv.2).map fun i => (kv.1, i)
  let s := each (s.su.map Prod.fst) (suClock t) (siteClock t t (each (busyHeddles s) (rampCheck t) s))
  let s := { s with
    sw := mapTab default (fun _ w => settleSwitch w) s.sw
    sf := mapTab default (fun _ f => f.settled t) s.sf
    mm := mapTab default (fun _ m => m.settled t) s.mm
    att := mapTab default (fun _ q => q.settled) s.att }
  each tooFull (fun x s => report 0x4510 { siteReport s x.1 with portio := x.2, page := (look default (swAt s x.1).outp x.2).page } s) s

/-- Let time pass to ACLK t: nothing happens if t is not later; else the effects due take hold and the clocks move (log 1, 7). -/
def runTo (t : Nat) (s : State) : State :=
  if t ≤ s.now then s else
    let s := settle t s
    { s with up := s.up + (t - s.now), now := t }

/-- Let time pass to the start of a pick. -/
def toPick (p : Nat) (s : State) : State := runTo (8 * p) s

end Sys2Proof.Machine
end

