-- ==== Sys2Proof/Machine/Hash.lean ====
section
/-! DEFINITION. Hashes and checks: H of R173, CRC-32C (R188, R276, R425), CRC-64 of R320, SHA-256 (R187, R426, R463; FIPS 180-4),
the SMBus packet error code (R487). -/
namespace Sys2Proof.Machine

/-- H(key, seed) of R173. -/
def hash64 (key : W64) (seed : W32) : W64 :=
  let z : W64 := seed.zeroExtend 64
  let h := key ^^^ ((z <<< 32) ||| z)
  let h := (h ^^^ (h >>> 31)) * 0xC3A56E19D27B4F8B#64
  let h := (h ^^^ (h >>> 29)) * 0x8F1D5B732E6CA9D5#64
  h ^^^ (h >>> 32)

/-- n steps of a bit-reflected CRC register. -/
def crcSteps (poly : Nat) : Nat → Nat → Nat
  | 0, c => c
  | n + 1, c => crcSteps poly n (if c % 2 = 1 then (c / 2) ^^^ poly else c / 2)

/-- A reflected CRC register after more bytes. -/
def crcFeed (poly : Nat) (l : List Byte) (c : Nat) : Nat := l.foldl (fun c b => crcSteps poly 8 (c ^^^ b.toNat)) c

/-- CRC-32C (Castagnoli): all ones in, all ones out. -/
def crc32c (l : List Byte) : Nat := crcFeed 0x82F63B78 l 0xFFFFFFFF ^^^ 0xFFFFFFFF

/-- The polynomial 0x42F0E1EBA9EA3693 reflected (R320). -/
def poly64 : Nat := 0xC96C5795D7870F42

/-- CRC-64 of R320. -/
def crc64 (l : List Byte) : Nat := crcFeed poly64 l (2 ^ 64 - 1) ^^^ (2 ^ 64 - 1)

/-- n steps of the CRC-8 of SMBus, polynomial x^8 + x^2 + x + 1. -/
def crc8Steps : Nat → Nat → Nat
  | 0, c => c
  | n + 1, c => crc8Steps n (if 128 ≤ c then (2 * c % 256) ^^^ 7 else 2 * c % 256)

/-- The packet error code of a block write. -/
def pec (l : List Byte) : Nat := l.foldl (fun c b => crc8Steps 8 (c ^^^ b.toNat)) 0

/-! ## SHA-256 -/

/-- The round constants. -/
def shaK : List W32 :=
  [0x428a2f98, 0x71374491, 0xb5c0fbcf, 0xe9b5dba5, 0x3956c25b, 0x59f111f1, 0x923f82a4, 0xab1c5ed5] ++
  [0xd807aa98, 0x12835b01, 0x243185be, 0x550c7dc3, 0x72be5d74, 0x80deb1fe, 0x9bdc06a7, 0xc19bf174] ++
  [0xe49b69c1, 0xefbe4786, 0x0fc19dc6, 0x240ca1cc, 0x2de92c6f, 0x4a7484aa, 0x5cb0a9dc, 0x76f988da] ++
  [0x983e5152, 0xa831c66d, 0xb00327c8, 0xbf597fc7, 0xc6e00bf3, 0xd5a79147, 0x06ca6351, 0x14292967] ++
  [0x27b70a85, 0x2e1b2138, 0x4d2c6dfc, 0x53380d13, 0x650a7354, 0x766a0abb, 0x81c2c92e, 0x92722c85] ++
  [0xa2bfe8a1, 0xa81a664b, 0xc24b8b70, 0xc76c51a3, 0xd192e819, 0xd6990624, 0xf40e3585, 0x106aa070] ++
  [0x19a4c116, 0x1e376c08, 0x2748774c, 0x34b0bcb5, 0x391c0cb3, 0x4ed8aa4a, 0x5b9cca4f, 0x682e6ff3] ++
  [0x748f82ee, 0x78a5636f, 0x84c87814, 0x8cc70208, 0x90befffa, 0xa4506ceb, 0xbef9a3f7, 0xc67178f2]

/-- The initial value. -/
def shaInit : List W32 :=
  [0x6a09e667, 0xbb67ae85, 0x3c6ef372, 0xa54ff53a, 0x510e527f, 0x9b05688c, 0x1f83d9ab, 0x5be0cd19]

def rotr (x : W32) (n : Nat) : W32 := (x >>> n) ||| (x <<< (32 - n))

/-- The message schedule, newest word first: n further words. -/
def shaSched : Nat → List W32 → List W32
  | 0, l => l
  | n + 1, l =>
    let a := l.getD 14 0
    let b := l.getD 1 0
    let s0 := rotr a 7 ^^^ rotr a 18 ^^^ (a >>> 3)
    let s1 := rotr b 17 ^^^ rotr b 19 ^^^ (b >>> 10)
    shaSched n ((l.getD 15 0 + s0 + l.getD 6 0 + s1) :: l)

/-- One round on a, b, …, h. -/
def shaRound (s : List W32) (kw : W32) : List W32 :=
  match s with
  | [a, b, c, d, e, f, g, h] =>
    let t1 := h + (rotr e 6 ^^^ rotr e 11 ^^^ rotr e 25) + ((e &&& f) ^^^ (~~~e &&& g)) + kw
    let t2 := (rotr a 2 ^^^ rotr a 13 ^^^ rotr a 22) + ((a &&& b) ^^^ (a &&& c) ^^^ (b &&& c))
    [t1 + t2, a, b, c, d + t1, e, f, g]
  | s => s

/-- One 64-byte block. -/
def shaBlock (s : List W32) (b : List Byte) : List W32 :=
  let w := (List.range 16).map fun i => BitVec.ofNat 32 (beNat (sub b (4 * i) 4))
  let ks := List.zipWith (· + ·) shaK (shaSched 48 w.reverse).reverse
  List.zipWith (· + ·) s (ks.foldl shaRound s)

/-- The 64-byte blocks of a padded message. -/
def shaBlocks : Nat → List Byte → List W32 → List W32
  | 0, _, s => s
  | n + 1, l, s => shaBlocks n (l.drop 64) (shaBlock s (l.take 64))

/-- SHA-256: 32 bytes. -/
def sha256 (l : List Byte) : List Byte :=
  let zeros := (119 - l.length % 64) % 64
  let m := l ++ [(0x80 : Byte)] ++ List.replicate zeros 0 ++ beBytes 8 (8 * l.length)
  (shaBlocks (m.length / 64) m shaInit).flatMap fun x => beBytes 4 x.toNat

end Sys2Proof.Machine
end

