-- ==== Sys2Proof/Machine/Mbx.lean ====
section
/-! DEFINITION. What every mailbox command shares (R337-R342, R351, R353, R422): its header, its checks, its completion. -/
namespace Sys2Proof.Machine

/-- The scope column of R342: none, A, D, or A or D. -/
inductive Scope where
  | none | area | device | both
deriving DecidableEq, Repr

/-- The mailbox m of port p. -/
def mbxAt (s : State) (p m : Nat) : Mbx := look default (portAt s p).mbx m
def modMbx (p m : Nat) (f : Mbx → Mbx) (s : State) : State := modPort p (fun x => { x with mbx := alter default x.mbx m f }) s

/-- Is FLAGS right for the scope (DEDUCED, log 30)? An area command sets bit 0 alone; bit 1 only where D is allowed. -/
def scopeOk (sc : Scope) (flags : Nat) : Bool :=
  match sc with
  | .area => flags % 4 == 1
  | .both => flags % 4 == 1 || flags % 4 == 2
  | _ => true

/-- A transfer, a load or a remote command that is still running (R346, R313, R192). -/
def devBusy (s : State) : Bool := s.remote.any (fun j => j.restore.isNone) || s.bulk.any (fun j => j.area.isNone)
def areaBusy (s : State) (a : Nat) : Bool :=
  s.bulk.any (fun j => j.area == some a) || s.remote.any (fun j => match j.restore with | some x => x.area == a | none => false)

/-- Does a posted command wait (R353): behind a device-scope command, or behind one on its area? -/
def mbxWaits (s : State) (sc : Scope) (c : Tab Byte) : Bool :=
  devBusy s || (match sc with
    | .area => areaBusy s (wArea (hdrArea c))
    | .both => decide (hdrFlags c % 4 = 1) && areaBusy s (wArea (hdrArea c))
    | _ => false)

/-! ## The boot chain (R463, R464) -/

def fwVersion (g : List Byte) : Nat := fld g 4 4
def fwSvn (g : List Byte) : Nat := fld g 8 1
def fwAdv (g : List Byte) : Bool := bit (fld g 9 1) 0
def fwLen (g : List Byte) : Nat := fld g 0x10 8

/-- Is an image valid but for its SVN (R463)? -/
def fwOk (s : State) (g : List Byte) : Bool :=
  let n := fwLen g
  decide (fld g 0 4 = 0x57465858) && decide (fwSvn g ≤ 63) && decide (fld g 9 1 ≤ 1) && (sub g 0x0A 6).all (· == 0) && (sub g 0x38 200).all (· == 0)
  && decide (n ≤ 2 ^ 24 - 4096) && decide (g.length = 256 + n + 3604)
  && decide (sha256 ((g.drop 256).take n) = sub g 0x18 32)
  && Config.hssVerify false s.sec.rootKey (g.take (256 + n)) (g.drop (256 + n))

/-- Is it valid: also its SVN at least the fused counter? -/
def fwValid (s : State) (g : List Byte) : Bool := fwOk s g && decide (s.sec.rollback ≤ fwSvn g)

/-- The image of a slot. -/
def slotImage (s : State) (i : Nat) : List Byte := (look default s.sec.slots i).image

/-- The slot the ROM boots (R464). -/
def bootSlot (s : State) : Option Nat :=
  if fwValid s (slotImage s s.sec.pref) then some s.sec.pref
  else if fwValid s (slotImage s (1 - s.sec.pref)) then some (1 - s.sec.pref)
  else none

/-- BOOT_ROM_VERIFY (R464): boot an image, or enter recovery. -/
def bootRom (s : State) : State :=
  match bootSlot s with
  | some i => { s with
      sec := { s.sec with slot := i, fallback := decide (i ≠ s.sec.pref), pendingFw := false, recovery := false }
      mod := { s.mod with fwver := fwVersion (slotImage s i) }
      bru := { s.bru with stage := 1 } }
  | none => refreshPins { s with sec := { s.sec with recovery := true } }

/-- Stage 1 of bring-up (R412): the ROM boots Prijan, or enters recovery; once only. -/
def stage1 (s : State) : State := if s.bru.stage = 0 ∧ !s.sec.recovery ∧ !s.bru.fatal then bootRom s else s

/-! ## Taking a posted command -/

/-- Does Prijan run: firmware booted, not in recovery (R422, R464)? -/
def prijanRuns (s : State) : Bool := decide (1 ≤ s.bru.stage) && !s.sec.recovery

/-- Are posts taken (R422, R464): by Prijan, or by the ROM in recovery? -/
def postsTaken (s : State) : Bool := decide (1 ≤ s.bru.stage) || s.sec.recovery

/-- What the ROM performs in recovery (R464). -/
def romPerforms (opc : Nat) : Bool := [0x0001, 0x0002, 0x0704].contains opc

/-- Prijan performs a posted command of opcode opc whose parameter length passes: BAD_HEADER, NOT_READY, or f. A command
posted before stage 1 ends is taken when it has ended (R422). `free` commands never wait (log 30); `early` ones are those of R422; a quiesced device performs them alone (R334). -/
def mbxRun (opc : Nat) (plen : Nat → Bool) (sc : Scope) (free early : Bool) (f : Nat → Nat → Tab Byte → State → State) (p m : Nat)
    (s : State) : Out :=
  guardUnit (decide (p < 2) && decide (m < 8)) (fun s =>
    let b := mbxAt s p m
    let c := b.cmd
    if b.state ≠ 1 ∨ hdrOpcode c ≠ opc then s
    else
      let s := stage1 s
      if !postsTaken s ∨ (!free && mbxWaits s sc c) then s
      else
        let s := modMbx p m (fun b => { b with state := 2 }) s
        if hdrSeq c ≠ b.seq ∨ 4064 < hdrPlen c ∨ !(hdrReservedOk c && plen (hdrPlen c) && scopeOk sc (hdrFlags c)) then
          mbxComplete p m mBadHeader 0 [] s
        else if (if s.sec.recovery then !romPerforms opc else !early && (!s.bru.ready || s.bru.fatal)) then mbxComplete p m mNotReady 0 [] s
        else f p m c s) s

/-- As mbxRun, for a row that is one operation of its opcode: performed only where the parameters select that operation. -/
def mbxRunOp (own : Tab Byte → Bool) (opc : Nat) (plen : Nat → Bool) (sc : Scope) (free early : Bool)
    (f : Nat → Nat → Tab Byte → State → State) (p m : Nat) (s : State) : Out :=
  if own (mbxAt s p m).cmd then mbxRun opc plen sc free early f p m s
  else guardUnit (decide (p < 2) && decide (m < 8)) id s

/-- Parameters of exactly n bytes. -/
def plenIs (n : Nat) (l : Nat) : Bool := l == n

/-- Complete with a status alone. -/
def mbxDone (p m st : Nat) (s : State) : State := mbxComplete p m st 0 [] s

/-- The opcodes of R342. -/
def opcodeKnown (o : Nat) : Bool :=
  within 1 3 o || within 0x10 0x11 o || within 0x100 0x104 o || within 0x110 0x112 o || within 0x200 0x201 o || within 0x300 0x302 o
  || within 0x400 0x402 o || within 0x500 0x504 o || within 0x600 0x604 o || within 0x700 0x704 o

/-- A command posted before bring-up completes (R422, R464): one that Prijan, or the ROM in recovery, does not perform then is
refused; the others stay posted for their rows (log 57). -/
def answerPosted (p m : Nat) (s : State) : State :=
  let b := mbxAt s p m
  let o := hdrOpcode b.cmd
  if b.state ≠ 1 ∨ (if s.sec.recovery then romPerforms o else [0x0001, 0x0002, 0x0003, 0x0011, 0x0501].contains o) then s
  else
    let s := modMbx p m (fun b => { b with state := 2 }) s
    mbxDone p m (if hdrSeq b.cmd ≠ b.seq ∨ 4064 < hdrPlen b.cmd ∨ !(hdrReservedOk b.cmd) then mBadHeader
      else if !opcodeKnown o then mBadOpcode else mNotReady) s

/-- Does the command name a defined area by its whole word (DEDUCED, log 30)? -/
def areaNamed (s : State) (c : Tab Byte) : Bool :=
  (areaAt s (wArea (hdrArea c))).defined && decide ((areaAt s (wArea (hdrArea c))).word = hdrArea c)

/-- Perform f on the area a command names: NO_AREA, NOT_OWNER (R351) when `own`, else f. -/
def onArea (own : Bool) (p m : Nat) (c : Tab Byte) (f : Nat → State → State) (s : State) : State :=
  let a := wArea (hdrArea c)
  if !areaNamed s c then mbxDone p m mNoArea s
  else if own && decide ((areaAt s a).owner.val ≠ p) then mbxDone p m mNotOwner s
  else f a s

/-- A command that counts a class-0x8 code at the unit it refuses and completes with it (R10, R341). -/
def mbxCode (p m code detail : Nat) (s : State) : State := mbxComplete p m code detail [] s

end Sys2Proof.Machine
end

