-- ==== Sys2Proof/Machine/Warp.lean ====
section
/-! DEFINITION. The warp (03): weave entries, reduction, links, join slack, tokens, pages, credit loops, halting. -/
namespace Sys2Proof.Machine

/-! ## Weave tables (R82, R87, R88) -/

/-- The page descriptor n of port p, bank b; VALID, PLEN and BASE of it (R87). -/
def pageDesc (w : Switch) (b p n : Nat) : Nat := (look 0 w.pages ((5 * b + p) * 64 + n)).toNat
def pdValid (d : Nat) : Bool := bit d 20
def pdPeriod (d : Nat) : Nat := bits d 19 10 + 1
def pdBase (d : Nat) : Nat := bits d 9 0

/-- The index a table executes at ACLK t under a page that took effect at ACLK `since` (R88). -/
def entryIndex (d since t : Nat) : Nat := pdBase d + (t - since) % pdPeriod d

/-- The index of the entry a port executes at ACLK t, if its page is valid and has taken effect. -/
def portIndex (w : Switch) (p t : Nat) : Option Nat :=
  let o := look default w.outp p
  let d := pageDesc w o.bank p o.page
  if pdValid d ∧ o.since ≤ t then some (entryIndex d o.since t) else none

/-- The entry a port executes at ACLK t; idle on an invalid page (R87). -/
def portEntry (w : Switch) (p t : Nat) : Nat :=
  match portIndex w p t with
  | some i => (look 0 w.weave ((5 * (look default w.outp p).bank + p) * 1024 + i)).toNat
  | none => 0

/-- Fields of a weave entry (R82). -/
def weKind (e : Nat) : Nat := bits e 15 14
def weSrcA (e : Nat) : Nat := bits e 13 11
def weSrcB (e : Nat) : Nat := bits e 10 8
def weRop (e : Nat) : Nat := bits e 7 5
def weTok (e : Nat) : Bool := bit e 4
def weKeep (e : Nat) : Bool := bit e 3

/-! ## Reduction (R91-R93) -/

/-- The BF16 value in lane bits 31:16. -/
def ofBf16 (x : W32) : Num := decodeNum 2 (x.toNat / 65536)

/-- One lane of a reduce; reserved ROPs give 0. -/
def reduceLane (rop : Nat) (a b : W32) : W32 :=
  if rop = 0 then fAdd a b
  else if rop = 1 then toF32 ((ofBf16 a).add (ofBf16 b))
  else if rop = 2 then toF32 ((ofF32 a).add (ofBf16 b))
  else if rop = 3 then fMax a b
  else if rop = 4 then fMin a b
  else if rop = 5 then a + b
  else 0

/-- Does an ADDI lane wrap as INT32? -/
def addWraps (a b : W32) : Bool := decide ((a + b).toInt ≠ a.toInt + b.toInt)

/-- Does a floating-point lane give NaN from operands that are not? -/
def newNan (rop : Nat) (a b : W32) : Bool :=
  let x := if rop = 1 then ofBf16 a else ofF32 a
  let y := if rop = 1 ∨ rop = 2 then ofBf16 b else ofF32 b
  decide (rop < 5) && f32Nan (reduceLane rop a b) && !x.isNan && !y.isNan

/-- The reduce of two flits: lane by lane, a segment sour if either operand's is (R93). -/
def reduceFlit (rop : Nat) (a b : Flit) : Flit :=
  { data := ofLanes (List.zipWith (reduceLane rop) (lanesOf a.data) (lanesOf b.data)), sour := a.sour ||| b.sour, loose := a.loose && b.loose }

/-- Lanes for which p holds. -/
def laneCount (p : W32 → W32 → Bool) (a b : Flit) : Nat :=
  ((List.zipWith p (lanesOf a.data) (lanesOf b.data)).filter id).length

/-- Count n wraps or NaNs at a switch (R92). -/
def countN (code n k : Nat) (s : State) : State := if k = 0 then s else count code n k s

/-! ## Inputs -/

/-- The link of a queue entry that any edge link may deliver: what a Shuttle port received (R285). -/
def anyLink : Nat := 255

/-- May edge link l deliver the entry in ACLK t? -/
def forLink (l t : Nat) (e : QEntry) : Bool := (e.link == l || e.link == anyLink) && decide (e.arr ≤ t)

/-- Has a slot series a slot on link l at ACLK u of a step? -/
def hasSlot (x : Config.Slots) (l u : Nat) : Bool :=
  decide (x.link = l) && decide (x.first ≤ u) && decide ((u - x.first) % x.period = 0) && decide ((u - x.first) / x.period < x.count)

/-- Does ACLK t lie in a slot of the series that `f` takes from the EDGE record in force at an attachment, on link l? -/
def edgeSlot (s : State) (a l t : Nat) (f : Config.Edge → List Config.Slots) : Bool :=
  match areaOfAtt s a with
  | some r => (match curStep s r with
    | some k => (f (attAt s a).series).any fun x => hasSlot x l (t - 8 * k.s)
    | none => false)
  | none => false

/-- The attachment whose traffic an edge link carries at ACLK t: on edge links 0-3 of port 0, the hub in the slots the draft assigns to it,
and the hub alone while region 0 is in no area or its area holds no draft (R21, log 24). -/
def edgeAtt (s : State) (a l t : Nat) : Nat :=
  if a = 32 ∧ l < 4 then
    match areaOfRegion s 0 with
    | none => 64
    | some r => if draftOf s r = default ∨ edgeSlot s 64 l t Config.Edge.hub then 64 else 32
  else a

/-- The delivery slots and the DMA-return slots of an attachment's lanes (R129). -/
def sendSlots (e : Config.Edge) : List Config.Slots := e.lanes.map Config.Lane.send
def backSlots (e : Config.Edge) : List Config.Slots := e.lanes.map Config.Lane.back

/-- The flit that an edge link may deliver in this ACLK: the one it has delivered already, else the first of the elastic partition in a
DMA delivery slot, of the scheduled partition in any other (R84, R101, R129). -/
def edgeHead (s : State) (a l : Nat) : Option Flit :=
  let q := attAt s a
  match q.taken.find? (fun x => x.1 == l) with
  | some x => x.2
  | none => ((if edgeSlot s a l s.now sendSlots then q.outE else q.outS).find? (forLink l s.now)).map QEntry.flit

/-- The flit an entry that names input p of a site reads in this ACLK: the head of the join slack FIFO, or at an edge
input what the edge link delivers (R84, R101). -/
def inputHead (s : State) (n p : Nat) : Option Flit :=
  match attOf s.member n p with
  | some (a, l) => edgeHead s (edgeAtt s a l s.now) l
  | none => (look default (swAt s n).inp p).q.head?

/-- Drop the first entry a link may deliver in ACLK t. -/
def dropLink (l t : Nat) : List QEntry → List QEntry
  | [] => []
  | e :: r => if forLink l t e then r else e :: dropLink l t r

/-- An edge link takes its flit out of the queue and delivers `f` for the rest of the ACLK, however many outputs name it (R84). -/
def takeEdge (a l : Nat) (f : Option Flit) (s : State) : State :=
  if (attAt s a).taken.any (fun x => x.1 == l) then s
  else
    let dma := edgeSlot s a l s.now sendSlots
    modAtt a (fun q => { q with
      taken := q.taken ++ [(l, f)]
      outS := if dma then q.outS else dropLink l s.now q.outS
      outE := if dma then dropLink l s.now q.outE else q.outE }) s

/-- Take the named head: mark the FIFO for its pop, or take the edge flit from its partition (R84). -/
def takeInput (n p : Nat) (s : State) : State :=
  match attOf s.member n p with
  | some (a, l) => let t := edgeAtt s a l s.now; takeEdge t l (edgeHead s t l) s
  | none => modSw n (fun w => { w with inp := alter default w.inp p (fun i => { i with pop := true }) }) s

/-- Raise a code at a port of a switch with its page and entry (R109). -/
def reportPort (code n p : Nat) (isOut : Bool) (s : State) : State :=
  let w := swAt s n
  let o := look default w.outp p
  report code { siteReport s n with
    portio := p + 8 * b2n isOut
    page := o.page
    entry := if isOut then (portIndex w p s.now).getD 0 else 0
    wu := if isOut then some (.site n) else match neighbour s.member n p with
      | some m => some (.link m (facing p))
      | none => none } s

/-- What an entry that names an empty input raises: WRP_EDGE_LATE at an edge input, else WRP_SLOT_EMPTY (R86, R101). The
port concerned is the empty input; the page and the entry are the output's (R109, log 69). -/
def emptyInput (n src out : Nat) (s : State) : State :=
  let w := swAt s n
  report (if (attOf s.member n src).isSome then 0x3520 else 0x4511) { siteReport s n with
    portio := src
    page := (look default w.outp out).page
    entry := (portIndex w out s.now).getD 0
    wu := match neighbour s.member n src with
      | some m => some (.link m (facing src))
      | none => none } s

/-- Raise a selvedge code at the switch of an edge link, with the port that carries the link (R109). -/
def reportEdge (code n p : Nat) (isOut : Bool) (s : State) : State :=
  let w := swAt s n
  report code { siteReport s n with
    portio := p + 8 * b2n isOut
    page := (look default w.outp p).page
    entry := if isOut then (portIndex w p s.now).getD 0 else 0
    wu := none } s

/-! ## Outputs (R83, R107) -/

/-- Is output p of site n held idle (R107): its link leaves the area or leads to a switch out of service? DESIGN CHOICE (log 76): so is an output
whose own link the fence map has out of service. -/
def heldIdle (s : State) (n p : Nat) : Bool :=
  if p = 4 then false
  else match neighbour s.member n p with
    | some m => decide (areaOfSite s n ≠ areaOfSite s m) || !(switchOn s m) || !(linkOn s n p)
    | none => (match attOf s.member n p with
      | some (a, _) => decide (areaOfSite s n ≠ areaOfAtt s a)
      | none => true)

/-- A flit leaves output p of switch n over edge link l at ACLK `due`: in a DMA-return slot it enters the elastic partition, whose space its
credit holds, and one that carries nothing is used up there; else the scheduled partition, which discards it when full (R101, R102, R135). -/
def edgePush (n p a l due : Nat) (f : Flit) (s : State) : State :=
  let t := edgeAtt s a l due
  let q := attAt s t
  let e : QEntry := { flit := f, link := l, arr := due }
  if edgeSlot s t l due backSlots then
    (if f.data = 0 then s else modAtt t (fun q => { q with inE := q.inE ++ [e] }) s)
  else if q.inS.length < q.sIn then modAtt t (fun q => { q with inS := q.inS ++ [e] }) s
  else reportEdge 0x3521 n p true s

/-- Send a flit out of port p, leaving in ACLK `leave`: over the link, into a selvedge queue, or to the site (R83, R90), where a delivery that
meets a token takes effect with it at t_e + 2 (R97). -/
def sendOut (n p te leave : Nat) (tok : Bool) (f : Flit) (s : State) : State :=
  if heldIdle s n p then reportPort 0x4516 n p true s
  else if p = 4 then
    modSw n (fun w => { w with deliv := w.deliv ++ [{ due := if tok then te + 2 else leave + 1, te := te, tok := tok, tag := none, flit := f }] }) s
  else match neighbour s.member n p with
    | some m => modSw m (fun w => { w with fly := w.fly ++ [{ due := leave + 1 + linkExtra n p, inp := facing p, flit := f }] }) s
    | none => match attOf s.member n p with
      | some (a, l) => edgePush n p a l leave f s
      | none => s

/-! ## Tokens (R96-R98) -/

/-- Fields of a token. -/
def tkSite (t : Nat) : Nat := bits t 23 20
def tkPort (t : Nat) : Nat := bits t 19 17
def tkType (t : Nat) : Nat := bits t 15 12
def tkArg (t : Nat) : Nat := bits t 11 0
def tkDlv (t : Tok) : Bool := tkType t.word.toNat == 1
def tkFell (t : Tok) : Bool := tkType t.word.toNat == 2

/-- Does the area hold a complete successor, so that a FELL takes effect (R203)? -/
def fellActs (s : State) (n : Nat) : Bool :=
  match areaOfSite s n with
  | some a => decide ((areaAt s a).complete = 1)
  | none => false

/-- Is the token malformed or invalid for its port (R98)? -/
def tokenBad (w : Switch) (t : Nat) : Bool :=
  bit t 16 || decide (4 < tkPort t) || (decide (tkType t ≠ 1) && decide (tkType t ≠ 2))
  || (decide (tkType t = 1) && decide (tkPort t ≠ 4))
  || (decide (tkType t = 2) && (decide (tkArg t / 2 ≠ 0) || decide (tkArg t % 2 = (look default w.outp (tkPort t)).bank)))

/-- The first element that passes, and the rest. -/
def takeFirst {α : Type} (p : α → Bool) : List α → Option (α × List α)
  | [] => none
  | x :: r => if p x then some (x, r) else match takeFirst p r with
    | some (y, r') => some (y, x :: r')
    | none => none

/-- Give the tag of a met DLV token to the delivery of the entry executed at te. -/
def tagDeliv (te arg : Nat) : List Deliv → List Deliv
  | [] => []
  | d :: r => if d.te = te ∧ d.tok ∧ d.tag = none then { d with tag := some arg } :: r else d :: tagDeliv te arg r

/-- Match the waiting entries of a port with its latch, oldest first, inside the ± 2 ACLK window (R97). -/
def matchTokens : Nat → Nat → Switch → Switch × Nat
  | 0, _, w => (w, 0)
  | k + 1, p, w =>
    let o := look default w.outp p
    let inWin (te : Nat) (t : Tok) : Bool := decide (te ≤ t.arr + 2) && decide (t.arr ≤ te + 2)
    match takeFirst (fun x : TokWait => (x.needDlv && o.latch.any (fun t => tkDlv t && inWin x.te t))
        || (x.needFell && o.latch.any (fun t => tkFell t && inWin x.te t))) o.waits with
    | none => (w, 0)
    | some (x, rest) =>
      let useDlv := x.needDlv && o.latch.any (fun t => tkDlv t && inWin x.te t)
      match takeFirst (fun t => (if useDlv then tkDlv t else tkFell t) && inWin x.te t) o.latch with
      | none => (w, 0)
      | some (t, latch) =>
        let x' := if useDlv then { x with needDlv := false } else { x with needFell := false }
        let left := decide (p = 4) && !x'.needDlv && x'.needFell
        let waits := if x'.needDlv || x'.needFell then x' :: rest else rest
        let fell := if useDlv then o.fell else some (x.te + 3, tkArg t.word.toNat % 2)
        let w := { w with
          outp := put default w.outp p { o with latch := latch, waits := waits, fell := fell }
          deliv := if useDlv then tagDeliv x.te (tkArg t.word.toNat) w.deliv else w.deliv }
        let r := matchTokens k p w
        let loose := useDlv && w.deliv.any fun d => decide (d.te = x.te) && d.flit.loose
        (r.1, r.2 + (if ((x'.needDlv || x'.needFell) && !left) || loose then 0 else if useDlv || decide (p ≠ 4) then 1 else 0))

/-- Match at a port and count the entries that met their token (R213 count 2), those of DMA deliveries apart. A FELL without a complete successor meets its entry
and has no effect (R203). -/
def runMatch (n p : Nat) (s : State) : State :=
  let r := matchTokens 4 p (swAt s n)
  let w := if fellActs s n || (look default r.1.outp p).fell.isNone then r.1 else { r.1 with outp := alter default r.1.outp p (fun o => { o with fell := none }) }
  let s := modSw n (fun _ => w) s
  if r.2 = 0 then s else excUp n 2 r.2 s

/-- An executed entry with TOK = 1 awaits its token: a FELL on a link port, a DLV and any FELL in the window on port L (R97). -/
def tokWait (n p : Nat) (s : State) : State :=
  runMatch n p (modSw n (fun w => { w with outp := alter default w.outp p (fun o =>
    { o with waits := o.waits ++ [{ te := s.now, needFell := true, needDlv := decide (p = 4) }] }) }) s)

/-! ## Executing an entry -/

/-- Does the switch execute entries: in service, not stopped by a halt (R106, R108)? -/
def switchRuns (s : State) (n : Nat) : Bool := siteJob s n && switchOn s n && !(swAt s n).stopped

/-- Does the result of a reduce of the last ACLK under another page occupy the output now (R89)? -/
def resultLeaves (w : Switch) (p t : Nat) : Bool :=
  (look default w.outp p).redAt == some t && (look default w.outp p).since == t

/-- A forward entry (R83). -/
def forwardEntry (n p e : Nat) (s : State) : State :=
  match inputHead s n (weSrcA e) with
  | none => emptyInput n (weSrcA e) p s
  | some f =>
    let s := sendOut n p s.now s.now (weTok e) f s
    let s := if weKeep e then s else takeInput n (weSrcA e) s
    let s := if f.loose then s else excUp n 0 1 s
    if weTok e then tokWait n p s else s

/-- A reduce entry: the result leaves one ACLK later (R83, R91-R93). With an operand missing the other head it names is popped all the same (R84). -/
def reduceEntry (n p e : Nat) (s : State) : State :=
  match inputHead s n (weSrcA e), inputHead s n (weSrcB e) with
  | some a, some b =>
    let f := reduceFlit (weRop e) a b
    let t := s.now
    let s := sendOut n p t (t + 1) (weTok e) f s
    let s := if weKeep e then s else takeInput n (weSrcB e) (takeInput n (weSrcA e) s)
    let s := if weRop e = 5 then countN 0x1530 n (laneCount addWraps a b) s else countN 0x1531 n (laneCount (newNan (weRop e)) a b) s
    let s := modSw n (fun w => { w with outp := alter default w.outp p (fun o => { o with redAt := some (t + 1) }) }) s
    let s := if f.loose then s else excUp n 1 1 s
    if weTok e then tokWait n p s else s
  | a, b =>
    let s := if a.isNone then emptyInput n (weSrcA e) p s else if weKeep e then s else takeInput n (weSrcA e) s
    if b.isSome then (if weKeep e then s else takeInput n (weSrcB e) s)
    else if weSrcA e = weSrcB e then s else emptyInput n (weSrcB e) p s

/-- The entry an output port executes in this ACLK (R83). -/
def weaveEntry (n p : Nat) (s : State) : State :=
  let w := swAt s n
  if !switchRuns s n || resultLeaves w p s.now then s
  else
    let e := portEntry w p s.now
    if weKind e = 1 then forwardEntry n p e s
    else if weKind e = 2 then reduceEntry n p e s
    else s

/-- WEAVE_ENTRY_EXEC (R83): output port `out` of the site's switch executes its entry of this ACLK. -/
def execWeaveEntryExec (site out : Nat) (s : State) : Out :=
  atSite site (fun s => if out < 5 then weaveEntry site out s else s) s

/-! ## Arrival (R78, R80, R94) -/

/-- The earliest flit in flight to an input. -/
def earliest (i : Nat) (l : List Fly) : Option Fly :=
  l.foldl (fun acc f => if f.inp = i then (match acc with | some g => if f.due < g.due then some f else acc | none => some f) else acc) none

/-- Does the input's link come from outside the area, or from a switch out of service (R106, R107)? -/
def foreignInput (s : State) (n i : Nat) : Bool :=
  if i = 4 then false
  else match neighbour s.member n i with
    | some m => decide (areaOfSite s n ≠ areaOfSite s m) || !(switchOn s m)
    | none => false

/-- Count corrected segments: the count of the switch, the watch trigger of the link, the risk event (R78, R444, R452). -/
def segCorrected (n i k : Nat) (s : State) : State :=
  each (List.range k) (fun _ s =>
    let s := riskEvent 0x2501 (powerRegion n) (count 0x2501 n 1 s)
    match neighbour s.member n i with
    | some m => watchTrigger 0x2501 64 (.link m (facing i)) s
    | none => s) s

/-- Mark segments sour. -/
def sourSegs (l : List Nat) (f : Flit) : Flit := { f with sour := l.foldl (fun b k => b ||| BitVec.ofNat 8 (2 ^ (k % 8))) f.sour }

/-- A valid flit at input i of switch n is checked segment by segment (R78): the segments found sour, and the state with what is reported. A
segment that is sour already raises nothing. -/
def checkFlit (n i : Nat) (u : LinkUpset) (f : Flit) (s : State) : List Nat × State :=
  let clean := fun k => decide (k < 8) && !(bit f.sour.toNat k)
  let fresh := u.ue.filter clean
  let s := segCorrected n i (u.ce.filter fun k => clean k && !(u.ue.contains k)).length s
  (fresh, each fresh (fun _ s => reportPort 0x3502 n i false s) s)

/-- Change the first entry a link may deliver in ACLK t. -/
def markLink (l t : Nat) (g : Flit → Flit) : List QEntry → List QEntry
  | [] => []
  | e :: r => if forLink l t e then { e with flit := g e.flit } :: r else e :: markLink l t g r

/-- The flit on an edge link in this ACLK meets an upset at the switch input (R78, R80): it is checked where it stands, or discarded. -/
def arriveEdge (n i a l : Nat) (u : LinkUpset) (s : State) : State :=
  if !switchRuns s n || (attAt s a).taken.any (fun x => x.1 == l) then s
  else if u.validBad then reportPort 0x3503 n i false (takeEdge a l none s)
  else match edgeHead s a l with
    | none => s
    | some f =>
      let dma := edgeSlot s a l s.now sendSlots
      let x := checkFlit n i u f s
      modAtt a (fun q => { q with
        outS := if dma then q.outS else markLink l s.now (sourSegs x.1) q.outS
        outE := if dma then markLink l s.now (sourSegs x.1) q.outE else q.outE }) x.2

/-- A flit reaches a switch input: checked segment by segment and pushed into the join slack FIFO. -/
def arrive (n i : Nat) (u : LinkUpset) (f : Fly) (s : State) : State :=
  let s := runTo f.due s
  let s := modSw n (fun w => { w with fly := w.fly.erase f }) s
  if !switchRuns s n || foreignInput s n i then s
  else if u.validBad then reportPort 0x3503 n i false s
  else
    let x := checkFlit n i u f.flit s
    modSw n (fun w => { w with inp := alter default w.inp i (fun y => { y with q := y.q ++ [sourSegs x.1 f.flit] }) }) x.2

/-- FLIT_ARRIVAL (R78): the next flit in flight to an input of the site's switch arrives, or the one on its edge link; the flit-valid
wires of an idle link are compared in every ACLK too (R80). -/
def execFlitArrival (site inp : Nat) (u : LinkUpset) (s : State) : Out :=
  atSite site (fun s => match attOf s.member site inp with
    | some (a, l) => arriveEdge site inp (edgeAtt s a l s.now) l u s
    | none => match earliest inp (swAt s site).fly with
      | some f => arrive site inp u f s
      | none => if u.validBad && decide (inp < 5) && switchRuns s site && !foreignInput s site inp then reportPort 0x3503 site inp false s else s) s

/-- The token arrives in the latch of its port. -/
def tokenArrive (n : Nat) (word : Nat) (s : State) : State :=
  let w := swAt s n
  let p := tkPort word
  if !switchRuns s n then s
  else if tokenBad w word then reportPort 0x4513 n p true s
  else if 2 ≤ (look default w.outp p).latch.length then reportPort 0x4512 n p true s
  else runMatch n p (modSw n (fun w => { w with outp := alter default w.outp p (fun o =>
    { o with latch := o.latch ++ [{ word := BitVec.ofNat 24 word, arr := s.now }] }) }) s)

/-- CONTROL_TOKEN_ARRIVAL (R97): the next token on the SU's token net arrives; `flip` is the bits an upset inverted. -/
def execControlTokenArrival (su : Nat) (flip : BitVec 24) (s : State) : Out :=
  onSite .su su (fun s => match (suAt s su).tokOut with
    | [] => s
    | (t, w) :: r =>
      let s := modSu su (fun u => { u with tokOut := r }) (runTo t s)
      let word := (w ^^^ flip).toNat
      tokenArrive (siteOf (heddleOf su) (tkSite word)) word s) s

/-- TOKEN_WINDOW_EXPIRY (R98): the port's oldest unmatched entry or token reaches the end of its window; the area halts.
A FELL that port L need not meet is no unmatched entry. -/
def execTokenWindowExpiry (site out : Nat) (s : State) : Out :=
  atSite site (fun s =>
    let o := look default (swAt s site).outp out
    let must := fun x : TokWait => if out = 4 then x.needDlv else x.needFell
    match o.waits.map (fun x => x.te + 2) ++ o.latch.map (fun t => t.arr + 2) with
    | [] => s
    | h :: r =>
      let e := r.foldl min h
      let s := runTo e s
      let late := (o.waits.filter fun x => decide (x.te + 2 ≤ e) && must x).length + (o.latch.filter fun t => decide (t.arr + 2 ≤ e)).length
      let s := modSw site (fun w => { w with outp := alter default w.outp out (fun o =>
        { o with waits := o.waits.filter (fun x => decide (e < x.te + 2)), latch := o.latch.filter (fun t => decide (e < t.arr + 2)) }) }) s
      each (List.range late) (fun _ s => reportPort 0x4512 site out true s) s) s

/-! ## Pages (R88, R89) -/

/-- Is the new page's entry of a port not idle while a reduce result leaves (R89)? -/
def collides (w : Switch) (p t : Nat) : Bool := resultLeaves w p t && decide (weKind (portEntry w p t) ≠ 0)

/-- Select a page on every port of a switch from ACLK t. -/
def Switch.setPage (pg t : Nat) (w : Switch) : Switch :=
  { w with outp := (List.range 5).foldl (fun o p => alter default o p (fun x => { x with page := pg, since := t })) w.outp }

/-- The SU of heddle h selects a page for the ports of its switches and its pull plans, now (R88, R116); those a halt has stopped keep theirs (R108). -/
def selectPage (h pg : Nat) (s : State) : State :=
  each (heddleSites h) (fun n s =>
    if (swAt s n).stopped then s else
    let s := modSw n (fun w => w.setPage pg s.now) s
    let s := if kindOf n = .mm then modMm n (fun m => { m with page := pg, since := s.now }) s else s
    each ((List.range 5).filter fun p => collides (swAt s n) p s.now) (fun p s => reportPort 0x4514 n p true s) s) s

/-- The first page selection in an SU's timer queue: its ACLK, its page, whether it is a barrier page (R184). -/
def nextPage (u : Su) : Option (Nat × Nat × Bool) :=
  u.timers.findSome? fun x => match x.2 with
    | .page pg => some (x.1, pg, false)
    | .barrier pg => some (x.1, pg, true)
    | _ => none

/-- PAGE_TAKE_EFFECT (R88): the SU's next queued page selection takes effect at ACLK 0 of its pick; a barrier page ends (R182),
or begins again after a failed step (R184). -/
def execPageTakeEffect (su : Nat) (s : State) : Out :=
  onSite .su su (fun s => match nextPage (suAt s su) with
    | none => s
    | some (t, pg, b) =>
      if (swAt s su).stopped then s else
      let s := runTo t s
      let act : Timed := if b then .barrier pg else .page pg
      let s := modSu su (fun u => { u with timers := u.timers.erase (t, act), barrier := if b then some pg else none }) (if b then s else excUp su 4 1 s)
      selectPage (heddleOf su) pg s) s

/-! ## Elastic credit (R102, R103, R105) -/

/-- The round-trip bounds of R103 in ACLK. -/
def loopBound (k : Nat) : Nat := ([24, 32, 48, 48, 64, 80, 96] : List Nat).getD k 96

/-- Free entries of an elastic partition for loop k: credits not out (R102); the hub's loop runs both ways (R103). -/
def creditsLeft (q : Attach) (k : Nat) : Nat :=
  256 - (if k = 1 ∨ k = 3 ∨ k = 6 then q.sOut else if k = 4 then max q.sIn q.sOut else q.sIn) - (look [] q.flying k).length

/-- A flit enters a loop on edge link l at ACLK t, taking a credit. -/
def takeCredit (k t l : Nat) (q : Attach) : Attach := { q with flying := alter [] q.flying k (· ++ [(t, l)]) }

/-- A flit that needs a credit of loop k at attachment t goes on its way by f with one; else it waits, and nothing changes (R102). -/
def underCredit (t k : Nat) (f : State → State) (s : State) : State :=
  if 0 < creditsLeft (attAt s t) k then f (modAtt t (takeCredit k s.now 0) s) else s

/-- The switch and port of a credit's edge link, and whether its flits leave the warp there (R109). -/
def creditPort (att loop link : Nat) : Nat × Nat × Bool := ((edgeSite att link).1, (edgeSite att link).2, !(decide (loop = 1) || decide (loop = 3) || decide (loop = 6)))

/-- CREDIT_RETURN (R102): the oldest credit out of a loop is back at its sender; a slow round trip is counted (R105). -/
def execCreditReturn (att loop : Nat) (s : State) : Out :=
  atAtt att (fun s => match look [] (attAt s att).flying loop with
    | [] => s
    | (t, l) :: r =>
      let s := modAtt att (fun q => { q with flying := put [] q.flying loop r, hung := alter 0 q.hung loop (· - 1) }) s
      if loopBound loop < s.now - t then count 0x1523 (edgeSite att l).1 1 s else s) s

/-- WRP_CREDIT_HANG (R105): the oldest credit out of a loop that has not hung yet has not come back within 10,000 picks. -/
def execWrpCreditHang (att loop : Nat) (s : State) : Out :=
  atAtt att (fun s => match (look [] (attAt s att).flying loop).drop (look 0 (attAt s att).hung loop) with
    | [] => s
    | (t, l) :: _ =>
      let x := creditPort att loop l
      reportEdge 0x3522 x.1 x.2.1 x.2.2 (modAtt att (fun q => { q with hung := alter 0 q.hung loop (· + 1) }) (runTo (t + 80000) s))) s

/-! ## Halting (R95, R108) -/

/-- HALT_REACH (R108): the halt of the site's area reaches it at the next pick boundary: it stops issuing, its switch stops,
flits in flight, join slack and token latches are cleared; stacks and ports of the area discard with their edge sites (R260, R287). -/
def execHaltReach (site : Nat) (s : State) : Out :=
  atSite site (fun s => match areaOfSite s site with
    | none => s
    | some a =>
      if (areaAt s a).halted then
        let s := toPick ((s.now + 7) / 8) s
        let s := modSw site (fun w => { w.cleared with stopped := true }) s
        let stop := fun q : Seq => { q with stopped := true }
        let s := if kindOf site = .mx then modMx site (fun m => { m with seq := stop m.seq, macs := [], macsDone := [], spmac := none, outs := [], acts := [] }) s else s
        let s := if kindOf site = .sf then modSf site (fun f => { f with seq := stop f.seq, wb := [], acts := [] }) s else s
        let s := if kindOf site = .su then modSu site (fun u => { u with seq := stop u.seq, timers := [], tokOut := [], starts := [] }) s else s
        each ((List.range 4).filterMap fun p => (attOf s.member site p).map Prod.fst) (fun t s =>
          let s := modAtt t (fun q => { q with inS := [], outS := [], taken := [] }) s
          if t < 32 then modStack t Stack.cleared s else if t < 64 then modSht (t - 32) Shuttle.cleared s else s) s
      else s) s

end Sys2Proof.Machine
end

