-- ==== Sys2Proof/Machine/Mm.lean ====
section
/-! DEFINITION. The MM site (04): rows and their code, creels, pushes and pulls, DMA lanes, scrub, sub-bank power. -/
namespace Sys2Proof.Machine

/-! ## Rows and cells (R111, R112, R136-R142) -/

/-- Remap entry e of sub-bank b: VALID and LROW (R142). -/
def remapVal (m : Mm) (b e : Nat) : Nat := (look default m.remap (32 * b + e)).v.val

/-- The physical row of a row number: its spare row while an entry names it (R142). -/
def physRow (m : Mm) (b r : Nat) : Nat :=
  match (List.range 32).find? fun e => decide (8192 ≤ remapVal m b e) && decide (remapVal m b e % 8192 = r) with
  | some e => 6144 + e
  | none => r

/-- Byte address of a row in the site's store. -/
def mmRowAddr (m : Mm) (b r : Nat) : Nat := (6176 * b + physRow m b r) * 64

/-- The 64 bytes of a row and the code states of its cells. -/
def mmRow (m : Mm) (b r : Nat) : List Byte := bytesAt m.mem (mmRowAddr m b r) 64
def mmCells (m : Mm) (b r : Nat) : List CellCode := (List.range 4).map fun c => look .good m.code (mmRowAddr m b r / 16 + c)

/-- Store code states from cell c of a row. -/
def putCodes (t : Tab CellCode) (k : Nat) : List CellCode → Tab CellCode
  | [] => t
  | c :: r => putCodes (put .good t k c) (k + 1) r

/-- Write cells from cell c of a row; a sour write makes the whole grain sour (R138). -/
def mmWrite (b r c : Nat) (bytes : List Byte) (sour : Bool) (m : Mm) : Mm :=
  let a := mmRowAddr m b r
  { m with
    mem := putBytes m.mem (a + 16 * c) bytes
    code := if sour then putCodes m.code (a / 16) [.sour, .sour, .sour, .sour]
            else putCodes m.code (a / 16 + c) (List.replicate (bytes.length / 16) .good) }

/-- The symbols an armed MM_INJ inverts in cell c of the row (R141). DESIGN CHOICE (log 73): one symbol named twice is inverted twice. -/
def injSymbols (m : Mm) (b r c : Nat) : List Nat :=
  match m.inj with
  | some j => if j.sub = b ∧ j.row = r ∧ j.cell = c then (if j.two then (if j.sym1 = j.sym2 then [] else [j.sym1, j.sym2]) else [j.sym1]) else []
  | none => []

/-- The outcome of a cell's decoder (R137) with n further symbols in error. -/
def decodeCell (c : CellCode) (n : Nat) : CellCode :=
  match c with
  | .good => if n = 0 then .good else if n = 1 then .ce else .ue
  | .sour => if n ≤ 1 then .sour else .ue
  | .ce => if n = 0 then .ce else .ue
  | .ue => .ue

/-- The outcomes of the four cells of a row. -/
def rowOutcomes (m : Mm) (b r : Nat) : List CellCode :=
  (List.zip (mmCells m b r) (List.range 4)).map fun x => decodeCell x.1 (injSymbols m b r x.2).length

/-- The row's data as it leaves the array: symbols inverted in cells that are not corrected. -/
def rowData (m : Mm) (b r : Nat) : List Byte :=
  let raw := leNat (mmRow m b r)
  let flip := (List.range 4).foldl (fun acc c =>
    if decodeCell ((mmCells m b r).getD c .good) (injSymbols m b r c).length = .ue then
      (injSymbols m b r c).foldl (fun acc k => if k < 32 then acc + 15 * 2 ^ (128 * c + 4 * k) else acc) acc
    else acc) 0
  leBytes 64 (raw ^^^ flip)

/-- The armed corruption is used up by a read of its row. -/
def injUsed (m : Mm) (b r : Nat) : Option Inj :=
  match m.inj with
  | some j => if j.sub = b ∧ j.row = r then none else m.inj
  | none => none

/-- Does a row read as sour or uncorrectable (R138, R139)? -/
def rowBad (l : List CellCode) : Bool := l.any fun c => c == .sour || c == .ue

/-- Change a sub-bank of an MM site. -/
def modSub (b : Nat) (f : SubBank → SubBank) (m : Mm) : Mm := { m with subs := alter default m.subs b f }
def subAt (m : Mm) (b : Nat) : SubBank := look default m.subs b

/-- Count corrected cells of a read: MM_CE, MM_ECC_s.CE, the write-back, the watch trigger (R137, R444). -/
def mmCorrected (n b r k : Nat) (s : State) : State :=
  if k = 0 then s else
    let s := modMm n (modSub b (fun x => { x with ce := satAdd 0xFFFF x.ce k, writeBack := if x.writeBack.contains r then x.writeBack else x.writeBack ++ [r] })) s
    each (List.range k) (fun _ s => watchTrigger 0x2201 16 (.site n) (riskEvent 0x2201 (powerRegion n) (count 0x2201 n 1 s))) s

/-- The items of an MM report: sub-bank and, for creels, number and pointers (R124, R151). -/
def mmReport (s : State) (n b : Nat) : Report349 := { siteReport s n with aux := leBytes 1 b }
def creelReport (s : State) (n i : Nat) (c : Creel) : Report349 :=
  { siteReport s n with aux := leBytes 1 (bits c.desc.toNat 61 60) ++ leBytes 1 i ++ leBytes 2 c.head ++ leBytes 2 c.tail ++ leBytes 2 c.ctail }

/-- A scheduled or DMA read of a row (R137-R139): its data, whether it is sour, and the state with what the read leaves. -/
def mmRead (n b r : Nat) (s : State) : List Byte × Bool × State :=
  let m := mmAt s n
  let out := rowOutcomes m b r
  let data := rowData m b r
  let s := modMm n (fun m => { m with inj := injUsed m b r }) s
  let s := mmCorrected n b r (out.filter (· == .ce)).length s
  if out.any (· == .ue) then
    let s := modMm n (fun m => modSub b (fun x => { x with ue := satAdd 0xFF x.ue 1 }) (mmWrite b r 0 data true m)) s
    (data, true, report 0x3202 (mmReport s n b) s)
  else if rowBad out then (data, true, noteStoredSour (areaOfSite s n) n ((6144 * b + r)) s)
  else (data, false, s)

/-! ## Creels (R121-R127) -/

/-- The key of credit that a commit could not yet return in whole transfers. -/
def carryKey : Nat := 2 ^ 64

/-- Fields of a descriptor. -/
def crMode (d : W64) : Nat := bits d.toNat 63 62
def crSub (d : W64) : Nat := bits d.toNat 61 60
def crBase (d : W64) : Nat := bits d.toNat 59 47
def crLenM1 (d : W64) : Nat := bits d.toNat 46 34
def crPadv (d : W64) : Nat := 2 ^ bits d.toNat 33 32
def crCadv (d : W64) : Nat := 2 ^ bits d.toNat 31 30
def crHostRd (d : W64) : Bool := bit d.toNat 26

/-- Capacity in cells. -/
def crCap (d : W64) : Nat := 4 * (crLenM1 d + 1)

def crOcc (c : Creel) : Nat := ptrSub (crCap c.desc) c.tail c.head
def crFree (c : Creel) : Nat := crCap c.desc - crOcc c
/-- Committed cells not yet consumed. -/
def crCommitted (c : Creel) : Nat := ptrSub (crCap c.desc) c.ctail c.head

def creelAt (m : Mm) (i : Nat) : Creel := look default m.creels i
def modCreel (i : Nat) (f : Creel → Creel) (m : Mm) : Mm := { m with creels := alter default m.creels i f }

/-- Row of cell p of a creel. -/
def crRow (d : W64) (p : Nat) : Nat := crBase d + p % 32768 / 4

/-- The producer advances: TAIL moves; CTAIL follows outside commit mode (R121). -/
def Creel.pushed (c : Creel) (k : Nat) : Creel :=
  let t := ptrAdd (crCap c.desc) c.tail k
  { c with tail := t, ctail := if crMode c.desc = 3 then c.ctail else t }

/-- Is every field of CRL_DESC_n a value its description gives (R359)? -/
def creelWriteOk (d : W64) : Bool :=
  decide (crBase d ≤ 6143) && decide (crLenM1 d ≤ 6143) && decide (bits d.toNat 33 32 ≠ 3) && decide (bits d.toNat 31 30 ≠ 3) && decide (bits d.toNat 29 27 ≤ 3)

/-- The rules of R122 for a staged group over the descriptors of a site. -/
def creelFieldsOk (d : W64) : Bool :=
  decide (crBase d + crLenM1 d ≤ 6143) && decide (bits d.toNat 33 32 ≠ 3) && decide (bits d.toNat 31 30 ≠ 3)
  && decide (bits d.toNat 29 27 ≤ 3) && (!crHostRd d || decide (crMode d = 3))

/-- Do the rows of two enabled creels overlap? -/
def creelsOverlap (x y : W64) : Bool :=
  decide (crMode x ≠ 0) && decide (crMode y ≠ 0) && decide (crSub x = crSub y)
  && decide (crBase x ≤ crBase y + crLenM1 y) && decide (crBase y ≤ crBase x + crLenM1 x)

/-- May descriptors 0-15 stand together (R122)? -/
def creelSetOk (l : List W64) : Bool :=
  l.all creelFieldsOk && (List.range l.length).all fun i => (List.range i).all fun j => !creelsOverlap (l.getD i 0) (l.getD j 0)

/-- Apply a descriptor: in force, pointers 0 (R122). -/
def Creel.apply (d : W64) (c : Creel) : Creel := { c with desc := d, staged := d, head := 0, tail := 0, ctail := 0, freed := [], eTail := [], offTail := none }

/-! ## Scheduled accesses (R114, R117, R119, R124) -/

/-- Has the sub-bank made a scheduled access in this ACLK? -/
def schedNow (s : State) (n b : Nat) : Bool := (subAt (mmAt s n) b).lastSched == some s.now

/-- What the scheduled accesses of this ACLK found in a sub-bank. -/
def accessesNow (s : State) (n b : Nat) : List Access := if schedNow s n b then (subAt (mmAt s n) b).undo else []

/-- A scheduled access of row r for creel i (16: none) takes the sub-bank's access of this ACLK; what it found is kept for a clash. -/
def markSched (n b : Nat) (push : Bool) (r i : Nat) (s : State) : State :=
  modMm n (fun m => modSub b (fun x => { x with
    lastSched := some s.now
    undo := accessesNow s n b ++ [{ push := push, creel := i, old := creelAt m i, row := r, bytes := mmRow m b r, codes := mmCells m b r }] }) m) s

/-- Take an access back: its row and its creel are as it found them. -/
def undoAccess (b : Nat) (x : Access) (m : Mm) : Mm :=
  let m := { m with mem := putBytes m.mem (mmRowAddr m b x.row) x.bytes, code := putCodes m.code (mmRowAddr m b x.row / 16) x.codes }
  if x.creel < 16 then modCreel x.creel (fun _ => x.old) m else m

/-- Two scheduled accesses on one sub-bank in one ACLK: none of the ACLK is performed (R119). -/
def bankClash (n b : Nat) (s : State) : State :=
  let l := accessesNow s n b
  let s := modMm n (fun m => modSub b (fun x => { x with lastSched := some s.now, undo := [] }) (l.foldr (undoAccess b) m)) s
  report 0x4210 (mmReport s n b) s

/-- The one access of this ACLK that a push (or a pull) of creel i may share the sub-bank with: the pull (or push) of the same creel (R124). -/
def partner (s : State) (n b i : Nat) (push : Bool) : Option Access :=
  match accessesNow s n b with
  | [x] => if x.creel = i ∧ x.push ≠ push then some x else none
  | _ => none

/-- What keeps a scheduled access from a sub-bank: not ON, or a clash (R119, R146). -/
def mmBlocked (n b i : Nat) (push : Bool) (s : State) : Option State :=
  if (subAt (mmAt s n) b).power ≠ 0 then some (report 0x4213 (mmReport s n b) s)
  else if schedNow s n b && (decide (16 ≤ i) || (partner s n b i push).isNone) then some (bankClash n b s)
  else none

/-- The creel a push or a pull tests: as it stood before its partner of the same ACLK (R124). -/
def testedCreel (s : State) (n b i : Nat) (push : Bool) : Creel :=
  match partner s n b i push with
  | some x => x.old
  | none => creelAt (mmAt s n) i

/-- A scheduled push of one half of a flit into a creel (R114, R115, R124). -/
def mmPush (n i : Nat) (half : List Byte) (sour : Bool) (s : State) : State :=
  let c := creelAt (mmAt s n) i
  let d := c.desc
  let b := crSub d
  match mmBlocked n b i true s with
    | some s => s
    | none =>
      if crFree (testedCreel s n b i true) < crPadv d then report 0x4230 (creelReport s n i c) s
      else
        let r := crRow d c.tail
        let s := markSched n b true r i s
        let s := modMm n (fun m => modCreel i (fun c => c.pushed (crPadv d))
          (mmWrite b r (c.tail % 4) (half.take (16 * crPadv d)) sour m)) s
        let s := excUp n 4 1 s
        if sour then noteSour (areaOfSite s n) (some (heddleOf n)) s else s

/-- The bytes of a flit. -/
def flitBytes (f : Flit) : List Byte := rowBytes f.data
/-- The creels that a push names: those of the halves whose V bit is 1 (R115). -/
def pushNames (tag : Nat) : List Nat := (if bit tag 8 then [bits tag 3 0] else []) ++ (if bit tag 9 then [bits tag 7 4] else [])

/-- A creel push delivery (R113-R115, R124): a push that names a creel which takes none is discarded as a whole (DEDUCED of an elastic one,
log 73); both halves clash when they name one sub-bank (R119). -/
def mmPushFlit (n tag : Nat) (f : Flit) (s : State) : State :=
  let m := mmAt s n
  let b := flitBytes f
  match (pushNames tag).find? fun i => crMode (creelAt m i).desc == 0 || crMode (creelAt m i).desc == 2 with
  | some i => report 0x4212 (creelReport s n i (creelAt m i)) s
  | none =>
    let hi := bits tag 7 4
    let lo := bits tag 3 0
    if bit tag 9 && bit tag 8 && crSub (creelAt m hi).desc == crSub (creelAt m lo).desc then bankClash n (crSub (creelAt m hi).desc) s
    else
      let s := if bit tag 8 then mmPush n lo (b.take 64) (lowSour f) s else s
      if bit tag 9 then mmPush n hi (b.drop 64) (highSour f) s else s

/-- The half of a pull that is not performed: its cells are free (log 70). -/
def lostHalf (n : Nat) (d : W64) (s : State) : List Byte :=
  (leBytes 64 (Config.lostGrain n s.now).toNat).take (16 * crCadv d) ++ List.replicate (64 - 16 * crCadv d) 0

/-- The read of a pull beside a push of the same creel in the same ACLK: the row as it was before the push, which lands all the same (R120, R124). -/
def readBehind (n b r : Nat) (x : Access) (s : State) : List Byte × Bool × State :=
  if x.row ≠ r then mmRead n b r s
  else
    let m := mmAt s n
    let t := x.old.tail % 4
    let cells := ((mmRow m b r).drop (16 * t)).take (16 * crPadv x.old.desc)
    let sour := (mmCells m b r).all (· == .sour)
    let s := modMm n (fun m => { m with mem := putBytes m.mem (mmRowAddr m b r) x.bytes, code := putCodes m.code (mmRowAddr m b r / 16) x.codes }) s
    let y := mmRead n b r s
    (y.1, y.2.1, modMm n (mmWrite b r t cells sour) y.2.2)

/-- A scheduled pull of one half (R117, R124): 64 bytes, whether sour, and the state. -/
def mmPull (n i : Nat) (s : State) : List Byte × Bool × State :=
  let c := creelAt (mmAt s n) i
  let d := c.desc
  let b := crSub d
  let zero := List.replicate 64 (0 : Byte)
  match mmBlocked n b i false s with
  | some s => (lostHalf n d s, false, s)
  | none =>
    let c0 := testedCreel s n b i false
    if crMode d = 0 ∨ (if crMode d = 3 then crCommitted c0 else crOcc c0) < crCadv d then
      (zero, false, report 0x4231 (creelReport s n i c) s)
    else
      let r := crRow d c.head
      let p := partner s n b i false
      let s := markSched n b false r i s
      let x := match p with | some p => readBehind n b r p s | none => mmRead n b r s
      let k := match areaOfSite s n with | some a => (match curStep s a with | some k => k.k | none => 0) | none => 0
      let s := modMm n (modCreel i (fun c => { c with
        head := ptrAdd (crCap d) c.head (crCadv d)
        freed := if crMode d = 2 then c.freed ++ [(k, crCadv d)] else c.freed })) x.2.2
      let cells := (x.1.drop (16 * (c.head % 4))).take (16 * crCadv d)
      (cells ++ List.replicate (64 - cells.length) 0, x.2.1, excUp n 3 1 s)

/-- A pull entry (R117). -/
def pullEntry (n e : Nat) (s : State) : State :=
  let lo := bits e 13 10
  let hi := bits e 9 6
  let m := mmAt s n
  if !bit e 5 && !bit e 4 then s
  else
    let clash := bit e 5 && bit e 4 && (crSub (creelAt m lo).desc == crSub (creelAt m hi).desc)
    let zero := List.replicate 64 (0 : Byte)
    let s := if clash then bankClash n (crSub (creelAt m lo).desc) s else s
    let a := if clash then (lostHalf n (creelAt m lo).desc s, false, s) else if bit e 5 then mmPull n lo s else (zero, false, s)
    let b := if clash then (lostHalf n (creelAt m hi).desc s, false, s) else if bit e 4 then mmPull n hi a.2.2 else (zero, false, a.2.2)
    let f : Flit := { data := rowOf (a.1 ++ b.1), sour := BitVec.ofNat 8 ((if a.2.1 then 15 else 0) + (if b.2.1 then 240 else 0)) }
    inject n s.now f (excUp n 5 1 b.2.2)

/-! ## DMA return (R130, R135, R147) -/

/-- The header of a DMA flit in segment 4. -/
def dmaFlit (header : Nat) (data : BitVec 512) (sour : Nat) : Flit :=
  { data := BitVec.ofNat 1024 (data.toNat + header * 2 ^ 512), sour := BitVec.ofNat 8 (sour % 16), loose := true }

/-- The first creel with credits to grant, whose sub-bank is ON and not leaving (R132, R147). -/
def grantCreel (m : Mm) : Option Nat :=
  (List.range 16).find? fun i => decide (0 < look 0 m.grants i) && (subAt m (crSub (creelAt m i).desc)).req.isNone && decide ((subAt m (crSub (creelAt m i).desc)).power = 0)

/-- The credit loop that a lane's elastic flits take at its attachment: the hub's, else the ring's inject or eject loop (R22, R103). -/
def laneLoop (t : Nat) (toSite : Bool) : Nat := if t = 64 then 4 else if toSite then 6 else 5

/-- Has the lane of a site a credit for a return flit (R102)? A site with no lane has no loop. -/
def mayReturn (s : State) (m : Mm) : Bool :=
  match m.lane with
  | some (t, _) => decide (0 < creditsLeft (attAt s t) (laneLoop t false))
  | none => true

/-- A DMA-return slot: the head of the return queue, or OP none, with any pending GRANT and RECALL (R135). What it carries takes a credit of
the lane's return loop and waits for one (R22, R102). -/
def dmaReturn (n : Nat) (s : State) : State :=
  let m := mmAt s n
  let g := grantCreel m
  let k := match g with | some i => min 65535 (look 0 m.grants i) | none => 0
  let head := match m.retq with
    | [] => 0
    | x :: _ => x.op + x.creel * 4 + x.status * 64 + x.tag * 2 ^ 21
  let hdr := head + (g.getD 0) * 2 ^ 28 + k * 2 ^ 32 + m.recallSet * 2 ^ 48
  let data := match m.retq with | [] => 0 | x :: _ => x.data
  let sour := match m.retq with | [] => 0 | x :: _ => x.sour
  if hdr = 0 ∨ !mayReturn s m then inject n s.now (dmaFlit 0 0 0) s
  else
    let s := modMm n (fun m => { m with
      retq := m.retq.drop 1
      recallSet := 0
      grants := match g with | some i => put 0 m.grants i (look 0 m.grants i - k) | none => m.grants
      granted := match g with | some i => alter 0 m.granted i (· + k) | none => m.granted }) s
    let s := match m.lane with
      | some (t, l) => modAtt t (takeCredit (laneLoop t false) s.now l) s
      | none => s
    inject n s.now (dmaFlit hdr data sour) s

/-- The pull-plan entry of this ACLK (R116). -/
def pullPlanEntry (m : Mm) (t : Nat) : Nat :=
  let d := (look 0 m.pages (64 * m.bank + m.page)).toNat
  if pdValid d ∧ m.since ≤ t then (look 0 m.pull (1024 * m.bank + entryIndex d m.since t)).toNat else 0

/-- Does a site act: not fenced, not stopped by a halt, and in an area with a job? -/
def siteRuns (s : State) (n : Nat) : Bool := siteJob s n && !(siteFenced s n) && !(swAt s n).stopped

/-- Does a reader flit leave the site in ACLK t, one of the operation in progress or the last (R225)? -/
def readerLeaves (p : Sparse) (t : Nat) : Bool :=
  decide (p.rdAt = t + 1) || (match p.rd with | some r => within (r.d + r.del) (r.d + r.del + r.nf - 1) t | none => false)

/-- Does a flush flit? -/
def flushLeaves (p : Sparse) (t : Nat) : Bool :=
  decide (p.flAt = t + 1) || (match p.fl with | some f => within (f.d + f.fdel) (f.d + f.fdel + f.num - 1) t | none => false)

/-- Does a reader or flush flit leave the site in ACLK t (R225)? -/
def sparseLeaves (m : Mm) (t : Nat) : Bool := readerLeaves m.sp t || flushLeaves m.sp t

/-- PULL_ENTRY_EXEC (R117): the pull plan executes its entry of this ACLK; a reader or flush flit of the ACLK goes first (R225). -/
def execPullEntryExec (site : Nat) (s : State) : Out :=
  onSite .mm site (fun s =>
    let e := pullPlanEntry (mmAt s site) s.now
    if !siteRuns s site then s
    else if sparseLeaves (mmAt s site) s.now && within 1 2 (bits e 15 14) then reportSite 0x4241 site s
    else if bits e 15 14 = 1 then pullEntry site e s
    else if bits e 15 14 = 2 then dmaReturn site s
    else s) s

/-! ## DMA delivery (R129-R134, R148) -/

/-- Fields of a DMA header. -/
def flitHdr (f : Flit) : Nat := bits f.data.toNat 639 512

/-- Complete a bulk command: its own status, else SOUR with the count of sour grains (R340, R347). -/
def bulkFinish (j : BulkJob) (s : State) : State :=
  let st := if j.status ≠ 0 then j.status else if j.sours ≠ 0 then mSour else mOk
  mbxComplete j.port j.m st (if st = mSour then j.sours else 0) [] { s with bulk := s.bulk.filter fun x => x.id != j.id }

/-- An operation of a bulk command failed or completed: the worst status stays; the last completes the command. -/
def bulkDone (job st sours : Nat) (s : State) : State :=
  let s := { s with bulk := s.bulk.map fun j => if j.id = job then
      { j with left := j.left - 1, status := if j.status = 0 then st else j.status, sours := j.sours + sours } else j }
  match s.bulk.find? fun j => j.id == job && decide (j.left = 0) with
  | some j => bulkFinish j s
  | none => s

/-- A push into creel i of site n landed or was dropped: the bulk command that waits for it goes on (R346). -/
def bulkPush (n i st : Nat) (s : State) : State :=
  match s.bulk.find? (fun j => j.kind == 1 && j.site == n && j.creel == i && decide (0 < j.left)) with
  | some j => bulkDone j.id st 0 s
  | none => s

/-- A push dropped at a sub-bank that is not ON: TAIL advances all the same (R148). -/
def lateDrop (n i : Nat) (s : State) : State :=
  bulkPush n i mLateWrite (count 0x1220 n 1 (modMm n (fun m => { (modCreel i (fun c => c.pushed (crPadv c.desc)) m) with
    lateDrop := m.lateDrop + 1
    granted := alter 0 m.granted i (· - 1) }) s))

/-- The DMA operation a delivery flit carries. -/
def dmaOpOf (f : Flit) : DmaOp :=
  let h := flitHdr f
  { op := bits h 1 0, creel := bits h 5 2, arg := bits h 20 6, tag := bits h 27 21
    data := BitVec.ofNat 512 f.data.toNat, sour := f.sour.toNat % 16, arr := 0, half := none }

/-- A DMA delivery flit arrives (R130, R131, R133): returned credits come back, the operation joins its sub-bank's queue. -/
def dmaArrive (n : Nat) (f : Flit) (s : State) : State :=
  let h := flitHdr f
  let s := modMm n (fun m => { m with granted := alter 0 m.granted (bits h 31 28) (· - bits h 47 32) }) s
  let o := dmaOpOf f
  if o.op = 0 then s
  else
    let m := mmAt s n
    let b := crSub (creelAt m o.creel).desc
    if o.op = 1 ∧ (subAt m b).power ≠ 0 then lateDrop n o.creel s
    else if 4 ≤ (subAt m b).dmaq.length then report 0x4214 (mmReport s n b) s
    else modMm n (modSub b (fun x => { x with dmaq := x.dmaq ++ [{ o with arr := s.now }] })) s

/-- An entry for the return queue. -/
def retOf (o : DmaOp) (op st : Nat) (data : BitVec 512) (sour : Nat) : DmaRet :=
  { op := op, creel := o.creel, status := st, tag := o.tag, data := data, sour := sour }

/-- The pointers of the four cells of a read from pointer p, in creel order (R130). -/
def readPtrs (c : Creel) (p : Nat) : List Nat := (List.range 4).map (ptrAdd (crCap c.desc) p)

/-- One access of a DMA read (R130): the cells of row r among its four, added to those read. A cell past CTAIL is zero. -/
def dmaRow (n : Nat) (c : Creel) (r : Nat) (h : HalfRead) (s : State) : HalfRead × State :=
  let l := (List.zip (List.range 4) (readPtrs c h.ptr)).filter fun x => decide (crRow c.desc x.2 = r)
  let y := if l.any fun x => decide (x.1 < h.vis) then mmRead n (crSub c.desc) r s else ([], false, s)
  ({ h with
    cells := h.cells ++ l.flatMap fun x => if x.1 < h.vis then (y.1.drop (16 * (x.2 % 4))).take 16 else List.replicate 16 0
    sour := l.foldl (fun acc x => if x.1 < h.vis ∧ y.2.1 then acc + 2 ^ x.1 else acc) h.sour }, y.2.2)

/-- The answer to a read or a drain (R131): refused with a STATUS, or performed. -/
def dmaStatus (c : Creel) (o : DmaOp) : Nat :=
  if crMode c.desc ≠ 3 ∨ ¬ crHostRd c.desc then 2
  else if o.op = 2 then (if o.arg % 4 ≠ 0 then 4 else if crCommitted c ≤ o.arg then 1 else 0)
  else if crCommitted c < o.arg ∨ o.arg % crCadv c.desc ≠ 0 then 3
  else 0

/-- A drain frees cells at once, also in the saved pairs (R125, R131). -/
def Creel.drained (k : Nat) (c : Creel) : Creel :=
  { c with head := ptrAdd (crCap c.desc) c.head k
           saved := c.saved.map fun x => (x.1, x.2.1, ptrAdd (crCap c.desc) x.2.2.1 k, x.2.2.2) }

/-- The head of a sub-bank's DMA queue is served (R130, R131, R133-R135): the state, and what stays of the operation. A read whose cells lie
in two rows stays after its first access. DESIGN CHOICE (log 73): a push into a creel that is not elastic returns OP refused with STATUS 2,
and a drain performed returns OP read data with STATUS 0 and no data. -/
def dmaServe (n : Nat) (o : DmaOp) (s : State) : State × Option DmaOp :=
  let m := mmAt s n
  let c := creelAt m o.creel
  let d := c.desc
  let b := crSub d
  let answer := fun (r : DmaRet) (s : State) => modMm n (fun m => { m with retq := m.retq ++ [r] }) s
  if o.op = 1 then
    if crMode d ≠ 2 then
      if 4 ≤ m.retq.length then (s, some o) else (answer (retOf o 2 2 0 0) s, none)
    else if (subAt m b).power ≠ 0 then (lateDrop n o.creel s, none)
    else if crFree c < crPadv d then (report 0x4230 (creelReport s n o.creel c) s, none)
    else
      let bytes := (leBytes 64 o.data.toNat).take (16 * crPadv d)
      let s := modMm n (fun m => { (modCreel o.creel (fun c => c.pushed (crPadv d)) (mmWrite b (crRow d c.tail) (c.tail % 4) bytes (decide (o.sour ≠ 0)) m)) with
        granted := alter 0 m.granted o.creel (· - 1) }) s
      (bulkPush n o.creel 0 s, none)
  else if 4 ≤ m.retq.length then (s, some o)
  else
    let st := dmaStatus c o
    if st ≠ 0 ∧ o.half.isNone then (answer (retOf o 2 st 0 0) s, none)
    else if o.op = 2 then
      if (subAt m b).power ≠ 0 then (s, some o)
      else
        let h := o.half.getD { ptr := ptrAdd (crCap d) c.head o.arg, vis := crCommitted c - o.arg, cells := [], sour := 0 }
        let rows := ((readPtrs c h.ptr).map (crRow d)).eraseDups
        let x := dmaRow n c (rows.getD (b2n o.half.isSome) 0) h s
        if o.half.isNone ∧ rows.length = 2 then (x.2, some { o with half := some x.1 })
        else (answer (retOf o 1 0 (BitVec.ofNat 512 (leNat x.1.cells)) x.1.sour) x.2, none)
    else (answer (retOf o 1 0 0 0) (modMm n (modCreel o.creel (Creel.drained o.arg)) s), none)

/-- The ACLK of an access of lower priority in a sub-bank (R112, R133): the last ACLK, or this one, in which the sub-bank makes no scheduled access and
no other of lower priority, not before ACLK `from_`. It takes the whole ACLK, which is over once it is made (DEDUCED, log 72). None where this
ACLK has its access already. -/
def lowAccess (n b from_ : Nat) (s : State) : Option State :=
  let x := subAt (mmAt s n) b
  let free := fun u => decide (from_ ≤ u) && decide (x.lowNext ≤ u) && decide (x.lastSched ≠ some u)
  let take := fun u => modMm n (modSub b (fun x => { x with lowNext := u + 1 }))
  if 0 < s.now ∧ free (s.now - 1) = true ∧ (x.lastSched.getD 0) < s.now then some (take (s.now - 1) s)
  else if free s.now then some (take s.now (runTo (s.now + 1) s))
  else none

/-- DMA_QUEUE_SERVICE (R133, R134): the head of the sub-bank's DMA queue is served in the first ACLK that no scheduled access has. -/
def execDmaQueueService (site sub : Nat) (s : State) : Out :=
  onSite .mm site (fun s => match (subAt (mmAt s site) (sub % 4)).dmaq with
    | [] => s
    | o :: r => match lowAccess site (sub % 4) o.arr s with
      | none => s
      | some s =>
        let x := dmaServe site o s
        modMm site (modSub (sub % 4) (fun b => { b with dmaq := x.2.toList ++ r })) x.1) s

/-- Does a delivery still wait for its DLV token (R97)? -/
def awaitsTag (w : Switch) (d : Deliv) : Bool :=
  d.tok && d.tag.isNone && (look default w.outp 4).waits.any fun x => x.te == d.te && x.needDlv

/-- The delivery at the head of a site's local output, if one is in flight that does not wait for its token. -/
def headDeliv (s : State) (n : Nat) : Option Deliv := (swAt s n).deliv.head?.filter fun d => !awaitsTag (swAt s n) d

/-- Take the head delivery at its ACLK. -/
def takeDeliv (n : Nat) (d : Deliv) (s : State) : State := modSw n (fun w => { w with deliv := w.deliv.drop 1 }) (runTo d.due s)

/-- KIND of a tag on an MM site. -/
def tagKind (d : Deliv) : Option Nat := d.tag.map fun t => bits t 11 10

/-- DMA_OP_ARRIVAL (R131): the head delivery, a DMA delivery, is taken and its operation queued. -/
def execDmaOpArrival (site : Nat) (s : State) : Out :=
  onSite .mm site (fun s => match headDeliv s site with
    | some d => if d.tag = some 0x400 ∧ siteRuns s site then dmaArrive site d.flit (takeDeliv site d s) else s
    | none => s) s

/-! ## The edge's side of a DMA lane (R129, R130, R132, R147) -/

/-- Creels of recalled sub-banks with unused credits at the edge. -/
def cretCreel (m : Mm) : Option Nat :=
  (List.range 16).find? fun i => bit m.recalled (crSub (creelAt m i).desc) && decide (0 < look 0 m.credits i)

/-- May the edge send the operation now: a push holds a credit and its sub-bank is not recalled (R132, R147)? -/
def edgeMay (m : Mm) (o : DmaOp) : Bool :=
  o.op != 1 || (decide (0 < look 0 m.credits o.creel) && !bit m.recalled (crSub (creelAt m o.creel).desc))

/-- EDGE_DMA_SLOT (R129): the attachment's DMA engine fills a delivery slot of a site's lane: the oldest operation it may
send, else a blank; unused credits of recalled sub-banks go back in CRET. An operation takes a credit of the loop it comes over and waits for
one; the elastic partition holds no more than its share of the queue (R22, R100, R102). -/
def execEdgeDmaSlot (att site : Nat) (s : State) : Out :=
  guardUnit (attPresent s.member att && sitePresent s.member site) (fun s =>
    let m := mmAt s site
    match m.lane with
    | none => s
    | some (a, l) =>
      if a ≠ att then s
      else
        let cr := cretCreel m
        let back := match cr with | some i => min 65535 (look 0 m.credits i) | none => 0
        let room := decide ((attAt s att).outE.length < 256 - (attAt s att).sOut)
        let k := laneLoop att true
        let op := match m.edgeq with | e :: _ => if edgeMay m e.op && decide (0 < creditsLeft (attAt s att) k) then some e.op else none | [] => none
        if !room then s else
        let hdr := (match op with | some o => o.op + o.creel * 4 + o.arg * 64 + o.tag * 2 ^ 21 | none => 0)
          + (cr.getD 0) * 2 ^ 28 + back * 2 ^ 32
        let f := dmaFlit hdr (match op with | some o => o.data | none => 0) (match op with | some o => o.sour | none => 0)
        let s := modMm site (fun m => { m with
          credits := (match cr with | some i => alter 0 m.credits i (· - back) | none => m.credits)
          edgeq := if op.isSome then m.edgeq.drop 1 else m.edgeq }) s
        let s := match op with
          | some o => if o.op = 1 then modMm site (fun m => { m with credits := alter 0 m.credits o.creel (· - 1) }) s else s
          | none => s
        modAtt att (fun q => (if op.isSome then takeCredit k s.now l else id) { q with outE := q.outE ++ [{ flit := f, link := l, arr := s.now }] }) s) s

/-! ## Scrub and write-back (R133, R137, R140) -/

/-- Correct the cells of a row in place. -/
def fixCells (b r : Nat) (m : Mm) : Mm :=
  { m with code := putCodes m.code (mmRowAddr m b r / 16) ((mmCells m b r).map fun c => if c = .ce then .good else c) }

/-- The window of 64 picks a pick lies in, counted from 1. -/
def scrubWindow (p : Nat) : Nat := p / 64 + 1

/-- May the sub-bank scrub: ON, no DMA operation and no write-back waits, and no row scrubbed in these 64 picks (R133, R140)? -/
def subFree (s : State) (n b : Nat) : Bool :=
  let x := subAt (mmAt s n) b
  decide (x.power = 0) && x.dmaq.isEmpty && x.writeBack.isEmpty && decide (x.scrubWin ≠ scrubWindow s.pick)

/-- MM_SCRUB (R140): the sub-bank scrubs its next row in a free ACLK, one in every 64 picks; a grain that is sour already stays sour uncounted. -/
def execMmScrub (site sub : Nat) (s : State) : Out :=
  onSite .mm site (fun s =>
    let b := sub % 4
    if !subFree s site b then s
    else match lowAccess site b 0 s with
    | none => s
    | some t =>
      let m := mmAt t site
      let r := (subAt m b).scrubRow
      let out := rowOutcomes m b r
      let data := rowData m b r
      let s := modMm site (fun m => modSub b (fun x => { x with scrubRow := (r + 1) % 6144, scrubWin := scrubWindow s.pick }) { m with inj := injUsed m b r }) t
      if out.any (· == .ue) then
        let s := modMm site (mmWrite b r 0 data true) s
        if out.any (· == .sour) then s else count 0x1203 site 1 (modMm site (modSub b (fun x => { x with scrubUe := satAdd 0xFF x.scrubUe 1 })) s)
      else
        let k := (out.filter (· == .ce)).length
        let s := mmCorrected site b r k s
        modMm site (fun m => modSub b (fun x => { x with writeBack := x.writeBack.erase r }) (fixCells b r m)) s) s

/-- The first sub-bank with a row to write back and no DMA operation waiting (R133). -/
def writeBackSub (s : State) (n : Nat) : Option Nat :=
  (List.range 4).find? fun b =>
    let x := subAt (mmAt s n) b
    !x.writeBack.isEmpty && x.dmaq.isEmpty && decide (x.power = 0) && (lowAccess n b 0 s).isSome

/-- ECC_WRITE_BACK (R137): a corrected row is written back in a free ACLK. -/
def execEccWriteBack (site : Nat) (s : State) : Out :=
  onSite .mm site (fun s => match writeBackSub s site with
    | none => s
    | some b => match (subAt (mmAt s site) b).writeBack, lowAccess site b 0 s with
      | r :: rest, some s => modMm site (fun m => modSub b (fun x => { x with writeBack := rest }) (fixCells b r m)) s
      | _, _ => s) s

/-! ## Sub-bank power (R145-R149) -/

/-- Elastic creels of a sub-bank. -/
def elasticOf (m : Mm) (b : Nat) : List Nat :=
  (List.range 16).filter fun i => crMode (creelAt m i).desc == 2 && crSub (creelAt m i).desc == b

/-- Credits granted by a sub-bank that have not come back. -/
def creditsOut (m : Mm) (b : Nat) : Nat := ((elasticOf m b).map fun i => look 0 m.granted i).foldl (· + ·) 0

/-- A request for a state: leaving ON stops grants, recalls credits and waits; a return starts (R145, R147). -/
def subRequest (n b st : Nat) (s : State) : State :=
  let x := subAt (mmAt s n) b
  if st = 0 then
    if x.power = 0 then modMm n (modSub b (fun x => { x with req := none, waits := false })) s
    else modMm n (modSub b (fun x => { x with waking := some s.now, req := none })) s
  else if x.power = st then s
  else modMm n (fun m => modSub b (fun x => { x with req := some (st, s.now), waits := true, waking := none })
    { m with recallSet := if x.power = 0 then m.recallSet ||| 2 ^ b else m.recallSet }) s

/-- The sub-bank takes the requested state; each elastic creel records its TAIL; its credits no longer count (R147, R148). -/
def subChange (n b : Nat) (s : State) : State :=
  match (subAt (mmAt s n) b).req with
  | none => s
  | some (st, _) =>
    let left := elasticOf (mmAt s n) b
    modMm n (fun m =>
      let m := modSub b (fun x => { x with power := st, req := none, waits := false, lost := x.lost || decide (st = 2) }) m
      let m := left.foldl (fun m i => modCreel i (fun c => { c with offTail := match c.offTail with | none => some c.tail | t => t }) m) m
      { m with grants := left.foldl (fun g i => put 0 g i 0) m.grants
               granted := left.foldl (fun g i => put 0 g i 0) m.granted }) s

/-- SUBBANK_STATE_CHANGE (R147): at the first pick boundary after every credit has come back. -/
def execSubbankStateChange (site sub : Nat) (s : State) : Out :=
  onSite .mm site (fun s =>
    let b := sub % 4
    if (subAt (mmAt s site) b).req.isSome && decide (creditsOut (mmAt s site) b = 0) then subChange site b (toPick ((s.now + 7) / 8) s) else s) s

/-- SUBBANK_FORCE_TIMEOUT (R147): 200 picks after the request the change is forced. -/
def execSubbankForceTimeout (site sub : Nat) (s : State) : Out :=
  onSite .mm site (fun s => match (subAt (mmAt s site) (sub % 4)).req with
    | some (_, t) => subChange site (sub % 4) (toPick (t / 8 + 200) s)
    | none => s) s

/-- Grains from a creel's recorded TAIL to its TAIL are written sour (R148). -/
def sourLate (i : Nat) (m : Mm) : Mm :=
  let c := creelAt m i
  match c.offTail with
  | none => m
  | some t =>
    let k := ptrSub (crCap c.desc) c.tail t
    modCreel i (fun c => { c with offTail := none }) ((List.range k).foldl (fun m j =>
      let r := crRow c.desc (ptrAdd (crCap c.desc) t j)
      mmWrite (crSub c.desc) r 0 (mmRow m (crSub c.desc) r) true m) m)

/-- Cells a creel has freed in steps not yet committed (R127). -/
def uncommitted (c : Creel) : Nat := (c.freed.filter fun x => x.1 != carryKey).foldl (fun n x => n + x.2) 0

/-- A creel of a sub-bank back ON: its free space but for the cells freed in uncommitted steps is granted afresh; what is left of a transfer is
carried to the next commit (R127, R149). -/
def Creel.fresh (c : Creel) : Creel :=
  let rest := (crFree c - uncommitted c) % crPadv c.desc
  { c with freed := (c.freed.filter fun x => x.1 != carryKey) ++ (if rest = 0 then [] else [(carryKey, rest)]) }

/-- SUBBANK_RETURN_ON (R145, R148, R149): 20 picks from RETAIN, 800 from OFF; lost contents come back sour (DESIGN CHOICE where RETAIN came between,
log 73); late grains sour; fresh credits for the free space. -/
def execSubbankReturnOn (site sub : Nat) (s : State) : Out :=
  onSite .mm site (fun s =>
    let b := sub % 4
    match (subAt (mmAt s site) b).waking with
    | none => s
    | some t =>
      let off := decide ((subAt (mmAt s site) b).power = 2)
      let lost := (subAt (mmAt s site) b).lost
      let s := toPick ((t + 7) / 8 + (if off then 800 else 20)) s
      modMm site (fun m =>
        let m := if off || lost then m.wipe b else m
        let m := (elasticOf m b).foldl (fun m i => sourLate i m) m
        let m := modSub b (fun x => { x with power := 0, waking := none, lost := false }) m
        let g := (elasticOf m b).foldl (fun g i => put 0 g i ((crFree (creelAt m i) - uncommitted (creelAt m i)) / crPadv (creelAt m i).desc)) m.grants
        let m := (elasticOf m b).foldl (fun m i => modCreel i Creel.fresh m) m
        { m with recalled := m.recalled &&& (15 - 2 ^ b)
                 credits := (elasticOf m b).foldl (fun g i => put 0 g i 0) m.credits
                 grants := g }) s) s

end Sys2Proof.Machine
end

