-- ==== Sys2Proof/Machine/Stack.lean ====
section
/-! DEFINITION. The memory stacks (08): addresses, grains and their code, scheduled requests, frames, gather windows, scrub,
training, elastic access. -/
namespace Sys2Proof.Machine

/-! ## Addresses (R245-R247, R266) -/

/-- Stack and offset of a DPA. -/
def dpaStack (d : Nat) : Nat := bits d 40 36
def dpaOff (d : Nat) : Nat := bits d 35 0

/-- The first reserved offset. -/
def userEnd : Nat := 0xEE6C00000

/-- Fields of an offset (R246). -/
def offChan (o : Nat) : Nat := bits o 12 8
def offBank (o : Nat) : Nat := bits o 21 16
def offRow (o : Nat) : Nat := bits o 35 22

/-- Is a DPA range of n bytes user memory of a fitted stack? -/
def dpaOk (m d n : Nat) : Bool := decide (d < 2 ^ 41) && stackPresent m (dpaStack d) && decide (dpaOff d + n ≤ userEnd)

/-- The physical offset: the reserved row of a valid remap entry (R266). -/
def physOff (k : Stack) (o : Nat) : Nat :=
  let c := offChan o
  match (List.range 64).find? fun e =>
      let v := (look default k.remap (64 * c + e)).v.val
      bit v 20 && decide (bits v 19 14 = offBank o) && decide (bits v 13 0 = offRow o) with
  | some e => o % 2 ^ 22 + 2 ^ 22 * (16320 + e)
  | none => o

def chanAt (k : Stack) (c : Nat) : Channel := look default k.chans c
def modChan (c : Nat) (f : Channel → Channel) (k : Stack) : Stack := { k with chans := alter default k.chans c f }

/-- Has the channel failed (R267)? -/
def chanFailed (k : Stack) (c : Nat) : Bool := decide ((chanAt k c).fail.val % 2 = 1)

/-! ## Grains (R262, R263) -/

/-- The 64 bytes and the four code states of the grain at a grain-aligned offset. -/
def grainBytes (k : Stack) (o : Nat) : List Byte := bytesAt k.mem (physOff k o) 64
def grainCells (k : Stack) (o : Nat) : List CellCode := (List.range 4).map fun i => look .good k.code (physOff k o / 16 + i)

/-- Write a grain, clean or sour. -/
def putGrain (o : Nat) (b : List Byte) (sour : Bool) (k : Stack) : Stack :=
  let a := physOff k o
  { k with mem := putBytes k.mem a b, code := putCodes k.code (a / 16) (List.replicate 4 (if sour then CellCode.sour else .good)) }

/-- The items of a report of a stack: in AUX the channel, and the arrival ACLK of a scheduled request, else 0 (R270). -/
def stackReport (s : State) (n c : Nat) (sched : Bool) (arr : Nat) : Report349 :=
  { attReport s n with
    area := if sched then areaOfAtt s n else none
    offset := if sched then (attReport s n).offset else 0
    heddle := if sched then (attReport s n).heddle else none
    aux := leBytes 1 c ++ leBytes 8 arr
    wu := some (.channel n c) }

/-- Count corrected words of a channel (R263, R444, R452). -/
def hbmCorrected (n c j : Nat) (s : State) : State :=
  if j = 0 then s else
    let s := modStack n (modChan c fun x => { x with ce := satAdd 0xFFFF x.ce j }) s
    each (List.range j) (fun _ s => watchTrigger 0x2601 256 (.channel n c) (riskEvent 0x2601 (attRegion n) (count 0x2601 (stackIdx n) 1 s))) s

/-- A read of a grain (R262, R263, R267): its bytes, whether it is sour, and the state it leaves; `req`: the arrival ACLK of the scheduled request
it is made for. An elastic read belongs to no step. -/
def grainRead (n o : Nat) (req : Option Nat) (s : State) : List Byte × Bool × State :=
  let k := stackAt s n
  let c := offChan o
  if chanFailed k c then (leBytes 64 (Config.lostGrain (stackIdx n) (o / 64)).toNat, true, s)
  else
    let cells := grainCells k o
    let b := grainBytes k o
    let s := hbmCorrected n c (cells.filter (· == .ce)).length s
    if cells.contains .ue then
      let s := modStack n (fun k => modChan c (fun x => { x with ue := satAdd 0xFF x.ue 1 }) (putGrain o b true k)) s
      (b, true, report 0x3603 (stackReport s n c req.isSome (req.getD 0)) s)
    else if cells.contains .sour then (b, true, if req.isSome then noteStoredSour (areaOfAtt s n) (stackIdx n) (o / 64) s else s)
    else if cells.contains .ce then
      (b, false, modStack n (modChan c fun x => { x with wbq := if x.wbq.contains o then x.wbq else x.wbq ++ [o] }) s)
    else (b, false, s)

/-- A whole-grain write; one to a failed channel is discarded (R267). -/
def grainWrite (n o : Nat) (b : List Byte) (sour : Bool) (s : State) : State :=
  if chanFailed (stackAt s n) (offChan o) then s else modStack n (putGrain o b sour) s

/-- Correct the words of a grain in place. -/
def fixGrain (o : Nat) (k : Stack) : Stack :=
  { k with code := putCodes k.code (physOff k o / 16) ((grainCells k o).map fun c => if c = .ce then .good else c) }

/-! ## Elastic access (R261) -/

/-- The bytes of grains from a grain-aligned offset: n grains, each with its sour flag. -/
def elasticGrains (k o : Nat) : Nat → State → List (List Byte × Bool) × State
  | 0, s => ([], s)
  | n + 1, s =>
    let x := grainRead k o none s
    let r := elasticGrains k (o + 64) n x.2.2
    ((x.1, x.2.1) :: r.1, r.2)

/-- Read n bytes at a DPA: the bytes, how many grains are sour, the state; `zero`: sour grains read as zero (R347). -/
def elasticRead (d n : Nat) (zero : Bool) (s : State) : List Byte × Nat × State :=
  let o := dpaOff d
  let cnt := if n = 0 then 0 else (o + n - 1) / 64 - o / 64 + 1
  let x := elasticGrains (dpaStack d) (o / 64 * 64) cnt s
  let bytes := x.1.flatMap fun g => if zero && g.2 then List.replicate 64 0 else g.1
  ((bytes.drop (o % 64)).take n, (x.1.filter fun g => g.2).length, x.2)

/-- Write part of one grain: bytes at position p; a partial write is merged by a read (R261). -/
def elasticGrain (n o p : Nat) (b : List Byte) (s : State) : State :=
  if p = 0 ∧ b.length = 64 then grainWrite n o b false s
  else
    let x := grainRead n o none s
    grainWrite n o (x.1.take p ++ b ++ x.1.drop (p + b.length)) x.2.1 x.2.2

/-- Write bytes at an offset, grain by grain. -/
def elasticWrites (n : Nat) : Nat → Nat → List Byte → State → State
  | 0, _, _, s => s
  | _, _, [], s => s
  | k + 1, o, b, s =>
    let m := 64 - o % 64
    elasticWrites n k (o + m) (b.drop m) (elasticGrain n (o / 64 * 64) (o % 64) (b.take m) s)

/-- Write bytes at a DPA. -/
def elasticWrite (d : Nat) (b : List Byte) (s : State) : State := elasticWrites (dpaStack d) (b.length / 64 + 2) (dpaOff d) b s

/-- ELASTIC_STACK_ACCESS (R261): an elastic read or write of user memory. It enters the stack request loop, and a read is issued only with a credit of
the stack return loop too (R102, R103; log 75). What was read stands in the model's output. -/
def execElasticStackAccess (dpa len : Nat) (data : Option (List Byte)) (s : State) : Out :=
  atStack (dpaStack dpa) (fun s =>
    match data with
    | some b => if dpaOk s.member dpa b.length then underCredit (dpaStack dpa) 0 (elasticWrite dpa b) s else s
    | none =>
      if dpaOk s.member dpa len ∧ 0 < creditsLeft (attAt s (dpaStack dpa)) 0 then
        underCredit (dpaStack dpa) 1 (fun s =>
          let x := elasticRead dpa len false (modAtt (dpaStack dpa) (takeCredit 0 s.now 0) s)
          emitSent (.ring x.1) x.2.2) s
      else s) s

/-! ## Frames (R248, R249) -/

/-- The out channel of a stack in a pick. -/
def outChan (n p : Nat) : Nat := (p / 31 + n) % 32

/-- Does a channel serve requests in a pick? -/
def dataPick (n c p : Nat) : Bool := decide (3 ≤ p % 31) && decide (outChan n p ≠ c)

/-- The first pick at or after p in which the channel serves requests. -/
def nextData (n c : Nat) : Nat → Nat → Nat
  | 0, p => p
  | f + 1, p => if dataPick n c p then p else nextData n c f (p + 1)

/-- Beats a data pick carries at the channel's rate (R257, R268). -/
def beatsPerPick (k : Stack) (c : Nat) : Nat :=
  let r := (chanAt k c).rate.val % 4
  if r = 1 then 81 else if r = 2 then 72 else 90

/-- Where an access of b beats ends that a channel begins in pick p, u of whose beats are used: the pick, and the beats used in it. Beats beyond a
pick's run on in the channel's next data pick (R248, R257). -/
def serveFrom (n c per p u b : Nat) : Nat × Nat :=
  let q := nextData n c 64 p
  let u := if q = p then u else u - per
  if u + b ≤ per then (q, u + b) else (nextData n c 64 (q + 1), u + b - per)

/-- The pick, and the beats used in it, in which a channel has served the accesses of a list. -/
def servedBy (n c per : Nat) (l : List Nat) (x : Nat × Nat) : Nat × Nat := l.foldl (fun x b => serveFrom n c per x.1 x.2 b) x

/-- The pick from which a channel serves what it has queued, and the beats used in it. -/
def channelFree (s : State) (n c : Nat) : Nat × Nat :=
  let x := chanAt (stackAt s n) c
  if s.pick ≤ x.usedAt then (x.usedAt, x.used) else (s.pick, 0)

/-- HBM_FRAME_START (R249): the next frame begins, and with it the out channel, a function of the pick, moves on. -/
def execHbmFrameStart (stack : Nat) (s : State) : Out := atStack stack (fun s => toPick (31 * ((s.now + 247) / 248)) s) s

/-! ## Series (R259) -/

/-- The attachment or area-wide record of a type and target in force in an area (R189, R205). -/
def recOf (s : State) (a type target : Nat) : Option Rec := (areaAt s a).recs.find? fun r => r.type == type && r.target == target

/-- TARGET of an attachment and of the area (R188). -/
def attTarget (t : Nat) : Nat := 2 ^ 28 + t
def areaTarget : Nat := 2 ^ 29

/-- The STACKPLAN payload in force at a stack. -/
def stackPlan (s : State) (n : Nat) : List Byte :=
  match areaOfAtt s n with
  | some a => (match recOf s a 0x0B (attTarget n) with | some r => r.data | none => [])
  | none => []

/-- The entry of a series: LEN and ALLOW. -/
def seriesOf (plan : List Byte) (ser : Nat) : Option (Nat × List Nat) :=
  ((List.range (min 8 (fld plan 0 2))).find? fun i => decide (fld plan (16 + 40 * i) 1 = ser)).map fun i =>
    (fld plan (16 + 40 * i + 1) 1, (List.range 32).map fun j => fld plan (16 + 40 * i + 8 + j) 1)

/-- GATHER_WINDOW_START (R259): the next 31-pick window of the running step begins, with every row counter 0. -/
def execGatherWindowStart (stack : Nat) (s : State) : Out :=
  atStack stack (fun s => match areaOfAtt s stack with
    | none => s
    | some a => match curStep s a with
      | none => s
      | some k =>
        let i := (s.now - 8 * k.s + 247) / 248
        let s := toPick (k.s + 31 * i) s
        modStack stack (fun x => { x with series := [], window := i }) s) s

/-! ## Requests (R252-R258) -/

/-- Fields of a request header. -/
def hbLane (f : Flit) (i : Nat) : Nat := (laneOf f.data i).toNat
def hbOp (f : Flit) : Nat := bits (hbLane f 0) 2 0
def hbN (f : Flit) : Nat := bits (hbLane f 0) 8 3 + 1
def hbLink (f : Flit) : Nat := bits (hbLane f 0) 13 9
def hbSeries (f : Flit) : Nat := bits (hbLane f 0) 21 14
def hbAddr (f : Flit) : Nat := bits (hbLane f 1) 28 0

/-- A header without a reserved OP, a stray bit or an unknown series. -/
def hbHeaderOk (plan : List Byte) (f : Flit) : Bool :=
  let op := hbOp f
  let gs := decide (op = 3) || decide (op = 4)
  within 1 4 op && decide (hbLane f 0 < 2 ^ 22) && (gs || decide (hbSeries f = 0)) && (!gs || decide (hbN f ≤ 16))
  && (decide (op ≠ 2) || decide (hbLink f = 0)) && (if gs then decide (hbLane f 1 = 0) else decide (hbLane f 1 < 2 ^ 29))
  && ((List.range 30).all fun j =>
      let x := hbLane f (2 + j)
      if gs && decide (j < hbN f) then decide (bits x 30 28 = 0) else decide (x = 0))
  && (!gs || (seriesOf plan (hbSeries f)).isSome)

/-- The data flits of a write: on the header's link, in ACLKs a + 1 to a + n. -/
def dataFlits (q : List QEntry) (link a : Nat) : Nat → Option (List Flit)
  | 0 => some []
  | n + 1 => match q.find? (fun e => e.link == link && e.arr == a + 1) with
    | none => none
    | some e => (dataFlits q link (a + 1) n).map fun r => e.flit :: r

/-- The queue without a request's header and data flits. -/
def dropRequest (q : List QEntry) (link a n : Nat) : List QEntry := q.filter fun e => !(e.link == link && within a (a + n) e.arr)

/-- Queue an access at its channel. -/
def queueOp (n : Nat) (o : GrainOp) (s : State) : State :=
  modStack n (modChan (offChan (64 * o.grain)) fun c => { c with ops := c.ops ++ [o] }) s

/-- Can what a channel has queued, and m accesses of b beats after it, be ready by ACLK t? -/
def readyBy (s : State) (n c m b t : Nat) : Bool :=
  let k := stackAt s n
  decide (8 * ((servedBy n c (beatsPerPick k c) ((chanAt k c).ops.map GrainOp.beats ++ List.replicate m b) (channelFree s n c)).1 + 1) ≤ t)

/-- The channel of a request: that of its first flit or row (R270). -/
def hbChan (f : Flit) : Nat := if hbOp f = 1 ∨ hbOp f = 2 then bits (hbAddr f) 5 1 else hbLane f 2 % 32

/-- A schedule defect of a request that arrived at ACLK a (R253, R258, R270). -/
def reportReq (code n a : Nat) (f : Flit) (s : State) : State := report code (stackReport s n (hbChan f) true a) s

/-- Stage a return flit of the request with header f that arrived at ACLK a; a second on its link in its ACLK raises HBM_RET_CLASH and is discarded. -/
def stageReturn (n a : Nat) (f : Flit) (x : Staged) (s : State) : State :=
  if (stackAt s n).staged.any (fun y => y.at_ == x.at_ && y.link == x.link) then reportReq 0x4613 n a f s
  else modStack n (fun k => { k with staged := k.staged ++ [x] }) s

/-- A fresh request number. -/
def takeReq (n : Nat) (s : State) : Nat × State := ((stackAt s n).nextReq, modStack n (fun k => { k with nextReq := k.nextReq + 1 }) s)

/-- An empty return flit that waits for w grains. -/
def emptyStage (at_ link req part w : Nat) : Staged :=
  { at_ := at_, link := link, req := req, part := part, flit := { data := 0, sour := 0 }, waiting := w }

/-- The offset of flit k of a stream. -/
def streamOff (f : Flit) (k : Nat) : Nat := hbAddr f * 128 + 128 * k

/-- A stream read: two grains a flit, released at a + 768 + k. -/
def streamRead (n a : Nat) (f : Flit) (s : State) : State :=
  let cnt := hbN f
  let x := takeReq n s
  let late := (List.range cnt).any fun k =>
    let c := offChan (streamOff f k)
    !readyBy s n c (2 * ((List.range (k + 1)).filter fun j => offChan (streamOff f j) == c).length) 9 (a + 768 + k - 1)
  if late then reportReq 0x4612 n a f s
  else each (List.range cnt) (fun k s =>
    let s := stageReturn n a f (emptyStage (a + 768 + k) (hbLink f) x.1 k 2) s
    let o := streamOff f k
    queueOp n { grain := o / 64 + 1, write := none, req := x.1, part := 2 * k + 1, beats := 9, arr := a }
      (queueOp n { grain := o / 64, write := none, req := x.1, part := 2 * k, beats := 9, arr := a } s)) x.2

/-- Half h of a flit as write data: a sour segment sours its grain. -/
def halfOf (f : Flit) (h : Nat) : BitVec 512 × Bool :=
  (BitVec.ofNat 512 (f.data.toNat / 2 ^ (512 * h)), decide (bits f.sour.toNat (4 * h + 3) (4 * h) ≠ 0))

/-- Queue the two grains of a written flit. -/
def queueWrite (n a req o beats : Nat) (f : Flit) (s : State) : State :=
  queueOp n { grain := o / 64 + 1, write := some (halfOf f 1), req := req, part := 0, beats := beats, arr := a }
    (queueOp n { grain := o / 64, write := some (halfOf f 0), req := req, part := 0, beats := beats, arr := a } s)

/-- A stream write. -/
def streamWrite (n a : Nat) (f : Flit) (data : List Flit) (s : State) : State :=
  let x := takeReq n s
  each (List.zip data (List.range data.length)) (fun y s => queueWrite n a x.1 (streamOff f y.2) 9 y.1 s) x.2

/-- The statuses of the rows of a gather or scatter, in lane order, and the state with the counters moved (R254, R259). -/
def rowStatuses (n ser : Nat) (allow : Nat) : List Nat → State → List Nat × State
  | [], s => ([], s)
  | x :: r, s =>
    let u := bits x 27 0
    let c := u % 32
    let k := stackAt s n
    let used := look 0 k.series (32 * ser + c)
    let st := if !bit x 31 then 0 else if 250003456 ≤ u then 2 else if chanFailed k c then 3 else if used < allow then 0 else 1
    let s := if bit x 31 ∧ st = 0 then modStack n (fun k => { k with series := alter 0 k.series (32 * ser + c) (· + 1) }) s else s
    let s := if st = 1 then count 0x1606 (stackIdx n) 1 s else if st = 2 then count 0x1607 (stackIdx n) 1 s else s
    let y := rowStatuses n ser allow r s
    (st :: y.1, y.2)

/-- The status flit. -/
def statusFlit (l : List Nat) : Flit := { data := ofLanes (l.map (BitVec.ofNat 32)), sour := 0 }

/-- The allowance of a series in the window that runs. -/
def allowNow (k : Stack) (e : Nat × List Nat) : Nat := e.2.getD (k.window % (max 1 e.1)) 0

/-- The return flits of row m of a gather, and its four grain reads. -/
def gatherRow (n a : Nat) (f : Flit) (req m unit st v : Nat) (s : State) : State :=
  let live := decide (v = 1 ∧ st = 0)
  let lost := fun h => if v = 1 ∧ st = 3 then
    { data := BitVec.ofNat 1024 ((Config.lostGrain (stackIdx n) (4 * unit + 2 * h)).toNat + (Config.lostGrain (stackIdx n) (4 * unit + 2 * h + 1)).toNat * 2 ^ 512), sour := 255 }
    else ({ data := 0, sour := 0 } : Flit)
  let s := each [0, 1] (fun h s => stageReturn n a f
    { emptyStage (a + 784 + 2 * m + h) (hbLink f) req (2 * m + h) (if live then 2 else 0) with flit := lost h } s) s
  if live then each (List.range 4) (fun g s => queueOp n { grain := 4 * unit + g, write := none, req := req, part := 4 * m + g, beats := 14, arr := a } s) s
  else s

/-- A gather (R254, R255). -/
def gatherReq (n a : Nat) (f : Flit) (e : Nat × List Nat) (s : State) : State :=
  let rows := (List.range (hbN f)).map fun m => hbLane f (2 + m)
  let st := rowStatuses n (hbSeries f) (allowNow (stackAt s n) e) rows s
  let live := fun m => decide (st.1.getD m 0 = 0) && bit (rows.getD m 0) 31
  let late := (List.range (hbN f)).any fun m =>
    live m && !readyBy s n (rows.getD m 0 % 32) (4 * ((List.range (m + 1)).filter fun j => live j && rows.getD j 0 % 32 == rows.getD m 0 % 32).length) 14 (a + 784 + 2 * m - 1)
  if late then reportReq 0x4612 n a f s
  else
    let x := takeReq n st.2
    let s := each (List.range (hbN f)) (fun m s =>
      gatherRow n a f x.1 m (bits (rows.getD m 0) 27 0) (st.1.getD m 0) (b2n (bit (rows.getD m 0) 31)) s) x.2
    stageReturn n a f { emptyStage (a + 784 + 2 * hbN f) (hbLink f) x.1 (2 * hbN f) 0 with flit := statusFlit st.1 } s

/-- A scatter (R254, R255). -/
def scatterReq (n a : Nat) (f : Flit) (e : Nat × List Nat) (data : List Flit) (s : State) : State :=
  let rows := (List.range (hbN f)).map fun m => hbLane f (2 + m)
  let st := rowStatuses n (hbSeries f) (allowNow (stackAt s n) e) rows s
  let x := takeReq n st.2
  let s := each (List.range (hbN f)) (fun m s =>
    if bit (rows.getD m 0) 31 ∧ st.1.getD m 0 = 0 then
      let u := bits (rows.getD m 0) 27 0
      queueWrite n a x.1 (256 * u + 128) 14 (data.getD (2 * m + 1) { data := 0, sour := 0 })
        (queueWrite n a x.1 (256 * u) 14 (data.getD (2 * m) { data := 0, sour := 0 }) s)
    else s) x.2
  stageReturn n a f { emptyStage (a + 784) (hbLink f) x.1 0 0 with flit := statusFlit st.1 } s

/-- May a data flit of a write that has not entered still come: is none missing before ACLK `now`? -/
def dataPending (q : List QEntry) (link a now n : Nat) : Bool :=
  match (List.range n).find? fun i => !(q.any fun e => e.link == link && e.arr == a + 1 + i) with
  | some i => decide (now ≤ a + 1 + i)
  | none => false

/-- The request whose header is first in the stack's inbound scheduled partition is checked and queued (R252-R258). A write waits for a data flit
whose ACLK has not passed. -/
def stackRequest (n : Nat) (h : QEntry) (s : State) : State :=
  let f := h.flit
  let plan := stackPlan s n
  let op := hbOp f
  let nd := if op = 2 then hbN f else if op = 4 then 2 * hbN f else 0
  let q := (attAt s n).inS
  let data := dataFlits (q.drop 1) h.link h.arr nd
  let ok := hbHeaderOk plan f
  if ok && dataPending (q.drop 1) h.link h.arr s.now nd then s else
  let s := modAtt n (fun x => { x with inS := dropRequest (q.drop 1) h.link h.arr (if ok then nd else 0) }) s
  if !ok then reportReq 0x4610 n h.arr f s
  else match data with
    | none => reportReq 0x4610 n h.arr f s
    | some d =>
      if (op = 1 ∨ op = 2) ∧ userEnd < streamOff f (hbN f) then reportReq 0x4611 n h.arr f s
      else if op = 1 then streamRead n h.arr f s
      else if op = 2 then streamWrite n h.arr f d s
      else match seriesOf plan (hbSeries f) with
        | none => reportReq 0x4610 n h.arr f s
        | some e => if op = 3 then gatherReq n h.arr f e s else scatterReq n h.arr f e d s

/-- Is the stack's area halted (R108, R260)? -/
def stackHalted (s : State) (n : Nat) : Bool := match areaOfAtt s n with | some a => (areaAt s a).halted | none => false

/-- HBM_REQUEST (R253): the next scheduled request of the stack's inbound queue, once its data flits have entered. A halted area's are not begun (R260). -/
def execHbmRequest (stack : Nat) (s : State) : Out :=
  atStack stack (fun s => match (attAt s stack).inS with
    | [] => s
    | h :: _ => if stackHalted s stack then s else stackRequest stack h s) s

/-! ## Grain accesses, mirroring (R256, R455) and returns (R255) -/

/-- The skim range of an area that holds a DPA. -/
def rangeOf (k : Skim) (d : Nat) : Option (Nat × SkimRange) :=
  (List.zip (List.range k.ranges.length) k.ranges).find? fun x => decide (x.2.src ≤ d) && decide (d < x.2.src + x.2.len)

/-- D's term of a flit (R455). -/
def skimTerm (step f : Nat) (b : List Byte) : W64 := hash64 (BitVec.ofNat 64 (crc64 b) ^^^ BitVec.ofNat 64 f) (BitVec.ofNat 32 step)

/-- Mirror the flit at a DPA that a scheduled write of the skim step has completed. -/
def mirrorFlit (a d : Nat) (s : State) : State :=
  let k := (areaAt s a).skim
  match curStep s a, rangeOf k d with
  | some st, some (i, r) =>
    if k.state = 2 ∧ st.k = k.step then
      let n := dpaStack d
      let o := dpaOff d
      let b := grainBytes (stackAt s n) o ++ grainBytes (stackAt s n) (o + 64)
      let sour := fun g => (grainCells (stackAt s n) g).any (· ≠ .good)
      let t := r.stage + (d - r.src)
      let s := grainWrite (dpaStack t) (dpaOff t + 64) (b.drop 64) (sour (o + 64)) (grainWrite (dpaStack t) (dpaOff t) (b.take 64) (sour o) s)
      let r' := { r with count := r.count + 1, digest := r.digest + skimTerm k.step ((d - r.src) / 128) b }
      modArea a (fun x => { x with skim := { x.skim with ranges := x.skim.ranges.set i r' } }) s
    else s
  | _, _ => s

/-- Put a grain that was read into its return flit. -/
def fillStage (req part : Nat) (b : List Byte) (sour : Bool) (k : Stack) : Stack :=
  { k with staged := k.staged.map fun x =>
      if x.req = req ∧ x.part = part / 2 ∧ 0 < x.waiting then
        let h := part % 2
        { x with
          flit := { data := x.flit.data ||| BitVec.ofNat 1024 (leNat b * 2 ^ (512 * h))
                    sour := x.flit.sour ||| (if sour then BitVec.ofNat 8 (15 * 2 ^ (4 * h)) else 0) }
          waiting := x.waiting - 1 }
      else x }

/-- HBM_GRAIN_ACCESS (R256): the channel's oldest access, in the first pick from now in which the channel serves requests and has the beats (R248, R257). -/
def execHbmGrainAccess (stack ch : Nat) (s : State) : Out :=
  atStack stack (fun s =>
    let c := ch % 32
    match (chanAt (stackAt s stack) c).ops with
    | [] => s
    | g :: r =>
      if stackHalted s stack then s else
      let x := channelFree s stack c
      let u := serveFrom stack c (beatsPerPick (stackAt s stack) c) x.1 x.2 g.beats
      let s := toPick u.1 s
      let s := modStack stack (modChan c fun x => { x with ops := r, usedAt := u.1, used := u.2 }) s
      let o := 64 * g.grain
      match g.write with
      | some (d, sour) =>
        let s := grainWrite stack o (leBytes 64 d.toNat) sour s
        let s := if sour then noteSour (areaOfAtt s stack) (attReport s stack).heddle s else s
        (match areaOfAtt s stack with
          | some a => if g.grain % 2 = 1 then mirrorFlit a (2 ^ 36 * stack + (o - 64)) s else s
          | none => s)
      | none =>
        let x := grainRead stack o (some g.arr) s
        modStack stack (fillStage g.req g.part x.1 x.2.1) x.2.2) s

/-- HBM_WRITE_BACK (R263): the channel's oldest corrected grain is written back. -/
def execHbmWriteBack (stack ch : Nat) (s : State) : Out :=
  atStack stack (fun s => match (chanAt (stackAt s stack) (ch % 32)).wbq with
    | [] => s
    | o :: r => modStack stack (fun k => modChan (ch % 32) (fun x => { x with wbq := r }) (fixGrain o k)) s) s

/-- The staged flit that is released first. -/
def firstStaged : List Staged → Option Staged
  | [] => none
  | x :: r => match firstStaged r with
    | none => some x
    | some y => if y.at_ < x.at_ then some y else some x

/-- HBM_RETURN_RELEASE (R255): the next return enters the outbound scheduled partition in the ACLK before its release; one whose
data is not there leaves nothing. -/
def execHbmReturnRelease (stack : Nat) (s : State) : Out :=
  atStack stack (fun s => match firstStaged (stackAt s stack).staged with
    | none => s
    | some x =>
      let s := runTo (x.at_ - 1) s
      let s := modStack stack (fun k => { k with staged := k.staged.erase x }) s
      if 0 < x.waiting then s
      else if (attAt s stack).outS.length < (attAt s stack).sOut then
        modAtt stack (fun q => { q with outS := q.outS ++ [{ flit := x.flit, link := x.link, arr := s.now }] }) s
      else reportEdge 0x3521 (edgeSite stack x.link).1 (edgeSite stack x.link).2 false s) s

/-! ## Scrub, training and the stack's own reports (R250, R264, R265, R267) -/

/-- The offset of grain g of a channel in address order (R246). -/
def chanGrain (c g : Nat) : Nat := (g % 4) * 64 + c * 256 + g / 4 * 8192

/-- Scrub one grain: correct and write back, or write sour an uncorrectable one. -/
def scrubGrain (n c g : Nat) (s : State) : State :=
  let k := stackAt s n
  let o := chanGrain c g
  let cells := grainCells k o
  let s := hbmCorrected n c (cells.filter (· == .ce)).length s
  if cells.contains .ue then
    count 0x1604 (stackIdx n) 1 (modStack n (fun k => modChan c (fun x => { x with ue := satAdd 0xFF x.ue 1 }) (putGrain o (grainBytes k o) true k)) s)
  else if cells.contains .ce then modStack n (fixGrain o) s
  else s

/-- The first pick at or after p in picks lo to hi of a frame, a frame not before `f`. -/
def framePick (f lo hi p : Nat) : Nat :=
  if p / 31 < f then 31 * f + lo else if p % 31 < lo then p / 31 * 31 + lo else if p % 31 ≤ hi then p else (p / 31 + 1) * 31 + lo

/-- HBM_SCRUB (R250): the out channel scrubs its next 180 grains, once in picks 13-30 of a frame (R249). -/
def execHbmScrub (stack : Nat) (s : State) : Out :=
  atStack stack (fun s =>
    let s := toPick (framePick (stackAt s stack).scrubbedIn 13 30 s.pick) s
    let s := modStack stack (fun k => { k with scrubbedIn := s.pick / 31 + 1 }) s
    let c := outChan stack s.pick
    let g := (chanAt (stackAt s stack) c).scrub
    let s := each (List.range 180) (fun i s => scrubGrain stack c ((g + i) % 2 ^ 25) s) s
    modStack stack (modChan c fun x => { x with scrub := (g + 180) % 2 ^ 25 }) s) s

/-- Write the fence map in force to the older copy in flash with the next sequence number (R425). -/
def flashWrite (s : State) : State :=
  let f := { s.fence with seqno := (s.fence.seqno + 1) % 2 ^ 32, valid := true }
  let old0 := !s.mod.flash0.valid || (s.mod.flash1.valid && decide (s.mod.flash0.seqno < s.mod.flash1.seqno))
  { s with fence := f, mod := if old0 then { s.mod with flash0 := f } else { s.mod with flash1 := f } }

/-- A channel fails (R267, R268): FAIL, the fence map's entry, which goes to flash (R425), HBM_CH_FAIL with its interrupt. -/
def chanFail (n c : Nat) (s : State) : State :=
  let s := modStack n (modChan c fun x => { x with fail := Tri.of 1 }) s
  let s := flashWrite { s with fence := { s.fence with chans := alter 0 s.fence.chans (32 * n + c) (fun v => v ||| 4) } }
  report 0x1609 (stackReport s n c true 0) s

/-- HBM_TRAIN_STEP (R267): the out channel's periodic training step: the margin it ends on, the stack's temperature, whether it converged;
once in picks 3-12 of a frame (R249). -/
def execHbmTrainStep (stack margin temp : Nat) (converged : Bool) (s : State) : Out :=
  atStack stack (fun s =>
    let s := toPick (framePick (stackAt s stack).trainedIn 3 12 s.pick) s
    let s := modStack stack (fun k => { k with trainedIn := s.pick / 31 + 1 }) s
    let c := outChan stack s.pick
    let x := chanAt (stackAt s stack) c
    let miss := decide (margin % 32 < x.minm)
    let n := if miss then x.misses + 1 else 0
    let s := modStack stack (fun k => { (modChan c (fun x => { x with margin := margin % 32, misses := n }) k) with temp := temp % 256 }) s
    let s := if miss then watchTrigger 0x1608 2 (.channel stack c) (count 0x1608 (stackIdx stack) 1 s) else s
    if (!converged || decide (2 ≤ n)) && !chanFailed (stackAt s stack) c then chanFail stack c s else s) s

/-- HBM_CA_PAR (R264): the command is issued again; the event is counted. -/
def execHbmCaPar (stack ch : Nat) (s : State) : Out :=
  atStack stack (fun s => count 0x2602 (stackIdx stack) 1
    (modStack stack (modChan (ch % 32) fun x => { x with capar := satAdd 0xFF x.capar 1 }) s)) s

/-- HBM_ODECC (R265). -/
def execHbmOdecc (stack ch : Nat) (s : State) : Out :=
  atStack stack (fun s => count 0x1605 (stackIdx stack) 1
    (modStack stack (modChan (ch % 32) fun x => { x with odecc := satAdd 0xFFFF x.odecc 1 }) s)) s

end Sys2Proof.Machine
end

