-- ==== Sys2Proof/Machine/Scatter.lean ====
section
/-! DEFINITION. Scatter lists (R345) and the host buffers they name. -/
namespace Sys2Proof.Machine

/-- The chunks a scatter list at host address a gives for a command of n more bytes: those before any fault, and whether the list
is well formed. A list whose chained segments outlast the fuel is malformed. -/
def scatterFrom (mem : Tab Byte) : Nat → Nat → Nat → List (Nat × Nat) × Bool
  | 0, _, _ => ([], false)
  | k + 1, a, n =>
    let e := bytesAt mem a 16
    let addr := fld e 0 8
    let len := fld e 8 4
    let fl := fld e 12 4
    if 4 ≤ fl ∨ fl = 3 then ([], false)
    else if fl = 2 then (if addr % 16 = 0 then scatterFrom mem k addr n else ([], false))
    else if addr % 4 ≠ 0 ∨ len % 4 ≠ 0 ∨ len = 0 ∨ 2 ^ 30 < len ∨ n < len then ([], false)
    else if fl = 1 then (if len = n then ([(addr, len)], true) else ([(addr, len)], false))
    else
      let r := scatterFrom mem k (a + 16) (n - len)
      ((addr, len) :: r.1, r.2)

/-- The scatter list of a command of n bytes. -/
def scatterList (s : State) (p a n : Nat) : List (Nat × Nat) × Bool :=
  if a % 16 ≠ 0 then ([], false) else scatterFrom (portAt s p).mem (2 * (n / 4) + 64) a n

/-- The bytes of the chunks of a host, in order. -/
def gatherHost (mem : Tab Byte) (l : List (Nat × Nat)) : List Byte := l.flatMap fun x => bytesAt mem x.1 x.2

/-- Bytes at place `off` of a command put into the host's chunks. -/
def scatterHost (mem : Tab Byte) (off : Nat) (b : List Byte) : List (Nat × Nat) → Tab Byte
  | [] => mem
  | (a, n) :: r =>
    if b.isEmpty then mem
    else if n ≤ off then scatterHost mem (off - n) b r
    else scatterHost (putBytes mem (a + off) (b.take (n - off))) 0 (b.drop (n - off)) r

/-- Put bytes into a port's host memory under a command's chunks. -/
def toHost (p : Nat) (l : List (Nat × Nat)) (off : Nat) (b : List Byte) (s : State) : State :=
  modPort p (fun x => { x with mem := scatterHost x.mem off b l }) s

end Sys2Proof.Machine
end

