-- ==== Sys2Proof/Machine/LaneCode.lean ====
section
/-! DEFINITION. Lane coding of a Shuttle port (R273, R274): the cut of pick frames into lane data, the scrambler, the lane word and the
RS(544,514) code. The code's field and the order of its bits are those of IEEE 802.3 Clause 91, which the manual only names (PRESUMED, log 41). -/
namespace Sys2Proof.Machine

/-! ## GF(2^10) and RS(544,514) -/

/-- The next power: x times an element, modulo x^10 + x^3 + 1. -/
def gfNext (a : Nat) : Nat := if a < 512 then 2 * a else (2 * a) ^^^ 0x409

/-- The product of two elements, over the n low bits of the first. -/
def gfMul : Nat → Nat → Nat → Nat
  | 0, _, _ => 0
  | n + 1, a, b => (if a % 2 = 1 then b else 0) ^^^ gfMul n (a / 2) (gfNext b)

/-- The first n powers of x from b. -/
def gfPowers : Nat → Nat → List Nat
  | 0, _ => []
  | n + 1, b => b :: gfPowers n (gfNext b)

/-- A polynomial, highest power first, times x + r. -/
def polyTimes (p : List Nat) (r : Nat) : List Nat := List.zipWith (fun a b => a ^^^ b) (p ++ [0]) (0 :: p.map (gfMul 10 r))

/-- The generator polynomial below its leading term: the product of x + α^j for j = 0 to 29. -/
def rsGen : List Nat := ((gfPowers 30 1).foldl polyTimes [1]).drop 1

/-- The 30 parity symbols of a message, its first symbol the highest power. -/
def rsParity (msg : List Nat) : List Nat :=
  msg.foldl (fun reg m =>
    let fb := m ^^^ reg.headD 0
    List.zipWith (fun r c => r ^^^ gfMul 10 fb c) (reg.drop 1 ++ [0]) rsGen) (List.replicate 30 0)

/-! ## The scrambler -/

/-- n bits of the sequence of x^31 + x^28 + 1 from a register of 31 bits. -/
def prbsBits : Nat → Nat → List Nat
  | 0, _ => []
  | n + 1, r =>
    let b := (r / 2 ^ 30 + r / 2 ^ 27) % 2
    b :: prbsBits n ((2 * r + b) % 2 ^ 31)

/-- The number that bits spell, the first least significant. -/
def ofBits : List Nat → Nat
  | [] => 0
  | b :: l => b + 2 * ofBits l

/-- The 640 bytes of the scrambler's sequence that fall to codeword `cwi` of a superframe on lane `plane`, as a number. -/
def scramble (plane cwi : Nat) : Nat := ofBits ((prbsBits (5120 * (cwi + 1)) (0x7FFFFFF0 ||| plane)).drop (5120 * cwi))

/-! ## Codewords -/

/-- The 500 bytes of a pick frame that logical lane r carries (R274): its words r, r + 15, …. -/
def laneData (frame : List Byte) (r : Nat) : List Byte := (List.range 125).flatMap fun j => sub frame (4 * (r + 15 * j)) 4

/-- The lane word (R273). -/
def laneWord (plane cwi role mirror superframe : Nat) : Nat :=
  plane + cwi * 2 ^ 4 + role * 2 ^ 9 + mirror * 2 ^ 13 + superframe % 64 * 2 ^ 14

/-- The 544 symbols of a codeword: lane word, scrambled lane data, parity. -/
def codeword (word : Nat) (data : Nat) : List Nat :=
  let m := word + 2 ^ 20 * data
  let msg := (List.range 514).map fun k => bits m (10 * k + 9) (10 * k)
  msg ++ rsParity msg

/-- The codewords of a superframe that the frame of its pick i completes (R273). -/
def endsIn (i : Nat) : List Nat := (List.range 25).filter fun c => decide (500 * i < 640 * (c + 1)) && decide (640 * (c + 1) ≤ 500 * (i + 1))

/-- The 640 bytes of a logical lane that codeword c of a superframe carries, from the frames of its picks. -/
def pickBytes (frame : Nat → List Byte) (r c : Nat) : List Byte :=
  let i := 640 * c / 500
  sub ((laneData (frame i) r) ++ (laneData (frame (i + 1)) r) ++ (laneData (frame (i + 2)) r)) (640 * c - 500 * i) 640

/-- The codeword c of superframe n on physical lane `plane` in a role: a copy where `mirror` is 1, and without lane data on the spare. -/
def laneCodeword (frame : Nat → List Byte) (plane role mirror n c : Nat) : List Nat :=
  let data := if role = 15 then 0 else leNat (pickBytes frame role c)
  codeword (laneWord plane c role mirror n) (data ^^^ scramble plane c)

end Sys2Proof.Machine
end

