-- ==== Sys2Proof/Machine/Seq.lean ====
section
/-! DEFINITION. What the three sequencers share (R153-R156, R164): the word at the program address, issue, loops, waits,
starts. -/
namespace Sys2Proof.Machine

/-- The opcode of a program word. -/
def wOp (w : W64) : Nat := bits w.toNat 63 56

/-- The address after one word, closing the loops that end there (R164): the loops left and the next address. -/
def nextWord : Nat → List Loop → Nat → List Loop × Nat
  | 0, l, pc => (l, pc + 1)
  | _, [], pc => ([], pc + 1)
  | k + 1, x :: r, pc =>
    if x.last = pc then (if 1 < x.left then ({ x with left := x.left - 1 } :: r, x.start) else nextWord k r pc) else (x :: r, pc + 1)

/-- The sequencer goes on at the next word, issuing no earlier than ACLK t. -/
def Seq.advance (t : Nat) (q : Seq) : Seq :=
  let x := nextWord 8 q.loops q.pc
  { q with loops := x.1, pc := x.2, next := t }

/-- A taken branch (R170, R178). -/
def Seq.jump (target t : Nat) (q : Seq) : Seq := { q with pc := target, next := t }

/-- Does a sequencer issue: running, not stopped? -/
def Seq.live (q : Seq) : Bool := q.running && !q.stopped

/-- Enter a loop of words pc + 1 … endA, cnt times; none when four levels are open. -/
def Seq.enter (endA cnt t : Nat) (q : Seq) : Option Seq :=
  if 4 ≤ q.loops.length then none
  else some { q with loops := { start := q.pc + 1, last := endA, left := cnt } :: q.loops, pc := q.pc + 1, next := t }

/-- The opcodes of the MX (R164, R228, R237), SF (R170) and SU (R178). -/
def mxOpKnown (op : Nat) : Bool := decide (op ≤ 0x0A) || within 0x10 0x14 op || within 0x20 0x24 op
def sfOpKnown (op : Nat) : Bool :=
  decide (op ≤ 0x0B) || within 0x10 0x16 op || within 0x18 0x23 op || within 0x28 0x29 op || within 0x30 0x3B op || within 0x40 0x43 op
  || within 0x48 0x49 op || within 0x50 0x52 op || within 0x58 0x5C op
def suOpKnown (op : Nat) : Bool :=
  decide (op = 0) || within 0x02 0x07 op || within 0x10 0x12 op || within 0x18 0x19 op || decide (op = 0x20) || decide (op = 0x28)

/-- END at ACLK t: the site idles, and may start at t + 1 (R155, R180). -/
def Seq.ended (t : Nat) (q : Seq) : Seq := { q with running := false, loops := [], next := t + 1 }

/-- A sequencer that meets a fault of R153 idles. -/
def Seq.stop (q : Seq) : Seq := { q with running := false }

end Sys2Proof.Machine
end

