-- ==== Sys2Proof/Machine/Mx.lean ====
section
/-! DEFINITION. The MX site (02, 05, 07): its sequencer, loads, check weights, the multiply array, accumulators and output,
2:4 operands, SPMAC and predicted skip. What an instruction does after its issue stands in the site's due acts (R165-R167). -/
namespace Sys2Proof.Machine

/-! ## Issue -/

/-- The program word at the sequencer's address. -/
def mxWord (x : Mx) : W64 := look 0 x.prog (256 * x.seq.bank + x.seq.pc)

/-- A schedule defect at the word being issued. -/
def mxFault (code n : Nat) (s : State) : State := reportProg code n (mxAt s n).seq.pc s

/-- Go on to the next word, d ACLK after this one's issue. -/
def mxNext (n d : Nat) (s : State) : State := modMx n (fun x => { x with seq := x.seq.advance (s.now + d) }) s

/-- A word with a reserved code (R153): MX_SEQ, and the sequencer idles. -/
def mxReserved (n : Nat) (s : State) : State := modMx n (fun x => { x with seq := x.seq.stop }) (mxFault 0x4116 n s)

/-- Issue of the word w with opcode op at an MX site (R153, R154): performed when the site runs and w stands at its program
address (log 8), at the earliest ACLK its sequencer allows (log 9). A reserved opcode that stands there raises MX_SEQ (R153). -/
def mxIssue (op n : Nat) (w : W64) (f : State → State) (s : State) : Out :=
  onSite .mx n (fun s =>
    let x := mxAt s n
    if !(siteRuns s n) || !x.seq.live then s
    else if 256 ≤ x.seq.pc then modMx n (fun x => { x with seq := x.seq.stop }) (mxFault 0x4116 n (runTo x.seq.next s))
    else if mxWord x = w ∧ wOp w = op then f (excUp n 5 1 (runTo x.seq.next s))
    else if !mxOpKnown (wOp (mxWord x)) then mxReserved n (runTo x.seq.next s)
    else s) s

/-- Fields of an MX word. -/
def wAR (w : W64) : Nat := bits w.toNat 42 40
def aReg (x : Mx) (i : Nat) : Nat := (look 0 x.a i).toNat

/-! ## Sequencer instructions (R164) -/

/-- NOP. -/
def execMxNop (site : Nat) (w : W64) (s : State) : Out := mxIssue 0x00 site w (mxNext site 1) s

/-- END: the site idles, keeping its registers (R155). -/
def execMxEnd (site : Nat) (w : W64) (s : State) : Out :=
  mxIssue 0x01 site w (fun s => modMx site (fun x => { x with seq := x.seq.ended s.now }) s) s

/-- WAIT: the next instruction issues N ACLK later than it otherwise would. -/
def execMxWait (site : Nat) (w : W64) (s : State) : Out := mxIssue 0x02 site w (mxNext site (bits w.toNat 31 0 + 1)) s

/-- WPK: the next instruction issues at ACLK AC of pick S_k + OFF; MX_SEQ if that is before t + 1 (R164). -/
def execMxWpk (site : Nat) (w : W64) (s : State) : Out :=
  mxIssue 0x03 site w (fun s =>
    let e := 8 * ((mxAt s site).seq.step + bits w.toNat 31 0) + bits w.toNat 34 32
    if e < s.now + 1 then mxNext site 1 (mxFault 0x4116 site s) else mxNext site (e - s.now) s) s

/-- LOOP: words t + 1 … ENDA run CNTM1 + 1 times; a fifth level raises MX_SEQ. -/
def execMxLoop (site : Nat) (w : W64) (s : State) : Out :=
  mxIssue 0x04 site w (fun s => match (mxAt s site).seq.enter (bits w.toNat 7 0) (bits w.toNat 23 8 + 1) (s.now + 1) with
    | some q => modMx site (fun x => { x with seq := q }) s
    | none => mxNext site 1 (mxFault 0x4116 site s)) s

/-- SETM: the mode word of the instructions issued after it (R163). -/
def execSetm (site : Nat) (w : W64) (s : State) : Out :=
  mxIssue 0x05 site w (fun s =>
    let m : W32 := BitVec.ofNat 32 w.toNat
    if modeCodesOk m then mxNext site 1 (modMx site (fun x => { x with mode := m }) s) else mxReserved site s) s

/-- SETA: a[AR] = VAL. -/
def execSeta (site : Nat) (w : W64) (s : State) : Out :=
  mxIssue 0x06 site w (fun s => mxNext site 1 (modMx site (fun x => { x with a := put 0 x.a (wAR w) (BitVec.ofNat 18 w.toNat) }) s)) s

/-- ADDA: a[AR] + VAL modulo 2 ^ 18. -/
def execAdda (site : Nat) (w : W64) (s : State) : Out :=
  mxIssue 0x07 site w (fun s => mxNext site 1 (modMx site (fun x => { x with a := alter 0 x.a (wAR w) (· + BitVec.ofNat 18 w.toNat) }) s)) s

/-- SETF: the output multiplier. -/
def execSetf (site : Nat) (w : W64) (s : State) : Out :=
  mxIssue 0x08 site w (fun s => mxNext site 1 (modMx site (fun x => { x with mult := BitVec.ofNat 32 w.toNat }) s)) s

/-- SETAU: the audit threshold (R237). -/
def execSetau (site : Nat) (w : W64) (s : State) : Out :=
  mxIssue 0x0A site w (fun s => mxNext site 1 (modMx site (fun x => { x with skip := { x.skip with thr := BitVec.ofNat 32 w.toNat } }) s)) s

/-- Release rows of a ring at a site whose rings are given (R159). -/
def execRel (site : Nat) (w : W64) (s : State) : Out :=
  mxIssue 0x09 site w (fun s =>
    let k := bits w.toNat 43 40
    match (look default (mxAt s site).rings k).release (bits w.toNat 10 0) with
    | some r => mxNext site 1 (modMx site (fun x => { x with rings := put default x.rings k r }) s)
    | none => mxNext site 1 (mxFault 0x4114 site s)) s

/-! ## Loads (R164, R165, R237) -/

/-- Does a load of bytes o … o + n - 1 of the lane stores meet the blocks of a MAC in progress, under the MAC's own mode (R165)? -/
def hazLanes (x : Mx) (t o n : Nat) : Bool :=
  (x.macs ++ x.macsDone).any fun y => decide (t < y.busyEnd) && decide (y.b0 * blockBytes y.mode < o + n) && decide (o < (y.b0 + y.kb) * blockBytes y.mode)

/-- Does a load of scales, which hold blocks 0-63 of two lanes, meet one? -/
def hazScales (x : Mx) (t : Nat) : Bool := (x.macs ++ x.macsDone).any fun y => decide (t < y.busyEnd) && decide (y.b0 < 64)

/-- The load unit, or the check generator, takes up n acts, one an ACLK from t + 1 on. -/
def loadActs (site n : Nat) (f : Nat → MxAct) (s : State) : State :=
  mxNext site 1 (modMx site (fun x => { x with loadTill := s.now + n + 1, acts := x.acts ++ dueActs (s.now + 1) n x.seq.pc f }) s)

/-- LDS: stationary rows into lane stores, one an ACLK (R165). -/
def execLds (site : Nat) (w : W64) (s : State) : Out :=
  mxIssue 0x10 site w (fun s =>
    let x := mxAt s site
    let a := aReg x (wAR w)
    let l0 := bits w.toNat 15 12
    let nl := bits w.toNat 11 8 + 1
    let rpl := bits w.toNat 7 4 + 1
    let orow := bits w.toNat 2 0
    if s.now < x.loadTill ∨ s.now < x.genTill then mxNext site 1 (mxFault 0x4110 site s)
    else if !rowsOk a (nl * rpl) || decide (16 < l0 + nl) || decide (8 < orow + rpl) then mxNext site 1 (mxFault 0x4117 site s)
    else if hazLanes x s.now (128 * orow) (128 * rpl) then mxNext site 1 (mxFault 0x4112 site s)
    else loadActs site (nl * rpl) (fun q => .lds (a + 128 * q) (l0 + q / rpl) (orow + q % rpl) x.mode) s) s

/-- LDSS: scale-store rows (R165). -/
def execLdss (site : Nat) (w : W64) (s : State) : Out :=
  mxIssue 0x11 site w (fun s =>
    let x := mxAt s site
    let a := aReg x (wAR w)
    let n := bits w.toNat 6 4 + 1
    let q0 := bits w.toNat 2 0
    if s.now < x.loadTill ∨ s.now < x.genTill then mxNext site 1 (mxFault 0x4110 site s)
    else if !rowsOk a n || decide (8 < q0 + n) then mxNext site 1 (mxFault 0x4117 site s)
    else if hazScales x s.now then mxNext site 1 (mxFault 0x4112 site s)
    else loadActs site n (fun q => .ldss (a + 128 * q) (q0 + q)) s) s

/-- LDC: rows to check-store rows Q0 …, 16 CW words a row (R165). -/
def execLdc (site : Nat) (w : W64) (s : State) : Out :=
  mxIssue 0x12 site w (fun s =>
    let x := mxAt s site
    let a := aReg x (wAR w)
    let n := bits w.toNat 14 8 + 1
    let q0 := bits w.toNat 6 0
    if s.now < x.loadTill then mxNext site 1 (mxFault 0x4110 site s)
    else if !rowsOk a n || decide (128 < q0 + n) then mxNext site 1 (mxFault 0x4117 site s)
    else loadActs site n (fun q => .ldc (a + 128 * q) (q0 + q)) s) s

/-- LDK: bytes 31:0 of a row, read at t + 1, into the skip mask; the load unit is busy 2 (R237). -/
def execLdk (site : Nat) (w : W64) (s : State) : Out :=
  mxIssue 0x14 site w (fun s =>
    let x := mxAt s site
    let a := aReg x (wAR w)
    if s.now < x.loadTill then mxNext site 1 (mxFault 0x4110 site s)
    else if !rowsOk a 1 then mxNext site 1 (mxFault 0x4117 site s)
    else loadActs site 1 (fun _ => .ldk a) s) s

/-- GENC: check weights of blocks B0 … B0 + N - 1, one block an ACLK (R161, R165). -/
def execGenc (site : Nat) (w : W64) (s : State) : Out :=
  mxIssue 0x13 site w (fun s =>
    let x := mxAt s site
    let n := bits w.toNat 13 8 + 1
    let b0 := bits w.toNat 5 0
    if s.now < x.genTill ∨ s.now < x.loadTill then mxNext site 1 (mxFault 0x4110 site s)
    else if 64 < b0 + n then mxNext site 1 (mxFault 0x4117 site s)
    else mxNext site 1 (modMx site (fun x => { x with
      genTill := s.now + n + 1, acts := x.acts ++ dueActs (s.now + 1) n x.seq.pc (fun i => .genc (b0 + i) x.mode) }) s)) s

/-! ## MAC (R58-R69, R166, R168) -/

/-- The array consumes in these intervals: kept for the ramp and for exact mode (R208, R213, R395). -/
def arrayBusy (n : Nat) (l : List (Nat × Nat)) (s : State) : State :=
  excUp n 3 ((l.map Prod.snd).sum) (modMx n (fun x => { x with busy := x.busy ++ l }) s)

/-- The ACLK in which the array of a MAC consumes, as (start, length): the stalls of R390 stand between its blocks (R166). -/
def MacOp.consumes (o : MacOp) : List (Nat × Nat) :=
  let total := o.n * o.kb
  let dur := (total * cpb2 o.mode + 1) / 2
  let from_ := fun j => if j = 0 then 0 else if o.st < j then dur else (j * (total - 1) + o.st - 1) / o.st * cpb2 o.mode / 2
  if total ≤ 1 ∨ o.st = 0 then [(o.t + 2, dur)]
  else (List.range (o.st + 1)).filterMap fun j => if from_ j < from_ (j + 1) then some (o.t + 2 + from_ j + j, from_ (j + 1) - from_ j) else none

/-- The stall budget of the site's region for a MAC (R390). -/
def macStall (s : State) (n slk : Nat) : Nat := min (regionAt s (powerRegion n)).st (2 * slk)

/-- A MAC's fields. -/
def macOf (x : Mx) (w : W64) (t st : Nat) (skips audit : List Bool) : MacOp :=
  { t := t, pc := x.seq.pc, mode := x.mode, slk := bits w.toNat 51 48, ae := aReg x (wAR w), sa := aReg x (bits w.toNat 46 44)
    m0 := bits w.toNat 31 24, n := bits w.toNat 23 16 + 1, b0 := bits w.toNat 13 8, kb := bits w.toNat 5 0 + 1
    st := st, stalls := 0, skips := skips, audit := audit, next := 0, auditAcc := [], rows := [] }

/-- The address and mode checks of R166, R218. -/
def macChecks (x : Mx) (o : MacOp) : Bool :=
  decide (o.m0 + o.n ≤ 256) && decide (o.b0 + o.kb ≤ laneBlocks o.mode)
  && !(mSP o.mode && decide (cpb2 o.mode = 1) && decide (o.kb % 2 = 1))
  && !((mSCS o.mode || mCHK o.mode) && decide (64 < o.b0 + o.kb))
  && decide (o.ae + o.n * o.kb * streamBytes o.mode ≤ 196608) && (!mSCA o.mode || decide (o.sa + o.n * o.kb ≤ 196608))
  && pairOk (mFS x.mode) (mFA x.mode)

/-- Which vectors a MAC with PSK skips, and which of those are audited: every 64th of the step (R238, R239). -/
def macSkips (mask : BitVec 256) (m0 n : Nat) : List Bool := (List.range n).map fun v => bit mask.toNat (m0 + v)
def macAudits : Nat → List Bool → List Bool
  | _, [] => []
  | k, b :: r => if b then (decide ((k + 1) % 64 = 0)) :: macAudits (k + 1) r else false :: macAudits k r

/-- MAC (R166): its row reads become due; its block results enter by MAC_BLOCK_ENTRY. -/
def execMac (site : Nat) (w : W64) (s : State) : Out :=
  mxIssue 0x20 site w (fun s =>
    let x := mxAt s site
    let psk := bit w.toNat 47
    let n := bits w.toNat 23 16 + 1
    let skips := if psk then macSkips x.skip.mask (bits w.toNat 31 24) n else List.replicate n false
    let audit := macAudits x.skip.skipped skips
    let o := macOf x w s.now (macStall s site (bits w.toNat 51 48)) skips audit
    if s.now < x.arrTill then mxNext site 1 (mxFault 0x4110 site s)
    else if !macChecks x o then mxNext site 1 (mxFault 0x4117 site s)
    else if x.outs.any (fun u => decide (s.now < u.2.2) && decide (u.1 < o.m0 + o.n) && decide (o.m0 < u.1 + u.2.1)) then
      mxNext site 1 (mxFault 0x4112 site s)
    else if mCHK o.mode && (List.range o.kb).any (fun b => !bit x.valid.toNat (o.b0 + b)) then mxNext site 1 (mxFault 0x4113 site s)
    else
      let s := modMx site (fun x => { x with
        macs := x.macs ++ [o]
        arrTill := o.busyEnd
        acts := x.acts ++ macReads o
        skip := { x.skip with skipped := x.skip.skipped + (skips.filter id).length, audited := x.skip.audited + (audit.filter id).length } }) s
      mxNext site 1 (arrayBusy site o.consumes s)) s

/-- The streaming elements of one block of a vector. -/
def streamBlock (o : MacOp) (g : Nat) : List Num :=
  let w := fmtWidth (mFA o.mode)
  let v := leNat (o.operand false (o.ae + g * 4 * w) (4 * w))
  (List.range 32).map fun k => decodeNum (mFA o.mode) (elemAt w v k)

/-- The streaming scale code of block g of the MAC. -/
def streamScale (o : MacOp) (g : Nat) : Nat := if mSCA o.mode then leNat (o.operand true (o.sa + g) 1) else 127

/-- Is a grain of block g's streaming operand sour? -/
def streamSour (o : MacOp) (g : Nat) : Bool :=
  o.operandSour false (o.ae + g * streamBytes o.mode) (streamBytes o.mode) || (mSCA o.mode && o.operandSour true (o.sa + g) 1)

/-- Products of lane i: streaming element j with each stationary value at j (R217). -/
def laneProducts (a : List Num) (w : List (List Num)) : List Num :=
  (List.zipWith (fun x ys => ys.map x.mul) a w).flatten

/-- Is the lane on the special path (R50)? -/
def laneSpecial (a : List Num) (ea ei : Nat) (w : List (List Num)) : Bool :=
  a.any (fun x => !x.isFin) || w.any (fun ys => ys.any fun y => !y.isFin) || ea == 255 || ei == 255

/-- The special path's result (R50); r is what the path without it would give. A lane with no infinite product, whose infinite
streaming element meets no stored value under SP, has no stated result: it is free (log 26). -/
def specialResult (ea ei : Nat) (p : List Num) (r : W32) : W32 :=
  if ea = 255 ∨ ei = 255 ∨ p.any Num.isNan then toF32 .nan
  else match p.any (fun x => x.isInf && x.isNeg), p.any (fun x => x.isInf && !x.isNeg) with
    | true, true => toF32 .nan
    | true, false => toF32 (.inf true)
    | false, true => toF32 (.inf false)
    | false, false => Config.specialBlock ea ei r

/-- P_i in units of 2 ^ -32, with what a fault adds (R60, log 13). -/
def laneSum (p : List Num) (d : Int) : Int := unitSum 32 p + d

/-- The block result of a lane off the special path (R61). -/
def laneResult (p : Int) (ea ei : Nat) : W32 := toF32 ((ofInt false p (-32)).scale ((ea : Int) - 127 + ((ei : Int) - 127)))

/-- The value of an accumulator entry in the form it holds (R63). -/
def accNum (a : Acc) : Num := if a.window then windowNum a.v else ofF32 (BitVec.ofNat 32 a.v.toNat)

/-- Add a narrow block's result into an accumulator (R62, R63). -/
def accAdd (win : Bool) (p : Int) (r : W32) (a : Acc) : Acc :=
  if win then
    let v : BitVec 96 := if a.window then a.v else toWindow (accNum a)
    { a with window := true, v := v + BitVec.ofInt 96 p }
  else
    let v : W32 := if a.window then toF32 (accNum a) else BitVec.ofNat 32 a.v.toNat
    { a with window := false, v := BitVec.ofNat 96 (fAdd v r).toNat }

/-- Add a wide block's products in increasing element index (R65): each product in FP32 for 16-bit operands, fused for FP32. -/
def accWide (fs : Nat) (a : List Num) (w : List (List Num)) (x : Acc) : Acc :=
  let v0 : W32 := if x.window then toF32 (accNum x) else BitVec.ofNat 32 x.v.toNat
  let v := (List.zip a w).foldl (fun (v : W32) (y : Num × List Num) =>
    let b := y.2.headD (.fin false 0 0)
    if fs = 0 then toF32 ((y.1.mul b).add (ofF32 v)) else fAdd v (toF32 (y.1.mul b))) v0
  { x with window := false, v := BitVec.ofNat 96 v.toNat }

/-- Is an accumulator NaN or infinite (R75)? -/
def accSpecial (a : Acc) : Bool := !a.window && !(accNum a).isFin

/-- Did one of the accumulators become NaN or infinite that was not? -/
def accsBecame (old new : List Acc) : Bool := (List.zip old new).any fun y => accSpecial y.2 && !accSpecial y.1

/-- The outcome of a block over sixteen accumulators: the accumulators, and what it raises (R61-R69). `upset` is what a fault
in the array adds to the sixteen lane sums and, last, to the check column (log 13). -/
structure BlockOut where
  accs : List Acc
  rowchk : Bool
  na : Bool
  spread : Bool
  nan : Bool

def doBlock (x : Mx) (o : MacOp) (g : Nat) (upset : List Int) (accs : List Acc) : BlockOut :=
  let m := o.mode
  let b := o.b0 + g % o.kb
  let a := streamBlock o g
  let ea := streamScale o g
  let asour := streamSour o g
  let lanes := (List.range 16).map fun i => (laneScale x m i b, stationary x m i b)
  let lsour := fun i => asour || laneSour x i (b * blockBytes m) (blockBytes m) || (mSCS m && look false x.ssour i)
  if 8 < fmtWidth (mFS m) then
    let out := (List.zip accs (List.zip lanes (List.range 16))).map fun y =>
      let r := accWide (mFS m) a y.2.1.2 y.1
      { r with sour := r.sour || lsour y.2.2 }
    { accs := out, rowchk := false, na := false, spread := false, nan := accsBecame accs out }
  else
    let prods := lanes.map fun l => laneProducts a l.2
    let special := lanes.map fun l => laneSpecial a ea l.1 l.2
    let sums := (List.zip prods (List.range 16)).map fun y => laneSum y.1 (upset.getD y.2 0)
    let emin := minScale x m b
    let ds := lanes.map fun l => l.1 - emin
    let chk := mCHK m
    let na := chk && special.any id
    let spread := chk && !na && ds.any fun d => decide (16 < d)
    let check : Int := (List.zip a (List.range 32)).foldl (fun acc y =>
      let c := (look 0 x.check (32 * b + y.2)).toInt
      match y.1 with | .fin neg k e => acc + sgn neg k * 2 ^ (e + 16).toNat * c | _ => acc) 0 + upset.getD 16 0
    let side : Int := (List.zip ds sums).foldl (fun acc y => acc + 2 ^ y.1 * y.2) 0
    let bad := chk && !na && !spread && !((List.range 16).any lsour) && decide (check ≠ side)
    let res := (List.zip lanes (List.zip special (List.zip prods sums))).map fun y =>
      let r := laneResult y.2.2.2 ea y.1.1
      if y.2.1 then specialResult ea y.1.1 y.2.2.1 r else r
    let out := (List.zip accs (List.zip sums (List.zip res (List.range 16)))).map fun y =>
      let r := accAdd (mWindow m) y.2.1 y.2.2.1 y.1
      { r with sour := r.sour || bad || lsour y.2.2.2 }
    { accs := out, rowchk := bad, na := na, spread := spread, nan := (!mWindow m && res.any f32Special) || accsBecame accs out }

/-- Does an audit result miss: any lane above the threshold or NaN (R239)? -/
def auditMiss (thr : W32) (l : List Acc) : Bool :=
  l.any fun a => (accNum a).isNan || (!(ofF32 thr).isNan && decide (0 < (accNum a).cmp (ofF32 thr)))

/-- Raise what a block raises. -/
def blockReports (n pc : Nat) (r : BlockOut) (s : State) : State :=
  let s := if r.na then count 0x1102 n 1 s else s
  let s := if r.spread then count 0x1103 n 1 s else s
  let s := if r.nan then count 0x1105 n 1 s else s
  if r.rowchk then watchTrigger 0x3101 2 (.site n) (reportProg 0x3101 n pc s) else s

/-- The next block of the MAC enters: into its accumulators, or for an audited vector into the audit accumulators; a skipped
vector forms nothing (R166, R238, R239). -/
def blockEntry (n : Nat) (o : MacOp) (upset : List Int) (s : State) : State :=
  let g := o.next
  let v := g / o.kb
  let last := decide (g % o.kb + 1 = o.kb)
  let x := mxAt s n
  let skip := o.skips.getD v false
  let audit := o.audit.getD v false
  let done := decide (o.n * o.kb ≤ g + 1)
  let step := fun (o : MacOp) (s : State) => modMx n (fun x =>
    if done then { x with macs := x.macs.drop 1, macsDone := (x.macsDone.filter fun y => decide (s.now < y.readable)) ++ [o] }
    else { x with macs := o :: x.macs.drop 1 }) s
  if skip && !audit then step (o.trimmed (g + 1)) s
  else if audit then
    let accs := if g % o.kb = 0 then List.replicate 16 default else o.auditAcc
    let r := doBlock x o g upset accs
    let s := blockReports n o.pc r s
    let s := if last && auditMiss x.skip.thr r.accs then
        count 0x1118 n 1 (modMx n (fun x => { x with skip := { x.skip with misses := x.skip.misses + 1 } }) s) else s
    step { o.trimmed (g + 1) with auditAcc := r.accs } s
  else
    let r := doBlock x o g upset (accsAt x (o.m0 + v))
    let s := modMx n (putAccs (o.m0 + v) r.accs) s
    step (o.trimmed (g + 1)) (excUp n 4 1 (blockReports n o.pc r s))

/-- Does a droop of the site's region hold back the last byte of the MAC's next block (R393)? -/
def droopHolds (s : State) (n : Nat) (o : MacOp) : Bool :=
  match (regionAt s (powerRegion n)).drooping with
  | some t => decide (t ≤ o.lastUse o.next)
  | none => false

/-- MAC_BLOCK_ENTRY (R166): the next block result of the site's oldest MAC enters its accumulator at u + 6; none whose
last byte stood in an ACLK from which the ramp holds the array (R395). -/
def execMacBlockEntry (site : Nat) (upset : List Int) (s : State) : Out :=
  onSite .mx site (fun s => match (mxAt s site).macs with
    | [] => s
    | o :: _ =>
      if siteRuns s site && s.pwr.clamp.isNone && !droopHolds s site o then
        let s := runTo (o.entryAt o.next) s
        match (mxAt s site).macs with
        | [] => s
        | o :: _ => if arrayHeld s site (o.lastUse o.next) then s else blockEntry site o upset s
      else s) s

/-! ## Output (R63, R64, R167, R168) -/

/-- Entries a flit of output format FO holds. -/
def outK (fo : Nat) : Nat := let w := fmtWidth fo; if w = 32 then 2 else if w = 16 then 4 else if w = 4 then 16 else 8

/-- Does a MAC not yet readable write an accumulator of the range (R168)? -/
def hazAcc (x : Mx) (t m0 n : Nat) : Bool :=
  (x.macs ++ x.macsDone).any fun o => decide (t < o.readable) && decide (o.m0 < m0 + n) && decide (m0 < o.m0 + o.n)

/-- The output elements of a flit: entry m of lane i is element 16 (m − first) + i. -/
def flitAccs (x : Mx) (e k : Nat) : List Acc := (List.range k).flatMap fun j => accsAt x (e + j)

/-- The exact value that goes to the output rounding (R64). -/
def outNum (x : Mx) (a : Acc) : Num := if mOM x.mode then (accNum a).mul (ofF32 x.mult) else accNum a

/-- Split in lists of 32. -/
def blocks32 {α : Type} : Nat → List α → List (List α)
  | 0, _ => []
  | k + 1, l => l.take 32 :: blocks32 k (l.drop 32)

/-- Convert blocks in order: scales, codes, saturations, register (R53). -/
def blocksOut (fo rm : Nat) (ov : Bool) : List (List Num) → W32 → List Nat × List Nat × Nat × W32
  | [], sr => ([], [], 0, sr)
  | l :: r, sr =>
    let b := toBlock fo rm ov l sr
    let t := blocksOut fo rm ov r b.2.2.2
    (b.1 :: t.1, b.2.1 ++ t.2.1, b.2.2.1 + t.2.2.1, t.2.2.2)

/-- The codes of a flit's elements (R64, R167): scales, codes, saturations, register. -/
def outCodes (x : Mx) (l : List Acc) : List Nat × List Nat × Nat × W32 :=
  let m := x.mode
  if mSCO m then blocksOut (mFO m) (mRM m) (mOV m) (blocks32 (l.length / 32) (l.map (outNum x))) x.sr
  else
    l.foldl (fun acc a =>
      if mFO m = 0 ∧ ¬ mOM m ∧ ¬ a.window then ([], acc.2.1 ++ [a.v.toNat % 2 ^ 32], acc.2.2.1, acc.2.2.2)
      else
        let sr := if mRM m = 2 then srNext acc.2.2.2 else acc.2.2.2
        let c := convert (mFO m) (mRM m) (mOV m) sr.toNat (outNum x a)
        ([], acc.2.1 ++ [c.1], acc.2.2.1 + b2n c.2, sr)) ([], [], 0, x.sr)

/-- A segment is sour when an element packed in it comes from a sour accumulator (R68). -/
def outSour (w : Nat) (l : List Acc) : Byte :=
  (List.zip l (List.range l.length)).foldl (fun b y =>
    if y.1.sour then b ||| BitVec.ofNat 8 (2 ^ (w * y.2 / 128)) ||| BitVec.ofNat 8 (2 ^ ((w * y.2 + w - 1) / 128)) else b) 0

/-- The scales of a flit with SCO 1, each with the marks of its block's accumulators (R68). -/
def scaleMarks (l : List Acc) (scales : List Nat) : List (Byte × Bool) :=
  List.zipWith (fun c b => (BitVec.ofNat 8 c, b.any Acc.sour)) scales (blocks32 (l.length / 32) l)

/-- The staging row as a flit: a segment is sour when a scale in it is (R68). -/
def stageFlit (l : List (Byte × Bool)) : Flit :=
  { data := rowOf (l.map Prod.fst)
    sour := (List.zip l (List.range l.length)).foldl (fun b y => if y.1.2 then b ||| BitVec.ofNat 8 (2 ^ (y.2 / 16)) else b) 0 }

/-- A flit or row leaves at ACLK t: to the switch's local input, or into the SRAM row at a (R167). -/
def outPut (n t a : Nat) (toMem : Bool) (f : Flit) (s : State) : State :=
  if toMem then modMx n (fun x => { x with acts := x.acts ++ [{ at_ := t, pc := some x.seq.pc, act := .row a f }] }) s else inject n t f s

/-- One flit of OUT. -/
def outFlit (n t a e k : Nat) (toMem clr : Bool) (s : State) : State :=
  let x := mxAt s n
  let l := flitAccs x e k
  let c := outCodes x l
  let w := fmtWidth (mFO x.mode)
  let f : Flit := { data := BitVec.ofNat 1024 (packCodes w c.2.1), sour := outSour w l }
  let full := decide (128 < x.stage.length + c.1.length)
  let s := modMx n (fun x =>
    let x := { x with sr := c.2.2.2, stage := if full then x.stage else x.stage ++ scaleMarks l c.1 }
    if clr then zeroAccs e k x else x) s
  let s := if full then mxFault 0x4116 n s else s
  let s := if c.2.2.1 = 0 then s else count 0x1104 n c.2.2.1 s
  outPut n t a toMem f s

/-- OUT (R167): flit j, and its accumulators, are in use until t + 2 + j (R168). -/
def execOut (site : Nat) (w : W64) (s : State) : Out :=
  mxIssue 0x21 site w (fun s =>
    let x := mxAt s site
    let a := aReg x (wAR w)
    let m0 := bits w.toNat 31 24
    let nf := bits w.toNat 23 16 + 1
    let k := outK (mFO x.mode)
    let toMem := bit w.toNat 8
    let t := s.now
    if t < x.outTill then mxNext site 1 (mxFault 0x4110 site s)
    else if 256 < m0 + nf * k ∨ (toMem && !rowsOk a nf) then mxNext site 1 (mxFault 0x4117 site s)
    else if hazAcc x t m0 (nf * k) then mxNext site 1 (mxFault 0x4112 site s)
    else
      let s := modMx site (fun x => { x with
        outTill := t + nf
        outs := (x.outs.filter fun u => decide (t < u.2.2)) ++ (List.range nf).map fun j => (m0 + j * k, k, t + 3 + j) }) s
      let s := each (List.range nf) (fun j s => outFlit site (t + 2 + j) (a + 128 * j) (m0 + j * k) k toMem (bit w.toNat 9) s) s
      mxNext site 1 s) s

/-- OUTS: the staging row leaves at t + 2; staging is cleared (R164). -/
def execOuts (site : Nat) (w : W64) (s : State) : Out :=
  mxIssue 0x22 site w (fun s =>
    let x := mxAt s site
    let a := aReg x (wAR w)
    let toMem := bit w.toNat 8
    if s.now < x.outTill then mxNext site 1 (mxFault 0x4110 site s)
    else if toMem && !rowsOk a 1 then mxNext site 1 (mxFault 0x4117 site s)
    else
      let s := modMx site (fun x => { x with stage := [], outTill := s.now + 1 }) s
      mxNext site 1 (outPut site (s.now + 2) a toMem (stageFlit x.stage) s)) s

/-- ACC (R164, R491): OP 0 sets entries to +0, OP 1 loads them as FP32 rows. -/
def execAcc (site : Nat) (w : W64) (s : State) : Out :=
  mxIssue 0x23 site w (fun s =>
    let x := mxAt s site
    let a := aReg x (wAR w)
    let m0 := bits w.toNat 31 24
    let n := bits w.toNat 23 16 + 1
    let op := bits w.toNat 9 8
    let t := s.now
    let busy := if op = 0 then (n + 15) / 16 else (n + 1) / 2
    if 1 < op then mxReserved site s
    else if t < x.outTill then mxNext site 1 (mxFault 0x4110 site s)
    else if 256 < m0 + n ∨ (decide (op = 1) && !rowsOk a busy) then mxNext site 1 (mxFault 0x4117 site s)
    else if hazAcc x t m0 n then mxNext site 1 (mxFault 0x4112 site s)
    else
      let k := if op = 0 then 16 else 2
      mxNext site 1 (modMx site (fun x => { x with
        outTill := t + busy
        outs := (x.outs.filter fun u => decide (t < u.2.2)) ++ (List.range busy).map fun q => (m0 + k * q, min k (n - k * q), t + 2 + q)
        acts := x.acts ++ dueActs (t + 1) busy x.seq.pc fun q =>
          if op = 0 then .zero (m0 + 16 * q) (min 16 (n - 16 * q)) else .acc (a + 128 * q) (m0 + 2 * q) (min 2 (n - 2 * q)) }) s)) s

/-! ## SPMAC (R228-R230) -/

/-- The mode checks of R228. -/
def spModeOk (m : W32) : Bool := !mSCS m && !mSP m && (within 1 7 (mFS m) || within 9 10 (mFS m))

/-- SPMAC (R228-R230): the array and the output unit run over the flits of a ring. Under CHK which sub-steps an upset strikes is a free value
(log 28). -/
def execSpmac (site : Nat) (w : W64) (s : State) : Out :=
  mxIssue 0x24 site w (fun s =>
    let x := mxAt s site
    let nlog := bits w.toNat 34 32
    let nf := bits w.toNat 13 0 + 1
    let t := s.now
    if 4 < nlog then mxReserved site s
    else if t < x.arrTill ∨ t < x.outTill then mxNext site 1 (mxFault 0x4110 site s)
    else if !spModeOk x.mode then mxNext site 1 (mxFault 0x4117 site s)
    else
      let v := if mCHK x.mode then freshValue s else (0, s)
      let s := modMx site (fun x => { x with
        spmac := some { t := t, pc := x.seq.pc, mode := x.mode, ring := bits w.toNat 43 40, nlog := nlog, nf := nf, upset := v.1, at_ := t, freed := 0, flit := default }
        arrTill := t + nf * 2 ^ nlog + 2
        outTill := t + 4 + nf * 2 ^ nlog }) v.2
      mxNext site 1 (arrayBusy site [(t + 2, nf * 2 ^ nlog)] s)) s

/-! ## Ring deliveries and starts (R155, R158, R159, R180) -/

/-- A flit delivered to an MX site is written into its ring. -/
def mxDeliver (n : Nat) (d : Deliv) (s : State) : State :=
  match d.tag.bind (ringTag 16) with
  | none => reportSite 0x4115 n s
  | some k =>
    let r := look default (mxAt s n).rings k
    if !rgEn r.desc then reportSite 0x4115 n s
    else if ringOcc r = rgLenM1 r.desc + 1 then reportSite 0x4114 n s
    else
      let a := 128 * (rgBase r.desc + r.wptr % 32768)
      modMx n (fun x => { x with
        rings := put default x.rings k { r with wptr := ptrAdd (rgLenM1 r.desc + 1) r.wptr 1 }
        acts := x.acts ++ [{ at_ := s.now, pc := none, act := .row a d.flit }] }) s

end Sys2Proof.Machine
end

