-- ==== Sys2Proof/Machine/Sf.lean ====
section
/-! DEFINITION. The SF site (R169-R176): issue, units, results, its instructions, and the ring deliveries of both site types
(R158). A result is computed at issue and written at the end of its ACLK (R154); the SRAM is accessed in its ACLK (R160, R169). -/
namespace Sys2Proof.Machine

/-! ## Operands (R169) -/

def sfVD (w : W64) : Nat := bits w.toNat 55 51
def sfVA (w : W64) : Nat := bits w.toNat 50 46
def sfVB (w : W64) : Nat := bits w.toNat 45 41
def sfVC (w : W64) : Nat := bits w.toNat 40 36
def sfPM (w : W64) : Nat := bits w.toNat 35 33
def sfBS (w : W64) : Bool := bit w.toNat 32
def sfImm (w : W64) : Nat := bits w.toNat 31 0

/-- Scalar n; s0 reads 0. -/
def sfS (f : Sf) (n : Nat) : W32 := if n % 16 = 0 then 0 else look 0 f.s (n % 16)

/-- Predicate n; p0 reads all ones. -/
def sfP (f : Sf) (n : Nat) : W32 := if n % 8 = 0 then BitVec.allOnes 32 else look 0 f.p (n % 8)

/-- Vector n. -/
def sfV (f : Sf) (n : Nat) : Vec := look default f.v n

/-- A scalar in every lane; scalars carry no sour mark. -/
def vecAll (x : W32) : Vec := { data := ofLanes (List.replicate 32 x), sour := 0 }

/-- A value in lane 0. -/
def vecOf (x : W32) : Vec := { data := BitVec.ofNat 1024 x.toNat, sour := 0 }

/-- Operand B: v[VB], or s[VB] in every lane with BS 1. -/
def sfB (f : Sf) (w : W64) : Vec := if sfBS w then vecAll (sfS f (sfVB w)) else sfV f (sfVB w)

/-- The lanes an instruction writes. -/
def sfMask (f : Sf) (w : W64) : W32 := sfP f (sfPM w)

/-- All segments sour if any is (R171). -/
def anySour (b : Byte) : Byte := if b = 0 then 0 else 255

/-! ## Issue -/

/-- The program word at the sequencer's address. -/
def sfWord (f : Sf) : W64 := look 0 f.prog (1024 * f.seq.bank + f.seq.pc)

/-- A schedule defect at the word being issued. -/
def sfFault (code n : Nat) (s : State) : State := reportProg code n (sfAt s n).seq.pc s

/-- Go on to the next word, d ACLK after this one's issue. -/
def sfNext (n d : Nat) (s : State) : State := modSf n (fun f => { f with seq := f.seq.advance (s.now + d) }) s

/-- A word with a reserved code (R153): SF_SEQ, and the sequencer idles. -/
def sfReserved (n : Nat) (s : State) : State := modSf n (fun f => { f with seq := f.seq.stop }) (sfFault 0x4315 n s)

/-- Issue of the word w with opcode op at an SF site, as on the MX (R153, R154, log 8, log 9). -/
def sfIssue (op n : Nat) (w : W64) (g : State → State) (s : State) : Out :=
  onSite .sf n (fun s =>
    let f := sfAt s n
    if !(siteRuns s n) || !f.seq.live then s
    else if 1024 ≤ f.seq.pc then modSf n (fun f => { f with seq := f.seq.stop }) (sfFault 0x4315 n (runTo f.seq.next s))
    else if sfWord f = w ∧ wOp w = op then g (excUp n 3 1 (runTo f.seq.next s))
    else if !sfOpKnown (wOp (sfWord f)) then sfReserved n (runTo f.seq.next s)
    else s) s

/-- The units of R170. -/
inductive SfUnit where
  | vec | tr | mem | hash | topk
deriving DecidableEq, Repr

/-- When a unit is free. -/
def Sf.till (f : Sf) (u : SfUnit) : Nat :=
  match u with
  | .vec => f.vecTill
  | .tr => f.trTill
  | .mem => f.memTill
  | .hash => f.hashTill
  | .topk => f.topTill

/-- A unit is busy up to ACLK t. -/
def Sf.hold (u : SfUnit) (t : Nat) (f : Sf) : Sf :=
  match u with
  | .vec => { f with vecTill := t }
  | .tr => { f with trTill := t }
  | .mem => { f with memTill := t }
  | .hash => { f with hashTill := t }
  | .topk => { f with topTill := t }

/-- An instruction of a unit, busy for `busy` ACLK; not performed on a busy unit (R172). -/
def sfUnit (op : Nat) (u : SfUnit) (busy n : Nat) (w : W64) (g : State → State) (s : State) : Out :=
  sfIssue op n w (fun s =>
    if s.now < (sfAt s n).till u then sfNext n 1 (sfFault 0x4310 n s)
    else sfNext n 1 (g (modSf n (Sf.hold u (s.now + busy)) s))) s

/-- Does the destination take writes? -/
def SfDst.real : SfDst → Bool
  | .v _ => true
  | .s n => decide (n ≠ 0)
  | .p n => decide (n ≠ 0)

/-- A result of latency lat; a second result to one register in one ACLK is discarded (R172). -/
def sfResult (n lat : Nat) (dst : SfDst) (mask : W32) (val : Vec) (s : State) : State :=
  let due := s.now + lat - 1
  if dst.real && (sfAt s n).wb.any (fun x => decide (x.due = due) && decide (x.dst = dst)) then sfFault 0x4312 n s
  else modSf n (fun f => { f with wb := f.wb ++ [{ due := due, dst := dst, mask := mask, val := val }] }) s

/-- A scalar result of latency 1. -/
def sfScalar (n : Nat) (w : W64) (x : W32) (s : State) : State := sfResult n 1 (.s (sfVD w % 16)) (BitVec.allOnes 32) (vecOf x) s

/-- An SRAM access due in ACLK t (R160, R169). -/
def sfDue (n t : Nat) (pc : Option Nat) (a : SfAct) (s : State) : State :=
  modSf n (fun f => { f with acts := f.acts ++ [{ at_ := t, pc := pc, act := a }] }) s

/-! ## Sequencer instructions (R170) -/

def execSfNop (site : Nat) (w : W64) (s : State) : Out := sfIssue 0x00 site w (sfNext site 1) s

/-- END: the site idles; inside a loop it raises SF_SEQ (R172). -/
def execSfEnd (site : Nat) (w : W64) (s : State) : Out :=
  sfIssue 0x01 site w (fun s =>
    let s := if (sfAt s site).seq.loops.isEmpty then s else sfFault 0x4315 site s
    modSf site (fun f => { f with seq := f.seq.ended s.now }) s) s

def execSfWait (site : Nat) (w : W64) (s : State) : Out := sfIssue 0x02 site w (sfNext site (sfImm w + 1)) s

/-- WPK, with AC in bits 35:33. -/
def execSfWpk (site : Nat) (w : W64) (s : State) : Out :=
  sfIssue 0x03 site w (fun s =>
    let e := 8 * ((sfAt s site).seq.step + sfImm w) + sfPM w
    if e < s.now + 1 then sfNext site 1 (sfFault 0x4315 site s) else sfNext site (e - s.now) s) s

/-- LOOP: IMM 9:0 the end, 25:10 the count - 1. -/
def execSfLoop (site : Nat) (w : W64) (s : State) : Out :=
  sfIssue 0x04 site w (fun s => match (sfAt s site).seq.enter (bits w.toNat 9 0) (bits w.toNat 25 10 + 1) (s.now + 1) with
    | some q => modSf site (fun f => { f with seq := q }) s
    | none => sfNext site 1 (sfFault 0x4315 site s)) s

/-- A taken branch costs two ACLK. -/
def sfJump (n : Nat) (w : W64) (s : State) : State := modSf n (fun f => { f with seq := f.seq.jump (bits w.toNat 9 0) (s.now + 2) }) s

def execSfBr (site : Nat) (w : W64) (s : State) : Out := sfIssue 0x05 site w (sfJump site w) s

def execBz (site : Nat) (w : W64) (s : State) : Out :=
  sfIssue 0x06 site w (fun s => if sfS (sfAt s site) (sfVA w) = 0 then sfJump site w s else sfNext site 1 s) s

def execBnz (site : Nat) (w : W64) (s : State) : Out :=
  sfIssue 0x07 site w (fun s => if sfS (sfAt s site) (sfVA w) = 0 then sfNext site 1 s else sfJump site w s) s

def execSli (site : Nat) (w : W64) (s : State) : Out :=
  sfIssue 0x08 site w (fun s => sfNext site 1 (sfScalar site w (BitVec.ofNat 32 (sfImm w)) s)) s

def execSadd (site : Nat) (w : W64) (s : State) : Out :=
  sfIssue 0x09 site w (fun s =>
    let f := sfAt s site
    let b := if sfBS w then sfS f (sfVB w) else BitVec.ofNat 32 (sfImm w)
    sfNext site 1 (sfScalar site w (sfS f (sfVA w) + b) s)) s

def execSmovv (site : Nat) (w : W64) (s : State) : Out :=
  sfIssue 0x0A site w (fun s => sfNext site 1 (sfScalar site w (laneOf (sfV (sfAt s site) (sfVA w)).data (bits w.toNat 4 0)) s)) s

/-- GETPK: the pick offset from S_k of the step in which the site was started, low 32 bits (R155). -/
def execGetpk (site : Nat) (w : W64) (s : State) : Out :=
  sfIssue 0x0B site w (fun s => sfNext site 1 (sfScalar site w (BitVec.ofNat 32 (s.pick - (sfAt s site).seq.step)) s)) s

/-! ## Elementwise instructions (R71, R73, R170, R171) -/

/-- The unmasked lanes whose result is NaN though no operand is: SF_NAN counts each, and one for a reduction (R75; DESIGN CHOICE, log 28). -/
def nanLanes (mask : W32) (ops : List Vec) (r : Row128) : Nat :=
  ((List.range 32).filter fun i => bit mask.toNat i && f32Nan (laneOf r i) && !ops.any (fun v => f32Nan (laneOf v.data i))).length

def countNan (n k : Nat) (s : State) : State := if k = 0 then s else count 0x1302 n k s

/-- A lane-by-lane instruction on k operands into v[VD]. -/
def sfLanes (op : Nat) (u : SfUnit) (busy lat k : Nat) (fp : Bool) (g : W32 → W32 → W32 → W32) (n : Nat) (w : W64) (s : State) : Out :=
  sfUnit op u busy n w (fun s =>
    let f := sfAt s n
    let a := sfV f (sfVA w)
    let b := sfB f w
    let c := sfV f (sfVC w)
    let ops := [a, b, c].take k
    let r := ofLanes ((List.range 32).map fun i => g (laneOf a.data i) (laneOf b.data i) (laneOf c.data i))
    let s := if fp then countNan n (nanLanes (sfMask f w) ops r) s else s
    sfResult n lat (.v (sfVD w)) (sfMask f w) { data := r, sour := ops.foldl (fun x v => x ||| v.sour) 0 } s) s

def execFadd (site : Nat) (w : W64) (s : State) : Out := sfLanes 0x10 .vec 1 4 2 true (fun a b _ => fAdd a b) site w s
def execFsub (site : Nat) (w : W64) (s : State) : Out := sfLanes 0x11 .vec 1 4 2 true (fun a b _ => fSub a b) site w s
def execFmul (site : Nat) (w : W64) (s : State) : Out := sfLanes 0x12 .vec 1 4 2 true (fun a b _ => fMul a b) site w s
def execFfma (site : Nat) (w : W64) (s : State) : Out := sfLanes 0x13 .vec 1 4 3 true fFma site w s
def execFmin (site : Nat) (w : W64) (s : State) : Out := sfLanes 0x14 .vec 1 4 2 true (fun a b _ => fMin a b) site w s
def execFmax (site : Nat) (w : W64) (s : State) : Out := sfLanes 0x15 .vec 1 4 2 true (fun a b _ => fMax a b) site w s

/-- A compare into p[VD bits 2:0]; `top` is the largest comparison code. -/
def sfCompare (op lat top : Nat) (cmp : Nat → W32 → W32 → Bool) (n : Nat) (w : W64) (s : State) : Out :=
  if top < bits w.toNat 2 0 then sfIssue op n w (sfReserved n) s
  else sfUnit op .vec 1 n w (fun s =>
    let f := sfAt s n
    let a := sfV f (sfVA w)
    let b := sfB f w
    let r := (List.range 32).foldl (fun x i => x + b2n (cmp (bits w.toNat 2 0) (laneOf a.data i) (laneOf b.data i)) * 2 ^ i) 0
    sfResult n lat (.p (sfVD w % 8)) (sfMask f w) (vecOf (BitVec.ofNat 32 r)) s) s

def execFcmp (site : Nat) (w : W64) (s : State) : Out := sfCompare 0x16 4 4 fCmp site w s

def execIadd (site : Nat) (w : W64) (s : State) : Out := sfLanes 0x18 .vec 1 2 2 false (fun a b _ => a + b) site w s
def execIsub (site : Nat) (w : W64) (s : State) : Out := sfLanes 0x19 .vec 1 2 2 false (fun a b _ => a - b) site w s
def execImul (site : Nat) (w : W64) (s : State) : Out := sfLanes 0x1A .vec 1 2 2 false (fun a b _ => a * b) site w s
def execImulh (site : Nat) (w : W64) (s : State) : Out :=
  sfLanes 0x1B .vec 1 2 2 false (fun a b _ => BitVec.ofNat 32 (a.toNat * b.toNat / 2 ^ 32)) site w s
def execIand (site : Nat) (w : W64) (s : State) : Out := sfLanes 0x1C .vec 1 2 2 false (fun a b _ => a &&& b) site w s
def execIor (site : Nat) (w : W64) (s : State) : Out := sfLanes 0x1D .vec 1 2 2 false (fun a b _ => a ||| b) site w s
def execIxor (site : Nat) (w : W64) (s : State) : Out := sfLanes 0x1E .vec 1 2 2 false (fun a b _ => a ^^^ b) site w s
def execIshl (site : Nat) (w : W64) (s : State) : Out := sfLanes 0x1F .vec 1 2 2 false (fun a b _ => a <<< (b.toNat % 32)) site w s
def execIshr (site : Nat) (w : W64) (s : State) : Out := sfLanes 0x20 .vec 1 2 2 false (fun a b _ => a >>> (b.toNat % 32)) site w s
def execIsra (site : Nat) (w : W64) (s : State) : Out :=
  sfLanes 0x21 .vec 1 2 2 false (fun a b _ => a.sshiftRight (b.toNat % 32)) site w s

/-- The codes of FCMP but UNORD on two's complement integers (DEDUCED, log 28). -/
def iCmp (op : Nat) (a b : W32) : Bool :=
  if op = 0 then decide (a = b) else if op = 1 then decide (a.toInt < b.toInt) else if op = 2 then decide (a.toInt ≤ b.toInt) else decide (a ≠ b)

def execIcmp (site : Nat) (w : W64) (s : State) : Out := sfCompare 0x22 2 3 iCmp site w s

/-- SEL: p[PM] chooses va or vb in each lane; every lane is written. -/
def execSel (site : Nat) (w : W64) (s : State) : Out :=
  sfUnit 0x23 .vec 1 site w (fun s =>
    let f := sfAt s site
    let a := sfV f (sfVA w)
    let b := sfB f w
    sfResult site 2 (.v (sfVD w)) (BitVec.allOnes 32) { data := mergeLanes (sfMask f w) b.data a.data, sour := a.sour ||| b.sour } s) s

/-! ## Conversions (R51-R54, R170) -/

/-- Is a conversion between formats a widening, exact one (02)? It consumes no random word whatever the mode, and an integer to another
format than FP32 is a narrowing (DESIGN CHOICE, log 28). -/
def cvtWidens (fr dst : Nat) : Bool :=
  decide (dst = 0) || (!fmtInt fr && !fmtInt dst && decide (fmtE fr ≤ fmtE dst) && decide (fmtM fr ≤ fmtM dst))

/-- CVT: from IMM 3:0 to IMM 7:4; IMM 10:8 sets the program's rounding and overflow mode. A result segment takes the mark of the operand's
segment in the same position: CVT is not among the instructions across the lanes (R171). Under SR with a predicate, all 32 elements are converted,
each consuming a word and counting (DESIGN CHOICE, log 28). -/
def execCvt (site : Nat) (w : W64) (s : State) : Out :=
  let fr := bits w.toNat 3 0
  let dst := bits w.toNat 7 4
  if 11 < fr ∨ 11 < dst ∨ bits w.toNat 9 8 = 3 then sfIssue 0x28 site w (sfReserved site) s
  else sfUnit 0x28 .vec 1 site w (fun s =>
    let f := { (sfAt s site) with rm := bits w.toNat 9 8, ov := bit w.toNat 10 }
    let a := sfV f (sfVA w)
    let nums := (List.range 32).map fun i => decodeNum fr (elemAt (fmtWidth fr) a.data.toNat i)
    let c := if cvtWidens fr dst then convertAll dst 0 true nums f.sr else convertAll dst f.rm f.ov nums f.sr
    let s := modSf site (fun _ => { f with sr := c.2.2 }) s
    let s := if c.2.1 = 0 then s else count 0x1301 site c.2.1 s
    let nans := ((List.zip nums c.1).filter fun x => !x.1.isNan && (decodeNum dst x.2).isNan).length
    let r : Vec := { data := BitVec.ofNat 1024 (packCodes (fmtWidth dst) c.1), sour := a.sour }
    sfResult site 4 (.v (sfVD w)) (sfMask f w) r (countNan site nans s)) s

/-- CVTMX: 32 lanes to one MX block; the payload in v[VD], the scale code in s[VC] (R53). -/
def execCvtmx (site : Nat) (w : W64) (s : State) : Out :=
  let fo := bits w.toNat 3 0
  if !isMxOut fo then sfIssue 0x29 site w (sfReserved site) s
  else sfUnit 0x29 .vec 2 site w (fun s =>
    let f := sfAt s site
    let a := sfV f (sfVA w)
    let b := toBlock fo f.rm f.ov ((lanesOf a.data).map ofF32) f.sr
    let s := modSf site (fun f => { f with sr := b.2.2.2 }) s
    let s := if b.2.2.1 = 0 then s else count 0x1301 site b.2.2.1 s
    let r : Vec := { data := BitVec.ofNat 1024 (packCodes (fmtWidth fo) b.2.1), sour := anySour a.sour }
    let nans := ((List.zip (lanesOf a.data) b.2.1).filter fun x => !f32Nan x.1 && (decodeNum fo x.2).isNan).length
    sfResult site 6 (.s (sfVC w % 16)) (BitVec.allOnes 32) (vecOf (BitVec.ofNat 32 b.1)) (sfResult site 6 (.v (sfVD w)) (sfMask f w) r (countNan site nans s))) s

/-! ## Functions of R73 -/

def execFexp (site : Nat) (w : W64) (s : State) : Out := sfLanes 0x30 .tr 4 12 1 true (fun a _ _ => fExp a) site w s
def execFexp2 (site : Nat) (w : W64) (s : State) : Out := sfLanes 0x31 .tr 4 12 1 true (fun a _ _ => fExp2 a) site w s
def execFexpsub (site : Nat) (w : W64) (s : State) : Out := sfLanes 0x32 .tr 4 12 2 true (fun a b _ => fExpSub a b) site w s
def execFlog (site : Nat) (w : W64) (s : State) : Out := sfLanes 0x33 .tr 4 12 1 true (fun a _ _ => fLogOf 3 a) site w s
def execFlog2 (site : Nat) (w : W64) (s : State) : Out := sfLanes 0x34 .tr 4 12 1 true (fun a _ _ => fLogOf 4 a) site w s
def execFrcp (site : Nat) (w : W64) (s : State) : Out := sfLanes 0x35 .tr 4 12 1 true (fun a _ _ => fRcp a) site w s
def execFrsq (site : Nat) (w : W64) (s : State) : Out := sfLanes 0x36 .tr 4 12 1 true (fun a _ _ => fRsq a) site w s
def execFsqrt (site : Nat) (w : W64) (s : State) : Out := sfLanes 0x37 .tr 4 12 1 true (fun a _ _ => fSqrt a) site w s
def execFtanh (site : Nat) (w : W64) (s : State) : Out := sfLanes 0x38 .tr 4 12 1 true (fun a _ _ => fTanh a) site w s
def execFsig (site : Nat) (w : W64) (s : State) : Out := sfLanes 0x39 .tr 4 12 1 true (fun a _ _ => fSig a) site w s
def execFerf (site : Nat) (w : W64) (s : State) : Out := sfLanes 0x3A .tr 4 12 1 true (fun a _ _ => fErf a) site w s
def execFgelu (site : Nat) (w : W64) (s : State) : Out := sfLanes 0x3B .tr 4 12 1 true (fun a _ _ => fGelu a) site w s

/-! ## Across the lanes (R74, R171) -/

/-- A reduction: masked lanes contribute `ident`; the result is written to every lane. -/
def sfReduce (op : Nat) (u : SfUnit) (busy lat : Nat) (ident : W32) (g : W32 → W32 → W32) (fin : W32 → W32) (n : Nat) (w : W64) (s : State) : Out :=
  sfUnit op u busy n w (fun s =>
    let f := sfAt s n
    let a := sfV f (sfVA w)
    let l := (List.range 32).map fun i => if bit (sfMask f w).toNat i then laneOf a.data i else ident
    let r := fin (tree g l)
    let s := countNan n (b2n (f32Nan r && !l.any f32Nan)) s
    sfResult n lat (.v (sfVD w)) (BitVec.allOnes 32) { vecAll r with sour := anySour a.sour } s) s

def execRsum (site : Nat) (w : W64) (s : State) : Out := sfReduce 0x40 .vec 1 8 0x80000000#32 fAdd id site w s
def execRmax (site : Nat) (w : W64) (s : State) : Out := sfReduce 0x41 .vec 1 8 0xFF800000#32 fMax id site w s
def execRmin (site : Nat) (w : W64) (s : State) : Out := sfReduce 0x42 .vec 1 8 0x7F800000#32 fMin id site w s
def execRrsum (site : Nat) (w : W64) (s : State) : Out := sfReduce 0x43 .tr 4 16 0x80000000#32 fAdd fRcpSum site w s

/-- PERM: lane i takes lane vb_i mod 32 of va. -/
def execPerm (site : Nat) (w : W64) (s : State) : Out :=
  sfUnit 0x48 .vec 1 site w (fun s =>
    let f := sfAt s site
    let a := sfV f (sfVA w)
    let b := sfB f w
    let r := ofLanes ((List.range 32).map fun i => laneOf a.data ((laneOf b.data i).toNat % 32))
    sfResult site 3 (.v (sfVD w)) (sfMask f w) { data := r, sour := anySour (a.sour ||| b.sour) } s) s

/-- BCAST: every lane takes lane IMM 4:0 of va. -/
def execBcast (site : Nat) (w : W64) (s : State) : Out :=
  sfUnit 0x49 .vec 1 site w (fun s =>
    let f := sfAt s site
    let a := sfV f (sfVA w)
    sfResult site 3 (.v (sfVD w)) (sfMask f w) { vecAll (laneOf a.data (bits w.toNat 4 0)) with sour := anySour a.sour } s) s

/-! ## Memory (R160, R169-R171) -/

/-- The address s[VB] + IMM, and whether it is a row of the SRAM. -/
def sfAddr (f : Sf) (w : W64) : Nat := (sfS f (sfVB w) + BitVec.ofNat 32 (sfImm w)).toNat
def sfRowOk (a : Nat) : Bool := decide (a % 128 = 0) && decide (a + 128 ≤ 65536)

/-- LDV; the row is read at t + 1 (DEDUCED, log 28). -/
def execLdv (site : Nat) (w : W64) (s : State) : Out :=
  sfUnit 0x50 .mem 1 site w (fun s =>
    let f := sfAt s site
    let a := sfAddr f w
    if !sfRowOk a then sfFault 0x4316 site s
    else sfDue site (s.now + 1) (some f.seq.pc) (.load a (s.now + 2) (sfVD w)) (sfResult site 3 (.v (sfVD w)) (sfMask f w) default s)) s

/-- STV: the row is written at t + 1. -/
def execStv (site : Nat) (w : W64) (s : State) : Out :=
  sfUnit 0x51 .mem 1 site w (fun s =>
    let f := sfAt s site
    let a := sfAddr f w
    let v := sfV f (sfVA w)
    if !sfRowOk a then sfFault 0x4316 site s
    else sfDue site (s.now + 1) (some f.seq.pc) (.row a { data := v.data, sour := v.sour }) s) s

/-- SEND: v[VA] enters the switch local input at t + 1. -/
def execSend (site : Nat) (w : W64) (s : State) : Out :=
  sfUnit 0x52 .mem 1 site w (fun s =>
    let v := sfV (sfAt s site) (sfVA w)
    inject site s.now { data := v.data, sour := v.sour } (excUp site 5 1 s)) s

/-! ## Hash and random numbers (R173, R174) -/

/-- HASH: H of the sixteen keys under s[VB]; BS must be 1. -/
def execHash (site : Nat) (w : W64) (s : State) : Out :=
  if !sfBS w then sfIssue 0x58 site w (sfReserved site) s
  else sfUnit 0x58 .hash 2 site w (fun s =>
    let f := sfAt s site
    let a := sfV f (sfVA w)
    let h := (List.range 16).map fun k => (hash64 (BitVec.ofNat 64 (a.data.toNat / 2 ^ (64 * k))) (sfS f (sfVB w))).toNat
    sfResult site 8 (.v (sfVD w)) (sfMask f w) { data := BitVec.ofNat 1024 (packCodes 64 h), sour := a.sour } s) s

/-- RNG: the low word of H(32 c + i, stream); with IMM bit 0 an FP32 value in [0, 1). -/
def rngWord (c stream : W32) (fp : Bool) (i : Nat) : W32 :=
  let x := (hash64 (BitVec.ofNat 64 (c.toNat * 32 + i)) stream).toNat % 2 ^ 32
  if fp then toF32 (.fin false (x / 256) (-24)) else BitVec.ofNat 32 x

def execRng (site : Nat) (w : W64) (s : State) : Out :=
  sfUnit 0x59 .hash 2 site w (fun s =>
    let f := sfAt s site
    let r := (List.range 32).map (rngWord (sfS f (sfVA w)) (sfS f (sfVB w)) (bit w.toNat 0))
    sfResult site 10 (.v (sfVD w)) (sfMask f w) { data := ofLanes r, sour := 0 } s) s

/-! ## Sort and top-k (R175, R176) -/

/-- The place of a key in the order: UINT32, or the FP32 total order with all NaNs equal and greatest. -/
def keyRank (uint : Bool) (x : W32) : Int :=
  if uint then x.toNat
  else if f32Nan x then 2 ^ 33
  else if 2 ^ 31 ≤ x.toNat then -((x.toNat - 2 ^ 31 : Nat) : Int) - 1
  else x.toNat

/-- Is (key, payload) a less than b? Payloads compare as unsigned integers (DEDUCED, log 28). -/
def pairLess (uint : Bool) (a b : W32 × W32) : Bool :=
  decide (keyRank uint a.1 < keyRank uint b.1) || (decide (keyRank uint a.1 = keyRank uint b.1) && decide (a.2.toNat < b.2.toNat))

/-- The pair lane i holds after one compare-exchange with partner i xor J. -/
def sortLane (uint : Bool) (j k : Nat) (a : Nat → W32 × W32) (i : Nat) : W32 × W32 :=
  let l := i ^^^ j
  let lo := min i l
  let hi := max i l
  let asc := decide (lo &&& k = 0)
  let swap := if asc then pairLess uint (a hi) (a lo) else pairLess uint (a lo) (a hi)
  if swap then a l else a i

/-- SORTCX. -/
def execSortcx (site : Nat) (w : W64) (s : State) : Out :=
  let j := bits w.toNat 4 0
  let kk := bits w.toNat 7 5
  if !([1, 2, 4, 8, 16].contains j) || !within 1 5 kk || decide (sfVD w % 2 = 1) then sfIssue 0x5A site w (sfReserved site) s
  else sfUnit 0x5A .vec 1 site w (fun s =>
    let f := sfAt s site
    let a := sfV f (sfVA w)
    let b := sfB f w
    let r := (List.range 32).map (sortLane (bit w.toNat 8) j (2 ^ kk) fun i => (laneOf a.data i, laneOf b.data i))
    let sour := anySour (a.sour ||| b.sour)
    let s := sfResult site 4 (.v (sfVD w)) (sfMask f w) { data := ofLanes (r.map Prod.fst), sour := sour } s
    sfResult site 4 (.v (sfVD w + 1)) (sfMask f w) { data := ofLanes (r.map Prod.snd), sour := sour } s) s

/-- The empty position. -/
def emptyPos : W32 × W32 := (0xFF800000#32, 0xFFFFFFFF#32)

/-- Write a list of 64 positions to v24-v27. -/
def topWrite (n lat : Nat) (l : List (W32 × W32)) (sour : Byte) (s : State) : State :=
  each [0, 1] (fun h s =>
    let half := (l.drop (32 * h)).take 32
    let s := sfResult n lat (.v (24 + h)) (BitVec.allOnes 32) { data := ofLanes (half.map Prod.fst), sour := sour } s
    sfResult n lat (.v (26 + h)) (BitVec.allOnes 32) { data := ofLanes (half.map Prod.snd), sour := sour } s) s

/-- TOPKI: every position empty. -/
def execTopki (site : Nat) (w : W64) (s : State) : Out :=
  sfUnit 0x5B .topk 1 site w (topWrite site 2 (List.replicate 64 emptyPos) 0) s

/-- Is pair a better than b, keys first, then the lower index? -/
def topBetter (uint small : Bool) (a b : W32 × W32) : Bool :=
  let x := keyRank uint a.1
  let y := keyRank uint b.1
  (if small then decide (x < y) else decide (y < x)) || (decide (x = y) && decide (a.2.toNat < b.2.toNat))

/-- Insert after everything that is not worse. -/
def topInsert (uint small : Bool) (x : W32 × W32) : List (W32 × W32) → List (W32 × W32)
  | [] => [x]
  | y :: r => if topBetter uint small x y then x :: y :: r else y :: topInsert uint small x r

/-- The positions of the list held in v24-v27. -/
def topList (f : Sf) : List (W32 × W32) :=
  [0, 1].flatMap fun h => (List.range 32).map fun i => (laneOf (sfV f (24 + h)).data i, laneOf (sfV f (26 + h)).data i)

/-- TOPK: the k best of the list's entries and the new pairs. -/
def execTopk (site : Nat) (w : W64) (s : State) : Out :=
  let k := bits w.toNat 6 0
  if !within 1 64 k then sfIssue 0x5C site w (sfReserved site) s
  else sfUnit 0x5C .topk 6 site w (fun s =>
    let f := sfAt s site
    let a := sfV f (sfVA w)
    let b := sfB f w
    let new := ((List.range 32).filter fun i => bit (sfMask f w).toNat i).map fun i => (laneOf a.data i, laneOf b.data i)
    let all := ((topList f).filter fun x => decide (x ≠ emptyPos)) ++ new.filter fun x => decide (x ≠ emptyPos)
    let best := (all.foldl (fun l x => topInsert (bit w.toNat 8) (bit w.toNat 9) x l) []).take k
    let sour := [24, 25, 26, 27].foldl (fun x r => x ||| (sfV f r).sour) (a.sour ||| b.sour)
    topWrite site 10 (best ++ List.replicate (64 - best.length) emptyPos) (anySour sour) s) s

/-! ## Ring deliveries (R158, R159) -/

/-- A flit delivered to an SF site is written into its ring. -/
def sfDeliver (n : Nat) (d : Deliv) (s : State) : State :=
  match d.tag.bind (ringTag 8) with
  | none => reportSite 0x4314 n s
  | some k =>
    let r := look default (sfAt s n).rings k
    if !rgEn r.desc then reportSite 0x4314 n s
    else if ringOcc r = rgLenM1 r.desc + 1 then reportSite 0x4313 n s
    else
      let a := 128 * (rgBase r.desc + r.wptr % 32768)
      sfDue n s.now none (.row a d.flit)
        (modSf n (fun f => { f with rings := put default f.rings k { r with wptr := ptrAdd (rgLenM1 r.desc + 1) r.wptr 1 } }) s)

/-- Take the head delivery of a site and hand it to its ring. -/
def ringDeliver (n : Nat) (f : Deliv → State → State) (s : State) : State :=
  match headDeliv s n with
  | none => s
  | some d =>
    let s := takeDeliv n d s
    if siteRuns s n then f d s else s

/-- RING_DELIVERY (R158): the flit at the head of the site's local deliveries is written into its ring in its ACLK. -/
def execRingDelivery (site : Nat) (s : State) : Out :=
  if kindOf site = .sf then onSite .sf site (ringDeliver site (sfDeliver site)) s
  else onSite .mx site (ringDeliver site (mxDeliver site)) s

end Sys2Proof.Machine
end

