-- ==== Sys2Proof/Machine/Checks.lean ====
section
/-! DEFINITION. The draft image (06): its header and records, and the checks of R190 that need no more than the image and
the device's registers. A check answers the index of the first failing word or entry. -/
namespace Sys2Proof.Machine

/-! ## Header (R187) -/

def dMagic (h : List Byte) : Nat := fld h 0 4
def dFormat (h : List Byte) : Nat := fld h 4 2
def dMember (h : List Byte) : Nat := fld h 6 1
def dGen (h : List Byte) : Nat := fld h 7 1
def dArea (h : List Byte) : Nat := fld h 8 2
def dFlags (h : List Byte) : Nat := fld h 10 2
def dRecords (h : List Byte) : Nat := fld h 12 4
def dId (h : List Byte) : Nat := fld h 16 8
def dLen (h : List Byte) : Nat := fld h 24 8
def dSteps (h : List Byte) : Nat := fld h 32 8
def dCommitV (h : List Byte) : Nat := fld h 40 2
def dFill (h : List Byte) : Nat := fld h 42 2
/-- Offset and payload length of the REPORT (0), SPARE (1) and SIG (2) records. -/
def dRef (h : List Byte) (i : Nat) : Nat × Nat := (fld h (0x70 + 16 * i) 8, fld h (0x78 + 16 * i) 8)

/-- The header rules of check 1 (R187, R190) but for the digest and the location. -/
def headerOk (h : List Byte) : Bool :=
  decide (dMagic h = 0x46524458) && decide (dFormat h = 1) && decide (dGen h = 1) && decide (dFlags h < 4)
  && decide (fld h 0x2C 4 = 0) && (sub h 0xA0 96).all (· == 0)
  && decide (1 ≤ dSteps h) && within 1 4095 (dCommitV h) && decide (dFill h ≤ 1024)
  && decide (dRef h 0 ≠ (0, 0)) && (bit (dFlags h) 0 == decide (dRef h 2 ≠ (0, 0)))
  && decide (dLen h % 16 = 0) && decide (256 ≤ dLen h)

/-! ## Records (R188) -/

/-- The records of an image from offset o on; none where they do not end at its end. -/
def recsFrom : Nat → Nat → List Byte → Option (List Rec)
  | 0, _, rest => if rest.isEmpty then some [] else none
  | f + 1, o, rest =>
    if rest.isEmpty then some []
    else
      let len := fld rest 8 4
      let next := 16 + (len + 15) / 16 * 16
      if rest.length < next then none
      else (recsFrom f (o + next) (rest.drop next)).map fun l =>
        { off := o, type := fld rest 0 1, banksel := fld rest 1 1, target := fld rest 4 4, crc := fld rest 12 4,
          data := (rest.drop 16).take len } :: l

/-- The records of an image. -/
def imageRecs (img : List Byte) : Option (List Rec) := recsFrom img.length 0x100 (img.drop 0x100)

/-- The target of a record as a site, an attachment, or the area. -/
inductive Target where
  | site (n : Nat)
  | att (a : Nat)
  | area
  | bad
deriving DecidableEq, Repr

def Rec.tgt (r : Rec) : Target :=
  let k := r.target / 2 ^ 28
  let x := r.target % 2 ^ 28
  if k = 0 ∧ x < 2 ^ 18 then .site x
  else if k = 1 ∧ x ≤ 64 then .att x
  else if k = 2 ∧ x = 0 then .area
  else .bad

/-- Is the payload of a whole number of words from 1 to n? -/
def wordsOk (n len : Nat) : Bool := decide (len % 8 = 0) && within 8 (8 * n) len

/-- The end of the entry tables of a PORTPLAN (R282). -/
def planSize (d : List Byte) : Nat :=
  (List.range (fld d 3 1)).foldl (fun n i => max n (fld d (20 + 8 * i) 4 + 8 * fld d (18 + 8 * i) 2)) (16 + 8 * fld d 3 1)

/-- The end of the entries and patches of a SPARES payload (R209); a payload shorter than its entries has no such end. -/
def sparesSize (d : List Byte) : Nat :=
  let n := 4 + 16 * fld d 0 4
  if d.length < n then n
  else (List.range (fld d 0 4)).foldl (fun m i => max m (fld d (8 + 16 * i) 4 + fld d (12 + 16 * i) 4)) n

/-- TYPE, target kind, BANKSEL and LENGTH of a record: the size the type fixes, or that its own counts give (R188, R189). -/
def recShapeOk (m : Nat) (r : Rec) : Bool :=
  let len := r.data.length
  let b0 := decide (r.banksel = 0)
  match r.tgt with
  | .bad => false
  | .site n =>
    sitePresent m n && (
    if r.type = 1 then decide (r.banksel ≤ 4) && decide (len = 2304)
    else if r.type = 2 then b0 && decide (kindOf n = .mm) && decide (len = 2304)
    else if r.type = 3 then b0 && decide (kindOf n = .mx) && wordsOk 256 len
    else if r.type = 4 then b0 && decide (kindOf n = .sf) && wordsOk 1024 len
    else if r.type = 5 then b0 && decide (kindOf n = .su) && wordsOk 512 len
    else if r.type = 6 then decide (kindOf n = .su) && decide (r.banksel < 16) && decide (r.banksel ≠ 10) && decide (len = 2048)
    else if r.type = 7 then b0 && decide (kindOf n = .mm) && decide (len = 128)
    else if r.type = 8 then b0 && ((decide (kindOf n = .mx) && decide (len = 128)) || (decide (kindOf n = .sf) && decide (len = 64)))
    else if r.type = 9 then b0 && decide (kindOf n ≠ .su)
    else false)
  | .att a =>
    attPresent m a && b0 && (
    if r.type = 0x0A then true
    else if r.type = 0x0B then decide (a < 32) && decide (len = 16 + 40 * fld r.data 0 2)
    else if r.type = 0x0C then decide (32 ≤ a) && decide (a < 64) && decide (len = planSize r.data)
    else false)
  | .area =>
    b0 && (
    if r.type = 0x0D then decide (len = 16 + 16 * (fld r.data 0 4 + fld r.data 4 4))
    else if r.type = 0x0E then decide (len % 8 = 0)
    else if r.type = 0x0F then decide (len = 16 + 16 * fld r.data 10 2)
    else if r.type = 0x11 then decide (len = sparesSize r.data)
    else decide (r.type = 0x10) || decide (r.type = 0x12))

/-- Does a record's target lie in the area of a word? -/
def recInArea (w : Nat) (r : Rec) : Bool :=
  match r.tgt with
  | .site n => wHasSite w n
  | .att a => wHasAtt w a
  | .area => true
  | .bad => false

/-- Is a record the one a header reference names (R187)? -/
def refOk (l : List Rec) (type : Nat) (ref : Nat × Nat) : Bool :=
  if ref = (0, 0) then !(l.any fun r => r.type == type)
  else (l.filter fun r => r.type == type).map (fun r => (r.off, r.data.length)) == [ref]

/-- Check 6 (R188, R190): the record sequence, headers, CRCs and targets. -/
def recsOk (m w : Nat) (h : List Byte) (l : List Rec) : Bool :=
  decide (l.length = dRecords h) && l.all (fun r => recShapeOk m r && recInArea w r && decide (crc32c r.data = r.crc))
  && ((List.range l.length).all fun i => (List.range i).all fun j =>
      let x := l.getD i { off := 0, type := 0, banksel := 0, target := 0, crc := 0, data := [] }
      let y := l.getD j { off := 0, type := 0, banksel := 0, target := 0, crc := 0, data := [] }
      x.type == 0x0F || !(x.type == y.type && x.target == y.target && x.banksel == y.banksel))
  && refOk l 0x10 (dRef h 0) && refOk l 0x11 (dRef h 1) && refOk l 0x12 (dRef h 2)
  && (dRef h 2 == (0, 0) || (l.getLast?.map Rec.type) == some 0x12)

/-! ## Entries of payloads -/

def e16 (d : List Byte) (i : Nat) : Nat := fld d (2 * i) 2
def pdOf (d : List Byte) (i : Nat) : Nat := fld d (2048 + 4 * i) 4
def w64At (d : List Byte) (i : Nat) : W64 := BitVec.ofNat 64 (fld d (8 * i) 8)
def words (d : List Byte) : List W64 := (List.range (d.length / 8)).map (w64At d)

/-- The first index below n that fails. -/
def firstBad (n : Nat) (ok : Nat → Bool) : Option Nat := (List.range n).find? fun i => !ok i

/-- A page descriptor within its bank (R87). -/
def pdOk (d : Nat) : Bool := decide (d < 2 ^ 21) && decide (pdBase d + pdPeriod d ≤ 1024)

/-- The valid pages of a WEAVE payload that hold entry i. -/
def pagesOf (d : List Byte) (i : Nat) : List Nat :=
  ((List.range 64).map (pdOf d)).filter fun x => pdValid x && decide (pdBase x ≤ i) && decide (i < pdBase x + pdPeriod x)

/-- The rules of R85 for entry i of port p of site n. -/
def weaveOk (s : State) (n p : Nat) (d : List Byte) (i : Nat) : Bool :=
  let e := e16 d i
  let pages := pagesOf d i
  let src := fun x => decide (x ≤ 4) && decide (x ≠ p)
  pages.isEmpty ||
  (decide (e % 8 = 0)
   && (if weKind e = 0 then !weTok e && decide (weSrcB e = 0) && decide (weRop e = 0)
       else if weKind e = 1 then src (weSrcA e) && decide (weSrcB e = 0) && decide (weRop e = 0)
       else if weKind e = 2 then src (weSrcA e) && src (weSrcB e) && decide (weSrcA e ≠ weSrcB e) && decide (weRop e ≤ 5)
       else false)
   && (decide (weKind e = 0) || !(heldIdle s n p))
   && !(weTok e && decide (p = 4) && decide (posOf n = 10))
   && (decide (weKind e ≠ 1) || pages.all fun x =>
        decide (weKind (e16 d (pdBase x + (i - pdBase x + pdPeriod x - 1) % pdPeriod x)) ≠ 2)))

/-- WEAVE (R85, R87). -/
def checkWeave (s : State) (n p : Nat) (d : List Byte) : Option Nat :=
  firstBad 1088 fun i => if i < 1024 then weaveOk s n p d i else pdOk (pdOf d (i - 1024))

/-- PULL (R87, R118): the creels are those of the draft's CREELS record of the site. -/
def checkPull (creels : List W64) (d : List Byte) : Option Nat :=
  let on := fun c => decide (crMode (creels.getD c 0) ≠ 0)
  firstBad 1088 fun i =>
    if i < 1024 then
      let e := e16 d i
      decide (e % 16 = 0) && decide (bits e 15 14 ≠ 3)
      && (decide (bits e 15 14 ≠ 2) || decide (bits e 13 4 = 0))
      && (decide (bits e 15 14 ≠ 1) || ((!bit e 5 || on (bits e 13 10)) && (!bit e 4 || on (bits e 9 6))))
    else pdOk (pdOf d (i - 1024))

/-! ## Program words (R153) -/

/-- Does a word hold nothing outside its opcode and the fields listed? -/
def onlyFields (w : W64) (l : List (Nat × Nat)) : Bool :=
  decide (w.toNat = wOp w * 2 ^ 56 + l.foldl (fun a f => a + bits w.toNat f.1 f.2 * 2 ^ f.2) 0)

/-- The fields of an MX opcode (R164, R228, R237, R238). -/
def mxFields (op : Nat) : Option (List (Nat × Nat)) :=
  if op = 0x00 ∨ op = 0x01 then some []
  else if op = 0x02 then some [(31, 0)]
  else if op = 0x03 then some [(34, 0)]
  else if op = 0x04 then some [(23, 0)]
  else if op = 0x05 ∨ op = 0x08 ∨ op = 0x0A then some [(31, 0)]
  else if op = 0x06 ∨ op = 0x07 then some [(42, 40), (17, 0)]
  else if op = 0x09 then some [(43, 40), (10, 0)]
  else if op = 0x10 then some [(42, 40), (15, 4), (2, 0)]
  else if op = 0x11 then some [(42, 40), (6, 4), (2, 0)]
  else if op = 0x12 then some [(42, 40), (14, 8), (6, 0)]
  else if op = 0x13 then some [(13, 8), (5, 0)]
  else if op = 0x14 then some [(42, 40)]
  else if op = 0x20 then some [(51, 44), (42, 40), (31, 16), (13, 8), (5, 0)]
  else if op = 0x21 then some [(42, 40), (31, 16), (9, 8)]
  else if op = 0x22 then some [(42, 40), (8, 8)]
  else if op = 0x23 then some [(42, 40), (31, 16), (9, 8)]
  else if op = 0x24 then some [(43, 40), (34, 32), (13, 0)]
  else none

/-- The mode word of the last SETM before word i in word order (R166). -/
def lastMode (p : List W64) (i : Nat) : Option W32 :=
  ((p.take i).reverse.find? fun w => wOp w == 5).map fun w => BitVec.ofNat 32 w.toNat

/-- The load rules of a MAC under a mode word (R166, R218). -/
def macLoadOk (w : W64) (m : W32) : Bool :=
  let b := bits w.toNat 13 8 + bits w.toNat 5 0 + 1
  decide (b ≤ laneBlocks m) && (!(mSCS m || mCHK m) || decide (b ≤ 64)) && (decide (cpb2 m ≠ 1) || decide ((bits w.toNat 5 0 + 1) % 2 = 0))

/-- A loop at word i of a program of n words. -/
def loopOk (i n last : Nat) : Bool := decide (i < last) && decide (last < n)

/-- Word i of an MX program (R153, R163, R166, R228). -/
def mxWordOk (p : List W64) (i : Nat) : Bool :=
  let w := p.getD i 0
  match mxFields (wOp w) with
  | none => false
  | some f => onlyFields w f && (
    if wOp w = 0x04 then loopOk i p.length (bits w.toNat 7 0)
    else if wOp w = 0x05 then modeOk (BitVec.ofNat 32 w.toNat)
    else if wOp w = 0x20 then
      decide (bits w.toNat 31 24 + bits w.toNat 23 16 + 1 ≤ 256) && (match lastMode p i with | some m => macLoadOk w m | none => true)
    else if wOp w = 0x23 then decide (bits w.toNat 9 8 ≤ 1)
    else if wOp w = 0x24 then
      decide (bits w.toNat 34 32 ≤ 4) && (match lastMode p i with | some m => spModeOk m | none => true)
    else true)

/-- The fields of an SF opcode (R169, R170); the predicate counts as a field of every masked result (DEDUCED, log 28). -/
def sfFields (op : Nat) : Option (List (Nat × Nat)) :=
  if op = 0x00 ∨ op = 0x01 then some []
  else if op = 0x02 then some [(31, 0)]
  else if op = 0x03 then some [(35, 33), (31, 0)]
  else if op = 0x04 then some [(25, 0)]
  else if op = 0x05 then some [(9, 0)]
  else if op = 0x06 ∨ op = 0x07 then some [(50, 46), (9, 0)]
  else if op = 0x08 then some [(55, 51), (31, 0)]
  else if op = 0x09 then some [(55, 41), (32, 0)]
  else if op = 0x0A then some [(55, 46), (4, 0)]
  else if op = 0x0B then some [(55, 51)]
  else if op = 0x13 then some [(55, 32)]
  else if within 0x10 0x15 op ∨ within 0x18 0x21 op ∨ op = 0x23 then some [(55, 41), (35, 32)]
  else if op = 0x16 ∨ op = 0x22 then some [(55, 41), (35, 32), (2, 0)]
  else if op = 0x28 then some [(55, 46), (35, 33), (10, 0)]
  else if op = 0x29 then some [(55, 46), (40, 33), (3, 0)]
  else if op = 0x32 then some [(55, 41), (35, 32)]
  else if within 0x30 0x3B op ∨ within 0x40 0x43 op then some [(55, 46), (35, 33)]
  else if op = 0x48 then some [(55, 41), (35, 32)]
  else if op = 0x49 then some [(55, 46), (35, 33), (4, 0)]
  else if op = 0x50 then some [(55, 51), (45, 41), (35, 33), (31, 0)]
  else if op = 0x51 then some [(50, 41), (31, 0)]
  else if op = 0x52 then some [(50, 46)]
  else if op = 0x58 then some [(55, 41), (35, 32)]
  else if op = 0x59 then some [(55, 41), (35, 33), (0, 0)]
  else if op = 0x5A then some [(55, 41), (35, 32), (8, 0)]
  else if op = 0x5B then some []
  else if op = 0x5C then some [(50, 41), (35, 32), (9, 8), (6, 0)]
  else none

/-- Word i of an SF program. -/
def sfWordOk (p : List W64) (i : Nat) : Bool :=
  let w := p.getD i 0
  let op := wOp w
  match sfFields op with
  | none => false
  | some f => onlyFields w f && (
    if op = 0x04 then loopOk i p.length (bits w.toNat 9 0)
    else if within 0x05 0x07 op then decide (bits w.toNat 9 0 < p.length)
    else if op = 0x16 then decide (bits w.toNat 2 0 ≤ 4)
    else if op = 0x22 then decide (bits w.toNat 2 0 ≤ 3)
    else if op = 0x28 then decide (bits w.toNat 3 0 ≤ 11) && decide (bits w.toNat 7 4 ≤ 11) && decide (bits w.toNat 9 8 ≠ 3)
    else if op = 0x29 then isMxOut (bits w.toNat 3 0)
    else if op = 0x58 then sfBS w
    else if op = 0x5A then [1, 2, 4, 8, 16].contains (bits w.toNat 4 0) && within 1 5 (bits w.toNat 7 5) && decide (sfVD w % 2 = 0)
    else if op = 0x5C then within 1 64 (bits w.toNat 6 0)
    else true)

/-- The fields of an SU opcode (R178). -/
def suFields (op : Nat) : Option (List (Nat × Nat)) :=
  if op = 0x00 then some []
  else if op = 0x02 ∨ op = 0x07 then some [(31, 0)]
  else if op = 0x03 then some [(47, 32)]
  else if op = 0x04 then some [(24, 0)]
  else if op = 0x05 then some [(8, 0)]
  else if op = 0x06 then some [(34, 0)]
  else if op = 0x10 then some [(47, 32), (25, 0)]
  else if op = 0x11 then some [(47, 32), (5, 0)]
  else if op = 0x12 then some [(47, 32), (7, 0)]
  else if op = 0x18 then some [(31, 16), (8, 0)]
  else if op = 0x19 then some [(25, 16), (9, 8), (6, 0)]
  else if op = 0x20 then some [(55, 8)]
  else if op = 0x28 then some [(9, 0)]
  else none

/-- Does an attachment have an edge site in a heddle? -/
def attAtHeddle (m a h : Nat) : Bool := attPresent m a && (attHeddles a).contains h

/-- The attachment a SAMP of KIND 1 names in heddle h (R185). -/
def sampAtt (m h site : Nat) : Option Nat :=
  let edge := site % 4
  let hub := bit site 2
  if bit site 3 || (hub && !(decide (edge = 2) && decide (h = 0))) then none
  else if hub then some 64
  else
    let n := siteOf h 0
    let x := if edge = 0 then attOf m n 0 else if edge = 1 then attOf m (siteOf h 12) 2 else if edge = 2 then attOf m n 3 else attOf m (siteOf h 3) 1
    x.map Prod.fst

/-- Where a GO may start a site: its program's length in the draft. -/
def goOk (l : List Rec) (h addr pos : Nat) : Bool :=
  let n := siteOf h pos
  let ty := if kindOfPos pos = .mx then 3 else 4
  match l.find? fun r => r.type == ty && r.target == n with
  | some r => decide (8 * addr < r.data.length)
  | none => false

/-- The GO mask's sites (R179): positions of the MX and SF types. -/
def goMaskOk (m : Nat) : Bool := (List.range 16).all fun p => !(bit m p) || decide (kindOfPos p = .mx) || decide (kindOfPos p = .sf)

/-- Word i of the SU program of heddle h in a draft of records l (R153, R179, R189). -/
def suWordOk (s : State) (h : Nat) (l : List Rec) (p : List W64) (i : Nat) : Bool :=
  let w := p.getD i 0
  let op := wOp w
  match suFields op with
  | none => false
  | some f => onlyFields w f && (decide (i ≠ 0) || decide (op = 0x20)) && (
    if op = 0x04 then loopOk i p.length (bits w.toNat 8 0)
    else if op = 0x05 then decide (bits w.toNat 8 0 < p.length)
    else if op = 0x10 then
      goMaskOk (bits w.toNat 15 0) && (List.range 16).all fun q => !(bit w.toNat q) || goOk l h (bits w.toNat 25 16) q
    else if op = 0x12 then decide (bits w.toNat 6 4 ≤ 4)
    else if op = 0x18 then decide (kindOfPos (bits w.toNat 3 0) = .mm) && !(siteFenced s (siteOf h (bits w.toNat 3 0)))
    else if op = 0x19 then attAtHeddle s.member (bits w.toNat 6 0) h
    else if op = 0x28 then
      if bits w.toNat 9 8 = 0 then decide (kindOfPos (bits w.toNat 3 0) = .mm)
      else if bits w.toNat 9 8 = 1 then (sampAtt s.member h (bits w.toNat 3 0)).isSome
      else decide (bits w.toNat 9 8 = 2)
    else true)

/-! ## Attachment and area records -/

/-- STACKPLAN (R259). -/
def checkStackPlan (d : List Byte) : Option Nat :=
  if 8 < fld d 0 2 ∨ (sub d 2 14).any (· != 0) then some 0
  else firstBad (fld d 0 2) fun i =>
    let o := 16 + 40 * i
    within 1 32 (fld d (o + 1) 1) && (sub d (o + 2) 6).all (· == 0)
    && ((List.range 32).all fun j => decide (fld d (o + 8 + j) 1 ≤ 45) && (decide (j < fld d (o + 1) 1) || decide (fld d (o + 8 + j) 1 = 0)))
    && (List.range i).all fun j => decide (fld d (16 + 40 * j) 1 ≠ fld d o 1)

/-- Fields of a PORTPLAN (R282). -/
def ppBond (d : List Byte) : Nat := 2 ^ (fld d 0 1 % 4)
def ppRelease (d : List Byte) : Nat := fld d 1 1
def ppRotph (d : List Byte) : Nat := fld d 2 1
def ppNcls (d : List Byte) : Nat := fld d 3 1
def ppPeerDev (d : List Byte) : Nat := bits (fld d 4 2) 11 0
def ppPeerPort (d : List Byte) : Nat := fld d 6 1
/-- CLASS, NENT and entry offset of class descriptor i. -/
def ppClass (d : List Byte) (i : Nat) : Nat × Nat × Nat := (fld d (16 + 8 * i) 2, fld d (18 + 8 * i) 2, fld d (20 + 8 * i) 4)

/-- The first member of a port's bonded group. -/
def bondFirst (p bond : Nat) : Nat := p / bond * bond

/-- The step classes of a draft: its CLASSES section (R211, log 16). -/
def sections : Nat → List Byte → List (Nat × List Byte)
  | 0, _ => []
  | f + 1, d =>
    if d.length < 8 then [] else
      (fld d 0 2, (d.drop 8).take (fld d 4 4)) :: sections f (d.drop (8 + (fld d 4 4 + 7) / 8 * 8))

/-- The section with a tag of a list of records' static report. -/
def reportSection (l : List Rec) (tag : Nat) : Option (List Byte) :=
  match l.find? fun r => r.type == 0x10 with
  | some r => ((sections r.data.length r.data).find? fun x => x.1 == tag).map Prod.snd
  | none => none

/-- Opening JOIN address, LEN, D, barrier page of each class. -/
def classesIn (l : List Rec) : List (Nat × Nat × Nat × Nat) :=
  match reportSection l 2 with
  | some d => Config.classesOf d
  | none => []

/-- PORTPLAN (R282, R283). -/
def checkPortPlan (s : State) (p : Nat) (l : List Rec) (d : List Byte) : Option Nat :=
  let bond := ppBond d
  let g := bondFirst p bond
  let peers := l.filter fun r => r.type == 0x0C && (List.range bond).any fun i => r.target == attTarget (32 + g + i)
  if !(decide (fld d 0 1 < 4) && decide (1 ≤ ppRelease d) && decide (ppRotph d ≤ 31) && decide (ppNcls d ≤ 16)
      && (decide (p = g) || decide (ppNcls d = 0)) && decide (fld d 4 2 < 4096) && decide (ppPeerPort d ≤ 31) && (sub d 7 9).all (· == 0)) then some 0
  else if 8 * (ppRelease d - 1) < (shtAt s p).lat then some 0
  else if peers.length ≠ bond ∨ peers.any (fun r => decide (ppRelease r.data ≠ ppRelease d)) then some 0
  else (firstBad (ppNcls d) fun i =>
    let c := ppClass d i
    decide (c.1 < (classesIn l).length) && within 1 4096 c.2.1 && decide (c.2.2 + 8 * c.2.1 ≤ d.length)
    && (List.range c.2.1).all fun j => decide (fld d (c.2.2 + 8 * j) 8 < 2 ^ 42))

/-- POWER (R388): a LEN is that of the class. -/
def checkPower (w m : Nat) (l : List Rec) (d : List Byte) : Option Nat :=
  let cls := classesIn l
  let nsb := fld d 0 4
  let nsl := fld d 4 4
  if 65536 < nsb ∨ 65536 < nsl ∨ (sub d 8 8).any (· != 0) then some 0
  else firstBad (nsb + nsl) fun i =>
    let o := 16 + 16 * i
    decide (fld d o 2 < cls.length) &&
    (if i < nsb then
      decide (fld d (o + 2) 4 < (cls.getD (fld d o 2) default).2.1) && decide (fld d (o + 6) 4 < 2 ^ 18)
      && sitePresent m (fld d (o + 6) 4) && wHasSite w (fld d (o + 6) 4) && decide (kindOf (fld d (o + 6) 4) = .mm)
      && decide (fld d (o + 10) 1 < 4) && decide (fld d (o + 11) 1 < 3) && (sub d (o + 12) 4).all (· == 0)
    else
      decide (fld d (o + 2) 1 < 64) && decide (fld d (o + 3) 1 < numRegions m) && wCovers w (fld d (o + 3) 1)
      && decide (fld d (o + 4) 1 ≤ 15) && decide (fld d (o + 5) 1 = 0) && (sub d (o + 8) 8).all (· == 0)
      && (List.range (i - nsb)).all fun j => decide (fld d (16 + 16 * (nsb + j)) 4 ≠ fld d o 4))

/-- The lengths of every step of a draft: the LEN of the JOINs but those at word 0 (R206). -/
def joinLens (l : List Rec) : List Nat :=
  (l.filter fun r => r.type == 5).flatMap fun r => ((words r.data).drop 1).filterMap fun w =>
    if wOp w = 0x20 then some (bits w.toNat 55 32) else none

/-- SHADOW (R206). -/
def checkShadow (l : List Rec) (d : List Byte) : Option Nat :=
  firstBad (d.length / 8) fun i =>
    decide (fld d (8 * i + 2) 2 = 0) && decide (fld d (8 * i) 2 < 2 ^ 12) && (joinLens l).all fun n => decide (fld d (8 * i + 4) 4 < n)

/-- Rows of a fallback page (R324). -/
def fbRows (rsz fbcap : Nat) : Nat := 1 + 2 * rsz * fbcap

/-- The creel of a site in a draft's CREELS record. -/
def draftCreel (l : List Rec) (n c : Nat) : W64 :=
  match l.find? fun r => r.type == 7 && r.target == n with
  | some r => w64At r.data c
  | none => 0

/-- Does the site have a DMA lane from an attachment in the draft (R129)? -/
def draftLane (l : List Rec) (a n : Nat) : Bool :=
  match l.find? fun r => r.type == 0x0A && r.target == attTarget a with
  | some r => (match Config.edgeOf r.data with | some e => e.lanes.any fun x => x.site == n | none => false)
  | none => false

/-- BUCKETS (R325); EXID distinct within the draft. -/
def checkBuckets (w : Nat) (l : List Rec) (off : Nat) (d : List Byte) : Option Nat :=
  let rsz := fld d 2 1
  let fbcap := fld d 8 2
  let p := fbRows rsz fbcap
  if !(within 1 64 rsz && within 1 16 (fld d 3 1) && decide (fld d 4 2 ≤ 4095) && decide (fld d 6 2 ≤ 4095) && decide (fbcap ≤ 255)
      && within 1 511 (fld d 10 2) && decide (fld d 12 4 = 0)
      && !(l.any fun r => r.type == 0x0F && decide (r.off < off) && decide (fld r.data 0 2 = fld d 0 2))) then some 0
  else firstBad (fld d 10 2) fun i =>
    let o := 16 + 16 * i
    let port := fld d (o + 2) 1
    let npg := fld d (o + 3) 1
    let out := fld d (o + 4) 4
    let inn := fld d (o + 8) 4
    let siteIn := fun x => decide (bits x 31 24 = 0) && decide (bits x 19 18 = 0) && wHasSite w (bits x 17 0) && decide (kindOf (bits x 17 0) = .mm)
      && draftLane l (32 + port) (bits x 17 0)
    decide (fld d o 2 < 4096) && decide (port < 32) && decide (fld d (o + 12) 4 = 0) &&
    (if fbcap = 0 then decide (npg = 0) && decide (out = 0) && decide (inn = 0)
     else
      let co := draftCreel l (bits out 17 0) (bits out 23 20)
      let ci := draftCreel l (bits inn 17 0) (bits inn 23 20)
      within 1 16 npg && wHasAtt w (32 + port) && siteIn out && siteIn inn
      && decide (crMode co = 3) && crHostRd co && decide (crPadv co = 4) && decide ((crLenM1 co + 1) % p = 0)
      && decide (crMode ci = 2) && decide (crPadv ci = 4) && decide (npg * p ≤ crLenM1 ci + 1))

/-- REPORT (R190, R211): no section runs past the end. The index is the section's offset. -/
def checkReport : Nat → Nat → List Byte → Option Nat
  | 0, _, _ => none
  | f + 1, o, d =>
    if d.isEmpty then none
    else if d.length < 8 ∨ d.length < 8 + fld d 4 4 then some o
    else checkReport f (o + 8 + (fld d 4 4 + 7) / 8 * 8) (d.drop (8 + (fld d 4 4 + 7) / 8 * 8))

/-- Fields of spare entry i (R209): heddle, position, SWITCH, POFF, PLEN. -/
def spHeddle (d : List Byte) (i : Nat) : Nat := fld d (4 + 16 * i) 2
def spPos (d : List Byte) (i : Nat) : Nat := fld d (6 + 16 * i) 1
def spSwitch (d : List Byte) (i : Nat) : Nat := fld d (7 + 16 * i) 1
def spOff (d : List Byte) (i : Nat) : Nat := fld d (8 + 16 * i) 4
def spLen (d : List Byte) (i : Nat) : Nat := fld d (12 + 16 * i) 4
/-- Do entry i and its patch lie within the payload, the patch after the entries (R209)? -/
def spWithin (d : List Byte) (i : Nat) : Bool :=
  decide (4 + 16 * i + 16 ≤ d.length) && decide (4 + 16 * fld d 0 4 ≤ spOff d i) && decide (spOff d i + spLen d i ≤ d.length)
/-- The records of the patch of entry i, with their offsets in the image where the record's header stands at `off`. -/
def spPatch (off : Nat) (d : List Byte) (i : Nat) : Option (List Rec) :=
  if spWithin d i then recsFrom d.length (off + 16 + spOff d i) ((d.drop (spOff d i)).take (spLen d i)) else none

/-- Does entry i lie in order, its patch in its payload and its heddle (R209)? -/
def spareOk (m w : Nat) (d : List Byte) (i : Nat) : Bool :=
  decide (spPos d i < 16) && decide (spSwitch d i ≤ 1) && decide (fld d (16 + 16 * i) 4 = 0)
  && (decide (i = 0) || decide (spHeddle d (i - 1) * 16 + spPos d (i - 1) < spHeddle d i * 16 + spPos d i))
  && (match spPatch 0 d i with
    | none => false
    | some l => l.all fun r => recShapeOk m r && recInArea w r && decide (crc32c r.data = r.crc) &&
        (match r.tgt with | .site n => decide (heddleOf n = spHeddle d i) | _ => false))

/-- SPARES (R209). -/
def checkSpares (m w : Nat) (d : List Byte) : Option Nat := firstBad (min (fld d 0 4) (d.length + 1)) (spareOk m w d)

/-- EDGE: its layout, and S within a queue (R100). -/
def checkEdge (d : List Byte) : Option Nat :=
  match Config.edgeOf d with
  | some e => if e.sIn ≤ 256 ∧ e.sOut ≤ 256 then none else some 0
  | none => some 0

/-- The words of a RINGS payload, its pointer and reserved fields zero (R158, R189, R492). -/
def checkRings (rows : Nat) (d : List Byte) : Option Nat :=
  match firstBad (d.length / 8) fun i => decide (bits (w64At d i).toNat 40 0 = 0) with
  | some i => some i
  | none => firstBad (d.length / 8) fun i => ringSetOk rows ((words d).take (i + 1))

/-- Check 7 for one record of a draft of records l (R190). -/
def checkRec (s : State) (w : Nat) (l : List Rec) (r : Rec) : Option Nat :=
  let d := r.data
  match r.tgt with
  | .site n =>
    if r.type = 1 then checkWeave s n r.banksel d
    else if r.type = 2 then checkPull ((List.range 16).map (draftCreel l n)) d
    else if r.type = 3 then firstBad (d.length / 8) (mxWordOk (words d))
    else if r.type = 4 then firstBad (d.length / 8) (sfWordOk (words d))
    else if r.type = 5 then firstBad (d.length / 8) (suWordOk s (heddleOf n) l (words d))
    else if r.type = 6 then firstBad 1024 fun i => decide (e16 d i < 4096)
    else if r.type = 7 then
      (match firstBad 16 fun i => creelFieldsOk (w64At d i) with
       | some i => some i
       | none => firstBad 16 fun i => creelSetOk ((words d).take (i + 1)))
    else if r.type = 8 then checkRings (if kindOf n = .mx then 1536 else 512) d
    else if (Config.initOf d).isSome then none else some 0
  | .att a =>
    if r.type = 0x0A then checkEdge d
    else if r.type = 0x0B then checkStackPlan d
    else checkPortPlan s (a - 32) l d
  | .area =>
    if r.type = 0x0D then checkPower w s.member l d
    else if r.type = 0x0E then checkShadow l d
    else if r.type = 0x0F then checkBuckets w l r.off d
    else if r.type = 0x10 then checkReport d.length 0 d
    else if r.type = 0x11 then checkSpares s.member w d
    else none
  | .bad => none

/-- The first record that fails check 7: its offset and the failing index. -/
def checkRecs (s : State) (w : Nat) (l : List Rec) : Option (Nat × Nat) :=
  l.findSome? fun r => (checkRec s w l r).map fun i => (r.off, i)

/-! ## Signature (R474) and fences (R210, R426) -/

/-- The owner key hash of SEC_OWNER_w. -/
def ownerHash (s : State) : List Byte := s.sec.owner.flatMap fun t => leBytes 4 t.val
def ownerEnrolled (s : State) : Bool := (ownerHash s).any (· != 0)

/-- Check 2. -/
def signatureOk (s : State) (img : List Byte) : Bool :=
  let signed := bit (dFlags img) 0
  let ref := dRef img 2
  let pay := sub img (ref.1 + 16) ref.2
  let key := pay.take 60
  let msg := (img.take 0x50) ++ List.replicate 32 0 ++ (sub img 0x70 0x90) ++ ((img.take ref.1).drop 0x100)
  let good := decide (ref.1 + 16 + ref.2 ≤ img.length) && decide (64 ≤ ref.2) && (sub pay 60 4).all (· == 0) && Config.hssVerify true key msg (pay.drop 64)
  if ownerEnrolled s then signed && good && decide (sha256 key = ownerHash s)
  else !signed || good

/-- A channel's entry of the fence map (R424). -/
def chanEntry (s : State) (k c : Nat) : Nat := look 0 s.fence.chans (32 * k + c)

/-- The fence digest of an area word, with the entries of the sites listed taken as in service but for their links (R210, R426). -/
def fenceDigest (s : State) (w : Nat) (spared : List Nat) : List Byte :=
  let sites := (List.range (512 * 448)).filter fun n => sitePresent s.member n && wHasSite w n
  let entry := fun n => let e := look 0 s.fence.sites n
    if spared.contains n then bits e 11 8 * 256 else bits e 15 13 * 2 ^ 13 + bits e 11 8 * 256
  let stks := (List.range 32).filter fun k => stackPresent s.member k && wHasAtt w k
  sha256 ((sites.flatMap fun n => leBytes 2 (entry n))
    ++ (((wRegions w).filter (· < numRegions s.member)).flatMap fun r => leBytes 1 (look 0 s.fence.regions r))
    ++ (stks.flatMap fun k => (List.range 32).flatMap fun c => leBytes 1 (chanEntry s k c)))

/-- The spare entries that fenced sites of the area match (R210 step 1). -/
def spareMatches (s : State) (w : Nat) (d : List Byte) : List Nat :=
  (List.range (min (fld d 0 4) d.length)).filter fun i =>
    let n := siteOf (spHeddle d i) (spPos d i)
    let e := look 0 s.fence.sites n
    wHasSite w n && bit e 15 && decide (b2n (bit e 14) + spSwitch d i = 1)

/-- The SPARES record that the header of an image names, if its record header and CRC are valid and its entries and patches lie within its
payload (R190). -/
def coverRec (m : Nat) (img : List Byte) : Option Rec :=
  let o := (dRef img 1).1
  let len := fld img (o + 8) 4
  let r : Rec := { off := o, type := fld img o 1, banksel := fld img (o + 1) 1, target := fld img (o + 4) 4, crc := fld img (o + 12) 4, data := (img.drop (o + 16)).take len }
  if 256 ≤ o ∧ o % 16 = 0 ∧ o + 16 + len ≤ img.length ∧ (dRef img 1).2 = len ∧ r.type = 0x11 ∧ recShapeOk m r ∧ crc32c r.data = r.crc
    ∧ (List.range (min (fld r.data 0 4) (len + 1))).all (spWithin r.data) then some r else none

/-- Check 5: the patches to apply, none where the difference is not covered. -/
def fenceCheck (s : State) (w : Nat) (img : List Byte) (spares : Option Rec) : Option (List Rec) :=
  let want := sub img 0x30 32
  if fenceDigest s w [] = want then some []
  else match spares with
    | none => none
    | some r =>
      let d := r.data
      let m := spareMatches s w d
      let hs := m.map (spHeddle d)
      if hs.eraseDups.length ≠ hs.length then none
      else if fenceDigest s w (m.map fun i => siteOf (spHeddle d i) (spPos d i)) = want then
        some (m.flatMap fun i => (spPatch r.off d i).getD [])
      else none

/-- Records with patches in place of those of the same type, target and BANKSEL, the rest of the patches added (R209). -/
def patched (l patch : List Rec) : List Rec :=
  let same := fun (x y : Rec) => x.type == y.type && x.target == y.target && x.banksel == y.banksel
  l.map (fun r => (patch.find? (same r)).getD r) ++ patch.filter fun p => !(l.any (same p))

end Sys2Proof.Machine
end

