-- ==== Sys2Proof/Machine/Drafts.lean ====
section
/-! DEFINITION. Drafts (06): the draft-load command, load streams and fill slots, records taking effect, the swap behind
the fell mark. -/
namespace Sys2Proof.Machine

/-! ## Loading records into a bank (R188, R189, R194, R198) -/

/-- Store a list of values from key k on. -/
def putMany {α : Type} [DecidableEq α] (d : α) (k : Nat) (l : List α) (t : Tab α) : Tab α :=
  (l.foldl (fun x v => (put d x.1 x.2 v, x.2 + 1)) (t, k)).1

/-- The entries, at most 1,024, and the page descriptors, at most 64, of a WEAVE or PULL payload or of as much of it as has come. -/
def entries16 (d : List Byte) : List (BitVec 16) := (List.range (min 1024 (d.length / 2))).map fun i => BitVec.ofNat 16 (e16 d i)
def descs (d : List Byte) : List W32 := (List.range (min 64 ((d.length - 2048) / 4))).map fun i => BitVec.ofNat 32 (pdOf d i)

/-- A FELL word as Prijan writes it into bank b: BANK inverted in bank 1 (R198). -/
def fellWord (b : Nat) (w : W64) : W64 := if wOp w = 0x12 ∧ b = 1 then w ^^^ 0x80 else w

/-- Write a record of a banked unit, or the part of it that has come, into bank b of its site. -/
def writeRec (b : Nat) (r : Rec) (s : State) : State :=
  let d := r.data
  let n := r.target
  if r.type = 1 then modSw n (fun w => { w with
    weave := putMany 0 ((5 * b + r.banksel) * 1024) (entries16 d) w.weave
    pages := putMany 0 ((5 * b + r.banksel) * 64) (descs d) w.pages }) s
  else if r.type = 2 then modMm n (fun m => { m with
    pull := putMany 0 (b * 1024) (entries16 d) m.pull
    pages := putMany 0 (b * 64) (descs d) m.pages }) s
  else if r.type = 3 then modMx n (fun x => { x with prog := putMany 0 (b * 256) (words d) x.prog }) s
  else if r.type = 4 then modSf n (fun x => { x with prog := putMany 0 (b * 1024) (words d) x.prog }) s
  else if r.type = 5 then modSu n (fun x => { x with prog := putMany 0 (b * 512) ((words d).map (fellWord b)) x.prog }) s
  else if r.type = 6 then modSw (siteOf (heddleOf n) r.banksel) (fun w => { w with
    tokens := putMany 0 (b * 1024) ((List.range (min 1024 (d.length / 2))).map fun i => BitVec.ofNat 12 (e16 d i)) w.tokens }) s
  else s

/-- Bank b of every banked unit of an area word as a draft without records leaves it (R189). -/
def clearBank (b w : Nat) (s : State) : State :=
  let site := fun n => wHasSite w n
  let out := fun (size k : Nat) => decide (k / size ≠ b)
  { s with
    sw := whereTab default site (fun x => { x with
      weave := keepTab (out 5120) x.weave, pages := keepTab (out 320) x.pages, tokens := keepTab (out 1024) x.tokens }) s.sw
    mm := whereTab default site (fun x => { x with pull := keepTab (out 1024) x.pull, pages := keepTab (out 64) x.pages }) s.mm
    mx := whereTab default site (fun x => { x with prog := keepTab (out 256) x.prog }) s.mx
    sf := whereTab default site (fun x => { x with prog := keepTab (out 1024) x.prog }) s.sf
    su := whereTab default site (fun x => { x with
      prog := keepTab (out 512) x.prog, loadPos := 0, loadBuf := [], loadLast := false, loadBad := false }) s.su }

/-! ## Creels, rings and preload (R189, R199) -/

/-- Write a preload extent of an MX site: SRAM, lane store, scale store, check store. -/
def mxExtent (e : Config.Extent) (x : Mx) : Mx :=
  if e.store = 0 then { x with mem := putBytes x.mem (128 * e.row) e.data
                               gsour := putMany false (2 * e.row) (List.replicate ((e.data.length + 63) / 64) false) x.gsour }
  else if e.store = 1 then { x with lanes := putBytes x.lanes (1024 * e.sub + 128 * e.row) e.data
                                    lsour := putMany false (16 * e.sub + 2 * e.row) (List.replicate ((e.data.length + 63) / 64) false) x.lsour }
  else if e.store = 2 then { x with scales := putBytes x.scales (128 * e.row) e.data
                                    ssour := putMany false (2 * e.row) (List.replicate ((e.data.length + 63) / 64) false) x.ssour }
  else
    let x := { x with check := putMany 0 (16 * e.row) (words e.data) x.check }
    (List.range (e.data.length / 256)).foldl (fun x i => validate [e.row / 2 + i] x) x

/-- Apply an INIT record to its site: the seed and the preload extents. -/
def applyInit (n : Nat) (d : List Byte) (s : State) : State :=
  match Config.initOf d with
  | none => s
  | some (seed, l) =>
    match kindOf n with
    | .mx => modMx n (fun x => l.foldl (fun x e => mxExtent e x) { x with sr := srSeed seed }) s
    | .sf => modSf n (fun x => l.foldl (fun x e => { x with
        mem := putBytes x.mem (128 * e.row) e.data
        gsour := putMany false (2 * e.row) (List.replicate ((e.data.length + 63) / 64) false) x.gsour }) { x with sr := srSeed seed }) s
    | .mm => modMm n (fun x => l.foldl (fun x e =>
        (List.range (e.data.length / 16)).foldl (fun x i => mmWrite e.sub (e.row + i / 4) (i % 4) (sub e.data (16 * i) 16) false x) x) x) s
    | .su => s

/-- The credits an elastic creel grants at draft load: one per transfer of its capacity (R132). -/
def loadCredits (d : W64) : Nat := if crMode d = 2 then crCap d / crPadv d else 0

/-- The edge holds the credits of the creels whose descriptor has changed (R132). -/
def Mm.regrant (changed : Nat → Bool) (m : Mm) : Mm :=
  (List.range 16).foldl (fun m i =>
    if changed i then
      let c := loadCredits (creelAt m i).desc
      { m with credits := put 0 m.credits i c, granted := put 0 m.granted i c, grants := put 0 m.grants i 0 }
    else m) m

/-- Put a descriptor in force at a swap: pointers reset unless it is the one in force (R199). -/
def Creel.swap (d : W64) (c : Creel) : Creel := if c.desc = d then c else c.apply d
def Ring.swap (d : W64) (r : Ring) : Ring := if r.desc = d then r else r.apply d

/-- The descriptors a site has from a draft's records: those of its CREELS or RINGS record, else all disabled (R189). -/
def siteWords (l : List Rec) (type n k : Nat) : List W64 :=
  match l.find? fun r => r.type == type && r.target == n with
  | some r => (List.range k).map (w64At r.data)
  | none => List.replicate k 0

/-- The swap of a site into a draft's records (R199): creels, rings, INIT. -/
def swapSite (l : List Rec) (n : Nat) (s : State) : State :=
  let s := match kindOf n with
    | .mm => modMm n (fun m =>
        let d := siteWords l 7 n 16
        Mm.regrant (fun i => decide ((creelAt m i).desc ≠ d.getD i 0))
          { m with creels := (List.range 16).foldl (fun t i => alter default t i (Creel.swap (d.getD i 0))) m.creels }) s
    | .mx => modMx n (fun m => { m with rings := (List.range 16).foldl (fun t i => alter default t i (Ring.swap ((siteWords l 8 n 16).getD i 0))) m.rings }) s
    | .sf => modSf n (fun m => { m with rings := (List.range 8).foldl (fun t i => alter default t i (Ring.swap ((siteWords l 8 n 8).getD i 0))) m.rings }) s
    | .su => s
  match l.find? fun r => r.type == 9 && r.target == n with
  | some r => applyInit n r.data s
  | none => s

/-- A cold load sets every creel and ring of the site to its record with pointers 0. -/
def coldSite (r : Rec) (s : State) : State :=
  let n := r.target
  if r.type = 7 then modMm n (fun m => Mm.regrant (fun _ => true)
    { m with creels := (List.range 16).foldl (fun t i => alter default t i (Creel.apply (w64At r.data i))) m.creels }) s
  else if r.type = 8 then
    (match kindOf n with
     | .mx => modMx n (fun m => { m with rings := (List.range 16).foldl (fun t i => alter default t i (Ring.apply (w64At r.data i))) m.rings }) s
     | .sf => modSf n (fun m => { m with rings := (List.range 8).foldl (fun t i => alter default t i (Ring.apply (w64At r.data i))) m.rings }) s
     | _ => s)
  else if r.type = 9 then applyInit n r.data s
  else s

/-- What a cold load leaves before its first record: every creel and ring of the area disabled (R189). -/
def coldStart (w : Nat) (s : State) : State :=
  let site := fun n => wHasSite w n
  { s with
    mm := whereTab default site (fun x => { x with creels := [], credits := [], granted := [], grants := [] }) s.mm
    mx := whereTab default site (fun x => { x with rings := [] }) s.mx
    sf := whereTab default site (fun x => { x with rings := [] }) s.sf }

/-! ## Load routes (R195) -/

/-- Is the site's switch one of the area's in-service switches? -/
def routed (s : State) (w n : Nat) : Bool := sitePresent s.member n && wHasSite w n && switchOn s n

/-- The in-service switch that output p of switch n reaches over a link in service. -/
def fedBy (s : State) (w n p : Nat) : Option Nat :=
  match neighbour s.member n p with
  | some m => if routed s w m && linkOn s n p then some m else none
  | none => none

/-- The attachment of the area at input i of a switch. -/
def rootOf (s : State) (w n i : Nat) : Option Nat :=
  match attOf s.member n i with
  | some (t, _) => if wHasAtt w t then some t else none
  | none => none

/-- The attachments of an area. -/
def areaAtts (s : State) (w : Nat) : List Nat := (List.range 65).filter fun t => attPresent s.member t && wHasAtt w t

/-- Parent inputs by switch (5: none): one root for each attachment, at its first edge link with an in-service switch that is no root yet. -/
def loadRoots (s : State) (w : Nat) : Tab Nat :=
  (areaAtts s w).foldl (fun t a =>
    match ((List.range (attLinks a)).map (edgeSite a)).find? fun x => routed s w x.1 && look 5 t x.1 == 5 with
    | some x => put 5 t x.1 x.2
    | none => t) []

/-- Grow trees breadth first from the switches of the list. -/
def growTrees (s : State) (w : Nat) : Nat → List Nat → Tab Nat → Tab Nat
  | 0, _, t => t
  | _ + 1, [], t => t
  | f + 1, n :: r, t =>
    let next := (List.range 4).filterMap fun p => match fedBy s w n p with | some m => if look 5 t m = 5 then some (m, facing p) else none | none => none
    growTrees s w f (r ++ next.map Prod.fst) (next.foldl (fun t x => put 5 t x.1 x.2) t)

/-- Does a switch reach a root by its parent inputs? -/
def climbs (s : State) (w : Nat) (t : Tab Nat) : Nat → Nat → Bool
  | 0, _ => false
  | f + 1, n =>
    let i := look 5 t n
    match neighbour s.member n i with
    | some m => routed s w m && linkOn s m (facing i) && climbs s w t f m
    | none => (rootOf s w n i).isSome

/-- How many roots an attachment has. -/
def rootCount (s : State) (w a : Nat) (t : Tab Nat) : Nat := (t.filter fun kv => (neighbour s.member kv.1 kv.2).isNone && rootOf s w kv.1 kv.2 == some a).length

/-- The parent inputs of a cold load (R195). The manual leaves the choice of trees to Prijan: any free choice that is one tree per attachment over the
switches that can be reached, else the trees that grow breadth first (DESIGN CHOICE, log 33). -/
def loadTrees (s : State) (w : Nat) : Tab Nat :=
  let size := 512 * 448
  let roots := loadRoots s w
  let base := growTrees s w size (roots.map Prod.fst) roots
  let free : Tab Nat := base.map fun kv => (kv.1, Config.freeValue (s.freeCtr + kv.1) % 4)
  if (free.all fun kv => climbs s w free size kv.1) && (areaAtts s w).all fun a => rootCount s w a free == rootCount s w a base then free else base

/-- Write the load routes of a cold load into the area's in-service switches: the parent input, and as child outputs those whose switch has it as
parent, and port L at an SU (R195). -/
def loadRoutes (w : Nat) (s : State) : State :=
  let t := loadTrees s w
  let s := { s with freeCtr := s.freeCtr + 2 ^ 18, sw := whereTab default (fun n => wHasSite w n) (fun x => { x with route := none }) s.sw }
  each t (fun kv s =>
    let kids := (List.range 4).foldl (fun b p => match fedBy s w kv.1 p with
      | some m => if look 5 t m = facing p then b + 2 ^ p else b
      | none => b) (if kindOf kv.1 = .su then 16 else 0)
    modSw kv.1 (fun x => { x with route := some (kv.2, kids) }) s) s

/-- The attachment whose tree reaches a switch by the load routes in place, and the ACLK from the arrival at its root's switch to the forwarding
by this one's: one for each switch, and what the links between them take (R19, R195). -/
def loadPath (s : State) (w : Nat) : Nat → Nat → Nat → Option (Nat × Nat)
  | 0, _, _ => none
  | f + 1, n, d =>
    match (swAt s n).route with
    | none => none
    | some (i, _) => match neighbour s.member n i with
      | some m => match (swAt s m).route with
        | some (_, kids) => if bit kids (facing i) && switchOn s m then loadPath s w f m (d + 1 + linkExtra m (facing i)) else none
        | none => none
      | none => (rootOf s w n i).map fun t => (t, d)

/-! ## Streams (R192-R194) -/

/-- A record with its header and padding, as it travels. -/
def recBytes (r : Rec) : List Byte :=
  leBytes 1 r.type ++ leBytes 1 r.banksel ++ leBytes 2 0 ++ leBytes 4 r.target ++ leBytes 4 r.data.length ++ leBytes 4 r.crc
  ++ r.data ++ List.replicate ((r.data.length + 15) / 16 * 16 - r.data.length) 0

/-- Is the record one that travels to a heddle? -/
def Rec.isSite (r : Rec) : Bool := match r.tgt with | .site _ => true | _ => false

/-- The load streams: the site records of each heddle, in image order. -/
def streamsOf (l : List Rec) : List (Nat × List Byte) :=
  let site := l.filter Rec.isSite
  (site.map fun r => heddleOf r.target).eraseDups.map fun h => (h, (site.filter fun r => heddleOf r.target == h).flatMap recBytes)

/-- The stream of a heddle; none where it has no site record. -/
def streamOf (l : Load) (h : Nat) : Option (List Byte) := (l.streams.find? fun x => x.1 == h).map Prod.snd

/-- Is every heddle's stream complete (R194)? -/
def loadComplete (s : State) (l : Load) : Bool :=
  l.streams.all fun x => let u := suAt s (suOf x.1); u.loadLast && !u.loadBad

/-! ## Completing a load (R197, R203, R204) -/

/-- The load of an area completes with success: the draft stands in its bank; the command completes with DRAFT_ID. -/
def finishLoad (a : Nat) (s : State) : State :=
  match (areaAt s a).load with
  | none => s
  | some l =>
    let cold := !hasJob s a
    let w := (areaAt s a).word
    let s := modArea a (fun x => { x with load := none, drafts := put default x.drafts l.bank l.draft }) s
    let s :=
      if cold then
        let site := fun n => wHasSite w n
        let s := modArea a (fun x => { x with bank := 0, complete := 0, job := { (default : Job) with state := jLoaded, ras := x.job.ras } }) s
        { s with
          sw := whereTab default site (fun x => { x with route := none, outp := mapTab default (fun _ o => { o with bank := 0 }) x.outp }) s.sw
          mm := whereTab default site (fun x => { x with bank := 0 }) s.mm
          mx := whereTab default site (fun x => { x with seq := { x.seq with bank := 0 } }) s.mx
          sf := whereTab default site (fun x => { x with seq := { x.seq with bank := 0 } }) s.sf
          su := whereTab default site (fun x => { x with seq := { x.seq with bank := 0 } }) s.su }
      else modArea a (fun x => { x with complete := 1 }) s
    mbxComplete l.port l.m mOk 0 (leBytes 8 l.draft.id) s

/-- A cold load completes with its last stream. -/
def coldDone (a : Nat) (s : State) : State :=
  match (areaAt s a).load with
  | some l => if !hasJob s a && loadComplete s l then finishLoad a s else s
  | none => s

/-- A load that ends without success: nothing of it counts; the command completes with the status (R197). -/
def dropLoad (a st : Nat) (s : State) : State :=
  match (areaAt s a).load with
  | none => s
  | some l => mbxComplete l.port l.m st 0 (leBytes 8 l.draft.id) (modArea a (fun x => { x with load := none }) s)

/-! ## DRAFT_LOAD (R190-R192) -/

/-- The first failing check of an image, its code and DETAIL, or the records to load (R190). -/
def checkImage (s : State) (w : Nat) (img : List Byte) : (Nat × Nat) ⊕ List Rec :=
  if sha256 (img.drop 0x100) ≠ sub img 0x50 32 then .inl (0x8C01, 0)
  else if !signatureOk s img then .inl (0x8C02, 0)
  else if dMember img ≠ s.member then .inl (0x8C03, 0)
  else if dArea img ≠ w then .inl (0x8C04, 0)
  else
    let recs := imageRecs img
    let spares := coverRec s.member img
    match fenceCheck s w img spares with
    | none => .inl (0x8C05, 0)
    | some patch =>
      match recs with
      | none => .inl (0x8C01, 0)
      | some l =>
        if !recsOk s.member w img l || (bit (dFlags img) 1 != (reportSection l 3).isSome) then .inl (0x8C01, 0)
        else
          let l' := patched l patch
          let gone := match spares with | some r => (spareMatches s w r.data).map fun i => siteOf (spHeddle r.data i) (spPos r.data i) | none => []
          let s' := if patch.isEmpty then s else { s with fence := { s.fence with sites := keepTab (fun n => !gone.contains n) s.fence.sites } }
          match checkRecs s' w l with
          | some x => .inl (0x8C06, x.1 * 2 ^ 32 + x.2)
          | none => match checkRecs s w l' with
            | some x => .inl (0x8C06, x.1 * 2 ^ 32 + x.2)
            | none => .inr l'

/-- A refused load completes with its code and carries DRAFT_ID (R216). -/
def loadRefused (p m code detail id : Nat) (s : State) : State := mbxComplete p m code detail (leBytes 8 id) s

/-- Start loading checked records into a bank of area a. Where the fell step of the running draft has started, the load is too late for it and writes
nothing (R197, R202). -/
def startLoad (a p m : Nat) (img : List Byte) (l : List Rec) (s : State) : State :=
  let x := areaAt s a
  let cold := !hasJob s a
  let bank := if cold then 0 else 1 - x.bank
  let d := draftOf s a
  let draft : Draft :=
    { id := dId img, flags := dFlags img, steps := dSteps img, commitV := dCommitV img, fill := dFill img, content := sub img 0x50 32
      fenceDigest := sub img 0x30 32, recs := l, first := if cold then 0 else d.first + d.steps }
  if !cold && decide (d.first + d.steps ≤ x.job.top) then mbxComplete p m 0x8C09 0 (leBytes 8 draft.id) s else
  let load : Load := { bank := bank, draft := draft, streams := streamsOf l, sent := [], port := p, m := m }
  let s := clearBank bank x.word s
  let s := if cold then loadRoutes x.word (coldStart x.word s) else s
  coldDone a (modArea a (fun x => { x with load := some load, complete := 0, drafts := keepTab (fun b => b != bank) x.drafts }) s)

/-- The draft-load command on area a: DRF_BUSY, DRF_IMAGE_LOC, then the checks in order (R190-R192); a refusal carries
DRAFT_ID (R216), and an image with a sour grain fails its CONTENT_DIGEST (R263). -/
def draftLoad (p m : Nat) (c : Tab Byte) (a : Nat) (s : State) : State :=
  let x := areaAt s a
  let d := par c 0 8
  let k := dpaStack d
  if 2 ^ 41 ≤ d then mbxDone p m mBadParam s
  else if !stackPresent s.member k ∨ userEnd ≤ dpaOff d then mbxDone p m mNoUnit s
  else
    let h := elasticRead d (min 256 (userEnd - dpaOff d)) false s
    let s := h.2.2
    if x.load.isSome ∨ x.job.state = jHalted ∨ x.swapOpen then loadRefused p m 0x8C08 0 (dId h.1) s
    else if (match areaOfAtt s k with | some b => decide (b ≠ a) | none => false) then loadRefused p m 0x8C07 0 (dId h.1) s
    else if h.1.length < 256 ∨ !headerOk h.1 ∨ !dpaOk s.member d (dLen h.1) then loadRefused p m 0x8C01 0 (dId h.1) s
    else
      let r := elasticRead (d + 256) (dLen h.1 - 256) false s
      let img := h.1 ++ r.1
      let s := r.2.2
      if h.2.1 + r.2.1 ≠ 0 then loadRefused p m 0x8C01 0 (dId img) s
      else match checkImage s x.word img with
      | .inl e => loadRefused p m e.1 e.2 (dId img) s
      | .inr l => startLoad a p m img l s

/-- DRAFT_LOAD (R190). -/
def execDraftLoad (port m : Nat) (s : State) : Out :=
  mbxRun 0x0110 (plenIs 8) .area false false (fun p m c s => onArea true p m c (draftLoad p m c) s) port m s

/-! ## Load flits (R193, R194) -/

/-- Take complete records from the front of the bytes accepted: what follows them, the records, whether one failed its CRC. -/
def drainRecs : Nat → List Byte → List Byte × List Rec × Bool
  | 0, l => (l, [], false)
  | f + 1, l =>
    let len := fld l 8 4
    let next := 16 + (len + 15) / 16 * 16
    if l.length < 16 ∨ l.length < next then (l, [], false)
    else
      let r : Rec := { off := 0, type := fld l 0 1, banksel := fld l 1 1, target := fld l 4 4, crc := fld l 12 4, data := (l.drop 16).take len }
      let x := drainRecs f (l.drop next)
      (x.1, r :: x.2.1, x.2.2 || decide (crc32c r.data ≠ r.crc))

/-- What has come of the record at the front of the bytes accepted, in whole words. -/
def partRec (l : List Byte) : List Rec :=
  if l.length < 24 then []
  else
    let d := (l.drop 16).take (fld l 8 4)
    [{ off := 0, type := fld l 0 1, banksel := fld l 1 1, target := fld l 4 4, crc := fld l 12 4, data := d.take (d.length / 8 * 8) }]

/-- An SU accepts payload bytes: it writes them into the bank being loaded, in stream order, and checks the CRC of every record that is now
complete (R194). A cold load's creels, rings and preload take a complete record. -/
def acceptLoad (a su : Nat) (l : Load) (pay : List Byte) (last : Bool) (s : State) : State :=
  let u := suAt s su
  let buf := u.loadBuf ++ pay
  let x := drainRecs (buf.length + 1) buf
  let cold := !hasJob s a
  let s := each (x.2.1 ++ partRec x.1) (writeRec l.bank) s
  let s := each (x.2.1.filter fun r => decide (crc32c r.data = r.crc)) (fun r s => if cold then coldSite r s else s) s
  let s := modSu su (fun u => { u with
    loadPos := u.loadPos + pay.length, loadBuf := x.1, loadLast := last, loadBad := u.loadBad || x.2.2 }) s
  coldDone a s

/-- Lanes of a load flit. -/
def lfOffset (f : Flit) : Nat := (laneOf f.data 0).toNat
def lfCount (f : Flit) : Nat := bits (laneOf f.data 1).toNat 6 0
def lfLast (f : Flit) : Bool := bit (laneOf f.data 1).toNat 31
def lfHeddle (f : Flit) : Nat := bits (laneOf f.data 7).toNat 29 16

/-- A load flit delivered to an SU: discarded under the barrier page, ignored if blank, accepted at the offset reached,
else discarded and sent again from there (R193, R194). -/
def takeLoad (su : Nat) (f : Flit) (s : State) : State :=
  let u := suAt s su
  let h := heddleOf su
  match areaOfSite s su with
  | none => s
  | some a => match (areaAt s a).load with
    | none => s
    | some l =>
      let again := fun s => modArea a (fun x => { x with load := x.load.map fun l => { l with sent := put 0 l.sent h u.loadPos } }) s
      if lfCount f = 0 then s
      else if u.barrier.isSome then again s
      else if f.sour ≠ 0 ∨ lfOffset f ≠ u.loadPos ∨ lfHeddle f ≠ h ∨ 96 < lfCount f then again s
      else acceptLoad a su l (sub (rowBytes f.data) 32 (lfCount f)) (lfLast f) s

/-- The load flit at the head of an SU's deliveries: KIND 0b11 and no token. -/
def loadFlitHead (s : State) (su : Nat) : Option Deliv :=
  match headDeliv s su with
  | some d => if d.tag = none ∧ bits (laneOf d.flit.data 7).toNat 1 0 = 3 then some d else none
  | none => none

/-- A flit goes down the tree of attachment t, whose last switch forwards it d ACLK after its root: in the first ACLK in which the root carries no
other (R195). -/
def rootFlit (a t d : Nat) (s : State) : State :=
  let r := match (areaAt s a).load with | some l => look 0 l.rootAt t | none => 0
  let s := runTo (max s.now (r + 1 + d)) s
  modArea a (fun x => { x with load := x.load.map fun l => { l with rootAt := put 0 l.rootAt t (s.now - d) } }) s

/-- LOAD_FLIT (R194): the next load flit reaches the SU: the one delivered, or in a cold load the next along its load route (R195, log 33). -/
def execLoadFlit (su : Nat) (s : State) : Out :=
  onSite .su su (fun s =>
    match loadFlitHead s su with
    | some d => takeLoad su d.flit (takeDeliv su d s)
    | none => match areaOfSite s su with
      | none => s
      | some a => match (areaAt s a).load with
        | none => s
        | some l =>
          if hasJob s a then s
          else match streamOf l (heddleOf su) with
            | none => s
            | some b =>
              let o := (suAt s su).loadPos
              if (suAt s su).loadLast then s else match loadPath s (areaAt s a).word (512 * 448) su 1 with
                | none => s
                | some (t, d) => acceptLoad a su l ((b.drop o).take 96) (decide (b.length ≤ o + 96)) (rootFlit a t d s)) s

/-- A load flit (R193). -/
def loadFlit (h o : Nat) (pay : List Byte) (last : Bool) : Flit :=
  { data := rowOf (leBytes 4 o ++ leBytes 4 (pay.length + 2 ^ 31 * b2n last) ++ List.replicate 20 0 ++ leBytes 4 (3 + h * 2 ^ 16)
      ++ pay ++ List.replicate (96 - pay.length) 0)
    sour := 0, loose := true }

/-- The fill slots of an attachment for a heddle, by the EDGE record in force: their edge link and how many a step has, at most FILL (R196). -/
def fillLink (s : State) (t h : Nat) : Option (Nat × Nat) :=
  match areaOfAtt s t with
  | none => none
  | some a => ((attAt s t).series.fill.find? fun x => x.1 == h).map fun x => (x.2.link, min (draftOf s a).fill x.2.count)

/-- FILL_SLOT (R196): for the heddle's next fill slot of the step the fill engine puts a load flit, or a blank, into the scheduled outbound
partition; a step has no more slots than FILL. -/
def execFillSlot (att heddle : Nat) (s : State) : Out :=
  atAtt att (fun s =>
    match areaOfAtt s att, fillLink s att heddle with
    | some a, some (link, n) =>
      if n ≤ look 0 (attAt s att).filled heddle then s else
      let x := match (areaAt s a).load with
        | some l => (match streamOf l heddle with
          | some b =>
            let o := look 0 l.sent heddle
            let pay := (b.drop o).take 96
            if hasJob s a && decide (0 < pay.length) then (loadFlit heddle o pay (decide (b.length ≤ o + 96)), pay.length) else (loadFlit heddle 0 [] false, 0)
          | none => (loadFlit heddle 0 [] false, 0))
        | none => (loadFlit heddle 0 [] false, 0)
      if (attAt s att).outS.length < (attAt s att).sOut then
        let s := modAtt att (fun q => { q with outS := q.outS ++ [{ flit := x.1, link := link, arr := s.now }], filled := alter 0 q.filled heddle (· + 1) }) s
        modArea a (fun y => { y with load := y.load.map fun l => { l with sent := alter 0 l.sent heddle (· + x.2) } }) s
      else reportEdge 0x3521 (edgeSite att link).1 (edgeSite att link).2 false s
    | _, _ => s) s

/-- WARM_LOAD_COMPLETE (R197): every heddle's stream of the area's warm load is complete; a draft with FILL 0 has no warm successor (R196). -/
def execWarmLoadComplete (area : Nat) (s : State) : Out :=
  atArea area (fun s => match (areaAt s area).load with
    | some l => if hasJob s area && decide ((draftOf s area).fill ≠ 0) && loadComplete s l then finishLoad area s else s
    | none => s) s

/-! ## The fell mark (R88, R96, R199) -/

/-- Output port p of a site's switch changes to bank b at ACLK t, and its page 0 may meet a reduce result (R88, R89); at port L the site swaps
with it (R116, R199). -/
def switchBank (n p b t : Nat) (s : State) : State :=
  let s := modSw n (fun w => { w with outp := alter default w.outp p (fun o => { o with bank := b, page := 0, since := t, fell := none, fellDone := true }) }) s
  let s := if collides (swAt s n) p t then reportPort 0x4514 n p true s else s
  if p ≠ 4 then s
  else
    let recs := match areaOfSite s n with | some a => (look default (areaAt s a).drafts b).recs | none => []
    let s := match kindOf n with
      | .mm => modMm n (fun m => { m with bank := b, page := 0, since := t }) s
      | .mx => modMx n (fun m => { m with seq := { m.seq with bank := b } }) s
      | .sf => modSf n (fun m => { m with seq := { m.seq with bank := b } }) s
      | .su => s
    swapSite recs n s

/-- FELL_BANK_SWITCH (R96): the port whose FELL was met executes from the named bank three ACLK after the entry. -/
def execFellBankSwitch (site out : Nat) (s : State) : Out :=
  atSite site (fun s => match (look default (swAt s site).outp out).fell with
    | some (t, b) => let s := runTo t s; switchBank site out b t s
    | none => s) s

end Sys2Proof.Machine
end

