-- ==== Sys2Proof/Machine/Sparse.lean ====
section
/-! DEFINITION. Sparse execution at the MM site (07): descriptor flits, the reader, the accumulator buffer, flushes; and the
deliveries of an MM site (R113-R115). -/
namespace Sys2Proof.Machine

/-- Change the sparse machinery of a site. -/
def modSp (n : Nat) (f : Sparse → Sparse) (s : State) : State := modMm n (fun m => { m with sp := f m.sp }) s

/-! ## Descriptor flits (R224) -/

/-- A lane of a flit as a number. -/
def flitLane (f : Flit) (i : Nat) : Nat := (laneOf f.data i).toNat

/-- Value formats of VFMT: E4M3, E5M2, INT8, BF16, FP16. -/
def spFormat (v : Nat) : Bool := [1, 2, 3, 4, 9].contains v

/-- Are all unlisted bits zero? -/
def descZero (f : Flit) : Bool :=
  decide (flitLane f 0 < 4) && !bit (flitLane f 1) 15 && !bit (flitLane f 1) 31 && decide (bits (flitLane f 2) 15 14 = 0)
  && decide (flitLane f 2 < 2 ^ 23) && decide (flitLane f 3 < 2 ^ 16) && !bit (flitLane f 4) 31 && decide (flitLane f 5 < 2 ^ 11)
  && (List.range 26).all fun j => decide (flitLane f (6 + j) = 0)

/-- VAL rows of an operation of nf flits. -/
def valRows (vfmt nf : Nat) : Nat := if fmtWidth vfmt = 8 then nf / 4 else nf / 2

/-- The reader part of a descriptor. -/
def descReader (d : Nat) (f : Flit) : Reader :=
  { d := d, isub := bits (flitLane f 1) 1 0, irow := bits (flitLane f 1) 14 2, vsub := bits (flitLane f 1) 17 16
    vrow := bits (flitLane f 1) 30 18, nf := bits (flitLane f 2) 13 0, vfmt := bits (flitLane f 2) 19 16
    nlog := bits (flitLane f 2) 22 20, del := flitLane f 3, next := 0, seg := 0, started := false, idx := (0, false), val := (0, false) }

/-- The ranges of the reader part. -/
def readerOk (r : Reader) : Bool :=
  within 16 12288 r.nf && decide (r.nf % 16 = 0) && spFormat r.vfmt && decide (r.nlog ≤ 4) && decide (2 ≤ r.del) && decide (r.isub ≠ r.vsub)
  && decide (r.irow + r.nf / 2 ≤ 6144) && decide (r.vrow + valRows r.vfmt r.nf ≤ 6144)

/-- The flush part. -/
def descFlush (d : Nat) (f : Flit) : Flush :=
  { d := d, fdel := bits (flitLane f 4) 15 0, addr := bits (flitLane f 4) 30 16, num := flitLane f 5, next := 0 }

def flushOk (x : Flush) : Bool :=
  decide (2 ≤ x.fdel) && decide (x.addr % 32 = 0) && within 1 1024 x.num && decide (x.addr / 32 + x.num ≤ 1024)

/-- A descriptor flit delivered at ACLK d: a field outside its range is malformed whichever parts it starts (DEDUCED, log 32). -/
def descArrive (n : Nat) (f : Flit) (s : State) : State :=
  let rd := bit (flitLane f 0) 0
  let fl := bit (flitLane f 0) 1
  let r := descReader s.now f
  let x := descFlush s.now f
  let sp := (mmAt s n).sp
  if !descZero f || !readerOk r || !flushOk x || (rd && sp.rd.isSome) || (fl && sp.fl.isSome) then reportSite 0x4240 n s
  else modSp n (fun p => { p with
    rd := if rd then some r else p.rd
    rdFlit := if rd then 0 else p.rdFlit
    segs := if rd then 0 else p.segs
    fl := if fl then some x else p.fl
    flFlit := if fl then 0 else p.flFlit }) s

/-! ## The reader (R222, R225, R226) -/

/-- A scheduled read of a row for the reader; free where the sub-bank is not ON or clashes (log 70). -/
def readerRow (n b r : Nat) (s : State) : (BitVec 512 × Bool) × State :=
  match mmBlocked n b 16 false s with
  | some s => ((Config.lostGrain n s.now, false), s)
  | none =>
    let s := markSched n b false r 16 s
    let x := mmRead n b r s
    ((BitVec.ofNat 512 (leNat x.1), x.2.1), excUp n 3 1 x.2.2)

/-- Read the rows that flit j needs, in the ACLK before it. -/
def readerFetch (n : Nat) (r : Reader) (s : State) : Reader × State :=
  let j := r.next
  let per := if fmtWidth r.vfmt = 8 then 4 else 2
  let a := if j % 2 = 0 then readerRow n r.isub (r.irow + j / 2) s else (r.idx, s)
  let b := if j % per = 0 then readerRow n r.vsub (r.vrow + j / per) a.2 else (r.val, a.2)
  ({ r with idx := a.1, val := b.1 }, b.2)

/-- The 16-bit IDX entry i of the flit, and its value code. -/
def idxEntry (r : Reader) (i : Nat) : Nat := elemAt 16 r.idx.1.toNat (r.next % 2 * 16 + i)
def valCode (r : Reader) (i : Nat) : Nat :=
  let w := fmtWidth r.vfmt
  elemAt w r.val.1.toNat (r.next % (if w = 8 then 4 else 2) * 16 + i)

/-- Segment counter after an entry: a non-PAD entry with RS steps it, but for the first non-PAD entry (R222). -/
def segStep (c : Nat × Bool) (e : Nat) : Nat × Bool :=
  if bit e 14 then c else (if bit e 15 ∧ c.2 then c.1 + 1 else c.1, true)

/-- The record of each entry: lanes 2m and 2m + 1, and whether its segment is beyond SEGMAX (R226). -/
def records (r : Reader) : List Nat → Nat × Bool → List (W32 × W32 × Bool) × (Nat × Bool)
  | [], c => ([], c)
  | i :: rest, c =>
    let e := idxEntry r i
    let c := segStep c e
    let max := 32768 / 2 ^ r.nlog
    let tooFull := decide (max ≤ c.1)
    let seg := if tooFull then max - 1 else c.1
    let tag := seg + bits e 11 0 * 2 ^ 15 + b2n (bit e 14) * 2 ^ 30
    let x := records r rest c
    ((toF32 (decodeNum r.vfmt (valCode r i)), BitVec.ofNat 32 tag, tooFull) :: x.1, x.2)

/-- The flit of records, and how many exceed SEGMAX. -/
def readerFlit (r : Reader) : Flit × Nat × (Nat × Bool) :=
  let x := records r (List.range 16) (r.seg, r.started)
  let bad := r.idx.2 || r.val.2
  let sour := (List.zip x.1 (List.range 16)).foldl (fun b y => if bad || y.1.2.2 then b ||| BitVec.ofNat 8 (2 ^ (y.2 / 2)) else b) (0 : Byte)
  ({ data := ofLanes (x.1.flatMap fun y => [y.1, y.2.1]), sour := sour }, (x.1.filter fun y => y.2.2).length, x.2)

/-- READER_EMIT (R225): the reader emits its next flit at d + DEL + j. -/
def execReaderEmit (site : Nat) (s : State) : Out :=
  onSite .mm site (fun s => match (mmAt s site).sp.rd with
    | none => s
    | some r =>
      if !siteRuns s site then s
      else
        let t := r.d + r.del + r.next
        let x := readerFetch site r (runTo (t - 1) s)
        let s := runTo t x.2
        let f := readerFlit x.1
        let r' := { x.1 with next := r.next + 1, seg := f.2.2.1, started := f.2.2.2 }
        let s := if f.2.1 = 0 then s else count 0x1246 site f.2.1 s
        let s := modSp site (fun p => { p with
          rd := if r.next + 1 < r.nf then some r' else none
          rdFlit := r.next + 1
          rdAt := t + 1
          segs := if r'.started then (r'.seg + 1) % 65536 else 0
          segOvf := satAdd 0xFFFF p.segOvf f.2.1 }) s
        inject site t f.1 s) s

/-! ## The accumulator buffer (R231-R235) -/

/-- An update of a flit with V = 1: address, value, whether the value lane is sour. -/
def flitUpdates (f : Flit) : List (Nat × W32 × Bool) :=
  ((List.range 16).filter fun k => bit (flitLane f (16 + k)) 31).map fun k =>
    (bits (flitLane f (16 + k)) 14 0, laneOf f.data k, bit f.sour.toNat (k / 4))

/-- Coalesce an update into the groups, ordered by their lowest update (R232). -/
def addUpdate (u : Nat × W32 × Bool) : List Group → List Group
  | [] => [{ addr := u.1, sum := u.2.1, sour := u.2.2, at_ := 0 }]
  | g :: r => if g.addr = u.1 then { g with sum := fAdd g.sum u.2.1, sour := g.sour || u.2.2 } :: r else g :: addUpdate u r

/-- Does a flush that left in ACLK t carry the entry (R234)? -/
def flushedNow (p : Sparse) (a t : Nat) : Bool := decide (p.flAt = t + 1) && within p.flBase (p.flBase + 31) a

/-- A bank serves a group in its ACLK: the entry changes at the end of that ACLK + 3 (R231); a flush of it in the same ACLK is a hazard (R234). -/
def applyGroup (n : Nat) (g : Group) (s : State) : State :=
  let haz := flushedNow (mmAt s n).sp g.addr g.at_
  let s := modSp n (fun p => { p with landing := p.landing ++ [g] }) s
  if haz then reportSite 0x4242 n s else s

/-- The groups of one bank (R233): each has the next ACLK in which the bank serves; one due at once is served, the others wait, and the
seventeenth raises MM_ACC_QFULL. -/
def bankGroups (n b : Nat) (l : List Group) (s : State) : State :=
  each l (fun g s =>
    let p := (mmAt s n).sp
    let u := max s.now (look 0 p.free b)
    let q := look [] p.queues b
    if u = s.now ∧ q = [] then applyGroup n { g with at_ := u } (modSp n (fun p => { p with free := put 0 p.free b (u + 1) }) s)
    else if 16 ≤ q.length then reportSite 0x4243 n s
    else modSp n (fun p => { p with queues := alter [] p.queues b (· ++ [{ g with at_ := u }]), free := put 0 p.free b (u + 1) }) s) s

/-- Every entry of the buffer sour (R235). -/
def sourAll (t : Tab AccE) : Tab AccE := (List.range 32768).map fun a => (a, { look default t a with sour := true })

/-- An update flit (R232-R235). -/
def updateArrive (n : Nat) (f : Flit) (s : State) : State :=
  if f.sour.toNat / 16 ≠ 0 then modSp n (fun p => { p with acc := sourAll p.acc }) s
  else
    let groups := (flitUpdates f).foldl (fun l u => addUpdate u l) []
    let of := fun b => groups.filter fun g => g.addr % 16 == b
    let s := each (List.range 16) (fun b s => bankGroups n b (of b) s) s
    if (List.range 16).any (fun b => decide (1 < (of b).length)) then
      count 0x1245 n 1 (modSp n (fun p => { p with conflict := satAdd 0xFFFF p.conflict 1 }) s)
    else s

/-- ACC_QUEUE_SERVE (R233): the bank's oldest waiting group is served in its ACLK. -/
def execAccQueueServe (site bank : Nat) (s : State) : Out :=
  onSite .mm site (fun s => match look [] (mmAt s site).sp.queues (bank % 16) with
    | [] => s
    | g :: r => applyGroup site g (modSp site (fun p => { p with queues := put [] p.queues (bank % 16) r }) (runTo g.at_ s))) s

/-- Does a flush of an entry in ACLK t meet an update that lands in it in that ACLK or in one of the three after (R234)? -/
def flushHaz (p : Sparse) (a t : Nat) : Bool := p.landing.any fun g => g.addr == a && decide (g.at_ ≤ t) && decide (t ≤ g.at_ + 3)

/-- FLUSH_EMIT (R234): the next flush flit leaves at d + FDEL + f; its entries become +0 and clean. -/
def execFlushEmit (site : Nat) (s : State) : Out :=
  onSite .mm site (fun s => match (mmAt s site).sp.fl with
    | none => s
    | some x =>
      if !siteRuns s site then s
      else
        let t := x.d + x.fdel + x.next
        let s := runTo t s
        let p := (mmAt s site).sp
        let base := x.addr + 32 * x.next
        let es := (List.range 32).map fun i => look default p.acc (base + i)
        let sour := (List.range 8).foldl (fun b k => if (List.range 4).any (fun j => (es.getD (4 * k + j) default).sour) then
          b ||| BitVec.ofNat 8 (2 ^ k) else b) (0 : Byte)
        let s := if (List.range 32).any (fun i => flushHaz p (base + i) t) then reportSite 0x4242 site s else s
        let clash := readerLeaves p t
        let s := modSp site (fun p => { p with
          acc := p.acc.filter fun kv => !within base (base + 31) kv.1
          fl := if x.next + 1 < x.num then some { x with next := x.next + 1 } else none
          flFlit := x.next + 1
          flAt := t + 1
          flBase := base }) s
        if clash then reportSite 0x4241 site s
        else inject site t { data := ofLanes (es.map AccE.v), sour := sour } s) s

/-! ## Deliveries at an MM site (R113-R115, R223) -/

/-- What a delivery under a tag leads to. -/
def mmHandle (n : Nat) (d : Deliv) (s : State) : State :=
  match d.tag with
  | none => reportSite 0x4211 n s
  | some t =>
    if bits t 11 10 = 0 then mmPushFlit n t d.flit s
    else if t = 0x400 then dmaArrive n d.flit s
    else if t = 0x800 then updateArrive n d.flit s
    else if t = 0x900 then descArrive n d.flit s
    else reportSite 0x4212 n s

/-- Take the head delivery of an MM site if its tag passes. -/
def mmTake (n : Nat) (p : Option Nat → Bool) (s : State) : State :=
  match headDeliv s n with
  | none => s
  | some d =>
    if p d.tag then
      let s := takeDeliv n d s
      if siteRuns s n then mmHandle n d s else s
    else s

/-- MM_DELIVERY (R114): the next flit delivered to the MM's local port, whatever its tag. -/
def execMmDelivery (site : Nat) (s : State) : Out := onSite .mm site (mmTake site fun _ => true) s

/-- DESCRIPTOR_FLIT (R224): the next delivery, a descriptor flit. -/
def execDescriptorFlit (site : Nat) (s : State) : Out := onSite .mm site (mmTake site (· == some 0x900)) s

/-- UPDATE_FLIT (R232): the next delivery, an update flit. -/
def execUpdateFlit (site : Nat) (s : State) : Out := onSite .mm site (mmTake site (· == some 0x800)) s

/-! ## Predicted skip: the alarm (R241) -/

/-- AUDITED and MISSES over the MX sites of an area, committed and not (R240, R241). -/
def areaAudits (s : State) (a : Nat) : Nat × Nat :=
  s.mx.foldl (fun acc kv => if areaOfSite s kv.1 = some a then (acc.1 + kv.2.skip.total.2.1, acc.2 + kv.2.skip.total.2.2) else acc) (0, 0)

/-- The evaluation of one area: each time WINDOW further audits have accumulated, the misses within them against LIMIT. -/
def skipEval (a : Nat) (s : State) : State :=
  let g := aregAt s a
  let window := bits g.skpCtl 31 12
  let x := areaAudits s a
  if window = 0 ∨ x.1 < g.auditBase.1 + window then s
  else
    let misses := x.2 - g.auditBase.2
    let s := modAreg a (fun g => { g with auditBase := x }) s
    if bits g.skpCtl 11 0 < misses then reportArea 0x1119 a s else s

/-- SKIP_ALARM_EVAL (R241): the next 1 ms evaluation of every area. -/
def execSkipAlarmEval (s : State) : Out :=
  .next (each (areaList s) skipEval (toPick ((s.pick + 100000) / 100000 * 100000) s))

end Sys2Proof.Machine
end

