-- ==== Sys2Proof/Machine/Steps.lean ====
section
/-! DEFINITION. The step cycle of a job (R30-R42, R434-R442): what every unit saves at a start pick, what happens at the end
pick, at the commit pick, and when a run fails. -/
namespace Sys2Proof.Machine

/-! ## Classes and plans -/

/-- The draft that step k of an area runs: that of the bank it ran from, or of the bank it will. -/
def draftFor (s : State) (a k : Nat) : Draft :=
  let x := areaAt s a
  match x.job.steps.find? fun st => st.k == k with
  | some st => look default x.drafts st.bank
  | none =>
    let next := look default x.drafts (1 - x.bank)
    if x.swapOpen && decide (next.first = k) && decide (0 < k) then next else draftOf s a

/-- The address of the JOIN that opened step k in an area: word 0 for a draft's first step (R184, R204). -/
def openingAddr (s : State) (a k : Nat) : Nat :=
  if k = (draftFor s a k).first then 0
  else ((s.su.filter fun kv => areaOfSite s kv.1 == some a).findSome? fun kv =>
    (kv.2.savedJoin.find? fun x => x.1 == k).map fun x => x.2.1).getD 0

/-- The step class of step k: the entry of CLASSES with its opening JOIN (R211). -/
def stepClass (s : State) (a k : Nat) : Option Nat :=
  (classesIn (draftFor s a k).recs).findIdx? fun c => c.1 == openingAddr s a k

/-- The PORTPLAN payload of a port among records. -/
def planIn (l : List Rec) (p : Nat) : List Byte :=
  match l.find? fun r => r.type == 0x0C && r.target == attTarget (32 + p) with
  | some r => r.data
  | none => []

/-- The PORTPLAN payload in force at a port (R205, R282). -/
def portPlan (s : State) (p : Nat) : List Byte :=
  match areaOfAtt s (32 + p) with
  | none => []
  | some a => planIn (areaAt s a).recs p

/-- The class table's payload: the group's first member holds it (R288). -/
def groupPlan (l : List Rec) (p : Nat) : List Byte :=
  let d := planIn l p
  let g := bondFirst p (ppBond d)
  if g = p then d else planIn l g

/-- NENT and entry offset of a class in a plan. -/
def planTable (d : List Byte) (cls : Nat) : Option (Nat × Nat) :=
  ((List.range (ppNcls d)).find? fun i => (ppClass d i).1 == cls).map fun i => (ppClass d i).2

/-- Entry j of the plan of a port in a step class; 0 beyond NENT. -/
def planEntry (l : List Rec) (p cls j : Nat) : Nat :=
  let d := groupPlan l p
  match planTable d cls with
  | some (n, o) => if j < n then fld d (o + 8 * j) 8 else 0
  | none => 0

/-- NENT of the class of a step on a port. -/
def planLen (l : List Rec) (p cls : Nat) : Nat :=
  match planTable (groupPlan l p) cls with
  | some (n, _) => n
  | none => 0

/-- LEN of a class (R211). -/
def classLen (l : List Rec) (cls : Nat) : Nat := ((classesIn l).getD cls (0, 0, 0, 0)).2.1

/-- Step k with start S as the slot plans know it. -/
def planStep (s : State) (a k S : Nat) : List PlanStep :=
  match stepClass s a k with
  | none => []
  | some cls =>
    let l := (draftFor s a k).recs
    [{ k := k, s := S, cls := cls, len := classLen l cls, plans := l.filter (fun r => r.type == 0x0C), dead := false }]

/-- The steps whose slots a port may still receive at pick p: RELEASE reaches at most 255 picks back (R282, R285). -/
def prunePlan (p : Nat) : List PlanStep → List PlanStep
  | x :: y :: l => if y.s + 256 ≤ p then prunePlan p (y :: l) else x :: y :: l
  | l => l

/-- TX code of slot i, RX mark of slot i. -/
def peTx (e i : Nat) : Nat := bits e (2 * i + 1) (2 * i)
def peRx (e i : Nat) : Bool := bit e (28 + i)

/-- The ports of an area. -/
def areaPorts (s : State) (a : Nat) : List Nat :=
  (List.range 32).filter fun p => portPresent s.member p && decide (areaOfAtt s (32 + p) = some a)

/-- The SUs of an area that take part in its job: running and not fenced. -/
def areaSus (s : State) (a : Nat) : List Nat :=
  (s.su.filter fun kv => decide (areaOfSite s kv.1 = some a) && kv.2.seq.running && !(siteFenced s kv.1)).map Prod.fst

/-! ## Records that take effect at a draft's first step (R205, R206) -/

/-- EDGE in force at an attachment: partitions, lanes. -/
def edgeRec (s : State) (a t : Nat) : Option Config.Edge :=
  match recOf s a 0x0A (attTarget t) with
  | some r => Config.edgeOf r.data
  | none => none

/-- The attachment and area records of the draft of the active bank take effect, and go into their units. -/
def applyRecords (a : Nat) (s : State) : State :=
  let s := modArea a (fun x => { x with recs := (draftOf s a).recs.filter fun r => decide (0x0A ≤ r.type) }) s
  let w := (areaAt s a).word
  let atts := (List.range 65).filter fun t => attPresent s.member t && wHasAtt w t
  let s := { s with mm := whereTab default (fun n => wHasSite w n) (fun m => { m with lane := none }) s.mm }
  let s := each atts (fun t s =>
    match edgeRec s a t with
    | some e => each e.lanes (fun x => modMm x.site (fun m => { m with lane := some (t, x.send.link) })) (modAtt t (fun q => { q with sIn := e.sIn, sOut := e.sOut, series := e }) s)
    | none => modAtt t (fun q => { q with sIn := 0, sOut := 0, series := default }) s) s
  let shadow := match recOf s a 0x0E areaTarget with | some r => r.data | none => []
  modArea a (fun x => { x with applyAt := (List.range (shadow.length / 8)).foldl (fun t i => put 0 t (fld shadow (8 * i) 2) (fld shadow (8 * i + 4) 4)) [] }) s

/-- The key of a region's demand estimate in a phase: class and page (R387-R389). -/
def phaseKey (cls page : Nat) : Nat := 64 * cls + page

/-- The slack entries of the POWER record in force: class, page, region, SLKMIN, EXPW (R388). -/
def slackEntries (s : State) (a : Nat) : List (Nat × Nat × Nat × Nat × Nat) :=
  match recOf s a 0x0D areaTarget with
  | none => []
  | some r =>
    let d := r.data
    (List.range (fld d 4 4)).map fun i =>
      let o := 16 + 16 * (fld d 0 4 + i)
      (fld d o 2, fld d (o + 2) 1, fld d (o + 3) 1, fld d (o + 4) 1, fld d (o + 6) 2)

/-- The estimates of a draft's first step: EXPW for every declared phase (R389); the old draft's are discarded. -/
def resetEstimates (a : Nat) (s : State) : State :=
  let l := slackEntries s a
  each ((wRegions (areaAt s a).word).filter (· < numRegions s.member)) (fun r =>
    modRegion r (fun x => { x with est := l.foldl (fun t e => if e.2.2.1 = r then put 0 t (phaseKey e.1 e.2.1) (e.2.2.2.2 * 64) else t) [] })) s

/-! ## The start pick (R31, R57, R125, R159, R202, R205, R213, R236, R239, R455) -/

def Creel.save (k : Nat) (c : Creel) : Creel :=
  { c with saved := c.saved.filter (fun x => decide (x.1 + 2 > k) && decide (x.1 < k)) ++ [(k, c.desc, c.head, c.tail)] }
def Ring.save (k : Nat) (r : Ring) : Ring :=
  { r with saved := r.saved.filter (fun x => decide (x.1 + 2 > k) && decide (x.1 < k)) ++ [(k, r.desc, r.wptr, r.rptr)] }

/-- What an MM site saves and clears at S_k. -/
def Mm.start (k : Nat) (m : Mm) : Mm :=
  { m with creels := mapTab default (fun _ c => c.save k) m.creels, sp := { m.sp with acc := [], landing := [] } }

/-- What an MX site saves and clears at S_k. -/
def Mx.start (k : Nat) (x : Mx) : Mx :=
  { x with
    rings := mapTab default (fun _ r => r.save k) x.rings
    srSaved := x.srSaved.filter (fun y => decide (y.1 + 2 > k) && decide (y.1 < k)) ++ [(k, x.sr)]
    busy := []
    skip := { x.skip with skipped := 0, audited := 0, misses := 0 } }

/-- What an SF site saves at S_k. -/
def Sf.start (k : Nat) (x : Sf) : Sf :=
  { x with
    rings := mapTab default (fun _ r => r.save k) x.rings
    srSaved := x.srSaved.filter (fun y => decide (y.1 + 2 > k) && decide (y.1 < k)) ++ [(k, x.sr)] }

/-- What a switch records at S_k: the banks of its ports; the counts of R213 return to 0; no fell mark has passed. -/
def Switch.start (k : Nat) (w : Switch) : Switch :=
  { w with
    exc := []
    savedBank := w.savedBank.filter (fun y => decide (y.1 + 2 > k) && decide (y.1 < k)) ++
      [(k, (List.range 5).map fun p => (look default w.outp p).bank)]
    outp := mapTab default (fun _ o => { o with fellDone := false }) w.outp }

/-- The skim interval of a level (R453). -/
def skimInterval (level : Nat) : Nat := ([4096, 1024, 256, 64, 16, 4, 2, 1] : List Nat).getD level 1

/-- The buffer that does not hold the newer valid seal (R456). -/
def nextBuf (k : Skim) : Nat :=
  let none_ := 2 ^ 64 - 1
  if k.seals.1 = none_ then 0 else if k.seals.2 = none_ then 1 else if k.seals.1 < k.seals.2 then 0 else 1

/-- A run of the skim step mirrors afresh. -/
def Skim.fresh (k : Skim) : Skim := { k with ranges := k.ranges.map fun r => { r with count := 0, digest := 0 } }

/-- The skim at the start pick of step k (R455): `first` is its first run. -/
def skimPoint (a k : Nat) (first : Bool) (s : State) : State :=
  let x := areaAt s a
  let id := (draftOf s a).id
  if first && decide (k % skimInterval (aregAt s a).level = 0) then
    if x.skim.state = 1 ∧ ¬ x.skim.stopped then
      modArea a (fun y => { y with skim := { y.skim.fresh with state := 2, step := k, draftId := id, word := y.word, buf := nextBuf y.skim } }) s
    else if 2 ≤ x.skim.state then count 0x1D51 a 1 s
    else s
  else if x.skim.state = 2 ∧ x.skim.step = k then modArea a (fun y => { y with skim := y.skim.fresh }) s
  else s

/-- LEN of the step that JOINs issued before its start close, 0 where none has issued (R182, R183). -/
def joinLen (s : State) (a k : Nat) : Nat :=
  ((s.su.filter fun kv => decide (areaOfSite s kv.1 = some a)).findSome? fun kv =>
    match kv.2.join with
    | some j => if j.opens = k + 1 then some j.len else none
    | none => none).getD 0

/-- Step k of area a starts at pick S. -/
def stepStart (a k S : Nat) (s : State) : State :=
  let s := toPick S s
  let x := areaAt s a
  let d := draftOf s a
  let next := look default x.drafts (1 - x.bank)
  let swapping := x.swapOpen && decide (k = d.first + d.steps) && decide (next.first = k)
  let s := if swapping then modArea a (fun y => { y with bank := 1 - y.bank, complete := 0 }) s else s
  let d := draftOf s a
  let s := if k = d.first then
      let s := applyRecords a s
      if x.job.top ≤ k then resetEstimates a s else s
    else s
  let fell := decide (k + 1 = d.first + d.steps)
  let s := if fell && (areaAt s a).load.isSome then dropLoad a 0x8C09 s else s
  let s := if fell then modArea a (fun y => { y with swapOpen := decide (y.complete = 1) }) s else s
  let w := x.word
  let site := fun n => wHasSite w n
  let s := { s with
    mm := whereTab default site (Mm.start k) s.mm
    mx := whereTab default site (Mx.start k) s.mx
    sf := whereTab default site (Sf.start k) s.sf
    sw := whereTab default site (Switch.start k) s.sw
    su := whereTab default site (fun u => { u with status := 0 }) s.su
    att := whereTab default (fun t => wHasAtt w t) (fun q => { q with filled := [] }) s.att
    stks := whereTab default (fun t => wHasAtt w t) (fun t => { t with series := [], window := 0 }) s.stks }
  let s := skimPoint a k (decide (x.job.top ≤ k)) s
  modArea a (fun y => { y with
    halted := false
    job := { y.job with
      steps := y.job.steps ++ [{ (default : Step) with k := k, s := S, len := joinLen s a k, v := d.commitV, bank := y.bank }]
      nextK := k + 1
      run := if y.job.run = 0 then 1 else y.job.run
      top := max y.job.top (k + 1)
      plan := prunePlan S (y.job.plan ++ planStep s a k S)
      ras := 1 } }) s

/-- The start of the next step as an SU of the area knows it: its completed JOIN with START (R182). -/
def knownStart (s : State) (a : Nat) : Option Nat :=
  let k := (areaAt s a).job.nextK
  (s.su.filter fun kv => decide (areaOfSite s kv.1 = some a)).findSome? fun kv =>
    match kv.2.lastJoin with
    | some j => if j.opens = k then j.start else none
    | none => none

/-- STEP_START's effect: the next step starts at its agreed pick. At most two steps are uncommitted (R38); none starts under the clamp (R396). -/
def startNext (a : Nat) (s : State) : State :=
  let j := (areaAt s a).job
  match knownStart s a with
  | some S => if j.state = jRunning ∧ j.steps.length < 2 ∧ s.pwr.clamp = none then
      let s := toPick S s
      if jobRuns s a then stepStart a j.nextK S s else s
    else s
  | none => s

/-- Start the next step if its pick has come by ACLK t. -/
def startDue (a t : Nat) (s : State) : State :=
  match knownStart s a with
  | some S => if 8 * S ≤ t then startNext a s else s
  | none => s

/-! ## The end pick (R95, R126, R182, R201, R236, R322) -/

/-- Has the accumulator buffer work left (R236)? -/
def accResidue (p : Sparse) : Bool :=
  p.acc.any (fun kv => decide (kv.2.v ≠ 0) || kv.2.sour) || !p.landing.isEmpty || p.queues.any (fun kv => !kv.2.isEmpty) || p.rd.isSome || p.fl.isSome

/-- An MM site at E_k: commit creels record TAIL. -/
def Mm.endPick (k : Nat) (m : Mm) : Mm :=
  { m with creels := mapTab default (fun _ c => if crMode c.desc = 3 then { c with eTail := c.eTail.filter (fun x => x.1 != k) ++ [(k, c.tail)] } else c) m.creels }

/-- An MX site at E_k: the counts of the step wait for its commit (R240). -/
def Mx.endPick (k : Nat) (x : Mx) : Mx :=
  if x.skip.skipped = 0 ∧ x.skip.audited = 0 ∧ x.skip.misses = 0 then x
  else { x with skip := { x.skip with steps := x.skip.steps ++ [(k, x.skip.skipped, x.skip.audited, x.skip.misses)], skipped := 0, audited := 0, misses := 0 } }

/-- Can a port meet a fell mark (R85, R97): its bank in force holds an entry that is not idle, and it is not the SU's own port L (log 71)? -/
def meetsFell (s : State) (n p : Nat) : Bool :=
  let w := swAt s n
  let base := (5 * (look default w.outp p).bank + p) * 1024
  !(decide (p = 4) && decide (kindOf n = .su)) && w.weave.any fun kv => decide (base ≤ kv.1) && decide (kv.1 < base + 1024) && decide (weKind kv.2.toNat ≠ 0)

/-- The ports of a site's switch without the fell mark of this step (R201). -/
def fellMissing (s : State) (n : Nat) : List Nat := (List.range 5).filter fun p => !(look default (swAt s n).outp p).fellDone

/-- A heddle at the end pick: the barrier page, late sites, missing fell marks. -/
def heddleEnd (su : Nat) (fell : Bool) (bank : Nat) (s : State) : State :=
  let h := heddleOf su
  let u := suAt s su
  let s := match u.join with
    | some j => selectPage h j.bpg (modSu su (fun u => { u with barrier := some j.bpg }) s)
    | none => s
  let late := (List.range 16).any fun p => bit u.goMask p &&
    (match kindOfPos p with
     | .mx => (mxAt s (siteOf h p)).seq.running
     | .sf => (sfAt s (siteOf h p)).seq.running
     | _ => false)
  let s := if late then reportProg 0x4403 su u.seq.pc s else s
  let s := modSu su (fun u => { u with goMask := 0 }) s
  if fell then
    let sites := (heddleSites h).filter (switchOn s)
    let broken := sites.any fun n => (fellMissing s n).any (meetsFell s n)
    let s := each sites (fun n s => each (fellMissing s n) (fun p => switchBank n p bank s.now) s) s
    if broken then reportSite 0x4C10 su s else s
  else s

/-- Ports whose expected tally of step k has not come (R322). -/
def tallyMissing (s : State) (a k len : Nat) : List Nat :=
  match stepClass s a k with
  | none => []
  | some cls => (areaPorts s a).filter fun p =>
      ((List.range len).any fun j => bits (planEntry (draftFor s a k).recs p cls j) 41 28 != 0) && ((look default (shtAt s p).rxTally k).got).isNone

/-- The home SU of a port (R322). -/
def homeSu (p : Nat) : Nat := suOf (heddleOf (edgeSite (32 + p) 0).1)

/-- FAB_TALLY_LATE names the port; its verdict enters the home SU's heddle. -/
def portReport (s : State) (p : Nat) : Report349 := { attReport s (32 + p) with heddle := some (heddleOf (homeSu p)), wu := some (.lane p 15) }

/-- STEP_END_PICK's effect on the running step of area a. -/
def endPick (a : Nat) (s : State) : State :=
  match curStep s a with
  | none => s
  | some st =>
    if st.ended ∨ st.len = 0 ∨ (areaAt s a).job.state ≠ jRunning then s
    else
      let s := toPick (st.s + st.len) s
      if !jobRuns s a then s else
      let x := areaAt s a
      let d := draftOf s a
      let fell := decide (st.k + 1 = d.first + d.steps) && x.swapOpen
      let s := modCurStep a (fun k => { k with ended := true }) s
      let s := each (areaSus s a) (fun su => heddleEnd su fell (1 - x.bank)) s
      let w := x.word
      let site := fun n => wHasSite w n
      let acc := (s.mm.filter fun kv => site kv.1 && accResidue kv.2.sp).map Prod.fst
      let slack := s.sw.flatMap fun kv => if site kv.1 then (kv.2.inp.filter fun i => !i.2.q.isEmpty).map fun i => (kv.1, i.1) else []
      let s := { s with mm := whereTab default site (Mm.endPick st.k) s.mm, mx := whereTab default site (Mx.endPick st.k) s.mx }
      let s := each slack (fun x s => reportPort 0x4515 x.1 x.2 false s) s
      let s := each acc (fun n s => reportSite 0x4244 n s) s
      each (tallyMissing s a st.k st.len) (fun p s => report 0x3811 (portReport s p) (modAreg a (fun g => { g with late := satAdd 0xFFFF g.late 1 }) s)) s

/-! ## Commit (R34, R57, R125-R127, R240, R456) -/

/-- A creel at C_k: CTAIL takes the recorded TAIL; saved pairs go; cells freed wait in whole transfers. -/
def Creel.commit (k : Nat) (c : Creel) : Creel × Nat :=
  let cells := (c.freed.filter fun x => x.1 == k || x.1 == carryKey).foldl (fun n x => n + x.2) 0
  let rest := cells % crPadv c.desc
  ({ c with
     ctail := match c.eTail.find? (fun x => x.1 == k) with | some x => x.2 | none => c.ctail
     eTail := c.eTail.filter fun x => x.1 != k
     saved := c.saved.filter fun x => x.1 != k
     freed := (c.freed.filter fun x => x.1 != k && x.1 != carryKey) ++ (if rest = 0 then [] else [(carryKey, rest)]) }, cells / crPadv c.desc)

/-- An MM site at C_k: its creels, and the credits they return (R127). -/
def Mm.commit (k : Nat) (m : Mm) : Mm :=
  { m with
    creels := mapTab default (fun _ c => (c.commit k).1) m.creels
    grants := m.creels.foldl (fun g kv => alter 0 g kv.1 (· + (kv.2.commit k).2)) m.grants }

/-- Saturating triple of MX_SKIP. -/
def skipTotal (t : Nat × Nat × Nat) (x : Nat × Nat × Nat) : Nat × Nat × Nat :=
  (satAdd (2 ^ 24 - 1) t.1 x.1, satAdd (2 ^ 20 - 1) t.2.1 x.2.1, satAdd (2 ^ 20 - 1) t.2.2 x.2.2)

/-- An MX site at C_k. -/
def Mx.commit (k : Nat) (x : Mx) : Mx :=
  { x with
    rings := mapTab default (fun _ r => { r with saved := r.saved.filter fun y => y.1 != k }) x.rings
    srSaved := x.srSaved.filter fun y => y.1 != k
    skip := { x.skip with
      total := (x.skip.steps.filter fun y => y.1 == k).foldl (fun t y => skipTotal t y.2) x.skip.total
      steps := x.skip.steps.filter fun y => y.1 != k } }

/-- An SF site at C_k. -/
def Sf.commit (k : Nat) (x : Sf) : Sf :=
  { x with
    rings := mapTab default (fun _ r => { r with saved := r.saved.filter fun y => y.1 != k }) x.rings
    srSaved := x.srSaved.filter fun y => y.1 != k }

/-- The skim when step k commits (R456). -/
def skimCommit (a k : Nat) (s : State) : State :=
  let q := (areaAt s a).skim
  if q.state ≠ 2 ∨ q.step ≠ k then s
  else if q.ranges.all fun r => decide (128 * r.count = r.len) then
    modArea a (fun x => { x with skim := { x.skim with state := 3, sent := 0, outstanding := 0, began := false, sealing := false, lastAt := s.up } }) s
  else skimFailRecord a 0 (modArea a (fun x => { x with skim := { x.skim with state := 1 } }) s)

/-- Does step k meet R34 at its commit pick: nothing reported or written sour, and every SU of the area holds a decision
with STATUS 0 (R316)? -/
def stepOk (s : State) (a : Nat) (st : Step) : Bool :=
  decide (st.status = 0) && !st.failed && !(areaSus s a).isEmpty && (areaSus s a).all fun n => match (suAt s n).downOut with
    | some (k :: status :: _) => decide (k = st.k + 1) && decide (status = 0)
    | _ => false

/-- Step k, the oldest uncommitted one, commits. -/
def commitStep (a : Nat) (st : Step) (s : State) : State :=
  let k := st.k
  let x := areaAt s a
  let site := fun n => wHasSite x.word n
  let d := look default x.drafts st.bank
  let fell := decide (k + 1 = d.first + d.steps)
  let s := { s with
    mm := whereTab default site (Mm.commit k) s.mm
    mx := whereTab default site (Mx.commit k) s.mx
    sf := whereTab default site (Sf.commit k) s.sf
    sw := whereTab default site (fun w => { w with savedBank := w.savedBank.filter fun y => y.1 != k }) s.sw }
  let s := skimCommit a k s
  let last := fell && !x.swapOpen
  let s := modArea a (fun y => { y with
    swapOpen := if fell then false else y.swapOpen
    job := { y.job with committed := some k, steps := y.job.steps.drop 1, run := if 1 < y.job.steps.length then 1 else 0, cycle := 0, named1 := [], named2 := [] } }) s
  if last then endJob a s else s

/-! ## A run fails (R39, R57, R125, R156, R159, R184, R202, R236, R260, R287) -/

/-- A creel back at S_k: an elastic one keeps its TAIL, a commit one takes CTAIL. -/
def Creel.restore (k : Nat) (c : Creel) : Creel :=
  match c.saved.find? (fun x => x.1 == k) with
  | none => default
  | some (_, d, h, t) =>
    let same := decide (c.desc = d)
    { c with
      desc := d
      staged := d
      head := h
      tail := if crMode d = 2 ∧ same then c.tail else if crMode d = 3 then (if same then c.ctail else t) else t
      ctail := if crMode d = 3 then (if same then c.ctail else t) else if crMode d = 2 ∧ same then c.tail else t
      saved := c.saved.filter fun x => decide (x.1 < k)
      eTail := c.eTail.filter fun x => decide (x.1 < k)
      freed := c.freed.filter fun x => decide (x.1 < k) || x.1 == carryKey }

/-- A ring back at S_k. -/
def Ring.restore (k : Nat) (r : Ring) : Ring :=
  match r.saved.find? (fun x => x.1 == k) with
  | none => default
  | some (_, d, w, p) => { r with desc := d, staged := d, wptr := w, rptr := p, saved := r.saved.filter fun x => decide (x.1 < k) }

/-- The value saved for k, else 0. -/
def savedWord (k : Nat) (l : List (Nat × W32)) : W32 := match l.find? (fun x => x.1 == k) with | some x => x.2 | none => 0

/-- The banks a switch saved for k. -/
def savedBanks (k : Nat) (w : Switch) : List Nat := match w.savedBank.find? (fun x => x.1 == k) with | some x => x.2 | none => []

/-- A switch back at S_k: its banks; FIFOs, flits in flight and latches cleared (R95). Its outputs are idle until ACLK t,
ACLK 0 of the next pick, where the barrier page is selected (R39, R184, R202; DEDUCED, log 29). -/
def Switch.restore (k t : Nat) (w : Switch) : Switch :=
  let b := savedBanks k w
  let w := w.cleared
  { w with
    savedBank := w.savedBank.filter fun x => decide (x.1 < k)
    outp := (List.range 5).foldl (fun x p => alter default x p (fun o => { o with bank := b.getD p 0, since := t })) w.outp }

/-- An MM site back at S_k; its pull plan is idle until ACLK t, as the switch is. -/
def Mm.restore (k bank t : Nat) (m : Mm) : Mm :=
  { m with
    creels := mapTab default (fun _ c => c.restore k) m.creels
    bank := bank
    since := t
    sp := m.sp.stopped }

/-- An MX site back at S_k: stopped, idle; its stochastic-rounding state, rings and bank restored (R156). -/
def Mx.restore (k bank : Nat) (x : Mx) : Mx :=
  let y := x.idle
  { y with
    seq := { y.seq with bank := bank }
    rings := mapTab default (fun _ r => r.restore k) x.rings
    sr := savedWord k x.srSaved
    srSaved := x.srSaved.filter fun z => decide (z.1 < k)
    skip := { x.skip with skipped := 0, audited := 0, misses := 0, steps := x.skip.steps.filter fun z => decide (z.1 < k) } }

/-- An SF site back at S_k. -/
def Sf.restore (k bank : Nat) (x : Sf) : Sf :=
  let y := x.idle
  { y with
    seq := { y.seq with bank := bank }
    rings := mapTab default (fun _ r => r.restore k) x.rings
    sr := savedWord k x.srSaved
    srSaved := x.srSaved.filter fun z => decide (z.1 < k) }

/-- A port at a failure: held slots of steps from k on, slots taken and received slots are discarded (R287). -/
def Shuttle.restore (a k : Nat) (p : Shuttle) : Shuttle :=
  { p with
    held := p.held.filter fun x => !(decide (x.area = a) && decide (k ≤ x.step))
    txSlots := []
    rxSlots := []
    txTally := keepTab (fun i => decide (i < k)) p.txTally
    rxTally := keepTab (fun i => decide (i < k)) p.rxTally }

/-- Site L's bank in a switch saved for k. -/
def siteBank (s : State) (k n : Nat) : Nat := (savedBanks k (swAt s n)).getD 4 0

/-- Every unit of area a goes back to S_k, SUs apart. -/
def restoreUnits (a k : Nat) (s : State) : State :=
  let w := (areaAt s a).word
  let site := fun n => wHasSite w n
  let att := fun t => wHasAtt w t
  { s with
    mm := mapTab default (fun n m => if site n then m.restore k (siteBank s k n) (8 * (s.pick + 1)) else m) s.mm
    mx := mapTab default (fun n m => if site n then m.restore k (siteBank s k n) else m) s.mx
    sf := mapTab default (fun n m => if site n then m.restore k (siteBank s k n) else m) s.sf
    sw := whereTab default site (Switch.restore k (8 * (s.pick + 1))) s.sw
    stks := whereTab default att Stack.cleared s.stks
    sht := whereTab default (fun p => att (32 + p)) (Shuttle.restore a k) s.sht
    att := whereTab default att (fun q => { q with inS := [], outS := [] }) s.att }

/-- The fields of a JOIN word (R178). -/
def joinOf (w : W64) (endP opens : Nat) (ready : Option Nat) : Join :=
  { len := bits w.toNat 55 32, d := bits w.toNat 31 20, bpg := bits w.toNat 19 14, nch := bits w.toNat 13 10
    root := bit w.toNat 9, dev := bit w.toNat 8, endPick := endP, opens := opens, ready := ready, start := none, startSeen := 0 }

/-- An SU stops what it does for its step, its program too until it joins a barrier again (R437). -/
def Su.halted (u : Su) : Su := { u with seq := { u.seq with stopped := true }, timers := [], conds := [], kids := [], status := 0, goMask := 0, tokOut := [], starts := [], join := none, lastJoin := none, downOut := none }

/-- An SU at the second failure of step k: no new start barrier, and from the next pick the barrier page of the JOIN that
opened the step (R202, R437). -/
def Su.waits (k p : Nat) (u : Su) : Su :=
  match u.savedJoin.find? fun x => x.1 == k with
  | none => u.halted
  | some (_, _, _, _, w) => { u.halted with timers := [(8 * (p + 1), .barrier (joinOf w p k none).bpg)] }

/-- An SU returns to the JOIN that opened step k and joins a new barrier, ready at pick p; from the next pick it selects that
JOIN's barrier page (R184). -/
def Su.rejoin (k p : Nat) (u : Su) : Su :=
  match u.savedJoin.find? fun x => x.1 == k with
  | none => u.halted
  | some (_, pc, loops, bank, w) =>
    let j := joinOf w p k (some p)
    { u.halted with
      seq := { u.seq with bank := bank, pc := pc, loops := loops, next := 8 * p + 1, running := true, stopped := false }
      join := some j
      inStep := k
      timers := [(8 * (p + 1), .barrier j.bpg)]
      savedJoin := u.savedJoin.filter fun x => decide (x.1 ≤ k) }

/-- Step k has failed at pick p: every participant abandons what runs, and returns to S_k (R39). -/
def abandon (a k : Nat) (bank : Nat) (s : State) : State :=
  let s := restoreUnits a k s
  let s := modArea a (fun x => { x with
    complete := if x.bank ≠ bank ∨ x.swapOpen then 1 else x.complete
    bank := bank
    job := { x.job with
      steps := x.job.steps.filter (fun y => decide (y.k < k)), nextK := k
      plan := x.job.plan.map fun y => if k ≤ y.k then { y with dead := true } else y } }) s
  applyRecords a s

/-- Every SU of the area joins the barrier of step k, ready at pick p. -/
def rejoinAll (a k p : Nat) (s : State) : State :=
  { s with su := whereTab default (fun n => wHasSite (areaAt s a).word n) (fun u => if u.seq.running then u.rejoin k p else u) s.su }

/-- The units a step's reports name join those of its run (R438). -/
def mergeUnits (l m : List WatchUnit) : List WatchUnit := l ++ m.filter fun u => !l.contains u

/-- A second failure of a step (R437, R440): the cycle ends, and the area is remapped or, at the fourth, its job ends. `back`: a first failure has
already taken the units back to S_k. -/
def secondFailure (a : Nat) (st : Step) (back : Bool) (s : State) : State :=
  let p := s.pick
  let s := modArea a (fun y => { y with job := { y.job with
    cycle := y.job.cycle + 1
    named1 := if y.job.run = 2 then y.job.named1 else st.named
    named2 := if y.job.run = 2 then st.named else [] } }) s
  let s := report 0x1E02 { (default : Report349) with area := some a, unit := hubIdx, step := some st.k } s
  let s := modArea a (fun y => { y with remaps := satAdd 0xFFFF y.remaps 1 }) s
  if 4 ≤ (areaAt s a).job.cycle then report 0x5E04 { (default : Report349) with area := some a, unit := hubIdx, step := some st.k } s
  else
    let s := if back then s else abandon a st.k st.bank s
    let s := { s with su := whereTab default (fun n => wHasSite (areaAt s a).word n) (Su.waits st.k p) s.su }
    modArea a (fun y => { y with job := { y.job with ras := 2, remapAt := s.up, run := 0 } }) s

/-- Step k, the oldest uncommitted one, fails at its commit pick (R434-R442). -/
def failStepAt (a : Nat) (st : Step) (s : State) : State :=
  let x := areaAt s a
  let p := s.pick
  let sour := decide ((st.status / 2) % 2 = 1) && !st.origin
  if sour then
    let g := st.stored.getD (hubIdx, 0)
    report 0x5E10 { (default : Report349) with area := some a, unit := g.1, step := some st.k, aux := leBytes 8 g.2 } s
  else if st.clamp ∧ ¬ st.second then rejoinAll a st.k p (abandon a st.k st.bank s)
  else if st.second ∨ 2 ≤ x.job.run then secondFailure a st false s
  else
    let s := count 0x1E01 hubIdx 1 s
    let s := modArea a (fun y => { y with replays := satAdd 0xFFFF y.replays 1, job := { y.job with run := 2, named1 := mergeUnits y.job.named1 st.named } }) s
    rejoinAll a st.k p (abandon a st.k st.bank s)

/-- STEP_COMMIT's effect: the oldest uncommitted step meets its commit pick C_k = E_k + V (R34, R35). -/
def commitOldest (a : Nat) (s : State) : State :=
  let j := (areaAt s a).job
  if j.state ≠ jRunning then s
  else match j.steps with
    | [] => s
    | st :: _ =>
      if st.len = 0 then s
      else
        let s := if st.ended then s else endPick a s
        let s := toPick (st.s + st.len + st.v) s
        match (areaAt s a).job.steps with
        | [] => s
        | st :: _ => if (areaAt s a).job.state ≠ jRunning then s else if stepOk s a st then commitStep a st s else failStepAt a st s

/-- The commit pick of the oldest uncommitted step, where its length is known. -/
def nextCommit (s : State) (a : Nat) : Option Nat :=
  match (areaAt s a).job.steps with
  | st :: _ => if st.len = 0 then none else some (st.s + st.len + st.v)
  | [] => none

/-- Decide every step of the area whose commit pick comes before pick p (R354). -/
def commitBefore (a p : Nat) : Nat → State → State
  | 0, s => s
  | f + 1, s => match nextCommit s a with
    | some c => if c < p ∧ jobRuns s a then commitBefore a p f (commitOldest a s) else s
    | none => s

end Sys2Proof.Machine
end

