-- ==== Sys2Proof/Machine/Shuttle.lean ====
section
/-! DEFINITION. Shuttle ports (09, R271-R293): frames out and in, codewords, scheduled slots, credits, states, spare lanes. -/
namespace Sys2Proof.Machine

/-! ## Elastic frames (R279-R281) -/

/-- Fields of a frame's 8-byte header (R279). -/
def fhType (f : List Byte) : Nat := bits (fld f 0 8) 6 0
def fhVc (f : List Byte) : Nat := bits (fld f 0 8) 7 7
def fhDst (f : List Byte) : Nat := bits (fld f 0 8) 19 8
def fhSrc (f : List Byte) : Nat := bits (fld f 0 8) 31 20
def fhLen (f : List Byte) : Nat := bits (fld f 0 8) 42 32
def fhTtl (f : List Byte) : Nat := bits (fld f 0 8) 47 43
/-- The payload bytes. -/
def fhPay (f : List Byte) : List Byte := sub f 8 (4 * fhLen f)

/-- The header and payload without the CRC. -/
def frameBody (type vc dst src ttl : Nat) (pay : List Byte) : List Byte :=
  leBytes 8 (type + vc * 2 ^ 7 + dst * 2 ^ 8 + src * 2 ^ 20 + pay.length / 4 * 2 ^ 32 + ttl * 2 ^ 43) ++ pay

/-- A body closed by its CRC-32C. -/
def sealFrame (b : List Byte) : List Byte := b ++ leBytes 4 (crc32c b)

/-- A whole frame. -/
def mkFrame (type vc dst src ttl : Nat) (pay : List Byte) : List Byte := sealFrame (frameBody type vc dst src ttl pay)

/-- Units a frame costs (R281). -/
def frameUnits (f : List Byte) : Nat := (f.length + 63) / 64

/-- Buffer units of a class (R281). -/
def vcBuffer (v : Nat) : Nat := if v = 0 then 128 else 896

/-- Serial order modulo 65,536: is a before or at b? -/
def serialLe (a b : Nat) : Bool := decide ((b + 65536 - a % 65536) % 65536 < 32768)

/-- Listed types of R279 and R303. -/
def typeKnown (t : Nat) : Bool := [0x01, 0x10, 0x11, 0x13, 0x20, 0x21, 0x22, 0x30, 0x31].contains t

/-- Is a frame whole: LEN in range, length right, CRC right, TYPE not reserved (R280)? -/
def frameOk (f : List Byte) : Bool :=
  decide (fhLen f ≤ 1040) && decide (f.length = 12 + 4 * fhLen f) && typeKnown (fhType f)
  && decide (fld f (8 + 4 * fhLen f) 4 = crc32c (sub f 0 (8 + 4 * fhLen f)))

/-- Queue a frame on a port in a state that sends frames; skim writes go before other frames of VC1 (R456). -/
def queueFrame (p : Nat) (f : List Byte) (s : State) : State :=
  if (shtAt s p).state < 2 then s else modSht p (fun x => { x with txq := x.txq ++ [f] }) s

/-- Is the frame an RMA write of the skim engine: its TAG has bit 15 set? -/
def isSkimFrame (f : List Byte) : Bool := fhType f == 0x21 && bit (fld f 20 2) 15

/-- The frame of a class the sender takes next: an urgent TALLY, or a skim write, before the others (R321, R456). -/
def nextOfClass (v : Nat) (q : List (List Byte)) : Option (List Byte) :=
  let l := q.filter fun f => fhVc f == v
  match l.find? fun f => fhType f == 0x13 || isSkimFrame f with
  | some f => some f
  | none => l.head?

/-- Is the TYPE routed (R303)? -/
def typeRouted (t : Nat) : Bool := [0x20, 0x21, 0x22, 0x30, 0x31].contains t

/-- May the sender start a frame under its credits (R281, R321)? A routed frame comes to the framer by the port transmit loop, `room` telling whether
that has a credit (R102, R103; log 75). -/
def mayStart (room : Bool) (x : Shuttle) (f : List Byte) : Bool :=
  let v := fhVc f
  let after := look 0 x.sent v + frameUnits f
  let lim := look 0 x.lim v
  (room || !typeRouted (fhType f)) && serialLe after lim && (v != 0 || fhType f == 0x13 || serialLe (after + 2) lim)

/-- The frame started next: a TALLY, then VC0, then VC1. -/
def nextFrame (room : Bool) (x : Shuttle) : Option (List Byte) :=
  ([nextOfClass 0 x.txq, nextOfClass 1 x.txq].filterMap id).find? (mayStart room x)

/-- ELASTIC_FRAME_SEND (R281): at a frame boundary of its stream the port starts the next frame its credits allow. -/
def execElasticFrameSend (p : Nat) (s : State) : Out :=
  atShuttle p (fun s =>
    let x := shtAt s p
    if x.state < 2 then s
    else match nextFrame (decide (0 < creditsLeft (attAt s (32 + p)) 2)) x with
      | none => s
      | some f =>
        let s := if typeRouted (fhType f) then modAtt (32 + p) (takeCredit 2 s.now 0) s else s
        modSht p (fun x => { x with
          txq := x.txq.erase f, stream := x.stream ++ [f]
          sent := alter 0 x.sent (fhVc f) fun n => (n + frameUnits f) % 65536 }) s) s

/-! ## The pick frame out (R276-R281) -/

/-- The device's offer as TSTAT (R277, R294). -/
def ownTstat (s : State) : Nat :=
  let t := s.time
  t.tmid + t.hops * 2 ^ 12 + t.gen * 2 ^ 18 + b2n t.locked * 2 ^ 26 + t.tprio * 2 ^ 28

/-- The failed lane a port reports until it is replaced (R293). -/
def failedLane (x : Shuttle) : Option Nat :=
  (List.range 16).find? fun l => (look default x.lanes l).failed && (look default x.lanes l).role != 15

/-- LCTL (R277). -/
def ownLctl (x : Shuttle) : Nat :=
  b2n x.sprdy + (match failedLane x with | some l => l * 2 + 2 ^ 5 | none => 0)

/-- Units of a class not yet sent in full. -/
def unsentUnits (x : Shuttle) (v : Nat) : Nat := (x.stream.filter fun f => fhVc f == v).foldl (fun n f => n + frameUnits f) 0

/-- The units SENTv counts (R281). -/
def sentCount (x : Shuttle) (v : Nat) : Nat := (look 0 x.sent v + 65536 - unsentUnits x v) % 65536

/-- LIMv as this receiver grants it. -/
def ownLim (x : Shuttle) (v : Nat) : Nat := (look 0 x.freed v + vcBuffer v) % 65536

/-- Bytes of the stream that wait. -/
def waitingBytes (x : Shuttle) : List Byte := x.stream.flatten.drop x.streamOff

/-- The stream after n more bytes are sent. -/
def advanceStream (n : Nat) : List (List Byte) → Nat → List (List Byte) × Nat
  | [], _ => ([], 0)
  | f :: r, o => if o + n < f.length then (f :: r, o + n) else advanceStream (n - (f.length - o)) r 0

/-- The word offset of the first frame boundary in a pick's stream of n bytes (R277). -/
def firstBoundary (x : Shuttle) (n : Nat) : Nat :=
  match x.stream with
  | [] => 0
  | f :: _ => if x.streamOff = 0 then 0 else if f.length - x.streamOff < n then (f.length - x.streamOff) / 4 else 0xFFFF

/-- The little-endian number of a slot payload's bytes. -/
def slotOf (b : List Byte) : BitVec 4096 := BitVec.ofNat 4096 (leNat b)

/-- The pick header (R277). -/
def pickHeader (s : State) (x : Shuttle) (P : Nat) (sched elas : List Nat) (sour : Nat → Nat) (first : Nat) : List Byte :=
  let map := sched.foldl (fun m i => m + 4 ^ i) 0 + elas.foldl (fun m i => m + 2 * 4 ^ i) 0
  leBytes 8 P ++ leBytes 4 map ++ ((List.range 14).flatMap fun i => leBytes 4 (sour i)) ++ leBytes 2 first
  ++ leBytes 2 (ownLim x 0) ++ leBytes 2 (ownLim x 1) ++ leBytes 2 (sentCount x 0) ++ leBytes 2 (sentCount x 1)
  ++ leBytes 4 (ownTstat s) ++ leBytes 2 (ownLctl x)

/-! ## The slot plan (R282) -/

/-- The steps of an area in the order of their starts, the next one last where its start is known. -/
def planSteps (s : State) (a : Nat) : List PlanStep :=
  (areaAt s a).job.plan ++ (match knownStart s a with | some S => if jobRuns s a then planStep s a (areaAt s a).job.nextK S else [] | none => [])

/-- The plan entry of a port for pick P: area, step, offset, entry (R282): that of the last step that starts by P. -/
def planAt (s : State) (p P : Nat) : Option (Nat × PlanStep × Nat × Nat) :=
  match areaOfAtt s (32 + p) with
  | none => none
  | some a => match (planSteps s a).foldl (fun acc x => if x.s ≤ P then some x else acc) none with
    | none => none
    | some x => some (a, x, P - x.s, planEntry x.plans p x.cls (P - x.s))

/-- The block of a slot in a tally (R320). -/
def tallyBlock (j i sour : Nat) (data : BitVec 4096) : List Byte :=
  leBytes 2 j ++ leBytes 1 i ++ leBytes 1 0 ++ leBytes 4 sour ++ leBytes 512 data.toNat

/-- The tally with one more slot. -/
def Tally.fold (j i sour : Nat) (data : BitVec 4096) (t : Tally) : Tally :=
  { t with crc := crcFeed poly64 (tallyBlock j i sour data) (t.crc ^^^ (2 ^ 64 - 1)) ^^^ (2 ^ 64 - 1), slots := t.slots + 1, last := j }

/-- Count a slot that is sent into its step's contribution (R319), and a sour segment against the step (R34). -/
def sendTally (p : Nat) (t : TxSlot) (s : State) : State :=
  let s := if t.inLen then modSht p (fun x => { x with txTally := alter default x.txTally t.step (Tally.fold t.off t.slot t.sour.toNat t.data) }) s else s
  if t.sour = 0 then s else noteSour (areaOfAtt s (32 + p)) (some (heddleOf (homeSu p))) s

/-- Data of four flits and their sour word (R277). -/
def slotData (l : List Flit) : BitVec 4096 × W32 :=
  (BitVec.ofNat 4096 (l.foldr (fun f n => f.data.toNat + 2 ^ 1024 * n) 0), BitVec.ofNat 32 (l.foldr (fun f n => f.sour.toNat + 256 * n) 0))

/-- Take four flits from the port's inbound scheduled partition; too few raise WRP_EDGE_LATE and every segment is sour, the
bits being unstated (log 11). -/
def takeFour (p : Nat) (s : State) : BitVec 4096 × W32 × State :=
  let q := (attAt s (32 + p)).inS
  let s := modAtt (32 + p) (fun q => { q with inS := q.inS.drop 4 }) s
  if 4 ≤ q.length then
    let d := slotData ((q.take 4).map QEntry.flit)
    (d.1, d.2, s)
  else
    let v := freshValue s
    (BitVec.ofNat 4096 v.1, BitVec.allOnes 32, reportEdge 0x3520 (edgeSite (32 + p) 0).1 (edgeSite (32 + p) 0).2 true v.2)

/-- A schedule defect at a slot (R300): the pick and the slot stand in AUX. -/
def slotReport (s : State) (p P i : Nat) : Report349 :=
  { attReport s (32 + p) with aux := leBytes 8 P ++ leBytes 1 i, wu := some (.lane p 15) }

/-- Take a slot for the frame of pick P. -/
def frameSlot (p : Nat) (t : TxSlot) (s : State) : State := modSht p (fun x => { x with txSlots := x.txSlots ++ [t] }) s

/-- Has the step of a held slot committed (R286)? -/
def heldReady (s : State) (h : HeldSlot) : Bool :=
  match (areaAt s h.area).job.committed with | some c => decide (h.step ≤ c) | none => false

/-- One slot of the entry for pick P: 1 send, 2 hold, 3 release. A release waits for the pick of its frame: by then the step that held it has
committed in a fault-free run (R286). -/
def takeSlot (p P : Nat) (e : Nat × PlanStep × Nat × Nat) (i : Nat) (s : State) : State :=
  let (a, x, j, ent) := e
  let tx := peTx ent i
  let slot : TxSlot := { pick := P, slot := i, step := x.k, off := j, inLen := decide (j < x.len), rel := decide (tx = 3), data := 0, sour := 0 }
  if tx = 0 then s
  else if tx = 1 then
    let r := takeFour p s
    frameSlot p { slot with data := r.1, sour := r.2.1 } r.2.2
  else if tx = 2 then
    if 256 ≤ (shtAt s p).held.length then report 0x4705 (slotReport s p P i) s
    else
      let r := takeFour p s
      modSht p (fun y => { y with held := y.held ++ [{ area := a, step := x.k, data := r.1, sour := r.2.1 }] }) r.2.2
  else frameSlot p slot s

/-- SLOT_TAKE (R284, R286): at ACLK 0 of a pick the framer serves the slots of the next pick in ascending order, unless the step has failed (R287). -/
def execSlotTake (p : Nat) (s : State) : Out :=
  atShuttle p (fun s =>
    let s := toPick ((s.now + 7) / 8) s
    match planAt s p (s.pick + 1) with
    | none => s
    | some e => if jobRuns s e.1 && !e.2.1.dead then each (List.range 14) (takeSlot p (s.pick + 1) e) s else s) s

/-! ## The pick frame out (R274, R276, R286, R292) -/

/-- Find the held slot of a release: the oldest, if its step has committed; else nothing is sent and SHT_HOLD is raised (R286). -/
def resolveRelease (p : Nat) (t : TxSlot) (s : State) : State :=
  let s := modSht p (fun x => { x with txSlots := x.txSlots.erase t }) s
  match (shtAt s p).held with
  | [] => report 0x4705 (slotReport s p t.pick t.slot) s
  | h :: r =>
    if heldReady s h then frameSlot p { t with rel := false, data := h.data, sour := h.sour } (modSht p (fun x => { x with held := r }) s)
    else report 0x4705 (slotReport s p t.pick t.slot) s

/-- Move a transmit role to the spare; the lane it leaves is the spare. -/
def moveRole (l : Nat) (x : Shuttle) : Shuttle :=
  { x with txRole := put 0 (put 0 x.txRole x.txSpare (look 0 x.txRole l)) l 15, txSpare := l }

/-- From the superframe after a mirror the spare carries the role and the lane it relieved is the spare (R292). -/
def Shuttle.rotated (P : Nat) (x : Shuttle) : Shuttle :=
  match x.mirror with
  | some (q, l) => if q + 32 ≤ P then { moveRole l x with rot := x.rot + 1, mirror := none } else x
  | none => x

/-- Role and MIRROR of a transmit lane in the superframe of pick P: the spare mirrors the lane it will relieve. -/
def laneSends (x : Shuttle) (P l : Nat) : Nat × Nat :=
  match x.mirror with
  | some (q, m) => if q ≤ P ∧ l = x.txSpare then (look 0 x.txRole m, 1) else (look 0 x.txRole l, 0)
  | none => (look 0 x.txRole l, 0)

/-- The codewords that the frame of pick P completes, lane by lane (R273, R274); one whose first part was sent before the frames began is not the
port's (log 41). -/
def codewordsOf (x : Shuttle) (p P : Nat) : List Sent :=
  let frame := fun i => match x.frames.find? (fun y => y.1 == P / 32 * 32 + i) with | some y => y.2 | none => []
  let whole := fun c => (List.range (P % 32 + 1)).all fun i => decide (500 * (i + 1) ≤ 640 * c) || x.frames.any fun y => y.1 == P / 32 * 32 + i
  (List.range 16).flatMap fun l => ((endsIn (P % 32)).filter whole).map fun c =>
    let r := laneSends x P l
    .codeword p l (laneCodeword frame l r.1 r.2 (P / 32) c)

/-- The bytes of a slot of a frame: what was taken for it, else the elastic stream's, else v, an empty slot's bytes being unstated. -/
def slotBytes (l : List (Nat × BitVec 4096)) (v i : Nat) : List Byte :=
  leBytes 512 (match l.find? fun x => x.1 == i with | some x => x.2.toNat | none => v)

/-- PICK_FRAME_SEND (R276): the frame of the pick that begins now, with the slots taken for it; what else it carries is the
elastic stream, in as many free slots as it needs and the tail (log 40). It goes to the lane coder (R274). -/
def execPickFrameSend (p : Nat) (s : State) : Out :=
  atShuttle p (fun s =>
    let s := toPick ((s.now + 7) / 8) s
    let s := match areaOfAtt s (32 + p) with | some a => startDue a s.now (commitBefore a (s.pick + 1) 2 s) | none => s
    let P := s.pick
    let s := each ((shtAt s p).txSlots.filter fun t => t.pick == P && t.rel) (resolveRelease p) s
    let s := modSht p (fun x => x.rotated P) s
    let x := shtAt s p
    if x.state < 2 then modSht p (fun x => { x with txSlots := x.txSlots.filter fun t => decide (P < t.pick) }) s
    else
      let mine := if x.state = 3 then (List.range 14).filterMap fun i => x.txSlots.find? fun t => t.pick == P && t.slot == i else []
      let s := each mine (sendTally p) s
      let sched := mine.map TxSlot.slot
      let free := (List.range 14).filter fun i => !sched.contains i
      let all := waitingBytes x
      let n := min free.length ((all.length - 248 + 511) / 512)
      let elas := free.take n
      let cap := 512 * n + 248
      let sour := fun i => match mine.find? (fun t => t.slot == i) with | some t => t.sour.toNat | none => 0
      let h := pickHeader s x P sched elas sour (firstBoundary x cap)
      let slots := mine.map (fun t => (t.slot, t.data)) ++ (List.range n).map fun j => (elas.getD j 0, slotOf (sub all (512 * j) 512))
      let tail := sub all (512 * n) 248
      let v := freshValue s
      let frame := h ++ ((List.range 14).flatMap (slotBytes slots v.1)) ++ tail
      let st := advanceStream cap x.stream x.streamOff
      let s := modSht p (fun x => { x with
        stream := st.1, streamOff := st.2, txSlots := x.txSlots.filter fun t => decide (P < t.pick)
        frames := (x.frames.filter fun y => decide (y.1 / 32 = P / 32) && decide (y.1 < P)) ++ [(P, frame)] }) v.2
      each (.pick p P h slots tail :: codewordsOf (shtAt s p) p P) emitSent s) s

/-! ## Leaving service (R290, R293) -/

/-- A port enters state 0 (R290). -/
def portDown (p : Nat) (s : State) : State :=
  let x := shtAt s p
  let s := modSht p (fun x => { x with
    state := 0, lat := 0, delay := 0, deltas := [], theta := 0, txq := [], stream := [], streamOff := 0, lastPick := none
    tstat := 0, peerLctl := 0, sprdyRun := 0, sprdy := false, signalAt := none, peer := { x.peer with hello := false, at_ := none, lastSerial := none }
    adverts := [] }) s
  if within 2 4 x.state then reportUnit 0x1714 (portIdx p) s else s

/-- The port's end of a failed receive lane: it reports FLANE; without a usable spare the port goes down (R293). -/
def rxLaneFail (p lane : Nat) (s : State) : State :=
  let x := shtAt s p
  let isSpare := decide (lane = x.spare)
  let s := modSht p (fun x => { x with
    lanes := alter default x.lanes lane fun y => { y with failed := true, recent := [] }
    nospare := x.nospare || isSpare, sprdy := x.sprdy && !isSpare }) s
  if isSpare then s
  else if x.nospare ∨ (look default x.lanes x.spare).failed ∧ !x.sprdy then portDown p s
  else s

/-! ## Codewords (R275) -/

/-- The frame words a codeword carries: (pick, word) of its 160 words (R273, R274). -/
def codewordWords (first role cwi : Nat) : List (Nat × Nat) :=
  (List.range 160).map fun n => let w := 160 * cwi + n; (first + w / 125, role + 15 * (w % 125))

/-- A lane's outcome among its last 1,024 codewords (R293). -/
def Lane.note (o : CodewordOutcome) (l : Lane) : Lane :=
  { l with
    role := if o.failed then l.role else if o.mirror then 15 else o.role
    ce := if o.corrected && !o.failed then satAdd (2 ^ 24 - 1) l.ce 1 else l.ce
    ue := if o.failed then satAdd (2 ^ 24 - 1) l.ue 1 else l.ue
    recent := (o.failed :: l.recent).take 1024 }

/-- Does a lane of this role carry frame words? -/
def carriesData (role : Nat) : Bool := decide (role < 15)

/-- CODEWORD_DECODE (R275): counts, what a failed codeword costs unless its copy decodes (R292), and the spare's readiness, whose ratio is no operand
(log 41). A failed lane that is ready serves as the spare (R293). -/
def execCodewordDecode (p : Nat) (o : CodewordOutcome) (s : State) : Out :=
  guardUnit (portPresent s.member p && decide (o.lane < 16)) (fun s =>
    let x := shtAt s p
    if x.state = 0 then s
    else
      let s := modSht p (fun x => { x with lanes := alter default x.lanes o.lane (Lane.note o), spare := if !o.failed && o.role == 15 then o.lane else x.spare }) s
      let s := if o.corrected && !o.failed then watchTrigger 0x2701 (2 ^ 20) (.lane p o.lane) (count 0x2701 (portIdx p) 1 s) else s
      let key := (o.first, o.role, o.cwi)
      let words := codewordWords o.first o.role o.cwi
      let s := if !carriesData o.role then s
        else if o.failed then (if (shtAt s p).copies.contains key then s else modSht p (fun x => { x with lostWords := x.lostWords ++ words }) s)
        else modSht p (fun x => { x with
          copies := (x.copies.filter fun y => decide (o.first < y.1 + 64)) ++ [key], lostWords := x.lostWords.filter fun y => !words.contains y }) s
      let y := look default (shtAt s p).lanes o.lane
      let s := if !y.failed && decide (16 ≤ (y.recent.filter id).length) then rxLaneFail p o.lane s else s
      if o.role = 15 then
        let v := freshValue s
        let ready := !o.failed && decide (v.1 % 2 = 1)
        modSht p (fun x => { x with
          sprdy := ready, nospare := x.nospare && !ready
          lanes := if ready then alter default x.lanes o.lane fun y => { y with failed := false } else x.lanes }) v.2
      else s) s

/-! ## The pick frame in (R277, R278, R281, R285, R291) -/

/-- Did a failed codeword carry one of n words of a pick's frame from word w? -/
def wordsLost (x : Shuttle) (P w n : Nat) : Bool := x.lostWords.any fun y => y.1 == P && within w (w + n - 1) y.2

/-- The segments of a slot that failed codewords sour (R275). -/
def lostSegs (x : Shuttle) (P i : Nat) : W32 :=
  BitVec.ofNat 32 ((List.range 32).foldl (fun m g => m + b2n (wordsLost x P (21 + 128 * i + 4 * g) 4) * 2 ^ g) 0)

/-- A port falls to state 2: scheduled slots no longer permitted. -/
def unlockPort (p : Nat) (s : State) : State := modSht p (fun x => { x with state := if x.state = 3 then 2 else x.state }) s

/-- The condition for state 3 (R290): hello complete, both ends LOCKED to one TMID and GEN, delay measured, no conflict (R308). -/
def mayLock (s : State) (p : Nat) : Bool :=
  let x := shtAt s p
  let t := x.tstat
  x.peer.hello && s.time.locked && bit t 26 && decide (bits t 11 0 = s.time.tmid) && decide (bits t 25 18 = s.time.gen)
  && decide (x.lat ≠ 0) && !s.fab.conflict

/-- A port in state 2 that meets it enters state 3. -/
def lockPort (p : Nat) (s : State) : State :=
  if (shtAt s p).state = 2 ∧ mayLock s p then modSht p (fun x => { x with state := 3 }) s else s

/-- The slots of a frame that its header marks scheduled. -/
def schedSlots (h : List Byte) : List Nat := (List.range 14).filter fun i => bits (fld h 8 4) (2 * i + 1) (2 * i) == 1

/-- The data of a received slot; what did not arrive is zero (R320). -/
def rxData (f : RxFrame) (i : Nat) : BitVec 4096 := match f.slots.find? (fun y => y.1 == i) with | some y => y.2 | none => 0

/-- Fold the RX slots of offsets before `upto` into the expected tally, zero where nothing came (R320). -/
def foldMissing (p : Nat) (x : PlanStep) (upto : Nat) (t : Tally) : Tally :=
  (List.range (min upto x.len - t.next)).foldl (fun acc d =>
    let j := t.next + d
    (List.range 14).foldl (fun acc i => if peRx (planEntry x.plans p x.cls j) i then acc.fold j i 0 0 else acc) { acc with next := j + 1 }) t

/-- Fold the RX slots of a received pick into the expected tally of its step. -/
def rxFold (p P : Nat) (got : Nat → Option (Nat × BitVec 4096)) (s : State) : State :=
  match planAt s p P with
  | none => s
  | some (_, x, j, e) =>
    if x.len ≤ j ∨ x.dead then s
    else
      let k := x.k
      let t := foldMissing p x j (look default (shtAt s p).rxTally k)
      if t.next ≠ j then s
      else
        let t := (List.range 14).foldl (fun t i => if peRx e i then (match got i with | some (w, d) => t.fold j i w d | none => t.fold j i 0 0) else t) { t with next := j + 1 }
        modSht p (fun x => { x with rxTally := put default x.rxTally k t }) s

/-- A scheduled slot of a received frame: kept for its push, or SHT_SLOT_UNEXP (R285). One of a run that has failed is discarded (R287). -/
def rxSlot (p P : Nat) (h : List Byte) (f : RxFrame) (i : Nat) (s : State) : State :=
  let e := planAt s p P
  let expected := match e with | some (_, _, _, e) => peRx e i | none => false
  let dead := match e with | some (_, y, _, _) => y.dead | none => false
  let x := shtAt s p
  if expected then
    if P < x.pushed ∨ dead then s
    else modSht p (fun x => { x with rxSlots := x.rxSlots ++
      [{ pick := P, slot := i, kind := b2n (decide (lostSegs x P i ≠ 0)), data := rxData f i, sour := BitVec.ofNat 32 (fld h (12 + 4 * i) 4) ||| lostSegs x P i }] }) s
  else report 0x4704 (slotReport s p P i) s

/-- Credits, time and lane control of a decoded header (R277, R281). -/
def takeHeader (p : Nat) (h : List Byte) (s : State) : State :=
  modSht p (fun x =>
    let lost := fun (sentv n : Nat) => if serialLe n sentv then sentv else n
    { x with
      lim := put 0 (put 0 x.lim 0 (fld h 70 2)) 1 (fld h 72 2)
      freed := alter 0 (alter 0 x.freed 0 (lost (fld h 74 2))) 1 (lost (fld h 76 2))
      tstat := fld h 78 4
      peerLctl := fld h 82 2
      sprdyRun := if bit (fld h 82 2) 0 then min 64 (x.sprdyRun + 1) else 0
      resync := x.resync && decide (fld h 68 2 = 0xFFFF) }) s

/-- PICK_HEADER_RECEIVE (R277, R278): the frame of a peer pick. -/
def execPickHeaderReceive (p : Nat) (f : RxFrame) (s : State) : Out :=
  atShuttle p (fun s =>
    let x := shtAt s p
    if x.state < 2 then s
    else
      let lost := wordsLost x f.pick 0 21
      match f.header with
      | none => rxFold p f.pick (fun _ => none) (modSht p (fun x => { x with lastPick := x.lastPick.map (· + 1), resync := true, sprdyRun := 0 }) s)
      | some h =>
        if lost then rxFold p f.pick (fun _ => none) (modSht p (fun x => { x with lastPick := x.lastPick.map (· + 1), resync := true, sprdyRun := 0 }) s)
        else
          let P := fld h 0 8
          let slip := decide (x.state = 3) && (match x.lastPick with | some q => decide (P ≠ q + 1) | none => false)
          let s := modSht p (fun x => { x with lastPick := some P }) (takeHeader p h s)
          let s := if slip then unlockPort p (count 0x1715 (portIdx p) 1 s) else lockPort p s
          let sched := schedSlots h
          let s := rxFold p P (fun i => if sched.contains i then some (fld h (12 + 4 * i) 4, rxData f i) else none) s
          each sched (rxSlot p P h f) s) s

/-! ## Scheduled slots in (R285, R288, R289) -/

/-- The members of the port's bonded group in force. -/
def groupOf (s : State) (p : Nat) : List Nat :=
  let n := ppBond (portPlan s p)
  (List.range n).map (bondFirst p n + ·)

/-- Does a port reach the peer its plan names (R285)? -/
def reachesPeer (s : State) (p : Nat) : Bool :=
  let d := portPlan s p
  let q := (shtAt s p).peer
  q.hello && decide (q.devid = ppPeerDev d) && decide (q.port = ppPeerPort d)

/-- Is the group aligned (R289)? -/
def groupAligned (s : State) (p : Nat) : Bool := !(portPlan s p).isEmpty && (groupOf s p).all fun m => decide ((shtAt s m).state = 3) && reachesPeer s m

/-- The slot position a port received for a peer pick. -/
def rxAt (x : Shuttle) (P i : Nat) : Option RxSlot := x.rxSlots.find? fun r => r.pick == P && r.slot == i

/-- Is the position sour or missing on a member (R289)? -/
def memberBad (s : State) (P i m : Nat) : Bool := match rxAt (shtAt s m) P i with | some r => decide (r.sour ≠ 0) | none => true

/-- The four flits of a slot of port p. -/
def slotFlits (p : Nat) (d : BitVec 4096) (sour : W32) : List Flit :=
  (List.range 4).map fun j => { port := some p, data := BitVec.ofNat 1024 (d.toNat / 2 ^ (1024 * j)), sour := BitVec.ofNat 8 (sour.toNat / 2 ^ (8 * j)) }

/-- Push a flit into the port's outbound scheduled partition, to be pulled from the next pick on. -/
def pushOut (p : Nat) (f : Flit) (s : State) : State :=
  if (attAt s (32 + p)).outS.length < (attAt s (32 + p)).sOut then
    modAtt (32 + p) (fun q => { q with outS := q.outS ++ [{ flit := f, link := anyLink, arr := 8 * (s.pick + 1) }] }) s
  else reportEdge 0x3521 (edgeSite (32 + p) 0).1 (edgeSite (32 + p) 0).2 false s

/-- Push the four flits of an RX slot of peer pick P (R285). -/
def pushSlot (p P : Nat) (aligned : Bool) (i : Nat) (s : State) : State :=
  match (if aligned then rxAt (shtAt s p) P i else none) with
  | none =>
    let v := freshValue s
    let s := report 0x3703 (slotReport s p P i) v.2
    each (slotFlits p (BitVec.ofNat 4096 v.1) (BitVec.allOnes 32)) (pushOut p) (modSht p (fun x => { x with miss := satAdd 255 x.miss 1 }) s)
  | some r =>
    let bad := (groupOf s p).any (memberBad s P i)
    let s := if r.kind = 1 then report 0x3702 (slotReport s p P i) s else s
    let sour := if (groupOf s p).length ≠ 1 ∧ bad then BitVec.allOnes 32 else r.sour
    each (slotFlits p r.data sour) (pushOut p) s

/-- SLOT_PUSH (R285): in ACLKs 4-7 of its own pick the port pushes the RX slots of the peer pick that is RELEASE − 1 picks back. -/
def execSlotPush (p : Nat) (s : State) : Out :=
  atShuttle p (fun s =>
    let s := if s.ac < 4 then runTo (8 * s.pick + 4) s else s
    let P := s.pick + 1 - ppRelease (portPlan s p)
    if P < (shtAt s p).pushed then s
    else match planAt s p P with
      | none => s
      | some (a, y, _, e) =>
        if y.dead ∨ !jobRuns s a then s else
        let aligned := decide ((shtAt s p).state = 3) && groupAligned s p
        let s := each ((List.range 14).filter (peRx e)) (pushSlot p P aligned) s
        modSht p (fun x => { x with pushed := P + 1, rxSlots := x.rxSlots.filter (fun r => decide (P ≤ r.pick))
                                    lostWords := x.lostWords.filter fun y => decide (P ≤ y.1) }) s) s

/-! ## Delay (R291) -/

/-- LINK_FRAME_SEND (R291): the port's last own measurement; one not yet made is a free value (log 11). -/
def execLinkFrameSend (p : Nat) (s : State) : Out :=
  atShuttle p (fun s =>
    let x := shtAt s p
    if x.state < 2 then s
    else
      let v := freshValue s
      let own := if x.ownDelta.1 = 0 then (s.pick / 32 * 32, (v.1 : Int)) else x.ownDelta
      let pay := leBytes 8 own.1 ++ leBytes 4 (field 32 own.2) ++ leBytes 4 0
      queueFrame p (mkFrame 0x01 0 0xFFF (if s.fab.id.val / 2 ^ 15 % 2 = 1 then s.fab.id.val % 4096 else 0xFFF) 1 pay) (if x.ownDelta.1 = 0 then v.2 else s)) s

/-- The mean of a list of integers, rounded down. -/
def meanInt (l : List Int) : Int := if l.isEmpty then 0 else (l.foldl (· + ·) 0) / (l.length : Int)

/-- The pairs' one-way delay and offset, in ticks (R291). -/
def delayOf (l : List (Int × Int)) : Int × Int :=
  (meanInt (l.map fun x => x.1 + x.2) / 2, meanInt (l.map fun x => x.1 - x.2) / 2)

/-- LINK_FRAME (R291): the peer's Δ joins this end's Δ of the same superframe; eight pairs give delay, offset and LAT, which holds
while the port stays in states 2-4. -/
def execLinkFrame (p : Nat) (ownDelta : Int) (payload : List Byte) (s : State) : Out :=
  atShuttle p (fun s =>
    let x := shtAt s p
    if x.state < 2 ∨ payload.length ≠ 16 then s
    else
      let l := (x.deltas ++ [(ownDelta, signed 32 (fld payload 8 4))]).drop (x.deltas.length + 1 - 8)
      let d := delayOf l
      let full := decide (8 ≤ l.length)
      lockPort p (modSht p (fun x => { x with
        deltas := l, ownDelta := (fld payload 0 8, ownDelta)
        theta := if full then d.2 else x.theta
        delay := if full then d.1.toNat % 2 ^ 20 else x.delay
        lat := if full && decide (x.lat = 0) then (d.1.toNat + 63) / 64 + 40 else x.lat }) s)) s

/-! ## Training (R290) -/

/-- SIGNAL_DETECT (R290): a port in state 0 that is not held down trains. -/
def execSignalDetect (p : Nat) (s : State) : Out :=
  atShuttle p (fun s =>
    let x := shtAt s p
    if x.state = 0 ∧ !(bit x.ctl 0) ∧ !x.engineOff then modSht p (fun x => { x with state := 1, signalAt := some s.up }) s else s) s

/-- Number of set bits among the sixteen lanes. -/
def laneCountOf (m : Nat) : Nat := ((List.range 16).filter (bit m)).length

/-- HELLO's payload (R304). -/
def helloPayload (s : State) (p : Nat) : List Byte :=
  let v := s.fab.id.val
  let ack := match (shtAt s p).peer.at_ with | some t => decide (s.up < t + 300 * 800) | none => false
  leBytes 8 s.mod.serial ++ leBytes 2 (v / 2 ^ 16) ++ leBytes 2 (v % 4096 + bits v 15 15 * 2 ^ 15) ++ leBytes 1 p
  ++ leBytes 1 s.mod.feedId ++ leBytes 2 s.mod.rackPos ++ leBytes 1 s.mod.member ++ leBytes 1 1 ++ leBytes 1 (b2n ack) ++ leBytes 5 0

/-- The SRC a device puts into its frames: its id, or 0xFFF (R304). -/
def ownSrc (s : State) : Nat := if bit s.fab.id.val 15 then s.fab.id.val % 4096 else 0xFFF

/-- Queue a HELLO on a port in states 2-4 (R304). -/
def sendHello (p : Nat) (s : State) : State := queueFrame p (mkFrame 0x10 0 0xFFF (ownSrc s) 1 (helloPayload s p)) s

/-- What the choice of the spare looks at: the margin, an unusable lane below all. -/
def laneKey (o : TrainOutcome) (l : Nat) : Nat := if bit o.usable l then o.margins.getD l 0 + 1 else 0

/-- The lane that becomes the spare: the one of lowest margin (R290); of several it is the operand's, else the first (log 41). -/
def worstLane (o : TrainOutcome) : Nat :=
  let low := (List.range 16).filter fun l => (List.range 16).all fun m => decide (laneKey o l ≤ laneKey o m)
  if low.contains o.spare then o.spare else low.headD 0

/-- PORT_TRAINED (R290): deskew is complete; credits, rotation and delay start afresh and the port says hello. -/
def execPortTrained (p : Nat) (o : TrainOutcome) (s : State) : Out :=
  atShuttle p (fun s =>
    if (shtAt s p).state ≠ 1 then s
    else if laneCountOf o.usable < 15 then portDown p s
    else
      let spare := worstLane o
      let role := fun l => if l = spare then 15 else if l < spare then l else l - 1
      let s := modSht p (fun x => { x with
        state := 2, spare := spare, txSpare := spare, nospare := !(bit o.usable spare), sprdy := false, rot := 0
        lanes := (List.range 16).foldl (fun t l => alter default t l fun y => { y with role := role l, failed := !(bit o.usable l), margin := min 127 (o.margins.getD l 0), recent := [] }) x.lanes
        txRole := (List.range 16).foldl (fun t l => put 0 t l (role l)) []
        lat := 0, delay := 0, deltas := [], theta := 0, ownDelta := (0, 0), lastPick := none, tstat := 0, peerLctl := 0, sprdyRun := 0, sent := [], lim := [], freed := [], txq := [], stream := []
        streamOff := 0, resync := false, lostWords := [], mirror := none, frames := [], copies := [], peer := { x.peer with hello := false, lastSerial := none } }) s
      let s := each ((List.range 16).filter fun l => bit o.usable l && decide (o.margins.getD l 0 < 4)) (fun l => watchAdd (.lane p l) 0x1711) s
      sendHello p (reportUnit 0x1713 (portIdx p) s)) s

/-- TRAINING_TIMEOUT (R290): state 2 was not reached within 250 ms of signal detection. -/
def execTrainingTimeout (p : Nat) (s : State) : Out :=
  atShuttle p (fun s =>
    let x := shtAt s p
    if x.state ≠ 1 then s
    else
      let t := match x.signalAt with | some u => u + 250 * milli - s.up | none => 0
      portDown p (runTo (s.now + t) s)) s

/-- LOSS_OF_SIGNAL (R290). -/
def execLossOfSignal (p : Nat) (s : State) : Out := atShuttle p (fun s => if (shtAt s p).state = 0 then s else portDown p s) s

/-! ## Spare lane and rotation (R292, R293) -/

/-- The transmit lane that carries role r. -/
def laneOfRole (x : Shuttle) (r : Nat) : Option Nat := (List.range 16).find? fun l => look 0 x.txRole l == r

/-- ROTPH of the plan in force, else the port number (R292). -/
def rotPhase (s : State) (p : Nat) : Nat := if (portPlan s p).isEmpty then p else ppRotph (portPlan s p)

/-- The next rotation point at or after pick q. -/
def rotationPick (ph q : Nat) : Nat := q + (4096 * ph + 131072 - q % 131072) % 131072

/-- ROTATION_POINT (R292): at the port's next rotation point the spare mirrors a logical lane for a superframe, and takes it over from the next
(`Shuttle.rotated`). -/
def execRotationPoint (p : Nat) (s : State) : Out :=
  atShuttle p (fun s =>
    if (shtAt s p).state < 2 then s
    else
      let s := toPick (rotationPick (rotPhase s p) ((s.now + 7) / 8)) s
      let s := modSht p (fun x => x.rotated s.pick) s
      let x := shtAt s p
      if bit x.ctl 1 then s
      else if x.sprdyRun < 32 then count 0x1712 (portIdx p) 1 (modSht p (fun x => { x with rotskip := satAdd 255 x.rotskip 1 }) s)
      else match laneOfRole x (x.rot % 15) with
        | some l => modSht p (fun x => { x with mirror := some (s.pick, l) }) s
        | none => s) s

/-- LANE_FAIL (R293): where the peer's headers report the lane, the transmitter moves its role to the spare at the next
superframe start and counts SHT_LANE_FAIL; else the receiver declares its own lane failed. -/
def execLaneFail (p lane : Nat) (s : State) : Out :=
  guardUnit (portPresent s.member p && decide (lane < 16)) (fun s =>
    let x := shtAt s p
    if x.state < 2 then s
    else if bit x.peerLctl 5 ∧ bits x.peerLctl 4 1 = lane ∧ lane ≠ x.txSpare then
      let s := toPick ((s.pick / 32 + 1) * 32) s
      reportUnit 0x1711 (portIdx p) (modSht p (fun x => moveRole lane (x.rotated s.pick)) s)
    else rxLaneFail p lane s) s

end Sys2Proof.Machine
end

