-- ==== Sys2Proof/Machine/Time.lean ====
section
/-! DEFINITION. The pick count across a domain (R294-R298) and the external time inputs (R379). -/
namespace Sys2Proof.Machine

/-- Is the device id assigned (R302)? -/
def idAssigned (s : State) : Bool := bit s.fab.id.val 15
/-- The device id. -/
def devId (s : State) : Nat := s.fab.id.val % 4096

/-- Fields of a TSTAT (R277). -/
def tsTmid (t : Nat) : Nat := bits t 11 0
def tsHops (t : Nat) : Nat := bits t 17 12
def tsGen (t : Nat) : Nat := bits t 25 18
def tsLocked (t : Nat) : Bool := bit t 26
def tsPrio (t : Nat) : Nat := bits t 31 28

/-- Set LOCKED, noting when it began; where it is cleared scheduled slots cease: every port leaves state 3 (R296). -/
def setLocked (b : Bool) (s : State) : State :=
  let s := if b then s else { s with sht := mapTab default (fun _ x => { x with state := if x.state = 3 then 2 else x.state }) s.sht }
  { s with time := { s.time with locked := b, lockedAt := if b && !s.time.locked then s.up else s.time.lockedAt } }

/-- May a port be the upstream (R294): state 2 or 3, LOCKED, the current TMID and GEN, at most 5 HOPS? -/
def qualifies (s : State) (p : Nat) : Bool :=
  let x := shtAt s p
  within 2 3 x.state && tsLocked x.tstat && decide (tsTmid x.tstat = s.time.tmid) && decide (tsGen x.tstat = s.time.gen) && decide (tsHops x.tstat ≤ 5)

/-- The qualifying port with the smallest HOPS, then the lowest number (R294). -/
def bestUpstream (s : State) : Option Nat :=
  ((List.range 32).filter fun p => portPresent s.member p && qualifies s p).foldl (fun acc p => match acc with
    | none => some p
    | some q => if tsHops (shtAt s p).tstat < tsHops (shtAt s q).tstat then some p else some q) none

/-- What a master shows of itself (R294). -/
def masterTime (s : State) : State :=
  if idAssigned s then
    setLocked (s.time.holdover || s.time.refclk) { s with time := { s.time with tmid := devId s, hops := 0, tprio := s.time.prio.val, theta := 0, hasUp := false } }
  else setLocked false { s with time := { s.time with tmid := 0xFFF, hops := 0, theta := 0, hasUp := false } }

/-- Follow a port (R294): HOPS, TPRIO and θ from it; LOCKED by HOPS and θ. -/
def followPort (p : Nat) (s : State) : State :=
  let x := shtAt s p
  let h := tsHops x.tstat + 1
  setLocked (decide (h ≤ 6) && decide (x.theta.natAbs ≤ 8)) { s with time := { s.time with
    hasUp := true, upport := p, hops := h, tprio := tsPrio x.tstat, theta := x.theta, holdover := false, master := false } }

/-- Moving this device's boundaries by d ticks changes its lead over every peer. -/
def shiftTheta (d : Int) (s : State) : State := { s with sht := mapTab default (fun _ x => if 2 ≤ x.state then { x with theta := x.theta - d } else x) s.sht }

/-- The largest move of one pick toward θ = 0 (R294). -/
def steerBy (t : Int) : Int := if 0 < t then 1 else if t < 0 then -1 else 0

/-- No port in state 2 or 3 (R295)? -/
def noPorts (s : State) : Bool := (List.range 32).all fun p => !(within 2 3 (shtAt s p).state)

/-- PICK_STEER (R294): at each pick a slave chooses its upstream and moves its boundaries by at most a tick. A device without a port in state 2 or 3
is its own master at GEN 0 (R295), and so is, at its GEN, one without an id that has no upstream after holdover. -/
def execPickSteer (s : State) : Out :=
  .next (
    let s := toPick (s.pick + 1) s
    if noPorts s && (s.time.master || !s.time.holdover) then masterTime { s with time := { s.time with master := true, gen := 0 } }
    else if s.time.master then masterTime s
    else match bestUpstream s with
      | none => if idAssigned s || s.time.holdover then s else masterTime { s with time := { s.time with master := true } }
      | some p => followPort p (shiftTheta (steerBy (shtAt s p).theta) s))

/-- Begin holdover (R296). -/
def startHoldover (s : State) : State :=
  count 0x1720 hubIdx 1 { s with time := { s.time with holdover := true, hasUp := false, holdAt := s.up, upLostAt := s.up } }

/-- UPSTREAM_LOSS (R296): the upstream has left service: another port from the next pick, or holdover. -/
def execUpstreamLoss (s : State) : Out :=
  .next (
    if s.time.master ∨ !s.time.hasUp ∨ qualifies s s.time.upport then s
    else match bestUpstream s with
      | some p => let s := toPick (s.pick + 1) s
                  followPort p s
      | none => startHoldover s)

/-- HOLDOVER_EXPIRY (R296): LOCKED is cleared and every port leaves state 3. -/
def execHoldoverExpiry (s : State) : Out :=
  .next (
    if !s.time.holdover then s
    else
      let s := runTo (s.now + (s.time.holdAt + s.time.hold * milli - s.up)) s
      let s := setLocked false { s with time := { s.time with holdover := false } }
      reportUnit 0x1721 hubIdx s)

/-- Is offer x better than y (R295)? -/
def betterOffer (gx px tx gy py ty : Nat) : Bool :=
  let d := (gx + 256 - gy) % 256
  within 1 127 d || (decide (d = 0) && (decide (py < px) || (decide (px = py) && decide (tx < ty))))

/-- Adopt the offer of a port (R296). -/
def adoptOffer (p : Nat) (s : State) : State :=
  let t := (shtAt s p).tstat
  let s := { s with time := { s.time with tmid := tsTmid t, gen := tsGen t } }
  let s := modSht p (fun x => { x with state := if x.state = 4 then 2 else x.state }) s
  followPort p (count 0x1722 hubIdx 1 s)

/-- The pick count has been set: no received slot waits, and no pick of the new count has been pushed (R285). -/
def newCount (s : State) : State := { s with sht := mapTab default (fun _ x => { x with pushed := 0, rxSlots := [], txSlots := [], lostWords := [], copies := [], frames := [] }) s.sht }

/-- Set the pick count to a port's time: its lead of θ ticks in whole ACLK, 64 ticks each (R296). -/
def takeTime (p : Nat) (s : State) : State :=
  let d := (shtAt s p).theta / 64
  newCount (shiftTheta (64 * d) { s with now := ((s.now : Int) - d).toNat })

/-- BETTER_OFFER (R296): a port with measured delay shows a LOCKED offer; within ±1.5 ns (76 ticks) or without a job it is
adopted, else the port is foreign. A foreign port whose offer has become the device's own time returns to state 2. -/
def execBetterOffer (p : Nat) (s : State) : Out :=
  atShuttle p (fun s =>
    let x := shtAt s p
    let t := x.tstat
    if !(within 2 4 x.state) ∨ !(tsLocked t) ∨ 5 < tsHops t ∨ x.lat = 0 then s
    else if betterOffer (tsGen t) (tsPrio t) (tsTmid t) s.time.gen s.time.tprio s.time.tmid then
      if x.theta.natAbs ≤ 76 then adoptOffer p s
      else if !anyJob s then adoptOffer p (takeTime p s)
      else if x.state = 4 then s
      else count 0x1723 (portIdx p) 1 (modSht p (fun x => { x with state := 4 }) s)
    else if x.state = 4 ∧ tsTmid t = s.time.tmid ∧ tsGen t = s.time.gen ∧ x.theta.natAbs ≤ 76 then modSht p (fun x => { x with state := 2 }) s
    else s) s

/-- May the device propose itself (R295)? -/
def mayPropose (s : State) : Bool :=
  idAssigned s && !s.time.master &&
  ((decide (0 < s.time.prio.val) && !s.time.hasUp && decide (s.time.upLostAt + 80000 ≤ s.up))
   || (decide (s.time.tprio < s.time.prio.val) && s.time.locked && decide (s.time.lockedAt + second ≤ s.up)))

/-- MASTER_PROPOSAL (R295): the device becomes master with the next generation. -/
def execMasterProposal (s : State) : Out :=
  .next (if mayPropose s then masterTime { s with time := { s.time with master := true, holdover := false, gen := (s.time.gen + 1) % 256 } } else s)

/-- EPOCH_IN_EDGE (R297, R379): a pulse of `width` ns. -/
def execEpochInEdge (width : Nat) (s : State) : Out :=
  .next (
    let near := match s.time.lastEdge with | some t => decide (s.up < t + milli) | none => false
    let s := if width < 20 then s else { s with time := { s.time with lastEdge := some s.up } }
    if decide (width < 20) || near then count 0x1D08 hubIdx 1 s
    else if s.time.master && s.time.eparm && !anyJob s then
      let s := toPick (s.pick + 1) s
      count 0x1724 hubIdx 1 (newCount { s with now := 8 * s.time.epoch, time := { s.time with eparm := false } })
    else s)

/-- EPOCH_OUT_PULSE (R298): the pulse at the next multiple of PERIOD. -/
def execEpochOutPulse (s : State) : Out :=
  .next (
    if s.time.period = 0 then s
    else
      let p := (s.now + 7) / 8
      let s := toPick ((p + s.time.period - 1) / s.time.period * s.time.period) s
      if s.time.master || s.time.locked then emitSent (.epochOut s.pick) s else s)

/-- REFCLK_LOSS (R379): treated as lost; a master enters holdover. -/
def execRefclkLoss (s : State) : Out :=
  .next (
    let s := count 0x1D08 hubIdx 1 { s with time := { s.time with refclk := false } }
    if s.time.master && !s.time.holdover then startHoldover s else s)

end Sys2Proof.Machine
end

