-- ==== Sys2Proof/Machine/Fabric.lean ====
section
/-! DEFINITION. The fabric (10): hello, routing, remote memory access, tallies, the fallback of bucket exchange. -/
namespace Sys2Proof.Machine

/-! ## Hello (R304, R305) -/

/-- HELLO_SEND (R304). -/
def execHelloSend (p : Nat) (s : State) : Out := atShuttle p (sendHello p) s

/-- Hello is no longer complete: the port leaves state 3. -/
def helloLost (p : Nat) (s : State) : State := unlockPort p (modSht p (fun x => { x with peer := { x.peer with hello := false } }) s)

/-- RAS_SKIM_FAIL for a skim in progress; the state returns to 1 (R458). Causes: 0 INCOMPLETE, 1 DENIED, 2 RANGE, 3 NO_ROUTE, 4 STALL, 5 FEED (log 42). -/
def failSkim (a cause : Nat) (s : State) : State :=
  skimFailRecord a cause (modArea a (fun x => { x with skim := { x.skim with state := 1, outstanding := 0, began := false, sealing := false } }) s)

/-- Does a partner's FEED break the rule of R454? -/
def feedShared (s : State) (feed : Nat) : Bool := decide (feed = s.mod.feedId) || decide (feed = 0xFF) || decide (s.mod.feedId = 0xFF)

/-- A changed FEED stops the skims of its port (R454). -/
def skimFeedCheck (p : Nat) (s : State) : State :=
  if feedShared s (shtAt s p).peer.feed then
    each ((areaList s).filter fun a => decide (1 ≤ (areaAt s a).skim.state) && decide ((areaAt s a).skim.port = p) && !(aregAt s a).ovr && !(areaAt s a).skim.stopped)
      (fun a s =>
        let s := if 2 ≤ (areaAt s a).skim.state then failSkim a 5 s else s
        modArea a (fun x => { x with skim := { x.skim with stopped := true } }) s) s
  else s

/-- Fields of a HELLO (R304). -/
def heValid (h : List Byte) : Bool := bit (fld h 10 2) 15
def heDev (h : List Byte) : Nat := bits (fld h 10 2) 11 0
def heAck (h : List Byte) : Bool := bit (fld h 18 1) 0

/-- Does what a port holds of its last HELLO fail R305, ACK apart? -/
def peerMismatch (s : State) (x : Peer) : Bool :=
  !x.sound || decide (x.fabric ≠ s.fab.id.val / 65536) || !x.valid || !idAssigned s || decide (x.devid = devId s)

/-- A HELLO on a port in states 2-4 (R305). -/
def takeHello (p : Nat) (h : List Byte) (s : State) : State :=
  let x := shtAt s p
  if x.state < 2 ∨ h.length ≠ 24 then s
  else
    let serial := fld h 0 8
    let changed := match x.peer.lastSerial with | some y => decide (y ≠ serial) | none => false
    let q : Peer := { hello := false, mismatch := false, serial := serial, fabric := fld h 8 2, valid := heValid h, devid := heDev h, port := fld h 12 1
                      feed := fld h 13 1, rackpos := fld h 14 2, member := fld h 16 1, at_ := some s.up, lastSerial := some serial, ack := heAck h
                      sound := decide (fld h 17 1 = 1) && !changed }
    let mis := peerMismatch s q
    let ok := !mis && heAck h
    let s := modSht p (fun x => { x with
      state := if changed then min 2 x.state else x.state
      peer := { q with hello := ok, mismatch := mis } }) s
    let s := if mis then count 0x1801 (portIdx p) 1 s else s
    let s := if changed then sendHello p s else s
    let s := if x.peer.feed = fld h 13 1 then s else skimFeedCheck p s
    if ok then lockPort p s else unlockPort p s

/-- HELLO_RECEIVE (R305). -/
def execHelloReceive (p : Nat) (payload : List Byte) (s : State) : Out := atShuttle p (takeHello p payload) s

/-- The last HELLO of a port held against a changed id of this device: hello is complete while it meets R305. -/
def helloAgain (p : Nat) (s : State) : State :=
  let x := shtAt s p
  match x.peer.at_ with
  | none => s
  | some t =>
    let mis := peerMismatch s x.peer
    let ok := !mis && x.peer.ack && decide (s.up < t + 240000)
    let s := modSht p (fun x => { x with peer := { x.peer with hello := ok, mismatch := mis } }) s
    if ok then s else unlockPort p s

/-- HELLO_TIMEOUT (R305): no qualifying HELLO for 300 µs. -/
def execHelloTimeout (p : Nat) (s : State) : Out :=
  atShuttle p (fun s =>
    let x := shtAt s p
    match x.peer.at_ with
    | some t => if x.peer.hello then helloLost p (runTo (s.now + (t + 240000 - s.up)) s) else s
    | none => s) s

/-! ## Routing (R306-R310) -/

/-- A FAB_ROUTE word and its fields. -/
def rtAt (s : State) (d : Nat) : Nat := look 0 s.fab.route d
def rtValid (e : Nat) : Bool := bit e 31
def rtPin (e : Nat) : Bool := bit e 30
def rtPort (e : Nat) : Nat := bits e 26 22
def rtHops (e : Nat) : Nat := bits e 21 16

/-- Valid routing entries (FAB_STAT.NROUTE). -/
def routeCount (s : State) : Nat := (s.fab.route.filter fun kv => rtValid kv.2).length

/-- The advertisement a port holds for id d, if it arrived within 1.25 ms (R307). -/
def freshAdvert (s : State) (d p : Nat) : Option (Nat × Nat) :=
  let x := shtAt s p
  if !x.peer.hello then none
  else match x.adverts.find? fun kv => kv.1 == d with
    | some (_, h, ser, t) => if s.up ≤ t + 1000000 then some (h, ser) else none
    | none => none

/-- The advertisements for an id, by port. -/
def adverts (s : State) (d : Nat) : List (Nat × Nat × Nat) :=
  (List.range 32).filterMap fun p => if portPresent s.member p then (freshAdvert s d p).map fun x => (p, x) else none

/-- The automatic entry of an id, its PIN 0 (R307, R308). -/
def autoRoute (s : State) (d : Nat) : Nat :=
  let l := adverts s d
  let live := l.filter fun x => decide (x.2.1 < 63)
  let split := live.any fun x => live.any fun y => decide (x.2.2 ≠ y.2.2)
  match l.foldl (fun (acc : Option (Nat × Nat)) x => match acc with
    | none => some (x.1, x.2.1)
    | some y => if x.2.1 < y.2 then some (x.1, x.2.1) else some y) none with
  | some (p, h) => if split ∨ 31 < h + 1 then 0 else 2 ^ 31 + p * 2 ^ 22 + (h + 1) * 2 ^ 16
  | none => 0

/-- Do ports advertise an id with different serials (R308)? -/
def advertSplit (s : State) (d : Nat) : Bool :=
  let live := (adverts s d).filter fun x => decide (x.2.1 < 63)
  live.any fun x => live.any fun y => decide (x.2.2 ≠ y.2.2)

/-- Compute one entry again unless it is pinned or automatic computation is off (R307, R310). -/
def reroute (d : Nat) (s : State) : State :=
  if d = 0xFFF ∨ (idAssigned s ∧ d = devId s) ∨ rtPin (rtAt s d) ∨ s.fab.noauto then s
  else
    let s := if advertSplit s d then count 0x1802 hubIdx 1 s else s
    { s with fab := { s.fab with route := put 0 s.fab.route d (autoRoute s d) } }

/-- The serial number of a device as far as this one knows it: its own, that of the advertisement its entry follows, that of a peer; else a free
value (R306; log 11). -/
def serialOf (s : State) (d : Nat) : Nat :=
  let said := (shtAt s (rtPort (rtAt s d))).adverts.find? fun x => x.1 == d
  let peer := (List.range 32).find? fun p => (shtAt s p).peer.hello && (shtAt s p).peer.devid == d
  if idAssigned s && decide (d = devId s) then s.mod.serial
  else match said, peer with
    | some x, _ => if rtValid (rtAt s d) then x.2.2.1 else Config.freeValue (s.freeCtr + d % 1024)
    | _, some p => (shtAt s p).peer.serial
    | none, none => Config.freeValue (s.freeCtr + d % 1024)

/-- ROUTE's payload for fragment f (R306). -/
def routePayload (s : State) (f : Nat) : List Byte :=
  leBytes 4 f ++ (List.range 1024).flatMap fun n =>
    let d := 1024 * f + n
    let e := rtAt s d
    let own := idAssigned s && decide (d = devId s)
    let hops := if own then 0 else if rtValid e then rtHops e else 63
    leBytes 4 (hops + serialOf s d % 2 ^ 26 * 2 ^ 6)

/-- ROUTE_SEND (R306): the port's next fragment, while its hello is complete. -/
def execRouteSend (p : Nat) (s : State) : Out :=
  atShuttle p (fun s =>
    let x := shtAt s p
    if !x.peer.hello then s
    else queueFrame p (mkFrame 0x11 0 0xFFF (ownSrc s) 1 (routePayload s x.nextFrag)) (modSht p (fun x => { x with nextFrag := (x.nextFrag + 1) % 4 }) { s with freeCtr := s.freeCtr + 1024 })) s

/-- No port of a device in conflict stays in state 3 (R308). -/
def conflictCheck (s : State) : State :=
  if s.fab.conflict then { s with sht := mapTab default (fun _ x => { x with state := if x.state = 3 then 2 else x.state }) s.sht } else s

/-- A ROUTE fragment (R307, R308). -/
def takeRoute (p : Nat) (pay : List Byte) (s : State) : State :=
  if !(shtAt s p).peer.hello ∨ pay.length ≠ 4100 then s
  else
    let f := bits (fld pay 0 4) 1 0
    let ad := fun n => let w := fld pay (4 + 4 * n) 4; (bits w 5 0, bits w 31 6)
    let s := modSht p (fun x => { x with adverts :=
      (x.adverts.filter fun kv => decide (kv.1 / 1024 < f)) ++ ((List.range 1024).map fun n => (1024 * f + n, (ad n).1, (ad n).2, s.up))
      ++ (x.adverts.filter fun kv => decide (f < kv.1 / 1024)) }) s
    let own := devId s
    let mine := idAssigned s && decide (own / 1024 = f) && decide ((ad (own % 1024)).1 < 63) && decide ((ad (own % 1024)).2 ≠ s.mod.serial % 2 ^ 26)
    let s := if mine then conflictCheck (reportUnit 0x1802 hubIdx { s with fab := { s.fab with conflict := true } }) else s
    each ((List.range 1024).map (1024 * f + ·)) reroute s

/-- ROUTE_RECEIVE (R307). -/
def execRouteReceive (p : Nat) (payload : List Byte) (s : State) : Out := atShuttle p (takeRoute p payload) s

/-- Send a routed frame from this device, or pass one on, by the entry of its DST; without a valid entry it is discarded (R309). -/
def routeFrame (f : List Byte) (s : State) : State :=
  let e := rtAt s (fhDst f)
  if rtValid e then queueFrame (rtPort e) f s else count 0x1803 hubIdx 1 s

/-- A routed frame that starts here: TTL 31 (R309). -/
def startRouted (type vc dst : Nat) (pay : List Byte) (s : State) : State := routeFrame (mkFrame type vc dst (ownSrc s) 31 pay) s

/-- A frame with its TTL reduced by one. -/
def ttlDown (f : List Byte) : List Byte := mkFrame (fhType f) (fhVc f) (fhDst f) (fhSrc f) (fhTtl f - 1) (fhPay f)

/-! ## Remote memory access (R311-R313) -/

/-- The areas of a stack with a running job: R347 refuses its reads (R312). -/
def stackRunning (s : State) (k : Nat) : Bool := optRuns s (areaOfAtt s k)

/-- STATUS of an RMA request (R312), by the order of its table; LEN_B outside R311 is RANGE (log 43). -/
def rmaStatus (s : State) (write : Bool) (dpa len : Nat) : Nat :=
  if (if write then !s.fab.rmawr else !s.fab.rmard) then 1
  else if !write && decide (dpa < 2 ^ 41) && stackRunning s (dpaStack dpa) then 2
  else if !dpaOk s.member dpa len || decide (len < 4) || decide (4096 < len) || decide (len % 4 ≠ 0) || decide (dpa / 4096 ≠ (dpa + len - 1) / 4096) then 3
  else 0

/-- An RMA response: header and data (R311). -/
def rmaRsp (tag st sour : Nat) (data : List Byte) : List Byte :=
  leBytes 8 (tag + st * 2 ^ 16) ++ leBytes 8 sour ++ data

/-- Serve an RMA request frame and answer its source (R312). -/
def serveRma (f : List Byte) (s : State) : State :=
  let h := fhPay f
  let write := fhType f == 0x21
  let dpa := fld h 0 8
  let len := fld h 8 4
  let tag := fld h 12 2
  let ans := fun st sour data s => startRouted 0x22 1 (fhSrc f) (rmaRsp tag st sour data) s
  let st := rmaStatus s write dpa len
  if st ≠ 0 then ans st 0 [] s
  else if write then ans 0 0 [] (elasticWrite dpa (sub h 16 len) s)
  else
    let o := dpaOff dpa
    let cnt := (o + len - 1) / 64 - o / 64 + 1
    let x := elasticGrains (dpaStack dpa) (o / 64 * 64) cnt s
    let map := (List.range cnt).foldl (fun m g => m + b2n ((x.1.getD g ([], false)).2) * 2 ^ g) 0
    let data := ((x.1.flatMap fun g => if g.2 then List.replicate 64 0 else g.1).drop (o % 64)).take len
    ans (if map = 0 then 0 else 4) map data x.2

/-- RMA_REQUEST (R312). -/
def execRmaRequest (frame : List Byte) (s : State) : Out :=
  .next (if fhType frame = 0x20 ∨ fhType frame = 0x21 then serveRma frame s else s)

/-- The request frame's payload. -/
def rmaReq (r : Rma) : List Byte := leBytes 8 r.dpa ++ leBytes 4 r.len ++ leBytes 4 r.tag ++ (if r.write then r.data else [])

/-- Requests of a device sent and not answered. -/
def rmaOut (s : State) (dev : Nat) : Nat := (s.fab.rmas.filter fun r => r.dev == dev && r.sentAt.isSome && r.answer.isNone).length

/-- Change the request with a tag. -/
def modRma (tag : Nat) (g : Rma → Rma) (s : State) : State :=
  { s with fab := { s.fab with rmas := s.fab.rmas.map fun r => if r.tag = tag then g r else r } }

/-- Send the requests that wait, at most 64 outstanding per device; an invalid route answers NO_ROUTE at once (R313). -/
def pumpRma : Nat → State → State
  | 0, s => s
  | k + 1, s =>
    match s.fab.rmas.find? fun r => r.sentAt.isNone && r.answer.isNone && decide (rmaOut s r.dev < 64) with
    | none => s
    | some r =>
      if rtValid (rtAt s r.dev) then
        pumpRma k (startRouted (if r.write then 0x21 else 0x20) 1 r.dev (rmaReq r) (modRma r.tag (fun x => { x with sentAt := some s.up }) s))
      else pumpRma k (modRma r.tag (fun x => { x with answer := some mNoRoute }) s)

/-- A remote command's requests for n bytes from a DPA, each within one aligned 4,096-B block, with tags from t (R313). -/
def splitRma (job dev : Nat) (write : Bool) : Nat → Nat → Nat → Nat → Nat → List Byte → List Rma
  | 0, _, _, _, _, _ => []
  | k + 1, t, dpa, off, n, data =>
    if n = 0 then []
    else
      let m := min n (4096 - dpa % 4096)
      { tag := t % 32768, job := job, dev := dev, dpa := dpa, len := m, write := write, sentAt := none, data := data.take m, answer := none, off := off }
        :: splitRma job dev write k (t + 1) (dpa + m) (off + m) (n - m) (data.drop m)

/-- Put requests in the list and send what may be sent. -/
def addRmas (l : List Rma) (s : State) : State :=
  pumpRma (l.length + s.fab.rmas.length + 1) { s with fab := { s.fab with rmas := s.fab.rmas ++ l, nextTag := (s.fab.nextTag + l.length) % 32768 } }

/-- The mailbox status of an RMA STATUS (R312, R341). -/
def rmaToMbx (st : Nat) : Nat := if st = 0 then mOk else if st = 1 then mDenied else if st = 2 then mJobRunning else if st = 3 then mRange else mSour

/-- The status of the lowest-addressed request that is not OK (R313). -/
def worstOf (l : List Rma) : Nat :=
  match l.find? fun r => r.answer != some 0 with | some r => r.answer.getD 0 | none => 0

/-- The D of a range over its bytes, 128 B a flit (R455). -/
def digestOf (step : Nat) (b : List Byte) : W64 :=
  (List.range (b.length / 128)).foldl (fun d f => d + skimTerm step f (sub b (128 * f) 128)) 0

/-- The ranges a seal record lists: source DPA, length, D (R457). -/
def sealRanges (r : List Byte) : List (Nat × Nat × Nat) :=
  (List.range (min 160 (fld r 6 2))).map fun i => (fld r (0x40 + 24 * i) 8, fld r (0x48 + 24 * i) 8, fld r (0x50 + 24 * i) 8)

/-- Places of the ranges in a buffer, after the seal (R457). -/
def rangePlaces : Nat → List Nat → List Nat
  | _, [] => []
  | o, n :: r => o :: rangePlaces (o + (n + 4095) / 4096 * 4096) r

/-- Does a range lie in the stacks of an area? -/
def inAreaStacks (s : State) (a d n : Nat) : Bool := dpaOk s.member d n && decide (areaOfAtt s (dpaStack d) = some a)

/-- Is a seal record good (R459 step 2)? -/
def sealOk (s : State) (a : Nat) (r : List Byte) : Bool :=
  decide (fld r 0 4 = 0x4D4B5358) && decide (fld r 4 2 = 1) && (sealRanges r).all fun x => inAreaStacks s a x.1 x.2.1

/-- The bytes a command's requests brought, in order. -/
def rmaData (l : List Rma) : List Byte := l.flatMap Rma.data

/-- A RESTORE with its seals read: the one to use, its ranges asked for, or RAS_RESTORE_SEAL (R459 steps 1-3). -/
def restoreSeal (j : RemoteJob) (x : Restore) (l : List Rma) (s : State) : State :=
  let recs := (List.range x.bufs.length).map fun i => (x.bufs.getD i 0, sub (rmaData l) (4096 * i) 4096)
  let good := recs.filter fun r => sealOk s x.area r.2
  let best := good.foldl (fun (acc : Option (Nat × List Byte)) r => match acc with
    | none => some r
    | some y => if fld y.2 0x10 8 < fld r.2 0x10 8 then some r else some y) none
  match best with
  | none => mbxComplete j.port j.m 0x8D55 0 [] { s with remote := s.remote.filter fun y => y.id != j.id }
  | some (base, r) =>
    let places := rangePlaces 4096 ((sealRanges r).map fun y => y.2.1)
    let reqs := (List.range (sealRanges r).length).foldl (fun (acc : List Rma × Nat) i =>
      let y := (sealRanges r).getD i (0, 0, 0)
      let q := splitRma j.id x.dev false (y.2.1 / 4096 + 2) (s.fab.nextTag + acc.1.length) (base + places.getD i 0) acc.2 y.2.1 []
      (acc.1 ++ q, acc.2 + y.2.1)) ([], 0)
    addRmas reqs.1 { s with remote := s.remote.map fun y => if y.id = j.id then { y with restore := some { x with sealRec := some r, base := base } } else y }

/-- A RESTORE with its ranges read: each is written to its source and its D compared (R459 steps 3-5). -/
def restoreRanges (j : RemoteJob) (l : List Rma) (r : List Byte) (s : State) : State :=
  let all := rmaData l
  let x := (List.range (sealRanges r).length).foldl (fun (acc : Nat × Option Nat × State) i =>
    let y := (sealRanges r).getD i (0, 0, 0)
    let b := sub all acc.1 y.2.1
    let sour := l.any fun q => within acc.1 (acc.1 + y.2.1 - 1) q.off && q.answer == some mSour
    let bad := sour || decide ((digestOf (fld r 0x10 8) b).toNat ≠ y.2.2)
    (acc.1 + y.2.1, (match acc.2.1 with | some i => some i | none => if bad then some i else none), elasticWrite y.1 b acc.2.2)) (0, none, s)
  let s := { x.2.2 with remote := x.2.2.remote.filter fun y => y.id != j.id }
  match x.2.1 with
  | some i => mbxComplete j.port j.m 0x8D54 i [] s
  | none => mbxComplete j.port j.m mOk 0 (leBytes 8 (fld r 0x10 8) ++ leBytes 8 (fld r 0x18 8)) s

/-- A remote command whose requests are all answered completes (R313); a RESTORE goes on to its next part. -/
def finishRemote (j : RemoteJob) (s : State) : State :=
  let l := s.fab.rmas.filter fun r => r.job == j.id
  if l.any fun r => r.answer.isNone then s
  else
    let s := { s with fab := { s.fab with rmas := s.fab.rmas.filter fun r => r.job != j.id } }
    let st := worstOf l
    match j.restore with
    | none =>
      let st := if j.bad then mBadParam else st
      mbxComplete j.port j.m st (if st = mSour then j.sours else 0) [] { s with remote := s.remote.filter fun y => y.id != j.id }
    | some x =>
      if st ≠ mOk ∧ st ≠ mSour then mbxComplete j.port j.m st 0 [] { s with remote := s.remote.filter fun y => y.id != j.id }
      else match x.sealRec with
        | none => restoreSeal j x l s
        | some r => restoreRanges j l r s

/-- Every remote command whose requests are all answered completes or goes on (R313). -/
def settleRemote : Nat → State → State
  | 0, s => s
  | k + 1, s => match s.remote.find? fun j => s.fab.rmas.all fun r => r.job != j.id || r.answer.isSome with
    | some j => settleRemote k (finishRemote j s)
    | none => s

/-- The requests that wait are sent as far as they may be, and commands that are answered end (R313). A RESTORE ends after its second part at the
latest. -/
def stirRemote (s : State) : State :=
  let s := pumpRma (s.fab.rmas.length + 1) s
  settleRemote (2 * s.remote.length + 1) s

/-- A request has its answer: the data go to the host or are kept, waiting requests are sent, commands may complete. -/
def answerRma (tag st : Nat) (sours : Nat) (data : List Byte) (s : State) : State :=
  match s.fab.rmas.find? fun r => r.tag == tag && r.answer.isNone && r.sentAt.isSome with
  | none => s
  | some r =>
    let s := modRma tag (fun r => { r with answer := some st, data := if r.write then [] else sub data 0 r.len }) s
    match s.remote.find? fun j => j.id == r.job with
    | none => s
    | some j =>
      let s := { s with remote := s.remote.map fun y => if y.id = j.id then { y with sours := y.sours + sours } else y }
      let s := if j.restore.isNone && !r.write && (st == mOk || st == mSour) then toHost j.port j.list r.off (sub data 0 r.len) s else s
      stirRemote s

/-- Number of set bits of a SOURMAP. -/
def bitCount (n : Nat) : Nat := ((List.range 64).filter (bit n)).length

/-- An RMA response for a mailbox command; the skim engine's (TAG bit 15) are SKIM_WRITE_ANSWER's. -/
def takeRsp (f : List Byte) (s : State) : State :=
  let h := fhPay f
  let tag := fld h 0 2
  if bit tag 15 then s else answerRma tag (rmaToMbx (fld h 2 1)) (bitCount (fld h 8 8)) (h.drop 16) s

/-- RMA_RESPONSE (R313). -/
def execRmaResponse (frame : List Byte) (s : State) : Out := .next (if fhType frame = 0x22 then takeRsp frame s else s)

/-- RMA_TIMEOUT (R313): a request unanswered 100 ms after it was sent. -/
def execRmaTimeout (tag : Nat) (s : State) : Out :=
  .next (match s.fab.rmas.find? fun r => r.tag == tag && r.answer.isNone with
    | some r => match r.sentAt with
      | some t => answerRma tag mTimeout 0 [] (runTo (s.now + (t + 100 * milli - s.up)) s)
      | none => s
    | none => s)

/-! ## Tallies (R319-R322) -/

/-- Offsets before LEN with a send or release slot, or with an RX slot. -/
def txOffsets (l : List Rec) (p cls : Nat) : List Nat :=
  (List.range (classLen l cls)).filter fun j => (List.range 14).any fun i => let t := peTx (planEntry l p cls j) i; t == 1 || t == 3
def rxOffsets (l : List Rec) (p cls : Nat) : List Nat :=
  (List.range (classLen l cls)).filter fun j => (List.range 14).any (peRx (planEntry l p cls j))

/-- Build the tally of a step's contribution (R320, R321). -/
def buildTally (p a : Nat) (st : Step) (s : State) : State :=
  match stepClass s a st.k with
  | none => s
  | some cls => match (txOffsets (draftFor s a st.k).recs p cls).getLast? with
    | none => s
    | some j =>
      if (look default (shtAt s p).txTally st.k).done then s
      else
        let s := toPick (st.s + j + 33) s
        let t := look default (shtAt s p).txTally st.k
        let row := (areaAt s a).job.steps.any fun x => decide (st.k ≤ x.k) && bit x.status 0
        let sour := (areaAt s a).job.steps.any fun x => decide (x.k = st.k) && bit x.status 1
        let T := hash64 (BitVec.ofNat 64 (t.crc ^^^ (b2n row + 2 * b2n sour))) (BitVec.ofNat 32 st.k)
        queueFrame p (mkFrame 0x13 0 0xFFF (ownSrc s) 1 (leBytes 8 st.k ++ leBytes 8 T.toNat ++ leBytes 2 t.slots ++ leBytes 6 0))
          (modSht p (fun x => { x with txTally := alter default x.txTally st.k fun t => { t with done := true } }) s)

/-- TALLY_BUILD (R321): at the build pick of the oldest contribution not yet tallied the port queues a TALLY. -/
def execTallyBuild (p : Nat) (s : State) : Out :=
  atShuttle p (fun s => match areaOfAtt s (32 + p) with
    | none => s
    | some a =>
      if !jobRuns s a then s
      else match (areaAt s a).job.steps.find? fun st => !(look default (shtAt s p).txTally st.k).done && (match stepClass s a st.k with
          | some cls => !(txOffsets (draftFor s a st.k).recs p cls).isEmpty | none => false) with
        | some st => buildTally p a st s
        | none => s) s

/-- A received TALLY: its verdict (R322). -/
def takeTally (p : Nat) (pay : List Byte) (s : State) : State :=
  match areaOfAtt s (32 + p) with
  | none => s
  | some a =>
    let k := fld pay 0 8
    match (areaAt s a).job.steps.find? (fun st => st.k == k), stepClass s a k with
    | some st, some cls =>
      let l := (draftFor s a k).recs
      let E := st.s + (if st.len = 0 then classLen l cls else st.len)
      if st.ended ∨ 8 * E < s.now ∨ (rxOffsets l p cls).isEmpty ∨ !jobRuns s a then s
      else
        let t := (planStep s a k st.s).foldl (fun t x => foldMissing p x x.len t) (look default (shtAt s p).rxTally k)
        let want := hash64 (BitVec.ofNat 64 t.crc) (BitVec.ofNat 32 k)
        let got : W64 := BitVec.ofNat 64 (fld pay 8 8)
        let s := modSht p (fun x => { x with rxTally := put default x.rxTally k { t with done := true, got := some got } }) s
        if got = want then modAreg a (fun g => { g with verified := satAdd (2 ^ 32 - 1) g.verified 1 }) s
        else
          let s := modAreg a (fun g => { g with bad := satAdd 0xFFFF g.bad 1 }) s
          let s := heddleStatus (heddleOf (homeSu p)) stSour (modArea a (fun x => { x with job := { x.job with
            steps := x.job.steps.map fun y => if y.k = k then { y with status := stOr y.status stSour, origin := true } else y } }) s)
          report 0x3810 { (portReport s p) with heddle := none, aux := leBytes 8 k } s
    | _, _ => s

/-- TALLY_RECEIVE (R322). -/
def execTallyReceive (p : Nat) (payload : List Byte) (s : State) : Out :=
  atShuttle p (fun s => if payload.length = 24 then takeTally p payload s else s) s

/-! ## The fallback of bucket exchange (R323-R329) -/

/-- Fields of a BUCKETS payload (R325). -/
def bkExid (d : List Byte) : Nat := fld d 0 2
def bkRsz (d : List Byte) : Nat := fld d 2 1
def bkFbcap (d : List Byte) : Nat := fld d 8 2
def bkPeer (d : List Byte) (i : Nat) : Nat := fld d (16 + 16 * i) 2
def bkNpg (d : List Byte) (i : Nat) : Nat := fld d (19 + 16 * i) 1
def bkOut (d : List Byte) (i : Nat) : Nat × Nat := let w := fld d (20 + 16 * i) 4; (bits w 17 0, bits w 23 20)
def bkIn (d : List Byte) (i : Nat) : Nat × Nat := let w := fld d (24 + 16 * i) 4; (bits w 17 0, bits w 23 20)

/-- The exchange of a running draft that serves an EXID and peer: area, payload, entry. -/
def exchangeOf (s : State) (exid peer : Nat) : Option (Nat × List Byte × Nat) :=
  (areaList s).findSome? fun a =>
    if !hasJob s a then none
    else ((draftOf s a).recs.filter fun r => r.type == 0x0F && bkExid r.data == exid).findSome? fun r =>
      ((List.range (fld r.data 10 2)).find? fun i => bkPeer r.data i == peer).map fun i => (a, r.data, i)

/-- Engines by EXID and peer: the source's and the landing engine's state. -/
def fbSrcAt (s : State) (e p : Nat) : FbSrc := look default s.fab.fbSrc (e * 4096 + p)
def modFbSrc (e p : Nat) (g : FbSrc → FbSrc) (s : State) : State := { s with fab := { s.fab with fbSrc := alter default s.fab.fbSrc (e * 4096 + p) g } }
def fbDstAt (s : State) (e p : Nat) : FbDst := look default s.fab.fbDst (e * 4096 + p)
def modFbDst (e p : Nat) (g : FbDst → FbDst) (s : State) : State := { s with fab := { s.fab with fbDst := alter default s.fab.fbDst (e * 4096 + p) g } }

/-- Read n rows of a creel from cell offset o beyond HEAD, as the engine's lane reads do (R327, log 44). -/
def creelRows (n i : Nat) : Nat → Nat → State → List Byte × State
  | 0, _, s => ([], s)
  | k + 1, o, s =>
    let c := creelAt (mmAt s n) i
    let x := mmRead n (crSub c.desc) (crRow c.desc (ptrAdd (crCap c.desc) c.head o)) s
    let r := creelRows n i k (o + 4) x.2.2
    (x.1 ++ r.1, r.2)

/-- Rows of a page a header row's COUNT makes the engine send (R327). -/
def pageRows (d : List Byte) (h : List Byte) : Nat := 1 + 2 * bkRsz d * min (bkFbcap d) (fld h 16 4)

/-- FB_PAGE_SEND (R327): the next fragment of the oldest page not yet sent whole, while it has committed and is before LIMIT. -/
def execFbPageSend (exch peer : Nat) (s : State) : Out :=
  .next (match exchangeOf s exch peer with
    | none => s
    | some (_, d, i) =>
      let e := fbSrcAt s exch peer
      let n := (bkOut d i).1
      let ci := (bkOut d i).2
      let c := creelAt (mmAt s n) ci
      let P := fbRows (bkRsz d) (bkFbcap d)
      let at0 := 4 * P * ((e.sentSeq - e.seq) % 65536)
      if bkFbcap d = 0 ∨ e.limit ≤ e.sentSeq ∨ crMode c.desc ≠ 3 ∨ crCommitted c < at0 + 4 * P then s
      else
        let h := creelRows n ci 1 at0 s
        let rows := pageRows d h.1
        let frags := (rows + 63) / 64
        let cnt := min 64 (rows - 64 * e.sentFrag)
        let x := creelRows n ci cnt (at0 + 256 * e.sentFrag) h.2
        let pay := leBytes 2 exch ++ leBytes 2 e.sentSeq ++ leBytes 2 e.sentFrag ++ leBytes 2 frags ++ leBytes 8 (fld h.1 4 8) ++ x.1
        let last := decide (frags ≤ e.sentFrag + 1)
        startRouted 0x30 1 peer pay (modFbSrc exch peer (fun e => { e with
          sentSeq := if last then e.sentSeq + 1 else e.sentSeq, sentFrag := if last then 0 else e.sentFrag + 1, lastAt := x.2.up }) x.2))

/-- The page SEQ after which the landing engine may accept no more: oldest page not freed, plus NPG (R328). Rows pushed whose
credit is not back at the edge are not yet freed. -/
def fbLimit (s : State) (d : List Byte) (i : Nat) (e : FbDst) : Nat :=
  let n := (bkIn d i).1
  let ci := (bkIn d i).2
  let m := mmAt s n
  let c := creelAt m ci
  let P := fbRows (bkRsz d) (bkFbcap d)
  let queued := (m.edgeq.filter fun x => x.op.op == 1 && x.op.creel == ci).length
  let held := crCap c.desc / crPadv c.desc - look 0 m.credits ci + queued
  (P * e.nextSeq + 64 * e.nextFrag - held) / P + bkNpg d i

/-- Send a FBGRANT for a pair (R328). -/
def sendGrant (exch peer : Nat) (s : State) : State :=
  match exchangeOf s exch peer with
  | none => s
  | some (_, d, i) =>
    let e := fbDstAt s exch peer
    if bkFbcap d = 0 then s
    else startRouted 0x31 0 peer (leBytes 2 exch ++ leBytes 2 e.nextSeq ++ leBytes 2 e.nextFrag ++ leBytes 2 (fbLimit s d i e)) s

/-- FBGRANT_SEND (R328). -/
def execFbgrantSend (exch peer : Nat) (s : State) : Out := .next (sendGrant exch peer s)

/-- Push rows into a creel through its site's lane (R329). -/
def pushRows (n ci : Nat) (rows : List (BitVec 512)) (s : State) : State :=
  modMm n (fun m => { m with edgeq := m.edgeq ++ rows.map fun d => { op := { op := 1, creel := ci, arg := 0, tag := 0, data := d, sour := 0, arr := 0, half := none }, job := none } }) s

/-- The rows of a byte string, 64 B each. -/
def rowsOf (b : List Byte) : List (BitVec 512) := (List.range (b.length / 64)).map fun i => BitVec.ofNat 512 (fld b (64 * i) 64)

/-- An FBPAGE for this device (R329). -/
def takePage (f : List Byte) (s : State) : State :=
  let h := fhPay f
  let exid := fld h 0 2
  let peer := fhSrc f
  match exchangeOf s exid peer with
  | none => count 0x1806 hubIdx 1 s
  | some (a, d, i) =>
    let e := fbDstAt s exid peer
    let frag := fld h 4 2
    if bkFbcap d = 0 ∨ fld h 2 2 ≠ e.nextSeq % 65536 ∨ frag ≠ e.nextFrag then s
    else
      let rows := rowsOf (h.drop 16)
      let n := (bkIn d i).1
      let ci := (bkIn d i).2
      let cnt := if frag = 0 then fld h (16 + 16) 4 else e.count
      let drp := if frag = 0 then fld h (16 + 24) 4 else e.dropped
      let last := decide (frag + 1 = fld h 6 2)
      let fill := if last then List.replicate (2 * bkRsz d * (bkFbcap d - cnt)) 0 else []
      let s := pushRows n ci (rows ++ fill) s
      let s := modFbDst exid peer (fun e => if last then { e with nextSeq := e.nextSeq + 1, nextFrag := 0, count := 0, dropped := 0 }
        else { e with nextFrag := frag + 1, count := cnt, dropped := drp }) s
      let s := if last then modAreg a (fun g => { g with fbrec := satAdd (2 ^ 24 - 1) g.fbrec cnt, fbdrop := satAdd (2 ^ 24 - 1) g.fbdrop drp }) s else s
      sendGrant exid peer s

/-- FB_PAGE_RECEIVE (R329). -/
def execFbPageReceive (frame : List Byte) (s : State) : Out := .next (if fhType frame = 0x30 then takePage frame s else s)

/-- A 16-bit serial number as the unbounded one nearest at or after a base. -/
def unwrap (base x : Nat) : Nat := base + (x + 65536 - base % 65536) % 65536

/-- An FBGRANT (R327): NEXT and LIMIT of the peer; pages NEXT has passed are drained. -/
def takeGrant (f : List Byte) (s : State) : State :=
  let h := fhPay f
  let exid := fld h 0 2
  let peer := fhSrc f
  match exchangeOf s exid peer with
  | none => s
  | some (_, d, i) =>
    let e := fbSrcAt s exid peer
    let next := unwrap e.seq (fld h 2 2)
    let pages := next - e.seq
    let P := fbRows (bkRsz d) (bkFbcap d)
    let c := creelAt (mmAt s (bkOut d i).1) (bkOut d i).2
    if bkFbcap d = 0 ∨ 32768 ≤ pages ∨ crCommitted c < 4 * P * pages then s
    else
      let s := modMm (bkOut d i).1 (modCreel (bkOut d i).2 (Creel.drained (4 * P * pages))) s
      modFbSrc exid peer (fun e =>
        let behind := decide (e.sentSeq < next) || (decide (e.sentSeq = next) && decide (e.sentFrag < fld h 4 2))
        { e with
          seq := next, nextSeq := next, nextFrag := fld h 4 2, limit := unwrap next (fld h 6 2)
          sentSeq := if behind then next else e.sentSeq, sentFrag := if behind then fld h 4 2 else e.sentFrag }) s

/-- FBGRANT_RECEIVE (R327). -/
def execFbgrantReceive (frame : List Byte) (s : State) : Out := .next (if fhType frame = 0x31 then takeGrant frame s else s)

/-- FB_RESEND_TIMEOUT (R327): NEXT has not advanced 1 ms after the last fragment: the engine goes back to NEXT. -/
def execFbResendTimeout (exch peer : Nat) (s : State) : Out :=
  .next (match exchangeOf s exch peer with
    | none => s
    | some (a, _, _) =>
      let e := fbSrcAt s exch peer
      if e.sentSeq = e.nextSeq ∧ e.sentFrag = e.nextFrag then s
      else
        let s := runTo (s.now + (e.lastAt + milli - s.up)) s
        let s := modAreg a (fun g => { g with resend := satAdd 0xFFFF g.resend 1 }) (count 0x1805 hubIdx 1 s)
        modFbSrc exch peer (fun e => { e with sentSeq := e.nextSeq, sentFrag := e.nextFrag }) s)

/-! ## Frames in (R280, R309) -/

/-- Hand a routed frame to the unit its TYPE names (R309). -/
def deliverFrame (f : List Byte) (s : State) : State :=
  match fhType f with
  | 0x20 => serveRma f s
  | 0x21 => serveRma f s
  | 0x22 => takeRsp f s
  | 0x30 => takePage f s
  | 0x31 => takeGrant f s
  | _ => s

/-- A routed frame: delivered here, discarded, or passed on (R309). -/
def takeRouted (f : List Byte) (s : State) : State :=
  if fhDst f = 0xFFF ∨ (idAssigned s ∧ fhDst f = devId s) then deliverFrame f s
  else if fhTtl f = 0 then count 0x1804 hubIdx 1 s
  else routeFrame (ttlDown f) s

/-- ROUTED_FRAME (R309). -/
def execRoutedFrame (frame : List Byte) (s : State) : Out := .next (if typeRouted (fhType frame) then takeRouted frame s else s)

/-- A frame accepted on a port goes where its TYPE says; while the peer's HELLO mismatches only LINK and HELLO do (R305). A LINK
frame's own measurement is LINK_FRAME's. -/
def acceptFrame (p : Nat) (f : List Byte) (s : State) : State :=
  let t := fhType f
  if t = 0x10 then takeHello p (fhPay f) s
  else if t = 0x01 ∨ (shtAt s p).peer.mismatch then s
  else if t = 0x11 then takeRoute p (fhPay f) s
  else if t = 0x13 then (if fhLen f = 6 then takeTally p (fhPay f) s else s)
  else takeRouted f s

/-- ELASTIC_FRAME_RECEIVE (R280): `bad` when a byte came from an uncorrectable codeword or a lost pick. After a discard frames are
ignored until a header names a boundary. A routed frame leaves the deframer by the port receive loop, and waits where that has no credit (R102, R103;
log 75). -/
def execElasticFrameReceive (p : Nat) (frame : List Byte) (bad : Bool) (s : State) : Out :=
  atShuttle p (fun s =>
    let x := shtAt s p
    if x.state < 2 ∨ x.resync then s
    else if bad || !frameOk frame then
      count 0x1710 (portIdx p) 1 (modSht p (fun x => { x with eldrop := satAdd 0xFFFF x.eldrop 1, resync := true }) s)
    else
      let accept := fun s => acceptFrame p frame (modSht p (fun x => { x with freed := alter 0 x.freed (fhVc frame) fun n => (n + frameUnits frame) % 65536 }) s)
      if typeRouted (fhType frame) then underCredit (32 + p) 3 accept s else accept s) s

end Sys2Proof.Machine
end

