-- ==== Sys2Proof/Machine/Fence.lean ====
section
/-! DEFINITION. The fence map (R423-R428): changing entries, the two flash copies, allowances; adjustments of R445. -/
namespace Sys2Proof.Machine

/-- The newer valid copy of the fence map in flash (R425); none where both are invalid. -/
def flashNewer (s : State) : Option Fence :=
  let a := s.mod.flash0
  let b := s.mod.flash1
  if a.valid && (!b.valid || decide (b.seqno ≤ a.seqno)) then some a else if b.valid then some b else none

/-- Sites of a type in one power region (R432). -/
def regionSites : SiteKind → Nat
  | .mx => 1792
  | .mm => 1120
  | .sf => 448
  | .su => 224

/-- Fenced sites of a type: all of a wholly fenced region, and the fenced entries of the others. -/
def fencedOf (s : State) (k : SiteKind) : Nat :=
  (s.fence.regions.filter fun kv => decide (kv.1 < numRegions s.member) && kv.2 != 0).length * regionSites k
  + (s.fence.sites.filter fun kv => sitePresent s.member kv.1 && decide (kindOf kv.1 = k) && bit kv.2 15
      && decide (look 0 s.fence.regions (powerRegion kv.1) = 0)).length

/-- Fenced sites of each type: MX, MM, SF, SU. -/
def fencedCounts (s : State) : Nat × Nat × Nat × Nat := (fencedOf s .mx, fencedOf s .mm, fencedOf s .sf, fencedOf s .su)

/-- The allowances of a member: 1/28 of the fitted sites of a type (R7). -/
def allowances (m : Nat) : Nat × Nat × Nat × Nat := (4096 * m / 8, 2560 * m / 8, 1024 * m / 8, 512 * m / 8)

/-- Compare the fenced sites with the allowances (R427). -/
def allowCheck (s : State) : State :=
  let c := fencedCounts s
  let l := allowances s.member
  let tooFull := decide (l.1 < c.1) || decide (l.2.1 < c.2.1) || decide (l.2.2.1 < c.2.2.1) || decide (l.2.2.2 < c.2.2.2)
  let s' := { s with bru := { s.bru with overAllow := tooFull } }
  if tooFull && !s.bru.overAllow then reportUnit 0x1D21 hubIdx s' else s'

/-- A unit newly in the fence map (R433). -/
def fenceNew (unit entry : Nat) (s : State) : State :=
  report 0x1D20 { (default : Report349) with unit := unit, aux := leBytes 2 entry } s

/-- The units an entry puts out of service: the site, its switch and its links. -/
def outBits (e : Nat) : Nat := e &&& 0xCF00

/-- Change the entry of a site; a unit new to the map, the site or a link of it, raises RAS_FENCE_NEW (R433; DEDUCED, log 57). -/
def fenceEntry (n : Nat) (f : Nat → Nat) (s : State) : State :=
  let e := look 0 s.fence.sites n
  let e' := f e
  let s := { s with fence := { s.fence with sites := put 0 s.fence.sites n e' } }
  if outBits e' ||| outBits e ≠ outBits e then fenceNew n e' s else s

/-- An entry with bits of a mask set. -/
def orBits (e m : Nat) : Nat := e ||| m

/-- An entry with FENCED set, its cause replaced. -/
def fencedEntry (cause : Nat) (field swOff unreach : Bool) (e : Nat) : Nat :=
  orBits (e / 256 * 256 + cause) (2 ^ 15 + 2 ^ 14 * b2n swOff + 2 ^ 13 * b2n unreach + 2 ^ 12 * b2n field)

/-- Fence a site. FIELD: after the module's first bring-up. -/
def fenceSite (n cause : Nat) (swOff unreach : Bool) (s : State) : State :=
  fenceEntry n (fencedEntry cause s.bru.everUp swOff unreach) s

/-- Record a link as out of service in the entries of both of its sites (R415). -/
def fenceLink (n p cause : Nat) (s : State) : State :=
  let off := fun q e => orBits (e / 256 * 256 + cause) (2 ^ (8 + q))
  let s := fenceEntry n (off p) s
  match neighbour s.member n p with
  | some m => fenceEntry m (off (facing p)) s
  | none => s

/-- Add the outcome of a site's test to the map (R415, R416): a site in flash stays as it is where the test adds nothing. -/
def fenceFailure (f : SiteFailure) (cause : Nat) (s : State) : State :=
  if !sitePresent s.member f.site then s
  else
    let s := if f.swOff || f.unreach || decide (f.links = 0) then fenceSite f.site cause (f.swOff || f.unreach) f.unreach s else s
    each ((List.range 4).filter (bit f.links)) (fun p => fenceLink f.site p cause) s

/-- The state of a power region in the map. -/
def fenceRegion (r st : Nat) (s : State) : State :=
  let old := look 0 s.fence.regions r
  let s := { s with fence := { s.fence with regions := put 0 s.fence.regions r st } }
  if old = 0 ∧ st ≠ 0 then fenceNew (regionIdx r) st s else s

/-- A channel's rate and FAIL in its registers and in the map (R424). -/
def setChannel (k c rate : Nat) (fail : Bool) (s : State) : State :=
  let s := modStack k (modChan c fun x => { x with rate := Tri.of rate, fail := Tri.of (b2n fail) }) s
  { s with fence := { s.fence with chans := put 0 s.fence.chans (32 * k + c) (rate + 4 * b2n fail) } }

/-! ## Adjustments (R445) -/

/-- Steps a unit has taken. -/
def adjustSteps (s : State) (u : WatchUnit) : Nat := match s.ras.adjust.find? (fun x => x.1 == u) with | some x => x.2 | none => 0

/-- Take one adjustment step of a lane or channel: a supply step, then a lower rate for a channel, which goes to flash (R268, R425), or a lane declared
failed. -/
def adjustUnit (u : WatchUnit) (s : State) : State :=
  let n := adjustSteps s u
  let s := count 0x1D42 hubIdx 1 { s with ras := { s.ras with adjust := s.ras.adjust.filter (fun x => x.1 != u) ++ [(u, n + 1)] } }
  let s := { s with ras := { s.ras with watch := s.ras.watch.map fun w => if w.u = u then { w with steps := n + 1 } else w } }
  match u with
  | .channel k c =>
    if n < 2 then modStack k (modChan c fun x => { x with raise := x.raise + 1 }) s
    else
      let r := (chanAt (stackAt s k) c).rate.val
      flashWrite (setChannel k c (min 2 (r + 1)) (chanFailed (stackAt s k) c) s)
  | .lane p l =>
    if n < 4 then modSht p (fun x => { x with lanes := alter default x.lanes l fun y => { y with steps := y.steps + 1 } }) s
    else modSht p (fun x => { x with lanes := alter default x.lanes l fun y => { y with failed := true } }) s
  | _ => s

end Sys2Proof.Machine
end

