-- ==== Sys2Proof/Machine/Su.lean ====
section
/-! DEFINITION. The SU (05): its sequencer, timed actions, token tables, ready conditions, the barrier join, samples. -/
namespace Sys2Proof.Machine

/-! ## Issue -/

/-- The program word at the sequencer's address. -/
def suWord (u : Su) : W64 := look 0 u.prog (512 * u.seq.bank + u.seq.pc)

/-- A schedule defect at the word being issued. -/
def suFault (code n : Nat) (s : State) : State := reportProg code n (suAt s n).seq.pc s

/-- Go on to the next word at ACLK t. -/
def suNextAt (n t : Nat) (s : State) : State := modSu n (fun u => { u with seq := u.seq.advance t }) s

/-- Go on to the next word in the next ACLK. -/
def suNext (n : Nat) (s : State) : State := suNextAt n (s.now + 1) s

/-- The start of the area's next step, if its pick has come (R182). -/
def suStartDue (n t : Nat) (s : State) : State :=
  match areaOfSite s n with
  | some a => startDue a t s
  | none => s

/-- A word with a reserved code (R153). -/
def suReserved (n : Nat) (s : State) : State := modSu n (fun u => { u with seq := u.seq.stop }) (suFault 0x4405 n s)

/-- Issue of the word w with opcode op at an SU (R153, R154), as at the other sequencers; a JOIN in progress holds the program. -/
def suIssue (op n : Nat) (w : W64) (f : State → State) (s : State) : Out :=
  onSite .su n (fun s =>
    let u := suAt s n
    if !(siteRuns s n) || !u.seq.live || u.join.isSome then s
    else
      let s := suStartDue n (max s.now u.seq.next) s
      if 512 ≤ u.seq.pc then modSu n (fun u => { u with seq := u.seq.stop }) (suFault 0x4405 n (runTo u.seq.next s))
      else if suWord u = w ∧ wOp w = op then
        let s := runTo u.seq.next s
        f (excUp n 5 1 (suClock (s.now + 1) n s))
      else if !suOpKnown (wOp (suWord u)) then suReserved n (runTo u.seq.next s)
      else s) s

/-- S_k as the last completed JOIN established it. -/
def suBase (u : Su) : Nat := match u.lastJoin with | some j => j.start.getD 0 | none => 0

/-- T + DELTA, in ACLK (R178). -/
def suEffective (u : Su) (w : W64) : Nat :=
  (((8 * (suBase u + u.tOff) + u.tAc : Nat) : Int) + signed 16 (bits w.toNat 47 32)).toNat

/-! ## Sequencer instructions (R178) -/

/-- NOP. -/
def execSuNop (site : Nat) (w : W64) (s : State) : Out := suIssue 0x00 site w (suNext site) s

/-- WAIT. -/
def execSuWait (site : Nat) (w : W64) (s : State) : Out :=
  suIssue 0x02 site w (fun s => suNextAt site (s.now + bits w.toNat 31 0 + 1) s) s

/-- WT: the next instruction issues at e; SU_LATE if e is before t + 1. -/
def execWt (site : Nat) (w : W64) (s : State) : Out :=
  suIssue 0x03 site w (fun s =>
    let e := suEffective (suAt s site) w
    if e < s.now + 1 then suNext site (suFault 0x4401 site s) else suNextAt site e s) s

/-- LOOP. -/
def execSuLoop (site : Nat) (w : W64) (s : State) : Out :=
  suIssue 0x04 site w (fun s => match (suAt s site).seq.enter (bits w.toNat 8 0) (bits w.toNat 24 9 + 1) (s.now + 1) with
    | some q => modSu site (fun u => { u with seq := q }) s
    | none => suNext site (suFault 0x4405 site s)) s

/-- BR: 2 ACLK. -/
def execSuBr (site : Nat) (w : W64) (s : State) : Out :=
  suIssue 0x05 site w (fun s => modSu site (fun u => { u with seq := u.seq.jump (bits w.toNat 8 0) (s.now + 2) }) s) s

/-- SETT: T = ACLK AC of pick offset OFF. -/
def execSett (site : Nat) (w : W64) (s : State) : Out :=
  suIssue 0x06 site w (fun s => suNext site (modSu site (fun u => { u with tOff := bits w.toNat 31 0, tAc := bits w.toNat 34 32 }) s)) s

/-- ADDT: T advances by a signed number of picks, in the 32 bits of its pick offset. -/
def execAddt (site : Nat) (w : W64) (s : State) : Out :=
  suIssue 0x07 site w (fun s => suNext site (modSu site (fun u => { u with tOff := (u.tOff + bits w.toNat 31 0) % 2 ^ 32 }) s)) s

/-! ## Timed actions (R178, R180) -/

/-- Queue a timed action that acts at ACLK t: SU_LATE if the word issues later than `limit`, SU_SEQ if eight are pending. -/
def suTimed (n t : Nat) (late : Bool) (a : Timed) (f : State → State) (s : State) : State :=
  if late then suNext n (suFault 0x4401 n s)
  else if 8 ≤ (suAt s n).timers.length then suNext n (suFault 0x4405 n s)
  else suNext n (f (modSu n (fun u => { u with timers := u.timers ++ [(t, a)] }) s))

/-- GO: the starts of the masked sites at ADDR at e, sent at e − 2. -/
def execGo (site : Nat) (w : W64) (s : State) : Out :=
  suIssue 0x10 site w (fun s =>
    let e := suEffective (suAt s site) w
    let mask := bits w.toNat 15 0
    let addr := bits w.toNat 25 16
    suTimed site (e - 2) (decide (e < s.now + 2)) (.go mask addr) (modSu site fun u => { u with
      goMask := u.goMask ||| mask
      starts := u.starts ++ ((List.range 16).filter (bit mask)).map fun p => (e, siteOf (heddleOf site) p, addr, u.seq.pc) }) s) s

/-- PAGE: page PG at ACLK 0 of the pick containing e. -/
def execPage (site : Nat) (w : W64) (s : State) : Out :=
  suIssue 0x11 site w (fun s =>
    let t := suEffective (suAt s site) w / 8 * 8
    suTimed site t (decide (t < s.now + 2)) (.page (bits w.toNat 5 0)) id s) s

/-- Put a token on the token net in the order of arrival. -/
def addToken (t : Nat) (w : BitVec 24) : List (Nat × BitVec 24) → List (Nat × BitVec 24)
  | [] => [(t, w)]
  | x :: r => if x.1 ≤ t then x :: addToken t w r else (t, w) :: x :: r

/-- A token word (R96). -/
def tokenWord (site port type arg : Nat) : BitVec 24 := BitVec.ofNat 24 (site * 2 ^ 20 + port * 2 ^ 17 + type * 2 ^ 12 + arg)

/-- FELL: a FELL token arriving at e, sent at e − 2. -/
def execFell (site : Nat) (w : W64) (s : State) : Out :=
  suIssue 0x12 site w (fun s =>
    let e := suEffective (suAt s site) w
    let bank := bits w.toNat 7 7
    let port := bits w.toNat 6 4
    let pos := bits w.toNat 3 0
    if 4 < port then suReserved site s
    else suTimed site (e - 2) (decide (e < s.now + 2)) (.fell bank port pos) (modSu site fun u => { u with
      tokOut := addToken e (tokenWord pos port 2 bank) u.tokOut }) s) s

/-- The page and the ACLK it took effect, and the bank, that port L of a switch has at ACLK t. -/
def pageAt (s : State) (n su t : Nat) : Nat × Nat × Nat :=
  let o := look default (swAt s n).outp 4
  let f := match o.fell with
    | some (e, b) => if e ≤ t then (0, e, b) else (o.page, o.since, o.bank)
    | none => (o.page, o.since, o.bank)
  match nextPage (suAt s su) with
  | some (e, pg, _) => if e ≤ t ∧ f.2.1 ≤ e then (pg, e, f.2.2) else f
  | none => f

/-- TOKEN_TABLE_EMIT (R177): the DLV token for the entry with TOK = 1 that port L of the switch at a position executes two
ACLK from now. -/
def execTokenTableEmit (su pos : Nat) (s : State) : Out :=
  onSite .su su (fun s =>
    let n := siteOf (heddleOf su) pos
    let t := s.now + 2
    let w := swAt s n
    let x := pageAt s n su t
    let d := pageDesc w x.2.2 4 x.1
    let i := entryIndex d x.2.1 t
    let e := (look 0 w.weave ((5 * x.2.2 + 4) * 1024 + i)).toNat
    if pos < 16 ∧ siteRuns s su ∧ switchRuns s n ∧ pdValid d ∧ x.2.1 ≤ t ∧ weTok e ∧ weKind e ≠ 0 then
      let arg := (look 0 w.tokens (1024 * x.2.2 + i)).toNat
      excUp su 3 1 (modSu su (fun u => { u with tokOut := addToken t (tokenWord pos 4 1 arg) u.tokOut }) s)
    else s) s

/-! ## Site starts (R155, R180) -/

/-- The earliest start on the start net for a site. -/
def firstStart (n : Nat) (l : List (Nat × Nat × Nat × Nat)) : Option (Nat × Nat × Nat × Nat) :=
  l.foldl (fun acc x => if x.2.1 = n then (match acc with | some y => if x.1 < y.1 then some x else acc | none => some x) else acc) none

/-- Start a sequencer at an address at ACLK e, in the step that began at pick p. -/
def Seq.begin (addr e p : Nat) (q : Seq) : Seq := { q with pc := addr, running := true, next := e, loops := [], step := p }

/-- Has the site not executed END before ACLK e (R180)? END leaves the ACLK after its own in `next`. -/
def Seq.holds (e : Nat) (q : Seq) : Bool := q.running || decide (e < q.next)

/-- SITE_START (R155): the next start on the start net reaches the site; SU_GO_BUSY if it has not executed END before (R180). -/
def execSiteStart (site : Nat) (s : State) : Out :=
  atSite site (fun s =>
    let su := suOf (heddleOf site)
    match firstStart site (suAt s su).starts with
    | none => s
    | some x =>
      let s := suStartDue su x.1 s
      let s := modSu su (fun u => { u with starts := u.starts.erase x }) (runTo x.1 s)
      if !siteRuns s site then s
      else
        let p := stepBase s (areaOfSite s site) / 8
        match kindOf site with
        | .mx => if (mxAt s site).seq.holds x.1 then reportProg 0x4402 su x.2.2.2 s else modMx site (fun m => { m with seq := m.seq.begin x.2.2.1 x.1 p }) s
        | .sf => if (sfAt s site).seq.holds x.1 then reportProg 0x4402 su x.2.2.2 s else modSf site (fun m => { m with seq := m.seq.begin x.2.2.1 x.1 p }) s
        | _ => s) s

/-! ## Ready conditions (R178) -/

/-- Add a condition; a ninth raises SU_SEQ. -/
def suCond (n : Nat) (c : Cond) (s : State) : State :=
  if 8 ≤ (suAt s n).conds.length then suNext n (suFault 0x4405 n s)
  else suNext n (modSu n (fun u => { u with conds := u.conds ++ [c] }) s)

/-- CWAIT: creel occupancy or free space of at least N cells. -/
def execCwait (site : Nat) (w : W64) (s : State) : Out :=
  suIssue 0x18 site w (suCond site (.creel (bits w.toNat 31 16) (bit w.toNat 8) (bits w.toNat 7 4) (bits w.toNat 3 0))) s

/-- QWAIT: entries, or free entries, of the elastic partition of a selvedge queue. -/
def execQwait (site : Nat) (w : W64) (s : State) : Out :=
  suIssue 0x19 site w (fun s =>
    if 64 < bits w.toNat 6 0 then suReserved site s
    else suCond site (.queue (bits w.toNat 25 16) (bit w.toNat 9) (bit w.toNat 8) (bits w.toNat 6 0)) s) s

/-- Does a condition of the SU at heddle h hold now? -/
def condHolds (s : State) (h : Nat) : Cond → Bool
  | .creel n free creel pos =>
    let c := creelAt (mmAt s (siteOf h pos)) creel
    decide (n ≤ if free then crFree c else crOcc c)
  | .queue n free outbound att =>
    let q := attAt s att
    let len := (if outbound then q.outE else q.inE).length
    let cap := 256 - (if outbound then q.sOut else q.sIn)
    decide (n ≤ if free then cap - len else len)

/-! ## The barrier join (R181-R184) -/

/-- Does the JOIN that opens step k continue in the other bank: the first step of the successor (R200)? -/
def joinSwaps (s : State) (a k bank : Nat) : Bool :=
  let x := areaAt s a
  let d := look default x.drafts (1 - bank)
  decide (0 < k) && decide (d.first = k) && (decide (x.complete = 1) || decide (x.bank ≠ bank))

/-- LEN of the class of step k, where the static report gives it (R211). -/
def stepLen (s : State) (a k : Nat) : Nat :=
  match stepClass s a k with
  | some i => classLen (draftFor s a k).recs i
  | none => 0

/-- The SU's JOIN has START: it completes in the next ACLK, T is offset 0 of the new step, the program goes on. If that is not before START it
raises SU_START_LATE and does not start the step: its program waits for the replay (R33, R182, R183, R200). A step that no JOIN gives a length
takes that of its class (DEDUCED, log 29). -/
def joinComplete (n : Nat) (s : State) : State :=
  let u := suAt s n
  match u.join with
  | none => s
  | some j => match j.start, areaOfSite s n with
    | some S, some a =>
      let swap := joinSwaps s a j.opens u.seq.bank
      let s := modSu n (fun u => { u with
        seq := if swap then { u.seq with bank := 1 - u.seq.bank, pc := 1, loops := [], next := s.now + 2 } else u.seq.advance (s.now + 2)
        join := none, lastJoin := some j, conds := [], tOff := 0, tAc := 0, inStep := j.opens + 1 }) s
      if S ≤ (s.now + 1) / 8 then
        let s := startDue a (s.now + 1) (modSu n (fun u => { u with seq := { u.seq with stopped := true } }) s)
        let s := modArea a (fun x => { x with job := { x.job with steps := x.job.steps.map fun st =>
          if st.k = j.opens ∧ st.len = 0 then { st with len := stepLen s a st.k } else st } }) s
        report 0x3406 { siteReport s n with paddr := u.seq.pc, offset := stepOffset { s with now := s.now + 1 } (some a) } s
      else s
    | _, _ => s

/-- An SU with what it has heard from its children in the barrier of JOIN j. -/
def heard (j : Join) (u : Su) : Su := { u with kids := u.kids.filter fun k => decide (j.endPick ≤ k.seen) }

/-- The kids heard before pick p, all ready? -/
def kidsReady (u : Su) (j : Join) (p : Nat) : Bool :=
  decide (j.nch ≤ (u.kids.filter fun k => decide (k.ready ≠ 0) && decide (k.seen < p)).length)

/-- The largest READY of an SU and its children. -/
def maxReady (u : Su) (r : Nat) : Nat := maxOf (r :: u.kids.map Kid.ready)

/-- STATUS of an SU: its children's and its heddle's (R182). -/
def suStatus (u : Su) : Nat := u.kids.foldl (fun x k => stOr x k.status) u.status

/-- The arrival slack START − D − R of a step, kept for the next REPORT (R399). -/
def noteSlack (x : Nat) (s : State) : State :=
  match s.pwr.grp with
  | some g => { s with pwr := { s.pwr with grp := some { g with slackSum := g.slackSum + x, slackN := g.slackN + 1 } } }
  | none => s

/-- A root with DEV 0 that is ready with every child sets START = READY + D at a pick boundary (R182). -/
def rootStart (n : Nat) (s : State) : State :=
  let u := suAt s n
  match u.join with
  | none => s
  | some j => match j.ready with
    | none => s
    | some r =>
      let u := heard j u
      if j.root ∧ ¬ j.dev ∧ j.start = none ∧ r ≤ s.pick ∧ kidsReady u j s.pick ∧ s.pwr.clamp = none then
        let S := maxReady u r + j.d
        noteSlack 0 (joinComplete n (modSu n (fun u => { u with
          join := some { j with start := some S, startSeen := s.pick - 1 }
          downOut := some [j.opens, suStatus u, S] }) s))
      else s

/-- JOIN (R182): joins the barrier of the next step; late after ACLK 6 of pick E_k − 1. The first JOIN of a job treats P as the
end pick (R204). -/
def execJoin (site : Nat) (w : W64) (s : State) : Out :=
  suIssue 0x20 site w (fun s =>
    let u := suAt s site
    match areaOfSite s site with
    | none => s
    | some a =>
      let first := u.lastJoin.isNone
      let E := if first then (areaAt s a).job.p else suBase u + bits w.toNat 55 32
      if !first && decide (8 * E < s.now + 2) then suFault 0x4401 site s
      else
        let j := joinOf w E u.inStep none
        let s := modSu site (fun u => { u with
          join := some j
          savedJoin := u.savedJoin.filter (fun x => decide (x.1 < j.opens) && decide (j.opens ≤ x.1 + 2)) ++ [(j.opens, u.seq.pc, u.seq.loops, u.seq.bank, w)] }) s
        if first then selectPage (heddleOf site) j.bpg (modSu site (fun u => { u with barrier := some j.bpg }) s)
        else modArea a (fun x => { x with job := { x.job with steps := x.job.steps.map fun st =>
          if st.k + 1 = j.opens ∧ st.len = 0 then { st with len := j.len } else st } }) s) s

/-- Has step k − 2 of the JOIN that opens step k committed (R38, R182)? -/
def commitReady (s : State) (a opens : Nat) : Bool :=
  decide (opens < 2) || (match (areaAt s a).job.committed with | some c => decide (opens ≤ c + 2) | none => false)

/-- JOIN_READY (R182): the SU looks at its conditions at the first pick boundary from E_k on. -/
def execJoinReady (su : Nat) (s : State) : Out :=
  onSite .su su (fun s =>
    let u := suAt s su
    match u.join, areaOfSite s su with
    | some j, some a =>
      if j.ready.isSome ∨ !siteRuns s su then s
      else
        let s := toPick (max ((s.now + 7) / 8) (j.endPick + (aregAt s a).hold)) s
        if (u.conds.all (condHolds s (heddleOf su))) ∧ commitReady s a j.opens then
          rootStart su (modSu su (fun u => { u with join := some { j with ready := some s.pick } }) s)
        else s
    | _, _ => s) s

/-- The JOIN whose barrier an SU serves in pick p: the current one from its end pick on, before that the last completed while
the SU holds the barrier page (R182). -/
def servedJoin (p : Nat) (u : Su) : Option Join :=
  let last := if u.barrier.isSome then u.lastJoin else none
  match u.join with
  | some j => if j.endPick ≤ p ∨ u.lastJoin = none then some j else last
  | none => last

/-- A barrier flit (R181). -/
def barrierFlitOf (ready step status start kind h : Nat) : Flit :=
  { data := ofLanes ([ready % 2 ^ 32, ready / 2 ^ 32, step % 2 ^ 32, step / 2 ^ 32, status, start % 2 ^ 32, start / 2 ^ 32, kind + h * 2 ^ 16].map (BitVec.ofNat 32))
    sour := 0 }

/-- BARRIER_FLIT_SEND (R182): the up flit at ACLK 0, or the down flit at ACLK 4, of the next pick in which the SU holds the
barrier page. The root sends no up flit unless its parent is on another device, a leaf no down flit (log 29). -/
def execBarrierFlitSend (su : Nat) (down : Bool) (s : State) : Out :=
  onSite .su su (fun s =>
    if !(siteRuns s su) then s
    else
      let s := if down then runTo ((s.now + 3) / 8 * 8 + 4) s else toPick ((s.now + 7) / 8) s
      let s := if (suAt s su).barrier.isSome then rootStart su s else s
      let u := suAt s su
      match servedJoin s.pick u with
      | none => s
      | some j =>
        let u := heard j u
        let h := heddleOf su
        if u.barrier.isNone then s
        else if down then
          if j.nch = 0 then s
          else
            let x := match u.downOut with
              | some [k, st, S] => if k = j.opens ∧ j.startSeen < s.pick then (st, S) else (0, 0)
              | _ => (0, 0)
            inject su s.now (barrierFlitOf 0 j.opens x.1 x.2 2 h) s
        else if j.root && !j.dev then s
        else
          let r := match j.ready with
            | some r => if r ≤ s.pick ∧ j.nch ≤ (u.kids.filter fun k => decide (k.ready ≠ 0)).length then maxReady u r else 0
            | none => 0
          inject su s.now (barrierFlitOf r j.opens (suStatus u) 0 1 h) s) s

/-- Fields of a barrier flit. -/
def bfReady (f : Flit) : Nat := bits f.data.toNat 63 0
def bfStep (f : Flit) : Nat := bits f.data.toNat 127 64
def bfStatus (f : Flit) : Nat := bits f.data.toNat 159 128
def bfStart (f : Flit) : Nat := bits f.data.toNat 223 160
def bfKind (f : Flit) : Nat := bits f.data.toNat 225 224
def bfHeddle (f : Flit) : Nat := bits f.data.toNat 253 240

/-- Did the flit come over a cross-device edge: in a slot of a port (R314, R315, R318)? -/
def crossDevice (f : Flit) : Bool := f.port.isSome

/-- A barrier flit of the served JOIN's step: an up flit updates its child, which its heddle names and whether it is on this device (R315); a down
flit with START completes the JOIN. -/
def takeBarrier (su : Nat) (j : Join) (f : Flit) (s : State) : State :=
  let s := if crossDevice f then modSu su (fun u => { u with farPort := f.port }) s else s
  let u := suAt s su
  if f.sour ≠ 0 then s
  else if bfStep f ≠ j.opens then
    if crossDevice f then report 0x5820 { siteReport s su with heddle := none } s else s
  else if bfKind f = 1 then
    modSu su (fun u => { u with kids := u.kids.filter (fun k => !(k.heddle == bfHeddle f && k.far == crossDevice f)) ++
      [{ heddle := bfHeddle f, far := crossDevice f, ready := bfReady f, status := bfStatus f, seen := s.pick }] }) s
  else if bfStart f = 0 ∨ u.join = none ∨ j.start ≠ none then s
  else
    let s := if j.root then noteSlack (bfStart f - j.d - maxReady (heard j u) (j.ready.getD 0)) s else s
    joinComplete su (modSu su (fun u => { u with
      join := some { j with start := some (bfStart f), startSeen := s.pick }
      downOut := some [j.opens, bfStatus f, bfStart f] }) s)

/-- BARRIER_FLIT (R181): the flit at the head of the SU's deliveries; a load flit is left to LOAD_FLIT. -/
def execBarrierFlit (su : Nat) (s : State) : Out :=
  onSite .su su (fun s => match headDeliv s su with
    | none => s
    | some d =>
      if d.tag = none ∧ bfKind d.flit = 3 then s
      else
        let s := takeDeliv su d s
        if !siteRuns s su then s
        else if d.tag ≠ none ∨ bfKind d.flit = 0 then reportSite 0x4404 su s
        else match servedJoin s.pick (suAt s su) with
          | some j => takeBarrier su j d.flit s
          | none => s) s

/-- Has the plan of a port a barrier window in the class of a step: a send slot and an RX slot at offset LEN (R315)? -/
def hasWindow (x : PlanStep) (p : Nat) : Bool :=
  let e := planEntry x.plans p x.cls x.len
  (List.range 14).any (fun i => peTx e i == 1) && (List.range 14).any (peRx e)

/-- The port of an SU's cross-device edge: the one its barrier flits came by, else one of its area with a window in the step, of several the one
whose window is longest (R315; log 29). -/
def edgePort (s : State) (a su : Nat) (x : PlanStep) : Option Nat :=
  match (suAt s su).farPort with
  | some p => some p
  | none => ((areaPorts s a).filter (hasWindow x)).foldl (fun acc p => match acc with
    | none => some p
    | some q => if planLen x.plans q x.cls < planLen x.plans p x.cls then some p else acc) none

/-- FAB_BARRIER_LATE at an SU in the window of step x (R317): a second failure of step x.k, at its commit pick where that is still to come, at once
where its run has failed (R437). -/
def barrierLate (a su p : Nat) (x : PlanStep) (s : State) : State :=
  let open_ := (areaAt s a).job.steps.any fun st => st.k == x.k
  let s := report 0x3812 { siteReport s su with unit := portIdx p, wu := some (.lane p 15), step := some x.k } s
  if open_ ∨ (areaAt s a).job.ras ≠ 1 then s
  else secondFailure a { (default : Step) with k := x.k, s := x.s, second := true, named := [.lane p 15] } true s

/-- BARRIER_WINDOW_END (R317): the window of the last step started ends at S_k + NENT; an SU of a cross-device edge without START raises
FAB_BARRIER_LATE. -/
def execBarrierWindowEnd (su : Nat) (s : State) : Out :=
  onSite .su su (fun s =>
    match (suAt s su).join, areaOfSite s su with
    | some j, some a => match (areaAt s a).job.plan.getLast? with
      | none => s
      | some x => match edgePort s a su x with
        | none => s
        | some p =>
          if !j.dev ∨ !jobRuns s a then s
          else
            let s := toPick (x.s + planLen x.plans p x.cls) s
            match (suAt s su).join with
            | some j => if j.start = none ∧ jobRuns s a then barrierLate a su p x s else s
            | none => s
    | _, _ => s) s

/-! ## Samples (R185) -/

/-- The value a SAMP reads, and the state it leaves. -/
def sampValue (n kind src site : Nat) (s : State) : Option (Nat × State) :=
  let h := heddleOf n
  if kind = 0 then (if kindOfPos site = .mm then some (crOcc (creelAt (mmAt s (siteOf h site)) src), s) else none)
  else if kind = 1 then (sampAtt s.member h site).map fun t => ((if bit src 0 then (attAt s t).outE else (attAt s t).inE).length, s)
  else if kind = 2 then
    let m := siteOf h site
    some (maxOf ((List.range 5).map fun p => look 0 (swAt s m).hiwater p), modSw m (fun w => { w with hiwater := [] }) s)
  else none

/-- SAMP: one record into the sample buffer of 256; a full buffer drops it. -/
def execSamp (site : Nat) (w : W64) (s : State) : Out :=
  suIssue 0x28 site w (fun s =>
    let kind := bits w.toNat 9 8
    let src := bits w.toNat 7 4
    let pos := bits w.toNat 3 0
    match sampValue site kind src pos s with
    | none => suReserved site s
    | some (v, s) =>
      let off := s.pick - suBase (suAt s site)
      let r : W64 := BitVec.ofNat 64 (off % 2 ^ 24 * 2 ^ 40 + pos * 2 ^ 36 + src * 2 ^ 32 + kind * 2 ^ 30 + min v 65535)
      if 256 ≤ (suAt s site).samples.length then suNext site (count 0x1407 site 1 s)
      else suNext site (modSu site (fun u => { u with samples := u.samples ++ [r] }) s)) s

end Sys2Proof.Machine
end

