-- ==== Sys2Proof/Machine/Job.lean ====
section
/-! DEFINITION. Jobs: start, status, the commands that move its steps, exact mode, remapping and resuming (R204, R214, R215, R344,
R434-R440). -/
namespace Sys2Proof.Machine

/-! ## Starting a job (R204, R344) -/

/-- The key of an exchange's engine for a peer. -/
def fbKey (exid peer : Nat) : Nat := exid * 4096 + peer

/-- The BUCKETS records of a draft. -/
def buckets (l : List Rec) : List Rec := l.filter fun r => r.type == 0x0F

/-- The engines of a draft's exchanges as job start leaves them: every SEQ at 0 (R327). -/
def resetExchanges (a : Nat) (s : State) : State :=
  let keys := (buckets (draftOf s a).recs).flatMap fun r => (List.range (fld r.data 10 2)).map fun i => fbKey (fld r.data 0 2) (fld r.data (16 + 16 * i) 2)
  { s with fab := { s.fab with fbSrc := keepTab (fun k => !keys.contains k) s.fab.fbSrc, fbDst := keepTab (fun k => !keys.contains k) s.fab.fbDst } }

/-- The job of area a begins: counters cleared, P and the exact flag kept. -/
def jobBegin (a P : Nat) (exact : Bool) (s : State) : State :=
  let w := (areaAt s a).word
  let s := { s with mx := whereTab default (fun n => wHasSite w n) (fun x => { x with skip := { x.skip with total := (0, 0, 0), steps := [] } }) s.mx }
  let s := modAreg a (fun g => { g with energy := 0, fbrec := 0, fbdrop := 0, resend := 0, verified := 0, bad := 0, late := 0, auditBase := (0, 0) }) s
  let s := resetExchanges a s
  modArea a (fun x => { x with
    halted := false
    job := { (default : Job) with state := jRunning, p := P, exact := exact, ras := 1, haltSeq := x.job.haltSeq } }) s

/-- JOB_START (R344). A reserved flag bit is a parameter out of range. -/
def execJobStart (port m : Nat) (s : State) : Out :=
  mbxRun 0x0111 (plenIs 12) .area false false (fun p m c s => onArea true p m c (fun a s =>
    let P := par c 0 8
    let fl := par c 8 4
    if 2 ≤ fl then mbxDone p m mBadParam s
    else if (areaAt s a).job.state ≠ jLoaded then mbxDone p m mNoDraft s
    else if P < s.pick + 1000 then mbxDone p m mStartLate s
    else if fl = 1 ∧ !(bit (draftOf s a).flags 1) then mbxDone p m mNoExpect s
    else mbxDone p m mOk (jobBegin a P (decide (fl = 1)) s)) s) port m s

/-- The SUs of an area in service. -/
def serviceSus (s : State) (a : Nat) : List Nat :=
  ((wRegions (areaAt s a).word).filter (· < numRegions s.member)).flatMap fun r => ((regionHeddles r).map suOf).filter fun n => !(siteFenced s n)

/-- JOB_START_PICK (R204): at P every SU of the area begins at word 0 of bank 0 with T at offset 0, on page 0. -/
def execJobStartPick (area : Nat) (s : State) : Out :=
  atArea area (fun s =>
    let j := (areaAt s area).job
    if j.state ≠ jRunning ∨ j.nextK ≠ 0 ∨ j.committed ≠ none ∨ !(areaSus s area).isEmpty then s
    else
      let s := toPick j.p s
      let w := (areaAt s area).word
      let s := { s with
        sw := whereTab default (fun n => wHasSite w n) (fun x => { x.setPage 0 s.now with stopped := false }) s.sw
        mm := whereTab default (fun n => wHasSite w n) (fun x => { x with page := 0, since := s.now }) s.mm }
      each (serviceSus s area) (fun n => modSu n fun u => { u.idle with
        seq := { u.seq with bank := 0, pc := 0, running := true, next := s.now, loops := [], stopped := false }
        tOff := 0, tAc := 0, inStep := 0, goMask := 0 }) s) s

/-- JOB_STATUS (R343). -/
def execJobStatus (port m : Nat) (s : State) : Out :=
  mbxRun 0x0112 (plenIs 0) .area true false (fun p m c s => onArea false p m c (fun a s =>
    let j := (areaAt s a).job
    let rsp := leBytes 1 j.state ++ leBytes 7 0 ++ leBytes 8 (match j.committed with | some k => k | none => 2 ^ 64 - 1)
      ++ leBytes 8 (draftOf s a).id ++ leBytes 8 j.haltSeq
    mbxComplete p m mOk 0 rsp s) s) port m s

/-! ## Steps -/

/-- STEP_START (R31, R32): the next step of the area's job starts at the pick its barrier agreed. -/
def execStepStart (area : Nat) (s : State) : Out := atArea area (startNext area) s

/-- STEP_END_PICK (R31): the running step reaches E_k. -/
def execStepEndPick (area : Nat) (s : State) : Out := atArea area (endPick area) s

/-- STEP_COMMIT (R34, R35): the oldest uncommitted step reaches its commit pick: it commits, or it fails. -/
def execStepCommit (area : Nat) (s : State) : Out := atArea area (commitOldest area) s

/-! ## Exact mode (R213-R215) -/

/-- The 96 counts of a heddle, in the order of R214. -/
def heddleCounts (s : State) (h : Nat) : List Nat :=
  (heddleSites h).flatMap fun n => (List.range 6).map fun i => (look 0 (swAt s n).exc i).toNat

/-- The digest of R214. -/
def exactDigest (h : Nat) (l : List Nat) : W64 := l.foldl (fun d c => hash64 (d ^^^ BitVec.ofNat 64 c) (BitVec.ofNat 32 h)) 0

/-- The counts that differ: the place in the order, the expected and the counted value of each. -/
def differing (want got : List Nat) : List (Nat × Nat × Nat) :=
  (List.range got.length).filterMap fun i => if want.getD i 0 = got.getD i 0 then none else some (i, want.getD i 0, got.getD i 0)

/-- The record of a count that differs: step class, site, index, expected and counted value (R215, log 69). -/
def exactReport (s : State) (su cls : Nat) (x : Nat × Nat × Nat) : Report349 :=
  { siteReport s su with unit := siteOf (heddleOf su) (x.1 / 6), entry := cls, page := x.1 % 6, aux := leBytes 4 x.2.1 ++ leBytes 4 x.2.2 }

/-- EXACT_DIGEST (R214, R215): after E_k the SU folds its heddle's counts; in exact mode a digest other than EXPECT's raises DRF_EXACT and halts the
area, with one record for every count that differs. -/
def execExactDigest (su : Nat) (s : State) : Out :=
  onSite .su su (fun s => match areaOfSite s su with
    | none => s
    | some a => match curStep s a with
      | none => s
      | some st =>
        if !st.ended then s
        else
          let h := heddleOf su
          let got := heddleCounts s h
          let d := exactDigest h got
          let s := modSu su (fun u => { u with digest := d }) s
          if !(areaAt s a).job.exact then s
          else
            let cls := (stepClass s a st.k).getD 0
            let want := Config.expectOf ((reportSection (draftOf s a).recs 3).getD []) h cls
            if exactDigest h want = d then s
            else
              let l := differing want got
              let s' := report 0x4C11 (exactReport s su cls (l.headD (0, 0, 0))) s
              each (l.drop 1) (fun x => writeRecord 0x4C11 (exactReport s su cls x)) s') s

/-! ## Remapping (R437-R440, R428) -/

/-- Does the job span devices: a JOIN with DEV (R314)? -/
def spansDevices (s : State) (a k : Nat) : Bool :=
  (areaSus s a).any fun n => (suAt s n).savedJoin.any fun x => x.1 == k && bit x.2.2.2.2.toNat 8

/-- Is a unit a site or a link; which sites does fencing it touch? -/
def unitSites (s : State) : WatchUnit → List Nat
  | .site n => [n]
  | .link n p => n :: (match neighbour s.member n p with | some m => [m] | none => [])
  | _ => []

/-- Fence a named unit with cause 0x21 (R438 step 2). -/
def fenceUnit (u : WatchUnit) (s : State) : State :=
  match u with
  | .site n => fenceEntry n (fencedEntry 0x21 true false false) s
  | .link n p => fenceLink n p 0x21 s
  | _ => s

/-- Apply one patch record to the active bank of a running area (R210). -/
def patchSite (bank : Nat) (r : Rec) (s : State) : State :=
  let n := r.target
  let s := writeRec bank r s
  if r.type = 7 then modMm n (fun m => { m with creels := (List.range 16).foldl (fun t i => alter default t i (Creel.swap (w64At r.data i))) m.creels }) s
  else if r.type = 8 then
    (if kindOf n = .mx then modMx n (fun m => { m with rings := (List.range 16).foldl (fun t i => alter default t i (Ring.swap (w64At r.data i))) m.rings }) s
     else modSf n (fun m => { m with rings := (List.range 8).foldl (fun t i => alter default t i (Ring.swap (w64At r.data i))) m.rings }) s)
  else if r.type = 9 then applyInit n r.data s
  else s

/-- The patch for newly fenced units of a running area: none where the difference between the fence map and that the draft was compiled for is not
covered (R210, R179). -/
def remapPatch (s : State) (a : Nat) (units : List WatchUnit) : Option (List Rec) :=
  let sites := units.filterMap fun u => match u with | .site n => some n | _ => none
  if sites.length ≠ units.length then none
  else if units.isEmpty then some []
  else match (draftOf s a).recs.find? fun r => r.type == 0x11 with
    | none => none
    | some r =>
      let w := (areaAt s a).word
      let m := spareMatches s w r.data
      let hs := m.map (spHeddle r.data)
      let pos := fun i => siteOf (spHeddle r.data i) (spPos r.data i)
      if hs.eraseDups.length ≠ hs.length ∨ !(sites.all fun n => m.any fun i => pos i == n) ∨ fenceDigest s w (m.map pos) ≠ (draftOf s a).fenceDigest then none
      else
        let patch := (m.filter fun i => sites.contains (pos i)).flatMap fun i => (spPatch r.off r.data i).getD []
        let l := patched (draftOf s a).recs patch
        if (patch.filter fun x => x.type == 5).all fun x => (firstBad (x.data.length / 8) (suWordOk s (heddleOf x.target) l (words x.data))).isNone
        then some patch else none

/-- The area returns to service (R438, R439): a job of one device resumes at the first pick at least 1,000 picks on; one that
spans devices waits for the host. -/
def returnToService (a : Nat) (s : State) : State :=
  let k := (areaAt s a).job.nextK
  let span := spansDevices s a k
  let s := report 0x1E03 { (default : Report349) with area := some a, unit := hubIdx, step := some k } s
  modArea a (fun x => { x with job := { x.job with
    ras := if span then 3 else 1, resumeP := if span then none else some (s.pick + 1000), named1 := [], named2 := [] } }) s

/-- REMAP (R438): the tests, the fences with their patches, adjustments, watch entries; then the area returns to service. -/
def execRemap (area : Nat) (o : RemapOutcome) (s : State) : Out :=
  atArea area (fun s =>
    let j := (areaAt s area).job
    if j.state ≠ jRunning ∨ j.ras ≠ 2 then s
    else
      let named := mergeUnits j.named1 j.named2
      let both := fun u => j.named1.contains u && j.named2.contains u
      let fabric := fun u : WatchUnit => match u with | .site _ => true | .link _ _ => true | _ => false
      let bad := named.filter fun u => fabric u && (both u || o.failed.contains u)
      let adj := named.filter fun u => !fabric u && both u
      let rest := named.filter fun u => !bad.contains u && !adj.contains u
      let s := each bad fenceUnit s
      let s := if bad.isEmpty then s else allowCheck (flashWrite s)
      match remapPatch s area bad with
      | none => endJob area (count 0x8C05 hubIdx 1 s)
      | some patch =>
        let bank := (areaAt s area).bank
        let s := each patch (patchSite bank) s
        let s := modArea area (fun x => { x with drafts := alter default x.drafts bank fun d => { d with recs := patched d.recs patch } }) s
        let s := each adj adjustUnit s
        let s := each rest (fun u => watchAdd u 0x1E02) s
        returnToService area s) s

/-- REMAP_TIMEOUT (R438): 90 s after the decision the area returns to service in any case. -/
def execRemapTimeout (area : Nat) (s : State) : Out :=
  atArea area (fun s =>
    let j := (areaAt s area).job
    if j.state ≠ jRunning ∨ j.ras ≠ 2 then s
    else returnToService area (runTo (s.now + (j.remapAt + 90 * second - s.up)) s)) s

/-- Every SU of an area joins the start barrier of step k, treating P as the end pick (R204, R439). -/
def resumeAt (a k P : Nat) (s : State) : State :=
  let s := toPick P s
  let s := rejoinAll a k P s
  each (areaSus s a) (fun n s => match (suAt s n).join with
    | some j => selectPage (heddleOf n) j.bpg (modSu n (fun u => { u with barrier := some j.bpg, timers := [] }) s)
    | none => s) s

/-- JOB_RESUME (R439): at the resume pick every SU joins the barrier of the failed step. -/
def execJobResume (area : Nat) (s : State) : Out :=
  atArea area (fun s =>
    let j := (areaAt s area).job
    match j.resumeP with
    | some P => if j.state = jRunning then
        resumeAt area j.nextK P (modArea area (fun x => { x with job := { x.job with resumeP := none, ras := 1 } }) s)
      else s
    | none => s) s

/-- RESTORE with OP 1 (R460): the host resumes an area that waits for it at a pick P. -/
def execRestoreResume (port m : Nat) (s : State) : Out :=
  mbxRunOp (fun c => par c 0 1 == 1) 0x0604 (plenIs 16) .area false false (fun p m c s =>
    onArea true p m c (fun a s =>
      let P := par c 8 8
      if par c 1 7 ≠ 0 then mbxDone p m mBadParam s
      else if (areaAt s a).job.ras ≠ 3 then mbxDone p m mAreaBusy s
      else if P < s.pick + 1000 then mbxDone p m mStartLate s
      else mbxDone p m mOk (modArea a (fun x => { x with job := { x.job with resumeP := some P } }) s)) s) port m s

end Sys2Proof.Machine
end

