-- ==== Sys2Proof/Machine/Host.lean ====
section
/-! DEFINITION. The host's commands (11): areas, aborts, bulk and remote transfers, the event ring, resets asked for. -/
namespace Sys2Proof.Machine

/-! ## NOP, IDENTIFY, EVQ_SETUP, DEVICE_RESET (R343, R350) -/

/-- NOP. -/
def execNop (port m : Nat) (s : State) : Out := mbxRun 0x0001 (plenIs 0) .none true true (fun p m _ s => mbxDone p m mOk s) port m s

/-- IDN_DEVICE (12). -/
def idnDevice (s : State) : Nat := s.mod.member + 1 * 2 ^ 8 + s.mod.stepping * 2 ^ 16 + s.mod.fwver * 2 ^ 32

/-- The areas a port owns, bit a for area a (R351). -/
def ownedMask (s : State) (p : Nat) : Nat := (areaList s).foldl (fun m a => if (areaAt s a).owner.val = p then m + 2 ^ a else m) 0

/-- IDENTIFY. -/
def execIdentify (port m : Nat) (s : State) : Out :=
  mbxRun 0x0002 (plenIs 0) .none true true (fun p m _ s =>
    mbxComplete p m mOk 0 (leBytes 8 (idnDevice s) ++ leBytes 1 p ++ leBytes 2 (ownedMask s p) ++ leBytes 2 (ownedMask s (1 - p))) s) port m s

/-- Is a ring's entry count a power of two from 64 to 65,536? -/
def ringCountOk (n : Nat) : Bool := (List.range 11).any fun i => n == 64 * 2 ^ i

/-- EVQ_SETUP (R350): a new ring, or none. -/
def execEvqSetup (port m : Nat) (s : State) : Out :=
  mbxRun 0x0003 (plenIs 16) .none true true (fun p m c s =>
    let a := par c 0 8
    let n := par c 8 4
    if par c 12 4 ≠ 0 ∨ !((a == 0 && n == 0) || (a % 64 == 0 && ringCountOk n)) then mbxDone p m mBadParam s
    else mbxDone p m mOk (modPort p (fun x => { x with evq := { x.evq with addr := a, count := n, pi := 0, ci := 0, phase := true, lost := false } }) s)) port m s

/-- DRST is asked for: READY and every mailbox state read 0 until bring-up completes (R336). -/
def askDrst (s : State) : State :=
  refreshPins { s with bru := { s.bru with ready := false, drst := true }, ports := mapTab default (fun _ x => { x with mbx := [] }) s.ports }

/-- DEVICE_RESET. -/
def execDeviceReset (port m : Nat) (s : State) : Out :=
  mbxRun 0x0011 (plenIs 4) .none true true (fun p m c s =>
    if par c 0 4 ≠ 0x44525354 then mbxDone p m mBadParam s else askDrst (mbxDone p m mOk s)) port m s

/-- A write of HPC_DRST (R334): the key starts DRST; other values are ignored. -/
def hpcDrst (value : Nat) (s : State) : State := if value = 0x44525354 then askDrst s else s

/-- HPC_DRST_WRITE (R334). -/
def execHpcDrstWrite (port value : Nat) (s : State) : Out := atPort port (hpcDrst value) s

/-! ## Areas (R23-R28, R351, R352) -/

/-- Is a region wholly fenced: tripped, shorted or off (R28's table)? -/
def regionGone (s : State) (r : Nat) : Bool := decide (look 0 s.fence.regions r ≠ 0)

/-- The first reason to refuse an area word (R24, R25), the area a itself aside. -/
def areaRefusal (s : State) (w a : Nat) : Nat :=
  if !wValid s.member w then mAreaShape
  else if (areaList s).any fun b => decide (b ≠ a) && (wRegions w).any fun r => wCovers (areaAt s b).word r then mAreaOverlap
  else if (wRegions w).any (regionGone s) then mAreaFenced
  else mOk

/-- AREA_CREATE (R25): with sixteen areas AREA_LIMIT, with the number in use BAD_PARAM (log 45). -/
def execAreaCreate (port m : Nat) (s : State) : Out :=
  mbxRun 0x0100 (plenIs 0) .area false false (fun p m c s =>
    let w := hdrArea c
    let a := wArea w
    let st := areaRefusal s w 16
    if st = mAreaShape ∨ st = mAreaOverlap then mbxDone p m st s
    else if 16 ≤ (areaList s).length then mbxDone p m mAreaLimit s
    else if areaDefined s a then mbxDone p m mBadParam s
    else if st ≠ mOk then mbxDone p m st s
    else mbxDone p m mOk (modArea a (fun x => { Area.reset with defined := true, word := w, owner := Tri.of p, skim := x.skim }) s)) port m s

/-- An area without drafts, loads and job. -/
def Area.emptied (w : Nat) (x : Area) : Area :=
  { x with word := w, drafts := [], bank := 0, complete := 0, swapOpen := false, load := none, job := default, halted := false, applyAt := [] }

/-- The command of a load in progress completes with ABORTED. -/
def abortLoad (a : Nat) (s : State) : State :=
  match (areaAt s a).load with
  | some l => mbxComplete l.port l.m mAborted 0 [] (modArea a (fun x => { x with load := none }) s)
  | none => s

/-- AREA_CHANGE (R25): the new word; nothing of the old area's drafts stands (log 45). -/
def execAreaChange (port m : Nat) (s : State) : Out :=
  mbxRun 0x0101 (plenIs 0) .area false false (fun p m c s =>
    let w := hdrArea c
    let a := wArea w
    if !areaDefined s a then mbxDone p m mNoArea s
    else if (areaAt s a).owner.val ≠ p then mbxDone p m mNotOwner s
    else
      let st := areaRefusal s w a
      if st = mAreaShape ∨ st = mAreaOverlap then mbxDone p m st s
      else if hasJob s a ∨ areaBusy s a then mbxDone p m mAreaBusy s
      else if st ≠ mOk then mbxDone p m st s
      else mbxDone p m mOk (modArea a (Area.emptied w) (dropRecords a (abortLoad a s)))) port m s

/-- AREA_REMOVE (R25): the number is free; a skim being sent goes on (R456). -/
def execAreaRemove (port m : Nat) (s : State) : Out :=
  mbxRun 0x0102 (plenIs 0) .area false false (fun p m c s => onArea true p m c (fun a s =>
    if hasJob s a ∨ areaBusy s a then mbxDone p m mAreaBusy s
    else mbxDone p m mOk (modArea a (fun x => { Area.reset with skim := x.skim }) (dropRecords a (abortLoad a s)))) s) port m s

/-- AREA_CLEAR (R344): the job of a halted area ends as ABORT leaves it. -/
def execAreaClear (port m : Nat) (s : State) : Out :=
  mbxRun 0x0103 (plenIs 0) .area false false (fun p m c s => onArea true p m c (fun a s =>
    if (areaAt s a).job.state ≠ jHalted then mbxDone p m mAreaBusy s else mbxDone p m mOk (endJob a s)) s) port m s

/-- AREA_TAKE (R352). -/
def execAreaTake (port m : Nat) (s : State) : Out :=
  mbxRun 0x0104 (plenIs 0) .area false false (fun p m c s => onArea false p m c (fun a s =>
    let o := portAt s ((areaAt s a).owner.val % 2)
    if o.up ∨ s.up < o.downAt + second then mbxDone p m mNotOwner s
    else mbxDone p m mOk (modArea a (fun x => { x with owner := Tri.of p }) s)) s) port m s

/-! ## Aborts (R354, R355) -/

/-- Remote commands a predicate picks complete with ABORTED; their requests are forgotten. -/
def abortRemote (sel : RemoteJob → Bool) (s : State) : State :=
  let l := s.remote.filter sel
  let s := { s with
    remote := s.remote.filter fun j => !sel j
    fab := { s.fab with rmas := s.fab.rmas.filter fun r => !(l.any fun j => j.id == r.job) } }
  stirRemote (each l (fun j s => mbxComplete j.port j.m mAborted 0 [] s) s)

/-- Forget the operations of a bulk command that the edges have not sent. -/
def dropBulkOps (id : Nat) (s : State) : State :=
  { s with mm := mapTab default (fun _ m => { m with edgeq := m.edgeq.filter fun e => e.job != some id }) s.mm }

/-- Bulk commands a predicate picks complete with ABORTED. -/
def abortBulk (sel : BulkJob → Bool) (s : State) : State :=
  let l := s.bulk.filter sel
  let s := { s with bulk := s.bulk.filter fun j => !sel j }
  each l (fun j s => mbxComplete j.port j.m mAborted 0 [] (dropBulkOps j.id s)) s

/-- Abort one area at the present pick (R354). -/
def abortArea (a : Nat) (s : State) : State :=
  let s := commitBefore a s.pick 4 s
  let s := abortBulk (fun j => j.area == some a) s
  let s := abortRemote (fun j => match j.restore with | some x => x.area == a | none => false) s
  endJob a s

/-- Posted commands of both ports complete with ABORTED, the given mailbox apart (R354). -/
def abortPosted (p m : Nat) (s : State) : State :=
  each [0, 1] (fun q s => each (List.range 8) (fun n s =>
    if (q = p ∧ n = m) ∨ (mbxAt s q n).state ≠ 1 then s
    else mbxComplete q n mAborted 0 [] (modMbx q n (fun b => { b with state := 2 }) s)) s) s

/-- Abort a set of areas, or the device, at the first pick boundary (R354). -/
def abortAll (p m : Nat) (all : Bool) (mask : Nat) (s : State) : State :=
  let s := toPick ((s.now + 7) / 8) s
  let s := each ((areaList s).filter fun a => all || bit mask a) abortArea s
  if all then abortPosted p m s else s

/-- The DONE bits and vector 10 of a completed abort (R355). -/
def abortDone (p mask : Nat) (s : State) : State :=
  msix p 10 (modPort p (fun x => { x with abortBusy := false, abortReq := 0, abortDone := x.abortDone ||| mask % 65536, abortSet := noteSet s.up (mask % 65536) x.abortSet }) s)

/-- The areas an abort names. -/
def abortMask (s : State) (all : Bool) (mask : Nat) : Nat := if all then (areaList s).foldl (fun m a => m ||| 2 ^ a) mask else mask

/-- ABORT (R354): of an area from either port, or of the device. -/
def execAbort (port m : Nat) (s : State) : Out :=
  mbxRun 0x0010 (plenIs 0) .both true false (fun p m c s =>
    let all := decide (hdrFlags c % 4 = 2)
    if !all && !areaNamed s c then mbxDone p m mNoArea s
    else
      let mask := if all then abortMask s true 0 else 2 ^ wArea (hdrArea c)
      let s := abortAll p m all mask s
      mbxComplete p m mOk 0 (leBytes 8 s.pick) (abortDone p mask s)) port m s

/-- A write of HPC_ABORT (R354): Prijan performs it at the first pick boundary; without Prijan it stays asked for. While DRST runs it has no effect. -/
def hpcAbort (port value : Nat) (s : State) : State :=
  let all := bit value 31
  let mask := bits value 15 0
  if s.bru.drst ∨ (!all ∧ mask = 0) then s
  else if prijanRuns s then
    let done := abortMask s all mask
    abortDone port done (abortAll 2 0 all mask (modPort port (fun x => { x with abortHw := false }) s))
  else modPort port (fun x => { x with abortBusy := true, abortAt := s.up, abortReq := mask + 2 ^ 16 * b2n all }) s

/-- HPC_ABORT_WRITE (R354). -/
def execHpcAbortWrite (port value : Nat) (s : State) : Out := atPort port (hpcAbort port value) s

/-- ABORT commands posted and not completed. -/
def postedAborts (s : State) (p : Nat) : List Nat :=
  (List.range 8).filter fun m => within 1 2 (mbxAt s p m).state && hdrOpcode (mbxAt s p m).cmd == 0x0010

/-- The hub performs what a port asked for (R355). -/
def hubAbort (p : Nat) (s : State) : State :=
  let x := portAt s p
  let cmds := (postedAborts s p).map fun m => (mbxAt s p m).cmd
  let all := bit x.abortReq 16 || cmds.any fun c => hdrFlags c % 4 == 2
  let mask := cmds.foldl (fun k c => if hdrFlags c % 4 = 1 then k ||| 2 ^ wArea (hdrArea c) else k) (x.abortReq % 65536)
  if x.abortReq = 0 ∧ cmds.isEmpty then s
  else
    let done := abortMask s all mask
    let s := abortAll 2 0 all mask (if x.abortBusy then runTo (s.now + (x.abortAt + 10 * milli - s.up)) s else s)
    count 0x1904 p 1 (modPort p (fun x => { x with abortHw := true, abortSet := noteSet s.up (2 ^ 30) x.abortSet }) (abortDone p done s))

/-- ABORT_HW_TIMEOUT (R355): aborts Prijan has not completed within 10 ms are performed by the hub. -/
def execAbortHwTimeout (s : State) : Out := .next (each [0, 1] hubAbort s)

/-! ## Site SRAM for the host (R139, R150, R346) -/

/-- A read of an MM row that belongs to no step: data corrected, whether it reads sour; the stored grain stays (R139). -/
def mmQuietRead (n b r : Nat) (s : State) : List Byte × Bool × State :=
  let m := mmAt s n
  let out := rowOutcomes m b r
  let data := rowData m b r
  let s := modMm n (fun m => { m with inj := injUsed m b r }) s
  (data, rowBad out, mmCorrected n b r (out.filter (· == .ce)).length s)

/-- Bytes of a row of a site's SRAM, and rows it has: 64 B on an MM, 128 B elsewhere. -/
def sramRowSize (n : Nat) : Nat := if kindOf n = .mm then 64 else 128
def sramRows (n : Nat) : Nat := match kindOf n with | .mm => 6144 | .mx => 1536 | .sf => 512 | .su => 0

/-- Read a row: its bytes, sour grains as zero, and how many of them. -/
def sramRead (n b r : Nat) (s : State) : List Byte × Nat × State :=
  match kindOf n with
  | .mm =>
    if (subAt (mmAt s n) b).power ≠ 0 then (List.replicate 64 0, 1, s)
    else let x := mmQuietRead n b r s; (if x.2.1 then List.replicate 64 0 else x.1, b2n x.2.1, x.2.2)
  | .mx => let m := mxAt s n
           let h := fun k => look false m.gsour (2 * r + k)
           ((List.range 2).flatMap fun k => if h k then List.replicate 64 0 else bytesAt m.mem (128 * r + 64 * k) 64, b2n (h 0) + b2n (h 1), s)
  | .sf => let m := sfAt s n
           let h := fun k => look false m.gsour (2 * r + k)
           ((List.range 2).flatMap fun k => if h k then List.replicate 64 0 else bytesAt m.mem (128 * r + 64 * k) 64, b2n (h 0) + b2n (h 1), s)
  | .su => ([], 0, s)

/-- Write a row clean. -/
def sramWrite (n b r : Nat) (d : List Byte) (s : State) : State :=
  match kindOf n with
  | .mm => if (subAt (mmAt s n) b).power ≠ 0 then s else modMm n (mmWrite b r 0 d false) s
  | .mx => modMx n (fun m => { m with mem := putBytes m.mem (128 * r) d, gsour := put false (put false m.gsour (2 * r) false) (2 * r + 1) false }) s
  | .sf => modSf n (fun m => { m with mem := putBytes m.mem (128 * r) d, gsour := put false (put false m.gsour (2 * r) false) (2 * r + 1) false }) s
  | .su => s

/-- Read n rows from row r: bytes, sour grains. -/
def sramReads (n b : Nat) : Nat → Nat → State → List Byte × Nat × State
  | 0, _, s => ([], 0, s)
  | k + 1, r, s =>
    let x := sramRead n b r s
    let y := sramReads n b k (r + 1) x.2.2
    (x.1 ++ y.1, x.2.1 + y.2.1, y.2.2)

/-- Write bytes from row r on; a last part row keeps its other bytes. -/
def sramWrites (n b : Nat) : Nat → Nat → List Byte → State → State
  | 0, _, _, s => s
  | k + 1, r, d, s =>
    let z := sramRowSize n
    let row := if d.length < z then let x := sramRead n b r s; d ++ x.1.drop d.length else d.take z
    sramWrites n b k (r + 1) (d.drop z) (sramWrite n b r row s)

/-! ## Bulk transfer (R345-R347) -/

/-- The parameters of a bulk command. -/
structure BulkPar where
  target : Nat
  len : Nat
  kind : Nat
  list : Nat
  area : Option Nat
deriving DecidableEq, Repr

/-- Read them from a command area (R346). -/
def bulkPar (c : Tab Byte) : BulkPar :=
  { target := par c 0 8, len := par c 8 4, kind := par c 12 1, list := par c 16 8
    area := if hdrFlags c % 4 = 1 then some (wArea (hdrArea c)) else none }

/-- Site, creel, offset, sub-bank and row of a target (R346). -/
def btSite (t : Nat) : Nat := bits t 17 0
def btCreel (t : Nat) : Nat := bits t 23 20
def btOff (t : Nat) : Nat := bits t 63 32
def btSub (t : Nat) : Nat := bits t 21 20
def btRow (t : Nat) : Nat := bits t 34 22

/-- Rows a KIND 4 transfer touches. -/
def btRows (b : BulkPar) : Nat := (b.len + sramRowSize (btSite b.target) - 1) / sramRowSize (btSite b.target)

/-- Is a creel target's state a running job, a halted one, or none? -/
def bulkState (s : State) (a : Option Nat) : Nat := match a with | some a => (if jobRuns s a then 1 else if hasJob s a then 2 else 0) | none => 0

/-- The status that refuses a bulk command, 0 where it goes on (R346, R347). -/
def bulkRefusal (s : State) (write : Bool) (b : BulkPar) : Nat :=
  let n := btSite b.target
  let st := bulkState s b.area
  let d := (creelAt (mmAt s n) (btCreel b.target)).desc
  if b.len % 4 ≠ 0 ∨ b.len = 0 ∨ 2 ^ 30 < b.len ∨ 4 < b.kind then mBadParam
  else if b.kind = 0 then
    if 2 ^ 41 ≤ b.target then mBadParam
    else if !dpaOk s.member b.target b.len then mNoUnit
    else if areaOfAtt s (dpaStack b.target) ≠ b.area then mBadParam
    else if !write && st == 1 then mJobRunning
    else mOk
  else if b.area = none then mBadParam
  else if !siteReach s n then mNoUnit
  else if areaOfSite s n ≠ b.area then mBadParam
  else if b.kind = 4 then
    if sramRows n = 0 ∨ sramRows n < btRow b.target + btRows b ∨ (kindOf n ≠ .mm ∧ btSub b.target ≠ 0) then mBadParam
    else if st = 1 ∨ (st = 2 ∧ write) then mJobRunning
    else mOk
  else if kindOf n ≠ .mm then mBadParam
  else if b.kind = 1 then
    if !write ∨ b.len % (16 * crPadv d) ≠ 0 then mBadParam
    else if st = 2 then mJobRunning
    else if st = 0 ∨ (mmAt s n).lane.isNone then mNoDmaLane
    else if crMode d ≠ 2 then mJobRunning
    else mOk
  else
    if write ∨ b.len % 64 ≠ 0 ∨ btOff b.target % 4 ≠ 0 ∨ (b.kind = 3 ∧ b.len % (16 * crCadv d) ≠ 0) then mBadParam
    else if (mmAt s n).lane.isNone then mNoDmaLane
    else if b.kind = 3 ∧ st = 2 then mJobRunning
    else mOk

/-- The chunks before the host access that fails (R356). -/
def beforeErr (l : List (Nat × Nat)) (hostErr : Option Nat) : List (Nat × Nat) := match hostErr with | some i => l.take i | none => l

/-- Bytes of chunks. -/
def chunkLen (l : List (Nat × Nat)) : Nat := l.foldl (fun n x => n + x.2) 0

/-- Does the host fail an access of this list? -/
def hostFails (l : List (Nat × Nat)) (hostErr : Option Nat) : Bool := match hostErr with | some i => decide (i < l.length) | none => false

/-- How a transfer that moved what it could ends: HOST_DMA, BAD_PARAM for a malformed list, else `st`. -/
def bulkEnd (p m : Nat) (ok fails : Bool) (st detail : Nat) (s : State) : State :=
  if fails then mbxDone p m mHostDma (count 0x1902 p 1 s)
  else if !ok then mbxDone p m mBadParam s
  else mbxComplete p m st detail [] s

/-- Start a bulk command that waits for DMA operations on a lane; `st` is the status of a fault that the device meets after them. -/
def bulkStart (p m : Nat) (b : BulkPar) (st : Nat) (ops : Nat → List EdgeOp) (total : Nat) (dests : List (Nat × Nat)) (s : State) : State :=
  let id := s.nextJob
  let j : BulkJob := { id := id, port := p, m := m, kind := b.kind, left := total, status := st, sours := 0, site := btSite b.target, creel := btCreel b.target
                       dests := dests, total := total, off := btOff b.target, area := b.area }
  modMm (btSite b.target) (fun x => { x with edgeq := x.edgeq ++ ops id }) { s with nextJob := id + 1, bulk := s.bulk ++ [j] }

/-- A DMA operation of a bulk command (R130). -/
def bulkOp (op creel arg tag : Nat) (data : BitVec 512) (id : Nat) : EdgeOp :=
  { op := { op := op, creel := creel, arg := arg, tag := tag, data := data, sour := 0, arr := 0, half := none }, job := some id }

/-- The status of a command whose list breaks R345, or one of whose host accesses fails (R356), after what it has moved. -/
def bulkFault (ok fails : Bool) : Nat := if fails then mHostDma else if ok then 0 else mBadParam

/-- A failed host access is counted. -/
def noteFault (p : Nat) (fails : Bool) (s : State) : State := if fails then count 0x1902 p 1 s else s

/-- BULK_WRITE by KIND. What comes before a fault of the list is moved (R345). -/
def bulkWrite (p m : Nat) (b : BulkPar) (l : List (Nat × Nat)) (ok fails : Bool) (s : State) : State :=
  let data := gatherHost (portAt s p).mem l
  let n := btSite b.target
  if b.kind = 0 then bulkEnd p m ok fails mOk 0 (elasticWrite b.target data s)
  else if b.kind = 4 then
    bulkEnd p m ok fails mOk 0 (sramWrites n (btSub b.target) ((data.length + sramRowSize n - 1) / sramRowSize n) (btRow b.target) data s)
  else
    let z := 16 * crPadv (creelAt (mmAt s n) (btCreel b.target)).desc
    let k := data.length / z
    if k = 0 then bulkEnd p m ok fails mOk 0 s
    else bulkStart p m b (bulkFault ok fails) (fun id => (List.range k).map fun i => bulkOp 1 (btCreel b.target) 0 (i % 128) (BitVec.ofNat 512 (fld data (z * i) z)) id) k [] (noteFault p fails s)

/-- BULK_WRITE (R346, R347). -/
def execBulkWrite (port m : Nat) (hostErr : Option Nat) (s : State) : Out :=
  mbxRun 0x0200 (plenIs 32) .both false false (fun p m c s =>
    let b := bulkPar c
    let go := fun s =>
      let st := if par c 13 3 ≠ 0 ∨ par c 24 8 ≠ 0 then mBadParam else bulkRefusal s true b
      if st ≠ mOk then mbxDone p m st s
      else
        let x := scatterList s p b.list b.len
        bulkWrite p m b (beforeErr x.1 hostErr) x.2 (hostFails x.1 hostErr) s
    if b.area.isSome then onArea true p m c (fun _ s => go s) s else go s) port m s

/-- One 64-byte read of a commit creel without its lane (R130, R346): its bytes, zero if a grain is sour, and whether one was. -/
def creelQuiet (n ci o : Nat) (s : State) : List Byte × Nat × State :=
  let c := creelAt (mmAt s n) ci
  if (subAt (mmAt s n) (crSub c.desc)).power ≠ 0 then (List.replicate 64 0, 1, s)
  else
    let h : HalfRead := { ptr := ptrAdd (crCap c.desc) c.head o, vis := crCommitted c - o, cells := [], sour := 0 }
    let x := (((readPtrs c h.ptr).map (crRow c.desc)).eraseDups).foldl (fun x r => dmaRow n c r x.1 x.2) (h, s)
    if x.1.sour = 0 then (x.1.cells, 0, x.2) else (List.replicate 64 0, 1, x.2)

/-- A commit creel read, or read and drained from HEAD to the last cell read, while its job does not run (R346, R347): a read whose offset is at or
beyond CTAIL - HEAD is refused, as is a drain beyond it (R131). -/
def bulkCreelQuiet (p m : Nat) (b : BulkPar) (l : List (Nat × Nat)) (ok fails : Bool) (s : State) : State :=
  let n := btSite b.target
  let ci := btCreel b.target
  let c := creelAt (mmAt s n) ci
  if crMode c.desc ≠ 3 ∨ !crHostRd c.desc then mbxDone p m mEmpty s
  else
    let q := b.len / 64
    let off := btOff b.target
    let good := min q ((crCommitted c - off + 3) / 4)
    let x := (List.range good).foldl (fun (x : List Byte × Nat × State) i =>
      let y := creelQuiet n ci (off + 4 * i) x.2.2
      (x.1 ++ y.1, x.2.1 + y.2.1, y.2.2)) ([], 0, s)
    let s := toHost p l 0 (x.1.take (chunkLen l)) x.2.2
    let drains := decide (off + 4 * q ≤ crCommitted c)
    let s := if b.kind = 3 ∧ ok ∧ !fails ∧ good = q ∧ drains then modMm n (modCreel ci (Creel.drained (off + 4 * q))) s else s
    let st := if good < q ∨ (b.kind = 3 ∧ !drains) then mEmpty else if x.2.1 = 0 then mOk else mSour
    bulkEnd p m ok fails st (if st = mSour then x.2.1 else 0) s

/-- BULK_READ by KIND. What comes before a fault of the list is moved (R345); KIND 3 then drains nothing. -/
def bulkRead (p m : Nat) (b : BulkPar) (l : List (Nat × Nat)) (ok fails : Bool) (s : State) : State :=
  let n := btSite b.target
  let k := chunkLen l
  if b.kind = 0 then
    let x := elasticRead b.target k true s
    bulkEnd p m ok fails (if x.2.1 = 0 then mOk else mSour) x.2.1 (toHost p l 0 x.1 x.2.2)
  else if b.kind = 4 then
    let x := sramReads n (btSub b.target) ((k + sramRowSize n - 1) / sramRowSize n) (btRow b.target) s
    bulkEnd p m ok fails (if x.2.1 = 0 then mOk else mSour) x.2.1 (toHost p l 0 (x.1.take k) x.2.2)
  else if bulkState s b.area ≠ 1 then bulkCreelQuiet p m b l ok fails s
  else
    let q := (k + 63) / 64
    let whole := ok && !fails
    if q = 0 then bulkEnd p m ok fails mOk 0 s
    else bulkStart p m (if whole then b else { b with kind := 2 }) (bulkFault ok fails)
      (fun id => (List.range q).map fun i => bulkOp 2 (btCreel b.target) (btOff b.target + 4 * i) (i % 128) 0 id)
      (if whole && decide (b.kind = 3) then q + 1 else q) l (noteFault p fails s)

/-- BULK_READ (R346, R347). -/
def execBulkRead (port m : Nat) (hostErr : Option Nat) (s : State) : Out :=
  mbxRun 0x0201 (plenIs 32) .both false false (fun p m c s =>
    let b := bulkPar c
    let go := fun s =>
      let st := if par c 13 3 ≠ 0 ∨ par c 24 8 ≠ 0 then mBadParam else bulkRefusal s false b
      if st ≠ mOk then mbxDone p m st s
      else
        let x := scatterList s p b.list b.len
        bulkRead p m b (beforeErr x.1 hostErr) x.2 (hostFails x.1 hostErr) s
    if b.area.isSome then onArea true p m c (fun _ s => go s) s else go s) port m s

/-- The host's view of a refused DMA operation (R131). -/
def refusedStatus (s : State) (a : Option Nat) (st : Nat) : Nat :=
  if st = 4 then mBadParam else if optRuns s a then mJobRunning else mEmpty

/-- A return of a bulk read or drain: data to the host, sour grains as zero; the last read of KIND 3 sends the drain. -/
def bulkReturn (j : BulkJob) (op st : Nat) (data : BitVec 512) (sour : Nat) (s : State) : State :=
  let i := j.total - j.left
  let isDrain := decide (j.kind = 3) && decide (j.left = 1)
  let s := if op = 1 ∧ !isDrain then toHost j.port j.dests (64 * i) (if sour = 0 then leBytes 64 data.toNat else List.replicate 64 0) s else s
  let code := if op = 2 then refusedStatus s j.area st else 0
  let s := bulkDone j.id code (if op = 1 ∧ sour ≠ 0 then 1 else 0) s
  match s.bulk.find? fun x => x.id == j.id with
  | some x =>
    if x.kind = 3 ∧ x.left = 1 ∧ !isDrain then
      if x.status ≠ 0 then bulkFinish x s
      else modMm x.site (fun y => { y with edgeq := y.edgeq ++ [bulkOp 3 x.creel (x.off + 4 * (x.total - 1)) ((x.total - 1) % 128) 0 x.id] }) s
    else s
  | none => s

/-- DMA_RETURN_ARRIVAL (R130, R132, R147): a flit of a DMA-return slot that stands in the elastic inbound partition of its lane's attachment is
taken by the edge: grants, recalls, and the data or the refusal for the oldest bulk read of that creel. -/
def execDmaReturnArrival (site : Nat) (flit : Flit) (s : State) : Out :=
  onSite .mm site (fun s =>
    match (mmAt s site).lane with
    | none => s
    | some (t, _) =>
      match (attAt s t).inE.find? fun e => e.flit == flit with
      | none => s
      | some e =>
        let h := flitHdr flit
        let s := modAtt t (fun q => { q with inE := q.inE.erase e }) s
        let s := modMm site (fun m => { m with
          credits := alter 0 m.credits (bits h 31 28) (· + bits h 47 32)
          recalled := m.recalled ||| bits h 51 48 }) s
        if bits h 1 0 = 0 then s
        else match s.bulk.find? fun j => decide (2 ≤ j.kind) && j.site == site && j.creel == bits h 5 2 with
          | some j => bulkReturn j (bits h 1 0) (bits h 20 6) (BitVec.ofNat 512 flit.data.toNat) (flit.sour.toNat % 16) s
          | none =>
            if bits h 1 0 = 2 then bulkPush site (bits h 5 2) (refusedStatus s (areaOfSite s site) (bits h 20 6)) s else s) s

/-! ## Remote transfer (R313) and the fabric id (R302) -/

/-- Start a remote command: its requests go out, and it may end at once. What comes before a fault of the list is moved (R345). -/
def startRemote (p m : Nat) (write : Bool) (c : Tab Byte) (s : State) : State :=
  let dev := par c 0 2
  let len := par c 4 4
  let dpa := par c 8 8
  if par c 2 2 ≠ 0 ∨ 4094 < dev ∨ len % 4 ≠ 0 ∨ len = 0 ∨ 2 ^ 30 < len ∨ 2 ^ 41 ≤ dpa then mbxDone p m mBadParam s
  else
    let x := scatterList s p (par c 16 8) len
    let n := if x.2 then len else chunkLen x.1
    if n = 0 then mbxDone p m mBadParam s
    else
      let id := s.nextJob
      let data := if write then gatherHost (portAt s p).mem x.1 else []
      let j : RemoteJob := { id := id, port := p, m := m, list := x.1, sours := 0, bad := !x.2, restore := none }
      stirRemote (addRmas (splitRma id dev write (n / 4096 + 2) s.fab.nextTag dpa 0 n data) { s with nextJob := id + 1, remote := s.remote ++ [j] })

/-- REMOTE_READ (R313). -/
def execRemoteRead (port m : Nat) (s : State) : Out := mbxRun 0x0300 (plenIs 24) .device false false (fun p m c s => startRemote p m false c s) port m s

/-- REMOTE_WRITE (R313). -/
def execRemoteWrite (port m : Nat) (s : State) : Out := mbxRun 0x0301 (plenIs 24) .device false false (fun p m c s => startRemote p m true c s) port m s

/-- SET_FABRIC_ID (R302, R305, R308). -/
def execSetFabricId (port m : Nat) (s : State) : Out :=
  mbxRun 0x0302 (plenIs 4) .device false false (fun p m c s =>
    let f := par c 0 2
    let d := par c 2 2
    if 4094 < d then mbxDone p m mBadParam s
    else if anyJob s then mbxDone p m mAreaBusy s
    else
      let s := { s with fab := { s.fab with id := Tri.of (f * 2 ^ 16 + 2 ^ 15 + d), conflict := false } }
      let s := if s.time.master then masterTime s else s
      let s := each ((List.range 32).filter fun q => (shtAt s q).peer.hello) (fun q s => sendHello q (unlockPort q s)) s
      let s := each (List.range 32) helloAgain s
      mbxDone p m mOk s) port m s

/-! ## Host links and port resets (R334, R335) -/

/-- HOST_LINK_UP: the port's link reaches L0. -/
def execHostLinkUp (port : Nat) (s : State) : Out := atPort port (modPort port fun x => { x with up := true, upAt := s.up }) s

/-- What a PRST leaves of a port: its link, its host, IRQ_MASK and RAS_REGERR, which are DRST (R334). -/
def Port.prst (x : Port) : Port :=
  { (default : Port) with
    up := x.up, downAt := x.downAt, upAt := x.upAt, msix := x.msix, irqMask := x.irqMask, regerrCode := x.regerrCode, regerrOff := x.regerrOff, regerrSet := x.regerrSet, writes := x.writes
    regerrValid := x.regerrValid, regerrOvf := x.regerrOvf, mem := x.mem, readData := x.readData, evq := { (default : Evq) with seqno := x.evq.seqno } }

/-- PORT_RESET (R335): transfers of the port stop, its mailboxes, ring and MSI-X state are reset. All but an FLR take the link from L0. -/
def execPortReset (port : Nat) (kind : PortResetKind) (s : State) : Out :=
  atPort port (fun s =>
    let l := s.bulk.filter fun j => j.port == port
    let s := each l (fun j s => dropBulkOps j.id s) { s with bulk := s.bulk.filter fun j => j.port != port }
    let s := modPort port Port.prst s
    if kind = .flr ∨ !(portAt s port).up then s
    else count 0x1901 port 1 (modPort port (fun x => { x with up := false, downAt := s.up }) s)) s

end Sys2Proof.Machine
end

