-- ==== Sys2Proof/Machine/RegView.lean ====
section
/-! DEFINITION. The register map (R362, R367, R368): what each register of BAR0 and of the indirect space reads as, and the
triplicated fields (R372) with their votes. -/
namespace Sys2Proof.Machine

/-! ## Triplicated fields (R372) -/

/-- The copies of a field; OWNED has none of its own: it shows the owners of the areas. -/
def triGet (s : State) : TriField → Tri
  | .secLock => s.sec.lock
  | .pmax => s.pwr.pmax
  | .pmin => s.pwr.pmin
  | .cap => s.pwr.cap
  | .prio => s.time.prio
  | .fabId => s.fab.id
  | .dbgEn => s.sec.dbgEn
  | .secOwner w => s.sec.owner.getD w (Tri.of 0)
  | .owned _ => Tri.of 0
  | .areaOwner a => (areaAt s a).owner
  | .mmRemap n e => (look default (mmAt s n).remap e).v
  | .hbmRate k c => (chanAt (stackAt s k) c).rate
  | .hbmFail k c => (chanAt (stackAt s k) c).fail
  | .hbmRemap k e => (look default (stackAt s k).remap e).v

/-- Write all three copies in one ACLK. -/
def triPut (t : Tri) (f : TriField) (s : State) : State :=
  match f with
  | .secLock => { s with sec := { s.sec with lock := t } }
  | .pmax => { s with pwr := { s.pwr with pmax := t } }
  | .pmin => { s with pwr := { s.pwr with pmin := t } }
  | .cap => { s with pwr := { s.pwr with cap := t } }
  | .prio => { s with time := { s.time with prio := t } }
  | .fabId => { s with fab := { s.fab with id := t } }
  | .dbgEn => { s with sec := { s.sec with dbgEn := t } }
  | .secOwner w => { s with sec := { s.sec with owner := s.sec.owner.set w t } }
  | .owned _ => s
  | .areaOwner a => modArea a (fun x => { x with owner := t }) s
  | .mmRemap n e => modMm n (fun m => { m with remap := alter default m.remap e fun r => { r with v := t } }) s
  | .hbmRate k c => modStack k (modChan c fun x => { x with rate := t }) s
  | .hbmFail k c => modStack k (modChan c fun x => { x with fail := t }) s
  | .hbmRemap k e => modStack k (fun x => { x with remap := alter default x.remap e fun r => { r with v := t } }) s

/-- The unit that holds a field. -/
def triUnit : TriField → Nat
  | .mmRemap n _ => n
  | .hbmRate k _ => stackIdx k
  | .hbmFail k _ => stackIdx k
  | .hbmRemap k _ => stackIdx k
  | _ => hubIdx

/-- One vote: copies that differ are rewritten and counted; no two equal raises RAS_VOTE_SPLIT. -/
def voteOne (f : TriField) (s : State) : State :=
  let t := triGet s f
  if t.agree then s
  else
    let s := triPut t.voted f s
    let s := count 0x2D10 (triUnit f) 1 { s with ras := { s.ras with fix := satAdd 0xFFFF s.ras.fix 1 } }
    if t.split then reportUnit 0x1D11 (triUnit f) { s with ras := { s.ras with split := satAdd 0xFFFF s.ras.split 1 } } else s

/-- The fields a read votes: OWNED is the owners of the areas. -/
def votedBy (s : State) : TriField → List TriField
  | .owned _ => (areaList s).map .areaOwner
  | f => [f]

/-- A read of a triplicated field votes it. -/
def vote (f : TriField) (s : State) : State := each (votedBy s f) voteOne s

/-- TRIPLICATED_READ (R372). -/
def execTriplicatedRead (f : TriField) (s : State) : Out := .next (vote f s)

/-- Every triplicated field. -/
def triAll (s : State) : List TriField :=
  [.secLock, .pmax, .pmin, .cap, .prio, .fabId, .dbgEn] ++ (List.range 8).map .secOwner ++ (areaList s).map .areaOwner
  ++ s.mm.flatMap (fun kv => kv.2.remap.map fun e => .mmRemap kv.1 e.1)
  ++ s.stks.flatMap (fun kv => kv.2.chans.flatMap (fun c => [.hbmRate kv.1 c.1, .hbmFail kv.1 c.1]) ++ kv.2.remap.map fun e => .hbmRemap kv.1 e.1)

/-- TRIPLE_VOTE_SWEEP (R372). -/
def execTripleVoteSweep (s : State) : Out := .next (each (triAll s) voteOne s)

/-! ## BAR0 (R362) -/

/-- PWR_EFF (R385): the effective cap and the limit that sets it. -/
def coolCap (s : State) : Nat := s.pwr.coolLimit.getD 511
def feedCap (s : State) : Nat := if s.member = 8 ∧ s.pwr.oneFeed then 220 else 511
def groupCap (s : State) : Nat := match s.pwr.grp with | some g => g.assign | none => 511

/-- The effective cap in force: a new one takes effect at its pick boundary (R385). -/
def effInForce (s : State) : Nat :=
  match s.pwr.effDue with | some (p, v) => if p ≤ s.pick then v else s.pwr.eff | none => s.pwr.eff

def pwrEff (s : State) : Nat :=
  let e := effInForce s
  e + groupAssign s * 2 ^ 16 + b2n (decide (feedCap s = e) && s.pwr.oneFeed) * 2 ^ 28 + b2n (decide (coolCap s = e) && s.pwr.coolLimit.isSome) * 2 ^ 29
  + b2n (decide (groupCap s = e) && s.pwr.grp.isSome) * 2 ^ 30 + b2n s.pwr.clamp.isSome * 2 ^ 31
where groupAssign (s : State) : Nat := match s.pwr.grp with | some g => min 511 g.assign | none => 0

/-- PWR_IN; its fields are 0 after reset until the feeds have been sampled. -/
def pwrIn (s : State) : Nat :=
  let p := s.pwr
  min p.power 0xFFFF + b2n (p.presB && p.inSeen) * 2 ^ 30 + b2n (p.presA && p.inSeen) * 2 ^ 31 + min p.voltb 0xFFFF * 2 ^ 32 + min p.volta 0xFFFF * 2 ^ 48

/-- PWR_GRP. -/
def pwrGrp (s : State) : Nat :=
  match s.pwr.grp with
  | some g => min ((s.up - g.lastAssign) / milli) 0xFFFF + g.index * 2 ^ 16 + b2n g.coord * 2 ^ 30 + 2 ^ 31
  | none => 0

/-- TIM_STAT and TIM_OFS. -/
def timStat (s : State) : Nat :=
  let t := s.time
  t.tmid + t.gen * 2 ^ 12 + t.tprio * 2 ^ 20 + t.upport * 2 ^ 24 + b2n t.holdover * 2 ^ 29 + b2n t.master * 2 ^ 30 + b2n t.locked * 2 ^ 31
def timOfs (s : State) : Nat := field 16 s.time.theta + s.time.hops * 2 ^ 16

/-- THM_REGION_r and THM_COOL. -/
def thmRegion (x : Region) : Nat := field 16 x.tmax + x.heddle * 2 ^ 16 + x.tstate * 2 ^ 30
def thmCool (s : State) : Nat := field 16 s.pwr.inlet + field 16 s.pwr.outlet * 2 ^ 16 + min s.pwr.flow 0xFFFF * 2 ^ 48

/-- RAS_AREA_a, RAS_RISK_a, RAS_SKIM_a. -/
def rasArea (x : Area) : Nat := x.remaps % 2 ^ 16 * 2 ^ 16 + x.replays % 2 ^ 16 * 2 ^ 32 + x.job.cycle * 2 ^ 56 + x.job.run * 2 ^ 59 + x.job.ras * 2 ^ 61
def rasRisk (g : AreaRegs) : Nat := g.level + g.est * 2 ^ 3 + g.floor * 2 ^ 6 + g.ceil * 2 ^ 9 + min g.score 255 * 2 ^ 16 + b2n g.ovr * 2 ^ 31
def rasSkim (s : State) (a : Nat) : Nat :=
  let k := (areaAt s a).skim
  min (k.sent / 2 ^ 20) (2 ^ 32 - 1) + Nat.log2 (skimInterval (aregAt s a).level) * 2 ^ 32 + k.partner * 2 ^ 40 + k.port * 2 ^ 55 + k.buf * 2 ^ 60 + k.state * 2 ^ 61

/-- SEC_BOOT and SEC_SIGSTATE. -/
def secBoot (s : State) : Nat := s.sec.slot + s.sec.pref * 2 + b2n s.sec.fallback * 4 + b2n s.sec.pendingFw * 8 + s.sec.rollback * 2 ^ 8
def secSigstate (s : State) : Nat := s.sec.bottom % 2 ^ 20 + b2n s.sec.nextRdy * 2 ^ 20 + s.sec.top % 2 ^ 20 * 2 ^ 24

/-- HPC_STAT of a port. -/
def hpcStat (s : State) (p : Nat) : Nat := ownedMask s p + b2n (portAt s (1 - p)).up * 2 ^ 29 + p * 2 ^ 30 + b2n s.bru.ready * 2 ^ 31

/-- A PMON window's selection register with NEXT. -/
def pmonAt (s : State) (w : Nat) : Pmon := look default s.mod.pmon w
def pmonSel (x : Pmon) (sel : Nat) : Nat := sel + x.next * 2 ^ 16

/-- A calibration item as flash gives it: a gain of unity, an offset of 0 (log 5). -/
def calReset (i : Nat) : Cal := let f : Int := if i < 68 then 1000000 else 0; { fact := f, user := 0, eff := f, due := none }

/-- Item i, and its effective value: a new one takes effect at its pick boundary. -/
def calAt (s : State) (i : Nat) : Cal := look (calReset i) s.mod.cal i
def calEff (s : State) (i : Nat) : Int :=
  let c := calAt s i
  match c.due with | some (p, v) => if p ≤ s.pick then v else c.eff | none => c.eff

/-- The staged and shadowed copies as PWR_LIMIT spells them. -/
def limitWord (pmax pmin : Nat) : Nat := pmin + pmax * 2 ^ 16

/-- The registers of one port's HPC block. -/
def hpcReg (s : State) (p off : Nat) : Nat :=
  let x := portAt s p
  if off = 0x1000 then hpcStat s p
  else if off = 0x1014 then x.abortDone + b2n x.abortHw * 2 ^ 30 + b2n x.abortBusy * 2 ^ 31
  else if off = 0x1030 then x.evq.pi
  else if off = 0x1034 then x.evq.ci
  else 0

/-- MBX_STAT_m: while DRST runs STATE reads 0 (R336). -/
def mbxStat (s : State) (p m : Nat) : Nat :=
  let b := mbxAt s p m
  (if s.bru.drst then 0 else b.state) + b.status * 2 ^ 32 + b.seq * 2 ^ 48

/-- The PWR block; `o` below 0x800. -/
def pwrReg (s : State) (o : Nat) : Nat :=
  if o = 0 then limitWord s.pwr.pmax.val s.pwr.pmin.val
  else if o = 8 then s.pwr.cap.val
  else if o = 0x18 then pwrEff s
  else if o = 0x20 then pwrIn s % 2 ^ 32
  else if o = 0x24 then pwrIn s / 2 ^ 32
  else if within 0x100 0x13F o then (aregAt s ((o - 0x100) / 4)).hold
  else if within 0x200 0x27F o then (aregAt s ((o - 0x200) / 8)).energy / 10 / 2 ^ (32 * ((o / 4) % 2)) % 2 ^ 32
  else if o = 0x280 then s.pwr.idle / 10 % 2 ^ 32
  else if o = 0x284 then s.pwr.idle / 10 / 2 ^ 32
  else if o = 0x300 then pwrGrp s
  else 0

/-- The THM block. -/
def thmReg (s : State) (o : Nat) : Nat :=
  if o = 0 then s.pwr.throt + 110 * 2 ^ 8
  else if within 0x100 0x1FF o then thmRegion (regionAt s ((o - 0x100) / 4))
  else if o = 0x200 then thmCool s % 2 ^ 32
  else if o = 0x204 then thmCool s / 2 ^ 32
  else 0

/-- The half of a 64-bit value an offset names. -/
def regHalf (v off : Nat) : Nat := v / 2 ^ (32 * ((off / 4) % 2)) % 2 ^ 32

/-- The RAS block. -/
def rasReg (s : State) (o : Nat) : Nat :=
  if o < 0x10 then
    let x := portAt s (o / 8)
    regHalf (b2n x.regerrValid + b2n x.regerrOvf * 2 + x.regerrOff * 2 ^ 24 + x.regerrCode * 2 ^ 48) o
  else if o = 0x10 then s.ras.fix + s.ras.split * 2 ^ 16
  else if o = 0x20 then s.ras.watch.length
  else if within 0x100 0x17F o then regHalf (rasArea (areaAt s ((o - 0x100) / 8))) o
  else if within 0x200 0x23F o then rasRisk (aregAt s ((o - 0x200) / 4))
  else if within 0x400 0x5FF o then
    let a := (o - 0x400) / 32
    let r := (o - 0x400) % 32
    if r < 8 then regHalf (rasSkim s a) o
    else if r < 16 then regHalf (areaAt s a).skim.seals.1 o
    else if r < 24 then regHalf (areaAt s a).skim.seals.2 o
    else 0
  else 0

/-- The SEC block. -/
def secReg (s : State) (o : Nat) : Nat :=
  if o = 0 then s.sec.lock.val
  else if o = 0x10 then secBoot s
  else if within 0x20 0x3F o then (s.sec.owner.getD ((o - 0x20) / 4) (Tri.of 0)).val
  else if o = 0x40 then s.sec.dbgEn.val
  else if within 0x48 0x4F o then regHalf (secSigstate s) o
  else 0

/-- An indirect window's registers (R363). -/
def winReg (w : Window) (o : Nat) : Nat :=
  if o = 0 then w.addr else if o = 4 then w.ctrl else if o = 8 then w.lo else if o = 12 then w.hi else if o = 16 then w.site else if o = 20 then w.stat else 0

/-- A PMON window. -/
def pmonReg (s : State) (off : Nat) : Nat :=
  let x := pmonAt s ((off - 0x100000) / 0x1000)
  let o := off % 0x1000
  if o = 0 then pmonSel x x.sel
  else if o = 0x800 then pmonSel x (x.shadow.getD x.sel)
  else if within 0x400 0x5FF o then regHalf (look 0 x.recs ((o - 0x400) / 8)).toNat o
  else 0

/-- The pending shadow of the register at an offset of PWR or THM (R375); without one, the value in force. -/
def shadowReg (s : State) (block o : Nat) : Nat :=
  if block = 4 ∧ o = 0 then (match s.pwr.shadowLim with | some x => limitWord x.1 x.2 | none => limitWord s.pwr.pmax.val s.pwr.pmin.val)
  else if block = 4 ∧ o = 8 then s.pwr.shadowCap.getD s.pwr.cap.val
  else if block = 5 ∧ o = 0 then s.pwr.shadowThrot.getD s.pwr.throt + 110 * 2 ^ 8
  else 0

/-- The 32-bit word of BAR0 that port p reads at an aligned offset: TIM_PICK_HI is its own latch, an unmapped offset reads 0 (R9, R358). -/
def barWord (s : State) (p off : Nat) : Nat :=
  if off < 0x10 then regHalf (if off < 8 then idnDevice s else s.mod.serial) off
  else if within 0x1000 0x1FFF off then hpcReg s p off
  else if within 0x2000 0x207F off then
    (let m := (off - 0x2000) / 16
     if off % 16 = 8 ∨ off % 16 = 12 then regHalf (mbxStat s p m) off else 0)
  else if within 0x10000 0x100FF off then winReg (winAt s ((off - 0x10000) / 0x40)) (off % 0x40)
  else if off = 0x20000 ∨ off = 0x20008 then (portAt s ((off - 0x20000) / 8)).irqMask
  else if off = 0x30000 then s.pick % 2 ^ 32
  else if off = 0x30004 then look 0 s.time.hiLatch p
  else if off = 0x30008 then s.time.prio.val + b2n s.time.eparm * 2 ^ 8 + s.time.hold * 2 ^ 12
  else if off = 0x3000C then timStat s
  else if off = 0x30010 then timOfs s
  else if off = 0x30018 ∨ off = 0x3001C then regHalf s.time.epoch off
  else if off = 0x30020 then s.time.period
  else if within 0x40000 0x407FF off then pwrReg s (off - 0x40000)
  else if within 0x40800 0x40FFF off then shadowReg s 4 (off - 0x40800)
  else if within 0x50000 0x507FF off then thmReg s (off - 0x50000)
  else if within 0x50800 0x50FFF off then shadowReg s 5 (off - 0x50800)
  else if within 0x60000 0x60FFF off then rasReg s (off - 0x60000)
  else if within 0x70000 0x70FFF off then secReg s (off - 0x70000)
  else if within 0x80000 0x8063F off then
    (let c := calAt s ((off - 0x80000) / 16)
     if off % 16 = 0 then field 32 c.fact else if off % 16 = 4 then field 32 c.user else if off % 16 = 8 then field 32 (calEff s ((off - 0x80000) / 16)) else 0)
  else if within 0x100000 0x1FFFFF off then pmonReg s off
  else 0

/-! ## The indirect space (R367, R368) -/

/-- A register as the indirect space shows it: its width in bits (0 where no register is mapped) and its value. -/
structure RegView where
  width : Nat
  val : Nat
deriving DecidableEq, Repr

def r32 (v : Nat) : RegView := ⟨32, v⟩
def r64 (v : Nat) : RegView := ⟨64, v⟩
def r0 : RegView := ⟨0, 0⟩

/-- MM_PWR. -/
def mmPwr (m : Mm) : Nat :=
  m.pwrReq + (List.range 4).foldl (fun v b => v + (subAt m b).power * 2 ^ (16 + 2 * b) + b2n (subAt m b).waits * 2 ^ (24 + b)) 0

/-- The registers of an MM site. -/
def mmReg (m : Mm) (o : Nat) : RegView :=
  if within 0x100 0x17F o then r64 (creelAt m ((o - 0x100) / 8)).desc.toNat
  else if within 0x180 0x1FF o then (let c := creelAt m ((o - 0x180) / 8); r64 (c.head + c.tail * 2 ^ 16 + c.ctail * 2 ^ 32))
  else if o = 0x200 then r32 0
  else if o = 0x300 then r32 (mmPwr m)
  else if within 0x380 0x38F o then (let x := subAt m ((o - 0x380) / 4); r32 (x.scrubUe + x.ue * 2 ^ 8 + x.ce * 2 ^ 16))
  else if o = 0x3C0 then r32 0
  else if within 0x400 0x5FF o then
    (let e := look default m.remap ((o - 0x400) / 4)
     r32 (e.v.val % 8192 + b2n e.fact * 2 ^ 30 + e.v.val / 8192 * 2 ^ 31))
  else if within 0x700 0x707 o then
    r64 (min m.sp.flFlit 2047 + m.sp.rdFlit % 2 ^ 20 * 2 ^ 20 + m.sp.segs % 2 ^ 16 * 2 ^ 40 + b2n m.sp.fl.isSome * 2 ^ 62 + b2n m.sp.rd.isSome * 2 ^ 63)
  else if o = 0x708 then r32 (m.sp.segOvf + m.sp.conflict * 2 ^ 16)
  else if o = 0x800 then r32 (m.raddr + b2n m.rsour * 2 ^ 31)
  else if within 0x840 0x87F o then r32 (look 0 m.rdata ((o - 0x840) / 4)).toNat
  else r0

/-- XS_RING_n. -/
def ringReg (r : Ring) : Nat := r.desc.toNat / 2 ^ 41 * 2 ^ 41 + r.wptr * 2 ^ 16 + r.rptr

/-- The rings of an MX or SF site, and how many. -/
def siteRings (s : State) (n : Nat) : Tab Ring := if kindOf n = .mx then (mxAt s n).rings else (sfAt s n).rings
def ringCount (n : Nat) : Nat := match kindOf n with | .mx => 16 | .sf => 8 | _ => 0

/-- Two 16-bit entries of a store packed in a word, the lower index low; beyond `len` they read 0. -/
def packed16 {n : Nat} (t : Tab (BitVec n)) (base i len : Nat) : Nat :=
  let e := fun j => if j < len then (look 0 t (base + j)).toNat else 0
  e i + e (i + 1) * 2 ^ 16

/-- The same where the bits below `low` of an entry are reserved and read 0 (R9). -/
def packedField {n : Nat} (low : Nat) (t : Tab (BitVec n)) (base i len : Nat) : Nat :=
  let e := fun j => if j < len then (look 0 t (base + j)).toNat / low * low else 0
  e i + e (i + 1) * 2 ^ 16

/-- Words of a program bank by site type (05). -/
def progLen (n : Nat) : Nat := match kindOf n with | .mx => 256 | .sf => 1024 | .su => 512 | .mm => 0

/-- Program word a of bank b. -/
def progWord (s : State) (n b a : Nat) : Nat :=
  if progLen n ≤ a then 0
  else (match kindOf n with
    | .mx => look 0 (mxAt s n).prog (256 * b + a)
    | .sf => look 0 (sfAt s n).prog (1024 * b + a)
    | .su => look 0 (suAt s n).prog (512 * b + a)
    | .mm => 0).toNat

/-- The stores of a site block from 0x1000 on (R368). -/
def siteStore (s : State) (n o : Nat) : RegView :=
  let w := swAt s n
  if o < 0xB000 then
    let k := (o - 0x1000) / 0x1000
    let q := o % 0x1000
    let base := 5 * (k % 2) + k / 2
    if q < 0x800 then r32 (packedField 8 w.weave (base * 1024) (q / 2) 1024)
    else if q < 0x900 then r32 (look 0 w.pages (base * 64 + (q - 0x800) / 4)).toNat
    else r32 0
  else if o < 0xC000 then
    (if kindOf n = .su then r0
     else r32 (packed16 w.tokens ((o - 0xB000) / 0x800 * 1024) (o % 0x800 / 2) 1024))
  else if kindOf n = .mm then
    let b := (o - 0xC000) / 0x1000
    let q := o % 0x1000
    if 2 ≤ b then r0
    else if q < 0x800 then r32 (packedField 16 (mmAt s n).pull (b * 1024) (q / 2) 1024)
    else if q < 0x900 then r32 (look 0 (mmAt s n).pages (b * 64 + (q - 0x800) / 4)).toNat
    else r32 0
  else r64 (progWord s n ((o - 0xC000) / 0x2000) (o % 0x2000 / 8))

/-- A site block (R368). -/
def siteReg (s : State) (n o : Nat) : RegView :=
  if 0x1000 ≤ o then siteStore s n o
  else if within 0x600 0x617 o then r32 (look 0 (swAt s n).exc ((o - 0x600) / 4)).toNat
  else match kindOf n with
    | .mm => mmReg (mmAt s n) o
    | .su => if within 0x640 0x647 o then r64 (suAt s n).digest.toNat else r0
    | .mx =>
      if within 0x100 0x17F o then r64 (ringReg (look default (siteRings s n) ((o - 0x100) / 8)))
      else if o = 0x200 then r32 0
      else if within 0x700 0x707 o then (let t := (mxAt s n).skip.total; r64 (t.2.2 + t.2.1 * 2 ^ 20 + t.1 * 2 ^ 40))
      else r0
    | .sf =>
      if within 0x100 0x13F o then r64 (ringReg (look default (siteRings s n) ((o - 0x100) / 8)))
      else if o = 0x200 then r32 0
      else r0

/-- A stack block. -/
def stackReg (s : State) (k o : Nat) : RegView :=
  let x := stackAt s k
  if o = 0 then r32 (b2n x.trained + x.temp * 2 ^ 8 + outChan k s.pick * 2 ^ 27)
  else if within 0x100 0x17F o then
    (let c := chanAt x ((o - 0x100) / 4)
     r32 (c.ce + c.minm * 2 ^ 19 + c.margin * 2 ^ 24 + c.fail.val * 2 ^ 29 + c.rate.val * 2 ^ 30))
  else if within 0x200 0x27F o then (let c := chanAt x ((o - 0x200) / 4); r32 (c.capar + c.ue * 2 ^ 8 + c.odecc * 2 ^ 16))
  else if within 0x1000 0x2FFF o then
    (let e := look default x.remap ((o - 0x1000) / 4)
     r32 (e.v.val % 2 ^ 20 + b2n e.fact * 2 ^ 30 + e.v.val / 2 ^ 20 * 2 ^ 31))
  else r0

/-- A port block. -/
def portReg (s : State) (p o : Nat) : RegView :=
  let x := shtAt s p
  if o = 0 then r32 (min x.lat 2047 * 2 ^ 11 + b2n x.nospare * 2 ^ 22 + x.spare * 2 ^ 23 + b2n x.sprdy * 2 ^ 27 + b2n (groupAligned s p) * 2 ^ 28 + x.state * 2 ^ 29)
  else if o = 4 then r32 x.ctl
  else if o = 8 then r32 (min x.delay (2 ^ 20 - 1))
  else if within 0x100 0x17F o then
    (let l := look default x.lanes ((o - 0x100) / 8)
     r64 (l.ue + l.ce * 2 ^ 24 + l.margin * 2 ^ 52 + b2n l.failed * 2 ^ 59 + l.role * 2 ^ 60))
  else if o = 0x200 then r32 (x.rotskip + x.miss * 2 ^ 8 + x.eldrop * 2 ^ 16)
  else r0

/-- A regulator block. -/
def regulatorReg (s : State) (r o : Nat) : RegView :=
  let x := regionAt s r
  if o < 8 then r64 (x.droop + min x.power 0xFFFF * 2 ^ 8 + min x.iout 0xFFFF * 2 ^ 24 + min x.vout 0xFFF * 2 ^ 40 + x.vstate * 2 ^ 62)
  else if o = 8 then r32 (x.vset + x.vnom * 2 ^ 16)
  else r0

/-- BRU_STAT (14): the stage that runs, 0xF once bring-up has completed. -/
def bruStat (s : State) : Nat :=
  let b := s.bru
  min b.elapsed 0xFFFF + b2n b.overAllow * 2 ^ 24 + b2n b.refFail * 2 ^ 25 + b2n b.refStale * 2 ^ 26 + b2n b.fail * 2 ^ 27
  + (if b.stage = 9 then 15 else b.stage + 1) * 2 ^ 28

/-- FNC_SUM. -/
def fncSum (s : State) : Nat := let c := fencedCounts s; c.2.2.2 + c.2.2.1 * 2 ^ 15 + c.2.1 * 2 ^ 30 + c.1 * 2 ^ 47

/-- The hub's registers. -/
def hubReg (s : State) (o : Nat) : RegView :=
  if o = 0x1000 then r32 (bruStat s)
  else if within 0x1008 0x100F o then r64 (fncSum s)
  else if o = 0x1010 then r32 s.fence.seqno
  else if within 0x2000 0x207F o then (if o % 8 = 0 then r32 (aregAt s ((o - 0x2000) / 8)).skpCtl else r0)
  else if o = 0x3000 then r32 (let v := s.fab.id.val; v % 4096 + bits v 15 15 * 2 ^ 15 + v / 2 ^ 16 * 2 ^ 16)
  else if o = 0x3004 then r32 (b2n s.fab.rmard + b2n s.fab.rmawr * 2 + b2n s.fab.noauto * 4)
  else if o = 0x3008 then r32 (routeCount s + b2n s.fab.conflict * 2 ^ 31)
  else if within 0x3100 0x32FF o then
    (let x := (shtAt s ((o - 0x3100) / 16)).peer
     if o % 16 < 8 then r64 (x.devid + b2n x.valid * 2 ^ 12 + x.fabric * 2 ^ 13 + x.port * 2 ^ 29 + x.rackpos * 2 ^ 34 + x.feed * 2 ^ 50 + x.member * 2 ^ 58
       + b2n x.mismatch * 2 ^ 62 + b2n x.hello * 2 ^ 63)
     else r64 x.serial)
  else if within 0x4000 0x7FFF o then r32 (rtAt s ((o - 0x4000) / 4))
  else if within 0x8000 0x80FF o then
    (let g := aregAt s ((o - 0x8000) / 16)
     if o % 16 < 8 then r64 (g.resend + g.fbdrop * 2 ^ 16 + g.fbrec * 2 ^ 40) else r64 (g.late + g.bad * 2 ^ 16 + g.verified * 2 ^ 32))
  else r0

/-- What an indirect index names: a reserved domain, an absent unit (R4, R369), or a register. -/
inductive IdxUnit where
  | bad
  | absent
  | site (n off : Nat)
  | stack (k off : Nat)
  | port (p off : Nat)
  | regulator (r off : Nat)
  | hub (off : Nat)
  | empty
deriving DecidableEq, Repr

/-- Decode an index (R367). The weave tables of a switch that the fence map takes out of service are absent (R369; log 47). -/
def idxUnit (s : State) (idx site : Nat) : IdxUnit :=
  let d := idx / 2 ^ 28
  let o := idx % 2 ^ 28
  if d = 0 then
    let k := o / 2 ^ 24
    if k = 0 then (if bits o 23 16 ≠ 0 then .bad else if siteReach s site && !(within 0x1000 0xAFFF o && !switchOn s site) then .site site o else .absent)
    else if k = 1 then (if bits o 23 21 ≠ 0 then .bad else if bits o 20 16 < 4 * s.member then .empty else .absent)
    else if k = 2 then (if bits o 23 22 ≠ 0 then .bad else if bits o 21 16 < numRegions s.member then .empty else .absent)
    else .bad
  else if d = 1 then (if stackPresent s.member (o / 2 ^ 20) then .stack (o / 2 ^ 20) (o % 2 ^ 20) else .absent)
  else if d = 2 then (if portPresent s.member (o / 2 ^ 20) then .port (o / 2 ^ 20) (o % 2 ^ 20) else .absent)
  else if d = 3 then (if o / 2 ^ 16 < numRegions s.member then .regulator (o / 2 ^ 16) (o % 2 ^ 16) else .absent)
  else if d = 4 then (if portPresent s.member (2 * (o / 2 ^ 16)) then .empty else .absent)
  else if d = 5 then .hub o
  else .bad

/-- The register at a unit. -/
def unitReg (s : State) : IdxUnit → RegView
  | .site n o => siteReg s n o
  | .stack k o => stackReg s k o
  | .port p o => portReg s p o
  | .regulator r o => regulatorReg s r o
  | .hub o => hubReg s o
  | _ => r0

/-- The triplicated fields a read of a register votes. -/
def unitTri : IdxUnit → List TriField
  | .site n o => if kindOf n = .mm ∧ within 0x400 0x5FF o then [.mmRemap n ((o - 0x400) / 4)] else []
  | .stack k o =>
    if within 0x100 0x17F o then [.hbmRate k ((o - 0x100) / 4), .hbmFail k ((o - 0x100) / 4)]
    else if within 0x1000 0x2FFF o then [.hbmRemap k ((o - 0x1000) / 4)]
    else []
  | .hub o => if o = 0x3000 then [.fabId] else []
  | _ => []

end Sys2Proof.Machine
end

