-- ==== Sys2Proof/Machine/Regs.lean ====
section
/-! DEFINITION. Writing registers (12): BAR0, the indirect windows, staging, shadows, live and lock rules (R357-R378). -/
namespace Sys2Proof.Machine

/-- Why a register write is refused (R380). -/
inductive RegCode where
  | live | locked | rej | range | badAccess
deriving DecidableEq, Repr

/-- Its fault code. -/
def RegCode.code : RegCode → Nat
  | .live => 0x8D01
  | .locked => 0x8D02
  | .rej => 0x8D03
  | .range => 0x8D04
  | .badAccess => 0x8D05

/-- The result of a write: what refuses it, and the state. -/
abbrev RegOut := Option RegCode × State

/-- Performed. -/
def wrote (s : State) : RegOut := (none, s)
/-- Refused: the register keeps its old value. -/
def refused (c : RegCode) (s : State) : RegOut := (some c, s)
/-- Performed unless the field is live (R377). -/
def unlessLive (live : Bool) (f : State → State) (s : State) : RegOut := if live then refused .live s else wrote (f s)

/-! ## Power limits and cap (R373-R376, R385, R386) -/

/-- The cap range of a member, in units of 50 W. -/
def capRange (m : Nat) : Nat × Nat := if m = 8 then (120, 400) else if m = 4 then (60, 210) else (30, 110)

/-- The least of the limits (R385). -/
def effCap (s : State) : Nat := min (min s.pwr.cap.val (feedCap s)) (min (coolCap s) (groupCap s))

/-- One of the limits has changed: Prijan recomputes the effective cap at the first pick boundary after it (R385). -/
def recap (s : State) : State := { s with pwr := { s.pwr with eff := effInForce s, effDue := some (s.pick + 1, effCap s) } }

/-- The staged copies reloaded from the newest accepted values (R373). -/
def reloadLimits (s : State) : State :=
  let x := s.pwr.shadowLim.getD (s.pwr.pmax.val, s.pwr.pmin.val)
  { s with pwr := { s.pwr with stagedMax := x.1, stagedMin := x.2 } }

/-- Does the staged pair pass (R386)? -/
def limitsOk (s : State) : Bool :=
  let mx := s.pwr.stagedMax
  let mn := s.pwr.stagedMin
  let r := capRange s.member
  decide (mn ≤ mx) && within r.1 r.2 mx && within r.1 r.2 mn && within mn mx s.pwr.cap.val
  && (match s.pwr.shadowCap with | some c => within mn mx c | none => true)

/-- The shadows of PWR take effect. -/
def applyPwr (s : State) : State :=
  let p := s.pwr
  let p := match p.shadowLim with | some x => { p with pmax := Tri.of x.1, pmin := Tri.of x.2, shadowLim := none } | none => p
  let p := match p.shadowCap with | some c => { p with cap := Tri.of c, shadowCap := none } | none => p
  recap { s with pwr := p }

/-- The shadow of THM takes effect. -/
def applyThm (s : State) : State := match s.pwr.shadowThrot with | some t => { s with pwr := { s.pwr with throt := t, shadowThrot := none } } | none => s

/-- The shadows of a PMON block of 16 windows take effect. -/
def applyPmon (blk : Nat) (s : State) : State :=
  { s with mod := { s.mod with pmon := mapTab default (fun w x => if 0x10 + w / 16 = blk then
      (match x.shadow with | some v => { x with sel := v, shadow := none } | none => x) else x) s.mod.pmon } }

/-- The shadowed blocks with a pending shadow, by bits 27:16 of their offset (R206). -/
def pendingBlocks (s : State) : List Nat :=
  (if s.pwr.shadowLim.isSome || s.pwr.shadowCap.isSome then [4] else []) ++ (if s.pwr.shadowThrot.isSome then [5] else [])
  ++ (List.range 16).filterMap fun i => if s.mod.pmon.any (fun kv => decide (kv.1 / 16 = i) && kv.2.shadow.isSome) then some (0x10 + i) else none

/-- The apply points of a block after the pick of its newest write: S_k + A of the running step of each running area (R207, R376); none where no
job runs. -/
def applyPoints (s : State) (blk : Nat) : Option (List Nat) :=
  let run := (areaList s).filter (jobRuns s)
  if run.isEmpty then none
  else some ((run.filterMap fun a => (curStep s a).map fun k => k.s + look 0 (areaAt s a).applyAt blk).filter fun p => decide (look 0 s.mod.shadowAt blk < p))

/-- The pick at which a block's shadow is applied next, if it is known: without running jobs the next pick boundary after the write. -/
def applyPick (s : State) (blk : Nat) : Option Nat :=
  match applyPoints s blk with
  | none => some (look 0 s.mod.shadowAt blk + 1)
  | some l => l.foldl (fun m x => match m with | none => some x | some y => some (min x y)) none

/-- Apply one block. -/
def applyBlock (blk : Nat) (s : State) : State := if blk = 4 then applyPwr s else if blk = 5 then applyThm s else applyPmon blk s

/-- The shadows of a block that were due by this pick are in force before a write of the block (R376). -/
def shadowDue (blk : Nat) (s : State) : State :=
  if (pendingBlocks s).contains blk && (match applyPick s blk with | some p => decide (p ≤ s.pick) | none => false) then applyBlock blk s else s

/-- A write of a shadow of a block waits for the first apply point after this pick (R207, R376). -/
def shadowWrite (blk : Nat) (f : State → State) (s : State) : State := f { s with mod := { s.mod with shadowAt := put 0 s.mod.shadowAt blk s.pick } }

/-- A write of PWR_CAP goes to the shadow. -/
def writeCap (v : Nat) (s : State) : RegOut :=
  let c := v % 512
  let s := shadowDue 4 s
  if !within s.pwr.pmin.val s.pwr.pmax.val c then refused .range s else wrote (shadowWrite 4 (fun s => { s with pwr := { s.pwr with shadowCap := some c } }) s)

/-- A write of PWR_STAGE. -/
def writePwrStage (v : Nat) (s : State) : RegOut :=
  let s := shadowDue 4 s
  if !bit v 0 then wrote s
  else if bit s.sec.lock.val 0 ∧ s.pwr.stagedMax ≠ s.pwr.pmax.val then refused .locked (reloadLimits s)
  else if !limitsOk s then refused .rej (reloadLimits s)
  else wrote (reloadLimits (shadowWrite 4 (fun q => { q with pwr := { q.pwr with shadowLim := some (q.pwr.stagedMax, q.pwr.stagedMin) } }) s))

/-- SHADOW_APPLY (R206, R207, R376): the earliest apply point of the pending shadows: the blocks that it is theirs are applied. -/
def execShadowApply (s : State) : Out :=
  .next (
    let l := (pendingBlocks s).filterMap fun b => (applyPick s b).map fun p => (p, b)
    match l.foldl (fun (m : Option Nat) x => match m with | none => some x.1 | some y => some (min x.1 y)) none with
    | none => s
    | some p => each ((l.filter fun x => decide (x.1 ≤ max p s.pick)).map Prod.snd) applyBlock (toPick p s))

/-! ## Calibration (R378) -/

/-- An item's user range and effective range. -/
def calRange (i : Nat) : (Int × Int) × (Int × Int) := if i < 68 then ((-20000, 20000), (970000, 1030000)) else ((-48, 47), (-128, 127))

/-- A write of CAL_USER_i. -/
def writeCal (i v : Nat) (s : State) : RegOut :=
  if 100 ≤ i then wrote s
  else
    let u := signed 32 v
    let r := calRange i
    if u < r.1.1 ∨ r.1.2 < u then refused .range s
    else
      let c := calAt s i
      let sum := c.fact + u
      let e := max r.2.1 (min r.2.2 sum)
      let c' : Cal := { c with user := u, eff := calEff s i, due := some (s.pick + 1, e) }
      let s := { s with mod := { s.mod with cal := put (calReset i) s.mod.cal i c' } }
      wrote (if e = sum then s else count 0x1D07 hubIdx 1 s)

/-! ## Site registers -/

/-- Does the site's area hold a job (R377)? -/
def siteLive (s : State) (n : Nat) : Bool := optJob s (areaOfSite s n)

/-- A write of MM_STAGE (R122, R373). -/
def writeMmStage (n v : Nat) (s : State) : RegOut :=
  if siteLive s n then refused .live s
  else
    let m := mmAt s n
    let sel := (List.range 16).filter (bit v)
    let want := (List.range 16).map fun i => if bit v i then (creelAt m i).staged else (creelAt m i).desc
    if creelSetOk want then wrote (modMm n (fun m => sel.foldl (fun m i => modCreel i (fun c => c.apply c.staged) m) m) s)
    else refused .rej (modMm n (fun m => sel.foldl (fun m i => modCreel i (fun c => { c with staged := c.desc }) m) m) s)

/-- Change the rings of an MX or SF site. -/
def modRings (n : Nat) (f : Tab Ring → Tab Ring) (s : State) : State :=
  if kindOf n = .mx then modMx n (fun x => { x with rings := f x.rings }) s else modSf n (fun x => { x with rings := f x.rings }) s

/-- The SRAM rows of an MX or SF site. -/
def ringRows (n : Nat) : Nat := if kindOf n = .mx then 1536 else 512

/-- A write of XS_STAGE (R373, R492). -/
def writeXsStage (n v : Nat) (s : State) : RegOut :=
  if siteLive s n then refused .live s
  else
    let k := ringCount n
    let r := fun i => look default (siteRings s n) i
    let sel := (List.range 16).filter (bit v)
    let want := (List.range k).map fun i => if bit v i then (r i).staged else (r i).desc
    if (sel.all fun i => decide (i < k)) && ringSetOk (ringRows n) want then
      wrote (modRings n (fun t => sel.foldl (fun t i => alter default t i fun x => x.apply x.staged) t) s)
    else refused .rej (modRings n (fun t => (sel.filter (· < k)).foldl (fun t i => alter default t i fun x => { x with staged := x.desc }) t) s)

/-- Does the running draft use a sub-bank: an enabled creel lies in it (log 45)? -/
def subUsed (s : State) (n b : Nat) : Bool :=
  siteLive s n && (List.range 16).any fun i => let d := (creelAt (mmAt s n) i).desc; decide (crMode d ≠ 0) && decide (crSub d = b)

/-- The state a sub-bank is in or is going to. -/
def subTarget (x : SubBank) : Nat := match x.req with | some (t, _) => t | none => if x.waking.isSome then 0 else x.power

/-- A write of MM_PWR (R146, R147): requests, and FORCE of pending ones. -/
def writeMmPwr (n v : Nat) (s : State) : RegOut :=
  let m := mmAt s n
  let want := fun b => bits v (2 * b + 1) (2 * b)
  let changed := (List.range 4).filter fun b => decide (want b ≠ subTarget (subAt m b))
  let forced := (List.range 4).filter fun b => bit v (8 + b)
  if (List.range 4).any fun b => want b == 3 then refused .range s
  else if (changed ++ forced).any (subUsed s n) then refused .live s
  else
    let s := modMm n (fun m => { m with pwrReq := v % 256 }) s
    let s := each changed (fun b s => subRequest n b (want b) s) s
    wrote (each forced (fun b s => subChange n b s) s)

/-- A write of MM_INJ (R141). -/
def writeMmInj (n v : Nat) (s : State) : RegOut :=
  if s.sec.dbgEn.val = 0 then refused .locked s
  else if 35 < bits v 13 8 ∨ (bit v 1 ∧ 35 < bits v 7 2) ∨ 6143 < bits v 28 16 then refused .range s
  else if !bit v 31 then wrote s
  else
    let j : Inj := { sub := bits v 30 29, row := bits v 28 16, cell := bits v 15 14, sym1 := bits v 13 8, sym2 := bits v 7 2, two := bit v 1 }
    wrote (modMm n (fun m => { m with inj := some j }) s)

/-- The sub-bank and row MM_RADDR names. -/
def raSub (m : Mm) : Nat := bits m.raddr 14 13
def raRow (m : Mm) : Nat := bits m.raddr 12 0

/-- The sixteen words of a row. -/
def rowWords (d : List Byte) : Tab W32 := (List.range 16).foldl (fun t w => put 0 t w (BitVec.ofNat 32 (fld d (4 * w) 4))) []

/-- A read of MM_RDATA_0 (R150): the row into all sixteen words; a running job's site refuses it. -/
def readRdata (n : Nat) (s : State) : RegOut :=
  if optRuns s (areaOfSite s n) then refused .live s
  else
    let m := mmAt s n
    if (subAt m (raSub m)).power ≠ 0 then
      wrote (modMm n (fun m => { m with rsour := true, rdata := rowWords (List.replicate 64 0xFF) }) s)
    else
      let x := mmQuietRead n (raSub m) (raRow m) s
      wrote (modMm n (fun m => { m with rsour := x.2.1, rdata := rowWords x.1 }) x.2.2)

/-- A write of MM_RDATA_w (R150): word 15 writes the row as a clean grain. -/
def writeRdata (n w v : Nat) (s : State) : RegOut :=
  if siteLive s n then refused .live s
  else
    let s := modMm n (fun m => { m with rdata := put 0 m.rdata w (BitVec.ofNat 32 v) }) s
    let m := mmAt s n
    if w ≠ 15 ∨ (subAt m (raSub m)).power ≠ 0 then wrote s
    else wrote (modMm n (mmWrite (raSub m) (raRow m) 0 ((List.range 16).flatMap fun i => leBytes 4 (look 0 m.rdata i).toNat) false) s)

/-- A write of one word of a store of 16-bit entries, whose bits below `low` are reserved and keep no value (R9). -/
def putPacked {n : Nat} (low : Nat) (t : Tab (BitVec n)) (base i len v : Nat) : Tab (BitVec n) :=
  if i + 1 < len then put 0 (put 0 t (base + i) (BitVec.ofNat n (v % 2 ^ 16 / low * low))) (base + i + 1) (BitVec.ofNat n (v / 2 ^ 16 / low * low)) else t

/-- A write of a program word. -/
def putProg (n b a v : Nat) (s : State) : State :=
  if progLen n ≤ a then s
  else match kindOf n with
    | .mx => modMx n (fun x => { x with prog := put 0 x.prog (256 * b + a) (BitVec.ofNat 64 v) }) s
    | .sf => modSf n (fun x => { x with prog := put 0 x.prog (1024 * b + a) (BitVec.ofNat 64 v) }) s
    | .su => modSu n (fun x => { x with prog := put 0 x.prog (512 * b + a) (BitVec.ofNat 64 v) }) s
    | .mm => s

/-- A write to the stores of a site block (R81, R152, R368). -/
def putStore (n o v : Nat) (s : State) : State :=
  if o < 0xB000 then
    let k := (o - 0x1000) / 0x1000
    let q := o % 0x1000
    let base := 5 * (k % 2) + k / 2
    if q < 0x800 then modSw n (fun w => { w with weave := putPacked 8 w.weave (base * 1024) (q / 2) 1024 v }) s
    else if q < 0x900 then modSw n (fun w => { w with pages := put 0 w.pages (base * 64 + (q - 0x800) / 4) (BitVec.ofNat 32 (v % 2 ^ 21)) }) s
    else s
  else if o < 0xC000 then
    (if kindOf n = .su then s
     else modSw n (fun w => { w with tokens := putPacked 1 w.tokens ((o - 0xB000) / 0x800 * 1024) (o % 0x800 / 2) 1024 v }) s)
  else if kindOf n = .mm then
    let b := (o - 0xC000) / 0x1000
    let q := o % 0x1000
    if 2 ≤ b then s
    else if q < 0x800 then modMm n (fun m => { m with pull := putPacked 16 m.pull (b * 1024) (q / 2) 1024 v }) s
    else if q < 0x900 then modMm n (fun m => { m with pages := put 0 m.pages (b * 64 + (q - 0x800) / 4) (BitVec.ofNat 32 (v % 2 ^ 21)) }) s
    else s
  else putProg n ((o - 0xC000) / 0x2000) (o % 0x2000 / 8) v s

/-- A write to a site block at the register's offset. -/
def writeSite (n o v : Nat) (s : State) : RegOut :=
  if 0x1000 ≤ o then unlessLive (siteLive s n) (putStore n o v) s
  else match kindOf n with
    | .mm =>
      if within 0x100 0x17F o then
        if !siteLive s n && !creelWriteOk (BitVec.ofNat 64 v) then refused .range s
        else unlessLive (siteLive s n) (modMm n (modCreel ((o - 0x100) / 8) fun c => { c with staged := BitVec.ofNat 64 (v / 2 ^ 26 * 2 ^ 26) })) s
      else if o = 0x200 then writeMmStage n v s
      else if o = 0x300 then writeMmPwr n v s
      else if o = 0x3C0 then writeMmInj n v s
      else if o = 0x800 then (if 6143 < bits v 12 0 then refused .range s else wrote (modMm n (fun m => { m with raddr := v % 2 ^ 15 }) s))
      else if within 0x840 0x87F o then writeRdata n ((o - 0x840) / 4) v s
      else wrote s
    | .su => wrote s
    | _ =>
      if within 0x100 0x17F o ∧ (o - 0x100) / 8 < ringCount n then
        if !siteLive s n && decide (ringRows n ≤ rgBase (BitVec.ofNat 64 v)) then refused .range s
        else unlessLive (siteLive s n) (modRings n fun t => alter default t ((o - 0x100) / 8) fun r => { r with staged := BitVec.ofNat 64 (v % 2 ^ 64 / 2 ^ 41 * 2 ^ 41) }) s
      else if o = 0x200 then writeXsStage n v s
      else wrote s

/-! ## Port and hub registers -/

/-- A write of SHT_CTL (R290, R299). -/
def writeShtCtl (p v : Nat) (s : State) : RegOut :=
  if optJob s (areaOfAtt s (32 + p)) then refused .live s
  else
    let s := modSht p (fun x => { x with ctl := v % 4 }) s
    wrote (if bit v 0 ∧ (shtAt s p).state ≠ 0 then portDown p s else s)

/-- A write of FAB_ROUTE_d (R310): the entries of the own id and of 0xFFF take none. -/
def writeRoute (d v : Nat) (s : State) : State :=
  if d = 0xFFF ∨ (idAssigned s ∧ d = devId s) then s
  else { s with fab := { s.fab with route := put 0 s.fab.route d (bits v 31 30 * 2 ^ 30 + bits v 26 16 * 2 ^ 16) } }

/-- A write to the hub's registers. -/
def writeHub (o v : Nat) (s : State) : RegOut :=
  if within 0x2000 0x207F o ∧ o % 8 = 0 then wrote (modAreg ((o - 0x2000) / 8) (fun g => { g with skpCtl := v }) s)
  else if o = 0x3004 then wrote { s with fab := { s.fab with noauto := bit v 2, rmawr := bit v 1, rmard := bit v 0 } }
  else if within 0x4000 0x7FFF o then wrote (writeRoute ((o - 0x4000) / 4) v s)
  else wrote s

/-! ## The indirect windows (R363-R366) -/

/-- IDX_STAT bits. -/
def stErr : Nat := 1
def stTmo : Nat := 2
def stNxu : Nat := 4

/-- The IDX_STAT bit that records a refusal (R360): a reserved or out-of-range value sets ERR. -/
def RegCode.stat : RegCode → Nat
  | .live => 8
  | .locked => 16
  | .rej => 32
  | .range => 1
  | .badAccess => 1

/-- Write the register of a unit. -/
def writeUnit (u : IdxUnit) (v : Nat) (s : State) : RegOut :=
  match u with
  | .site n o => writeSite n o v s
  | .port p o => if o = 4 then writeShtCtl p v s else wrote s
  | .hub o => writeHub o v s
  | _ => wrote s

/-- Does an access of this width fail R366 at an index? -/
def misaligned (idx : Nat) (w64 : Bool) (width : Nat) (write : Bool) : Bool :=
  decide (idx % 4 ≠ 0) || (w64 && (decide (idx % 8 ≠ 0) || decide (width = 32))) || (!w64 && write && decide (width = 64))

/-- What an access of an absent unit sets: NXU (R4), and ERR where its index is misaligned as well (R366; DEDUCED, log 47). -/
def absentStat (idx : Nat) (w64 : Bool) : Nat := stNxu + (if idx % 4 ≠ 0 ∨ (w64 ∧ idx % 8 ≠ 0) then stErr else 0)

/-- IDX_STAT with bits set in ACLK t. -/
def Window.note (t b : Nat) (x : Window) : Window := { x with stat := x.stat ||| b, hwSet := noteSet t b x.hwSet }

/-- An indirect write: the IDX_STAT bits it sets, and the state. -/
def idxWrite (idx site : Nat) (w64 : Bool) (v : Nat) (s : State) : Nat × State :=
  let u := idxUnit s idx site
  if u = .absent then (absentStat idx w64, s)
  else if u = .bad ∨ misaligned idx w64 (unitReg s u).width true then (stErr, s)
  else match writeUnit u v s with
    | (none, s) => (0, s)
    | (some c, s) => (c.stat, s)

/-- An indirect read: IDX_STAT bits, data (none where the manual gives none), state. A read of MM_RDATA_0 reads its row. -/
def idxRead (idx site : Nat) (w64 : Bool) (s : State) : Nat × Option Nat × State :=
  let u := idxUnit s idx site
  let w := (unitReg s u).width
  if u = .absent then (absentStat idx w64, some 0, s)
  else if u = .bad ∨ misaligned idx w64 w false then (stErr, none, s)
  else
    let isData : Bool := match u with | .site n o => decide (kindOf n = .mm) && within 0x840 0x87F o | _ => false
    let first : Bool := match u with | .site n o => isData && decide (o = 0x840) && decide (kindOf n = .mm) | _ => false
    let n := match u with | .site n _ => n | _ => 0
    let r := if first then readRdata n s else if isData && optRuns s (areaOfSite s n) then refused .live s else wrote s
    match r with
    | (some c, s) => (c.stat, none, s)
    | (none, s) =>
      let s := each (unitTri u) vote s
      let v := (unitReg s u).val
      (0, some (if w64 then v else if w = 64 then v / 2 ^ (32 * ((idx / 4) % 2)) % 2 ^ 32 else v), s)

/-- After every data access INDEX or IDX_SITE advances (R365). -/
def Window.advance (w : Window) : Window :=
  if bit w.ctrl 3 then { w with site := (w.site + 1) % 2 ^ 18 }
  else { w with addr := w.addr / 2 ^ 28 * 2 ^ 28 + (w.addr % 2 ^ 28 + [0, 4, 8, 0].getD (w.ctrl % 4) 0) % 2 ^ 28 }

/-- A read of IDX_DATA_LO (R363). Where the manual gives the access no data it is a free value (log 46). -/
def idxDataRead (port w : Nat) (s : State) : State :=
  let x := winAt s w
  let w64 := bit x.ctrl 2
  let r := idxRead x.addr x.site w64 s
  let d := match r.2.1 with | some v => (v, r.2.2) | none => freshValue r.2.2
  let s := modWin w (fun x => (({ x with
    lo := d.1 % 2 ^ 32, hi := if w64 then d.1 / 2 ^ 32 % 2 ^ 32 else x.hi } : Window).note s.up r.1).advance) d.2
  modPort port (fun x => { x with readData := d.1 % 2 ^ 32 }) s

/-- A write of IDX_DATA_LO (R363). -/
def idxDataWrite (w v : Nat) (s : State) : State :=
  let x := winAt s w
  let w64 := bit x.ctrl 2
  let r := idxWrite x.addr x.site w64 (v % 2 ^ 32 + (if w64 then x.hi * 2 ^ 32 else 0)) s
  modWin w (fun x => (({ x with lo := v % 2 ^ 32 } : Window).note s.up r.1).advance) r.2

/-- IDX_DATA_READ. -/
def execIdxDataRead (port window : Nat) (s : State) : Out := guardUnit (decide (port < 2) && decide (window < 4)) (idxDataRead port window) s

/-- IDX_DATA_WRITE. -/
def execIdxDataWrite (port window value : Nat) (s : State) : Out := guardUnit (decide (port < 2) && decide (window < 4)) (idxDataWrite window value) s

/-- IDX_ACCESS_TIMEOUT (R364): a read answers all ones; whether an abandoned write was performed is a free value. -/
def execIdxAccessTimeout (window : Nat) (write : Option Nat) (s : State) : Out :=
  guardUnit (decide (window < 4)) (fun s =>
    let w64 := bit (winAt s window).ctrl 2
    let s := match write with
      | none => modWin window (fun x => { x with lo := 2 ^ 32 - 1, hi := if w64 then 2 ^ 32 - 1 else x.hi }) s
      | some v =>
        let f := freshValue s
        let x := winAt s window
        let s := modWin window (fun x => { x with lo := v % 2 ^ 32 }) f.2
        if f.1 % 2 = 1 then (idxWrite x.addr x.site w64 (v % 2 ^ 32 + (if w64 then x.hi * 2 ^ 32 else 0)) s).2 else s
    count 0x1D06 hubIdx 1 (modWin window (fun x => (x.note s.up stTmo).advance) s)) s

/-- An access of one register through a window: a refusal sets the window's IDX_STAT (R360, log 47). -/
def throughWindow (w idx site v : Nat) (s : State) : State :=
  let r := idxWrite idx site false v s
  modWin w (Window.note s.up r.1) r.2

/-- A register write of a site through a window. -/
def siteWindow (w n off v : Nat) (s : State) : Out := guardUnit (decide (w < 4)) (throughWindow w off n v) s

/-- MM_STAGE_APPLY (R122). -/
def execMmStageApply (window site value : Nat) (s : State) : Out := siteWindow window site 0x200 value s

/-- XS_STAGE_APPLY (R492). -/
def execXsStageApply (window site value : Nat) (s : State) : Out := siteWindow window site 0x200 value s

/-- MM_INJ_WRITE (R141). -/
def execMmInjWrite (window site value : Nat) (s : State) : Out := siteWindow window site 0x3C0 value s

/-- MM_RDATA_READ (R150): a read of MM_RDATA_0 through a window. -/
def execMmRdataRead (window site : Nat) (s : State) : Out :=
  guardUnit (decide (window < 4)) (fun s =>
    let r := idxRead 0x840 site false s
    modWin window (Window.note s.up r.1) r.2.2) s

/-- MM_RDATA_WRITE (R150): a write of MM_RDATA_15 through a window. -/
def execMmRdataWrite (window site value : Nat) (s : State) : Out := siteWindow window site 0x87C value s

/-- The sub-bank entries of the POWER record: class, OFF, site, sub-bank, state (R388). -/
def subEntries (s : State) (a : Nat) : List (Nat × Nat × Nat × Nat × Nat) :=
  match recOf s a 0x0D areaTarget with
  | none => []
  | some r =>
    let d := r.data
    (List.range (fld d 0 4)).map fun i =>
      let o := 16 + 16 * i
      (fld d o 2, fld d (o + 2) 4, bits (fld d (o + 6) 4) 17 0, fld d (o + 10) 1 % 4, fld d (o + 11) 1 % 4)

/-- The next sub-bank entries of a site in the running step take effect at their pick (R388). -/
def planPower (n a : Nat) (st : Step) (s : State) : State :=
  let l := (subEntries s a).filter fun e => decide (some e.1 = stepClass s a st.k) && decide (e.2.2.1 = n) && decide (s.now ≤ 8 * (st.s + e.2.1))
  match l.foldl (fun (m : Option Nat) e => match m with | none => some e.2.1 | some y => some (min e.2.1 y)) none with
  | none => s
  | some o => each (l.filter fun e => decide (e.2.1 = o)) (fun e s => subRequest n e.2.2.2.1 e.2.2.2.2 s) (toPick (st.s + o) s)

/-- MM_PWR_REQUEST (R146, R388): by a host through a window, or by the power plan of the running step. -/
def execMmPwrRequest (window : Option Nat) (site value : Nat) (s : State) : Out :=
  match window with
  | some w => siteWindow w site 0x300 (value % 256) s
  | none => onSite .mm site (fun s => match areaOfSite s site with
      | none => s
      | some a => match curStep s a with
        | some st => if jobRuns s a then planPower site a st s else s
        | none => s) s

/-- MM_PWR_FORCE (R147): FORCE bits (11:8 of the value) beside the requests in force. -/
def execMmPwrForce (window site value : Nat) (s : State) : Out :=
  guardUnit (decide (window < 4)) (fun s =>
    let m := mmAt s site
    let keep := (List.range 4).foldl (fun v b => v + subTarget (subAt m b) * 2 ^ (2 * b)) 0
    throughWindow window 0x300 site (bits value 11 8 * 2 ^ 8 + keep) s) s

/-- SHT_CTL_WRITE (R290, R299). -/
def execShtCtlWrite (window p value : Nat) (s : State) : Out := guardUnit (decide (window < 4)) (throughWindow window (portIdx p + 4) 0 value) s

/-- FAB_ROUTE_WRITE (R310). -/
def execFabRouteWrite (window d value : Nat) (s : State) : Out :=
  guardUnit (decide (window < 4) && decide (d < 4096)) (throughWindow window (hubIdx + 0x4000 + 4 * d) 0 value) s

/-! ## BAR0 writes (R358-R361) -/

/-- Record a refused BAR0 write in RAS_REGERR_p (R360). -/
def regErr (p off : Nat) (c : RegCode) (s : State) : State :=
  modPort p (fun x => if x.regerrValid then { x with regerrOvf := true, regerrSet := noteSet s.up 2 x.regerrSet }
    else { x with regerrValid := true, regerrCode := c.code, regerrOff := off % 2 ^ 24, regerrSet := noteSet s.up 1 x.regerrSet }) s

/-- A post of a reserved opcode completes at once: BAD_HEADER for a malformed header, else BAD_OPCODE (R338, R341; log 30). -/
def refuseOpcode (p m : Nat) (s : State) : State :=
  let b := mbxAt s p m
  if opcodeKnown (hdrOpcode b.cmd) ∨ !postsTaken s then s
  else
    let s := modMbx p m (fun b => { b with state := 2 }) s
    if hdrSeq b.cmd ≠ b.seq ∨ 4064 < hdrPlen b.cmd ∨ !(hdrReservedOk b.cmd) then mbxDone p m mBadHeader s else mbxDone p m mBadOpcode s

/-- A write of MBX_POST_m (R336, R337). -/
def mbxPost (p m v : Nat) (s : State) : State :=
  if s.bru.drst ∨ within 1 2 (mbxAt s p m).state then count 0x1905 p 1 s
  else refuseOpcode p m (modMbx p m (fun b => { b with state := 1, seq := v / 2 ^ 16 }) s)

/-- A write of HPC registers. -/
def writeHpc (p off v : Nat) (s : State) : State :=
  if off = 0x1010 then hpcAbort p v s
  else if off = 0x1014 then 
    modPort p (fun x =>
      let d := w1c s.up x.abortSet (x.abortDone + 2 ^ 30 * b2n x.abortHw) v
      { x with abortHw := bit d 30, abortDone := d % 65536 }) s
  else if off = 0x1020 then hpcDrst v s
  else if off = 0x1034 then modPort p (fun x => { x with evq := { x.evq with ci := v % 65536 } }) s
  else s

/-- A write of an indirect window's register. -/
def writeWin (w o v : Nat) (s : State) : RegOut :=
  if o = 0 then wrote (modWin w (fun x => { x with addr := v }) s)
  else if o = 4 then (if v % 4 = 3 then refused .range s else wrote (modWin w (fun x => { x with ctrl := v % 16 }) s))
  else if o = 8 then wrote (idxDataWrite w v s)
  else if o = 12 then wrote (modWin w (fun x => { x with hi := v }) s)
  else if o = 16 then wrote (modWin w (fun x => { x with site := v % 2 ^ 18 }) s)
  else if o = 20 then wrote (modWin w (fun x => { x with stat := w1c s.up x.hwSet x.stat (v % 64) }) s)
  else wrote s

/-- A write of the TIM block. -/
def writeTim (off v : Nat) (s : State) : RegOut :=
  let t := s.time
  if off = 0x30008 then
    if bit s.sec.lock.val 3 ∧ v % 16 ≠ t.prio.val then refused .locked s
    else wrote { s with time := { t with hold := bits v 15 12, eparm := bit v 8, prio := Tri.of (v % 16) } }
  else if off = 0x30018 then wrote { s with time := { t with epoch := t.epoch / 2 ^ 32 * 2 ^ 32 + v } }
  else if off = 0x3001C then wrote { s with time := { t with epoch := v * 2 ^ 32 + t.epoch % 2 ^ 32 } }
  else if off = 0x30020 then wrote { s with time := { t with period := v } }
  else wrote s

/-- A write of RAS_RISK_a (15): CEIL below FLOOR is refused. -/
def writeRisk (a v : Nat) (s : State) : RegOut :=
  if bits v 11 9 < bits v 8 6 then refused .range s else wrote (modAreg a (fun g => { g with floor := bits v 8 6, ceil := bits v 11 9 }) s)

/-- A write of the RAS block. -/
def writeRas (o v : Nat) (s : State) : RegOut :=
  if o = 0 ∨ o = 8 then wrote (modPort (o / 8) (fun x =>
      let d := w1c s.up x.regerrSet (b2n x.regerrValid + 2 * b2n x.regerrOvf) v
      { x with regerrValid := bit d 0, regerrOvf := bit d 1 }) s)
  else if within 0x200 0x23F o then writeRisk ((o - 0x200) / 4) v s
  else wrote s

/-- A write of SEC_LOCK (R370): ones set bits. -/
def writeLock (v : Nat) (s : State) : State := { s with sec := { s.sec with lock := Tri.of (s.sec.lock.val ||| v % 32) } }

/-- A write of PMON_SEL_w goes to the shadow. -/
def writePmon (off v : Nat) (s : State) : State :=
  if off % 0x1000 ≠ 0 then s
  else shadowWrite (off / 0x10000) (fun s => { s with mod := { s.mod with pmon := alter default s.mod.pmon ((off - 0x100000) / 0x1000) fun x => { x with shadow := some (v % 2 ^ 14 + bits v 31 31 * 2 ^ 31) } } }) (shadowDue (off / 0x10000) s)

/-- A write of one 32-bit register of BAR0 by port p. -/
def barWrite32 (p off v : Nat) (s : State) : RegOut :=
  if within 0x1000 0x1FFF off then wrote (writeHpc p off v s)
  else if within 0x2000 0x207F off then (if off % 16 = 0 then wrote (mbxPost p ((off - 0x2000) / 16) v s) else wrote s)
  else if within 0x10000 0x100FF off then writeWin ((off - 0x10000) / 0x40) (off % 0x40) v s
  else if off = 0x20000 ∨ off = 0x20008 then wrote (modPort ((off - 0x20000) / 8) (fun x => { x with irqMask := v % 256 / 2 * 2 }) s)
  else if within 0x30000 0x30FFF off then writeTim off v s
  else if off = 0x40000 then wrote { s with pwr := { s.pwr with stagedMax := bits v 24 16, stagedMin := bits v 8 0 } }
  else if off = 0x40008 then writeCap v s
  else if off = 0x40010 then writePwrStage v s
  else if off = 0x50000 then
    (if within 70 95 (v % 256) then wrote (shadowWrite 5 (fun s => { s with pwr := { s.pwr with shadowThrot := some (v % 256) } }) (shadowDue 5 s)) else refused .range s)
  else if within 0x60000 0x60FFF off then writeRas (off - 0x60000) v s
  else if off = 0x70000 then wrote (writeLock v s)
  else if within 0x80000 0x8063F off then (if off % 16 = 4 then writeCal ((off - 0x80000) / 16) v s else wrote s)
  else if within 0x100000 0x1FFFFF off then wrote (writePmon off v s)
  else wrote s

/-- The 32-bit write with its refusal recorded. -/
def barWrite (p off v : Nat) (s : State) : State :=
  match barWrite32 p off v s with
  | (none, s) => s
  | (some c, s) => regErr p off c s

/-- A BAR0 access of a host (R358): the register at the higher offset first. -/
def barAccess (p off size v : Nat) (s : State) : State :=
  if size = 4 ∧ off % 4 = 0 then barWrite p off (v % 2 ^ 32) s
  else if size = 8 ∧ off % 8 = 0 then barWrite p off (v % 2 ^ 32) (barWrite p (off + 4) (v / 2 ^ 32 % 2 ^ 32) s)
  else regErr p off .badAccess s

/-- Does a BAR0 offset name a register of the port that writes it, not one that both ports share? -/
def ownReg (off : Nat) : Bool := within 0x1000 0x2FFF off

/-- A host's BAR0 write. Where both ports write one common register in an ACLK port 0's write comes first: what port 1 wrote there already in this
ACLK is written again after it (R361). -/
def hostWrite (p off size v : Nat) (s : State) : State :=
  let t := s.up
  let s := barAccess p off size v s
  if p = 1 then modPort 1 (fun x => { x with writes := x.writes.filter (fun y => y.1 == t) ++ [(t, off, size, v)] }) s
  else if ownReg off then s
  else each ((portAt s 1).writes.filter fun y => y.1 == t && decide (y.2.1 < off + size) && decide (off < y.2.1 + y.2.2.1))
    (fun y => barAccess 1 y.2.1 y.2.2.1 y.2.2.2) s

/-- A write of BAR2 (R333): bytes of a command area; the response area takes none (log 49). -/
def bar2Write (p off size v : Nat) (s : State) : State :=
  if off % 0x2000 < 0x1000 then modMbx p (off / 0x2000) (fun b => { b with cmd := putBytes b.cmd (off % 0x2000) (leBytes size v) }) s else s

/-- REGISTER_WRITE (R357): a host's write of BAR0, of a command area in BAR2, or of the MSI-X table in BAR4. -/
def execRegisterWrite (port bar offset size value : Nat) (s : State) : Out :=
  guardUnit (decide (port < 2) && ((bar == 0 && decide (offset + size ≤ 2 ^ 24)) || ((bar == 2 || bar == 4) && decide (offset + size ≤ 2 ^ 16)))) (fun s =>
    if bar = 0 then hostWrite port offset size value s
    else if bar = 2 then bar2Write port offset size value s
    else if offset + size ≤ 0x8000 then modPort port (fun x => { x with msixTable := putBytes x.msixTable offset (leBytes size value) }) s
    else s) s

/-- SEC_LOCK_WRITE (R370). -/
def execSecLockWrite (port value : Nat) (s : State) : Out := atPort port (writeLock (value % 2 ^ 32)) s

/-- PWR_STAGE_APPLY (R373, R386). -/
def execPwrStageApply (port value : Nat) (s : State) : Out := atPort port (hostWrite port 0x40010 4 value) s

/-- CAL_USER_WRITE (R378). -/
def execCalUserWrite (port i value : Nat) (s : State) : Out := guardUnit (decide (port < 2) && decide (i < 100)) (hostWrite port (0x80004 + 16 * i) 4 value) s

/-- TIM_PICK_LO_READ (R358): the low word, with the high word latched for the port; an 8-byte read returns both. Other sizes
read all ones. -/
def execTimPickLoRead (port size : Nat) (s : State) : Out :=
  atPort port (fun s =>
    if size ≠ 4 ∧ size ≠ 8 then modPort port (fun x => { x with readData := 2 ^ (8 * size) - 1 }) s
    else
      let s := { s with time := { s.time with hiLatch := put 0 s.time.hiLatch port (s.pick / 2 ^ 32 % 2 ^ 32) } }
      modPort port (fun x => { x with readData := if size = 8 then s.pick % 2 ^ 64 else s.pick % 2 ^ 32 }) s) s

end Sys2Proof.Machine
end

