-- ==== Sys2Proof/Machine/BringUp.lean ====
section
/-! DEFINITION. Resets (R334, R336), the boot chain (R463-R465), bring-up (R412-R422), self-test, the fence map's commands and
repairs (R425-R432). -/
namespace Sys2Proof.Machine

/-! ## Rollback (R465) -/

/-- Blow fuse bits from bit i, none beyond what makes the counter the SVN; a bit that fails is followed by the next (R465): the counter, and the failures. -/
def blowFuses (svn : Nat) (bad : List Nat) : Nat → Nat → Nat → Nat × Nat
  | 0, _, c => (c, 0)
  | f + 1, i, c =>
    if svn ≤ i ∨ 64 ≤ i then (c, 0)
    else if bad.contains i then let x := blowFuses svn bad f (i + 1) c; (x.1, x.2 + 1)
    else blowFuses svn bad f (i + 1) (i + 1)

/-- ROLLBACK_FUSE_BLOW (R465). -/
def advanceRollback (bad : List Nat) (s : State) : State :=
  let g := slotImage s s.sec.slot
  if fwAdv g ∧ s.sec.rollback < fwSvn g then
    let x := blowFuses (fwSvn g) bad 64 s.sec.rollback s.sec.rollback
    countN 0x1C30 hubIdx x.2 { s with sec := { s.sec with rollback := x.1 } }
  else s

/-! ## Resets (R334) -/

/-- What a channel keeps: RATE, FAIL and MINM in flash; MARGIN and CE are POR fields. -/
def Channel.por (c : Channel) : Channel := { (default : Channel) with rate := c.rate, fail := c.fail, minm := c.minm }
def Channel.drst (c : Channel) : Channel := { c.por with margin := c.margin, ce := c.ce, raise := c.raise }

/-- A stack after a reset: its remap entries and what its channels keep. -/
def Stack.reset (f : Channel → Channel) (k : Stack) : Stack :=
  { (default : Stack) with remap := k.remap, chans := mapTab default (fun _ c => f c) k.chans }

/-- A region: VNOM in flash. -/
def Region.por (x : Region) : Region := { Region.reset with vnom := x.vnom, vset := x.vnom }
def Region.drst (x : Region) : Region := { Region.reset with vnom := x.vnom, vset := x.vset, vstate := x.vstate, on := x.on }

/-- A host port: its host and what it has been sent. -/
def Port.por (x : Port) : Port := { (default : Port) with msix := x.msix, mem := x.mem }
def Port.drst (x : Port) : Port := { x.prst with msixTable := x.msixTable, irqMask := 0, regerrCode := 0, regerrOff := 0, regerrValid := false, regerrOvf := false }

/-- The owner hash and the keys in fuses and flash, and the positions the trees resume at (R470, R471). -/
def Sec.por (c : Sec) : Sec :=
  { (default : Sec) with
    owner := c.owner.map fun t => Tri.of t.val
    rollback := c.rollback, rootKey := c.rootKey, dbgKey := c.dbgKey, topFuse := c.topFuse, slots := c.slots, pref := c.pref
    top := max c.topQ (16384 * c.topFuse), bottom := c.bottomQ, topQ := c.topQ, bottomQ := c.bottomQ }

/-- The newer fence map in flash, or an empty map until stage 4. -/
def flashFence (s : State) : Fence := (flashNewer s).getD default

/-- The module after a power-on reset: what flash and straps hold. -/
def Module.por (m : Module) (feedId rackPos : Nat) : Module :=
  { Module.reset with
    member := m.member, pciId := pciDevice m.member, fwver := m.fwver, stepping := m.stepping, serial := m.serial, feedId := feedId % 256, rackPos := rackPos % 65536
    refDraft := m.refDraft, flash0 := m.flash0, flash1 := m.flash1
    cal := m.cal.filterMap fun kv => if kv.2.fact = (calReset kv.1).fact then none else some (kv.1, { kv.2 with user := 0, eff := kv.2.fact, due := none }) }

/-- POWER_ON_RESET (R334): everything resets; flash, fuses and what lies outside the module are kept (log 5). -/
def powerOn (feedId rackPos : Nat) (s : State) : State :=
  { State.reset with
    pending := s.pending
    up := s.up
    freeCtr := s.freeCtr
    sent := s.sent
    ports := mapTab default (fun _ x => x.por) s.ports
    mm := mapTab default (fun _ m => { (default : Mm) with remap := m.remap }) s.mm
    stks := mapTab default (fun _ k => k.reset Channel.por) s.stks
    fab := { Fabric.reset with id := Tri.of s.fab.id.val }
    regions := mapTab Region.reset (fun _ x => x.por) s.regions
    pwr := Power.reset s.member
    fence := flashFence s
    bru := { (default : BringUp) with everUp := s.bru.everUp }
    ras := { (default : Ras) with adjust := s.ras.adjust }
    sec := s.sec.por
    mod := s.mod.por feedId rackPos }

/-- POWER_ON_RESET: power is applied or power-good was lost. -/
def execPowerOnReset (feedId rackPos : Nat) (s : State) : Out := .next (powerOn feedId rackPos s)

/-- The power registers DRST keeps (POR fields), the feeds and the time since one returned. -/
def Power.drst (p : Power) (m : Nat) : Power :=
  { Power.reset m with
    pmax := p.pmax, pmin := p.pmin, stagedMax := p.pmax.val, stagedMin := p.pmin.val, cap := p.cap, eff := p.cap.val
    presA := p.presA, presB := p.presB, backAt := p.backAt, oneFeed := p.oneFeed }

/-- What DRST resets and keeps (R334, R337): links, MSI-X and host memory, POR fields, flash. -/
def deviceReset (feedId rackPos : Nat) (s : State) : State :=
  refreshPins (recap { s with
    ports := mapTab default (fun _ x => x.drst) s.ports
    wins := [], areas := [], aregs := [], sw := [], mx := [], sf := [], su := [], att := [], sht := [], bulk := [], remote := []
    mm := mapTab default (fun _ m => { (default : Mm) with remap := m.remap }) s.mm
    stks := mapTab default (fun _ k => k.reset Channel.drst) s.stks
    fab := { Fabric.reset with id := s.fab.id }
    regions := mapTab Region.reset (fun _ x => x.drst) s.regions
    pwr := s.pwr.drst s.member
    bru := { s.bru with stage := 2, ready := false, drst := true }
    ras := { (default : Ras) with adjust := s.ras.adjust }
    sec := { s.sec with lock := Tri.of 0, dbgEn := Tri.of 0, challenge := none }
    mod := { s.mod with pmon := [], shadowAt := [], feedId := feedId % 256, rackPos := rackPos % 65536 } })

/-- DEVICE_RESET_DRST (R334): the DRST a host has asked for. -/
def execDeviceResetDrst (feedId rackPos : Nat) (s : State) : Out := .next (if s.bru.drst then deviceReset feedId rackPos s else s)

/-! ## Bring-up (R412-R421) -/

/-- Fitted regions. -/
def fittedRegions (s : State) : List Nat := List.range (numRegions s.member)

/-- REGION_POWER_WAVE (R413, R414): every region comes up, or is isolated. -/
def powerWave (bad : List Nat) (s : State) : State :=
  each (fittedRegions s) (fun r => modRegion r fun x =>
    if bad.contains r then { x with vstate := 2, on := false } else { x with vstate := 0, on := true, vset := x.vnom }) s

/-- Sites of a test's outcome that lie in powered regions of a set. -/
def testedSites (s : State) (inSet : Nat → Bool) (l : List SiteFailure) : List SiteFailure :=
  l.filter fun f => sitePresent s.member f.site && inSet (powerRegion f.site) && (regionAt s (powerRegion f.site)).on

/-- HBM_CH_c.RATE and FAIL of every channel as the map in flash gives them (08, R424). -/
def loadChannels (l : Tab Nat) (s : State) : State :=
  let s := { s with stks := mapTab default (fun _ k => { k with chans := mapTab default (fun _ c => { c with rate := Tri.of 0, fail := Tri.of 0 }) k.chans }) s.stks }
  each l (fun e => modStack (e.1 / 32) (modChan (e.1 % 32) fun c => { c with rate := Tri.of (e.2 % 4), fail := Tri.of (e.2 / 4 % 2) })) s

/-- FENCE_MAP_BUILD (R416, R425): the copies of flash, the map loaded, the failures merged, and written back. Without a valid
copy bring-up fails. -/
def buildFence (bad : List Nat) (sites : List SiteFailure) (s : State) : Option State :=
  match flashNewer s with
  | none => none
  | some f =>
    let one := !(s.mod.flash0.valid && s.mod.flash1.valid)
    let s := loadChannels f.chans { s with fence := f }
    let s := each ((fittedRegions s).filter fun r => decide (look 0 f.regions r = 1 ∧ (regionAt s r).tstate < 2)) (fun r => modRegion r fun x => { x with tstate := 2 }) s
    let s := if one then count 0x1D24 hubIdx 1 s else s
    let s := each (bad.filter (· < numRegions s.member)) (fun r => fenceRegion r 3) s
    let s := each (testedSites s (fun _ => true) sites) (fun f => fenceFailure f f.cause) s
    let s := flashWrite s
    some (if one then flashWrite s else s)

/-- One channel's full training (R418): a recorded rate is never raised; one that fails at 6.4 Gb/s is recorded as failed. -/
def trainChannel (t : ChannelTraining) (s : State) : State :=
  if !stackPresent s.member t.stack ∨ 32 ≤ t.ch then s
  else
    let c := chanAt (stackAt s t.stack) t.ch
    let s := modStack t.stack (modChan t.ch fun x => { x with margin := t.margin % 32 }) s
    match t.rate with
    | some r => setChannel t.stack t.ch (max c.rate.val (min 2 r)) (chanFailed (stackAt s t.stack) t.ch) s
    | none => setChannel t.stack t.ch 2 true s

/-- STACK_TRAINING (R418). -/
def trainStacks (l : List ChannelTraining) (s : State) : State :=
  let s := each l trainChannel s
  each ((List.range 32).filter (stackPresent s.member)) (fun k => modStack k fun x => { x with trained := true }) s

/-- OPTICAL_ENGINE_ENABLE (R419). -/
def enableEngines (bad : List Nat) (s : State) : State :=
  each ((List.range 32).filter (portPresent s.member)) (fun p => modSht p fun x => { x with engineOff := bad.contains (p / 2) }) s

/-- Is a region isolated (R413, R449, R451): after a short in the map, or its regulator ISOLATED (log 57)? -/
def isolated (s : State) (r : Nat) : Bool := decide (look 0 s.fence.regions r = 2) || decide ((regionAt s r).vstate = 2)

/-! ### The spanning tree of stage 8 (R420), over bitmaps in which bit n stands for site n -/

/-- The sites of a list. -/
def siteMap (l : List Nat) : Nat := l.foldl (fun b n => b ||| 2 ^ n) 0

/-- The sites of columns x0 to x0 + w - 1 and rows y0 to y0 + h - 1. -/
def rectMap (x0 w y0 h : Nat) : Nat := (List.range h).foldl (fun b i => b ||| (2 ^ w - 1) <<< (512 * (y0 + i) + x0)) 0

/-- The sites of the first map that are not in the second. -/
def mapDiff (a b : Nat) : Nat := a ^^^ (a &&& b)

/-- The fitted sites whose region is powered and whose switch is in service. -/
def treeSites (s : State) : Nat :=
  let off := (fittedRegions s).filter fun r => !(regionAt s r).on || decide (look 0 s.fence.regions r = 2)
  let dark := off.foldl (fun b r => b ||| rectMap (128 * regionPc r) 128 (28 * regionPr r) 28) 0
  mapDiff (mapDiff (rectMap 0 (gridCols s.member) 0 (gridRows s.member)) dark) (siteMap ((s.fence.sites.filter fun e => bit e.2 14).map Prod.fst))

/-- The sites whose link leaving output port p is out of service. -/
def linkMap (s : State) (p : Nat) : Nat := siteMap ((s.fence.sites.filter fun e => bit e.2 (8 + p)).map Prod.fst)

/-- One link further in each direction from the sites of r. -/
def treeStep (s : State) (ok n e w so r : Nat) : Nat :=
  let away := fun off edge => mapDiff (mapDiff r off) edge
  ok &&& (r ||| away n 0 >>> 512 ||| away e (rectMap (gridCols s.member - 1) 1 0 (gridRows s.member)) <<< 1
    ||| away so 0 <<< 512 ||| away w (rectMap 0 1 0 (gridRows s.member)) >>> 1)

/-- The step until it adds nothing. -/
def treeGrow (step : Nat → Nat) : Nat → Nat → Nat
  | 0, r => r
  | f + 1, r => let r' := step r; if r' = r then r else treeGrow step f r'

/-- The edge sites at which the tree is rooted, with the port that faces the attachment: hub edge links 0-3, or with region 0
isolated the links of the lowest-numbered attachment whose region is in use (R420, R450). -/
def treeRoots (s : State) : List (Nat × Nat) :=
  let free := (List.range 64).find? fun t => attPresent s.member t && decide (look 0 s.fence.regions (attRegion t) = 0)
  let a := if isolated s 0 then free.getD 64 else 64
  (List.range (attLinks a)).map (edgeSite a)

/-- The sites the tree reaches from its roots, avoiding every out-of-service switch and link. -/
def treeReach (s : State) : Nat :=
  let ok := treeSites s
  let n := linkMap s 0
  let e := linkMap s 1
  let so := linkMap s 2
  let w := linkMap s 3
  treeGrow (treeStep s ok n e w so) (512 * gridRows s.member) (ok &&& siteMap (((treeRoots s).filter fun x => linkOn s x.1 x.2).map Prod.fst))

/-- Is a switch, a link or a region out of service? Otherwise the tree reaches every site. -/
def treeBroken (s : State) : Bool :=
  s.fence.sites.any (fun e => decide (bits e.2 11 8 ≠ 0) || bit e.2 14)
  || (fittedRegions s).any fun r => !(regionAt s r).on || decide (look 0 s.fence.regions r = 2)

/-- MICROCODE_LOAD (R420): a site that the tree does not reach is fenced with cause 0x13, one whose copy fails with its own. -/
def microcodeLoad (bad : List SiteFailure) (s : State) : State :=
  let miss := if treeBroken s then mapDiff (treeSites s) (treeReach s) else 0
  let lost := if miss = 0 then [] else (List.range (512 * gridRows s.member)).filter fun n => miss.testBit n && !(bit (look 0 s.fence.sites n) 15)
  let s := each lost (fun n => fenceSite n 0x13 false false) s
  each ((testedSites s (fun _ => true) bad).filter fun f => !miss.testBit f.site) (fun f => fenceSite f.site f.cause f.swOff f.unreach) s

/-- The word of the whole device, with the area nibble of an image (R421). -/
def deviceWord (m a : Nat) : Nat := (if m = 8 then 15 else 7) * 2 ^ 12 + (if m = 2 then 1 else 3) * 2 ^ 6 + a

/-- Does the reference draft in flash fit the fence map (R421)? -/
def refCovered (s : State) : Bool :=
  let g := s.mod.refDraft
  headerOk g && (fenceCheck s (deviceWord s.member (dArea g % 16)) g (((imageRecs g).getD []).find? fun r => r.type == 0x11)).isSome

/-- REFERENCE_RUN (R421). -/
def referenceRun (differ : List SiteFailure) (again : Bool) (s : State) : State :=
  let set := fun (stale fail : Bool) (s : State) => { s with bru := { s.bru with refStale := stale, refFail := fail } }
  if !refCovered s then count 0x1D22 hubIdx 1 (set true false s)
  else if differ.isEmpty then set false false s
  else
    let s := each differ (fun f s => fenceSite f.site 0x15 f.swOff false (count 0x4C11 f.site 1 s)) s
    if again || !refCovered s then reportUnit 0x1D23 hubIdx (set false true s) else set false false s

/-- Write the map to flash if it has changed since. -/
def flashIfChanged (s : State) : State := if (flashNewer s) = some s.fence then s else flashWrite s

/-- Bring-up completes: READY, the fallback event, the fuses. -/
def bringUpDone (o : BringUpOutcome) (boot : Bool) (s : State) : State :=
  let first := !s.bru.ready
  let s := { s with bru := { s.bru with stage := 9, ready := true, fatal := false, drst := false, everUp := true, elapsed := min o.elapsed 0xFFFF } }
  let s := if boot && s.sec.fallback then reportUnit 0x1C31 hubIdx s else s
  refreshPins (if first then advanceRollback o.fusesFailed s else s)

/-- Bring-up ends with RAS_BRINGUP_FAIL: READY stays 0 (R412). -/
def bringUpFail (stage : Nat) (s : State) : State :=
  reportUnit 0x7D30 hubIdx { s with bru := { s.bru with stage := stage, fail := true, drst := false } }

/-- Stages 3 to 9. -/
def bringUpFrom3 (o : BringUpOutcome) (boot : Bool) (s : State) : State :=
  let bad := if boot then o.regionsFailed else []
  match buildFence bad o.sitesFailed s with
  | none => bringUpFail 3 s
  | some s =>
    let s := each o.crossingsFailed (fun x => fenceLink x.1 x.2 0x12) s
    let s := enableEngines o.enginesFailed (trainStacks o.training s)
    let s := microcodeLoad o.microcodeFailed s
    let s := referenceRun o.refDiffers o.refAgain s
    bringUpDone o boot (flashIfChanged (allowCheck s))

/-- Is bring-up due: after power-on, or in a DRST (R412)? -/
def bringUpDue (s : State) : Bool := (decide (s.bru.stage ≤ 1) && !s.bru.fatal && !s.sec.recovery) || (s.bru.drst && decide (s.bru.stage = 2))

/-- BRING_UP (R412): the stages in order, in the time they take. Commands posted before it completes are answered after stage 1
(R422). -/
def execBringUp (o : BringUpOutcome) (s : State) : Out :=
  .next (
    if !bringUpDue s then s
    else
      let s := runTo (s.now + o.elapsed * (10 * milli)) s
      if s.bru.stage = 2 then bringUpFrom3 o false s
      else
        let s := stage1 s
        let s := each [0, 1] (fun p s => each (List.range 8) (fun m s => answerPosted p m s) s) s
        if s.sec.recovery then s else bringUpFrom3 o true (powerWave o.regionsFailed s))

/-- BRINGUP_STAGE_TIMEOUT (R412): a stage exceeds its bound. -/
def execBringupStageTimeout (stage : Nat) (s : State) : Out :=
  .next (if bringUpDue s && decide (s.bru.stage < stage) && decide (stage ≤ 9) then bringUpFail (stage - 1) s else s)

/-! ## Self-test (R431, R432, R451) -/

/-- Do more than 1/28 of a region's sites of one type fail (R432)? A region has 1,792 MX, 1,120 MM, 448 SF and 224 SU sites. -/
def tooMany (l : List SiteFailure) : Bool :=
  let n := fun k => ((l.map SiteFailure.site).eraseDups.filter fun x => decide (kindOf x = k)).length
  decide (64 < n .mx) || decide (40 < n .mm) || decide (16 < n .sf) || decide (8 < n .su)

/-- The retest of a tripped or isolated region (R432, R451): it returns to use, or its STATE becomes 3. -/
def retestRegion (r : Nat) (regulatorOk : Bool) (l : List SiteFailure) (s : State) : State :=
  let mine := l.filter fun f => decide (powerRegion f.site = r)
  if !regulatorOk || tooMany mine then fenceRegion r 3 s
  else
    let s := modRegion r (fun x => { x with vstate := 0, on := true, vset := x.vnom }) (fenceRegion r 0 s)
    each mine (fun f => fenceFailure f 0x23) s

/-- Fenced sites among those of a list. -/
def fencedAmong (s : State) (l : List SiteFailure) : Nat := ((l.map SiteFailure.site).eraseDups.filter fun n => bit (look 0 s.fence.sites n) 15).length

/-- Is a job present in an area that touches a set of regions (R431)? -/
def jobTouches (s : State) (inSet : Nat → Bool) : Bool := (areaList s).any fun a => hasJob s a && (wRegions (areaAt s a).word).any inSet

/-- What a self-test does to the map over a set of regions, and the stacks attached there. -/
def selfTest (inSet : Nat → Bool) (o : TestOutcome) (s : State) : State :=
  let s := runTo (s.now + o.elapsedMs * milli) s
  let iso := (fittedRegions s).filter fun r => inSet r && isolated s r
  let s := each iso (fun r => retestRegion r (!(o.regionsFailed.contains r)) o.sitesFailed) s
  let s := each ((testedSites s inSet o.sitesFailed).filter fun f => !(iso.contains (powerRegion f.site))) (fun f => fenceFailure f f.cause) s
  let s := each (o.training.filter fun t => inSet (attRegion t.stack)) trainChannel s
  allowCheck (flashWrite s)

/-- Is the fence map locked against hosts (R371)? -/
def fenceLocked (s : State) : Bool := bit s.sec.lock.val 4

/-- SELFTEST with OP 0 (R431, R451). -/
def execSelftestTest (port m : Nat) (o : TestOutcome) (s : State) : Out :=
  mbxRunOp (fun c => par c 0 1 != 1) 0x0500 (plenIs 16) .both false false (fun p m c s =>
    let w := hdrArea c
    let dev := decide (hdrFlags c % 4 = 2)
    let inSet : Nat → Bool := fun r => dev || wCovers w r
    let iso := wValid s.member w && (wRegions w).any (isolated s)
    if par c 0 1 ≠ 0 ∨ par c 1 7 ≠ 0 ∨ par c 8 8 ≠ 0 then mbxDone p m mBadParam s
    else if !dev && !areaNamed s c && !iso then mbxDone p m mNoArea s
    else if fenceLocked s then mbxDone p m mAccessLocked s
    else if jobTouches s inSet then mbxDone p m mAreaBusy s
    else
      let before := fencedAmong s o.sitesFailed
      let s := selfTest inSet o s
      mbxComplete p m mOk 0 (leBytes 4 (fencedAmong s o.sitesFailed - before) ++ leBytes 4 o.elapsedMs) s) port m s

/-- SELFTEST with OP 1 (R431): the image at a DPA is checked and becomes the reference draft. -/
def execSelftestInstall (port m : Nat) (s : State) : Out :=
  mbxRunOp (fun c => par c 0 1 == 1) 0x0500 (plenIs 16) .device false false (fun p m c s =>
    let d := par c 8 8
    let refuse := fun code detail id s => mbxComplete p m code detail (leBytes 8 id) s
    if par c 1 7 ≠ 0 ∨ 2 ^ 41 ≤ d then mbxDone p m mBadParam s
    else if !stackPresent s.member (dpaStack d) ∨ userEnd ≤ dpaOff d then mbxDone p m mNoUnit s
    else if anyJob s then mbxDone p m mAreaBusy s
    else
      let h := elasticRead d (min 256 (userEnd - dpaOff d)) false s
      let s := h.2.2
      if h.1.length < 256 ∨ !headerOk h.1 ∨ !dpaOk s.member d (dLen h.1) then refuse 0x8C01 0 (dId h.1) s
      else
        let r := elasticRead (d + 256) (dLen h.1 - 256) false s
        let g := h.1 ++ r.1
        if h.2.1 + r.2.1 ≠ 0 then refuse 0x8C01 0 (dId g) r.2.2
        else match checkImage r.2.2 (deviceWord s.member (dArea g % 16)) g with
        | .inl e => refuse e.1 e.2 (dId g) r.2.2
        | .inr _ => mbxComplete p m mOk 0 (leBytes 8 (dId g)) { r.2.2 with mod := { r.2.2.mod with refDraft := g } }) port m s

/-! ## FENCE_READ (R430) -/

/-- The entries of a kind from FIRST, or the summary. -/
def fenceEntries (s : State) (kind first n : Nat) : List Byte :=
  if kind = 0 then (List.range n).flatMap fun i => leBytes 2 (look 0 s.fence.sites (first + i))
  else if kind = 1 then (List.range n).flatMap fun i => leBytes 1 (look 0 s.fence.regions (first + i))
  else if kind = 2 then (List.range n).flatMap fun i => leBytes 1 (look 0 s.fence.chans (first + i))
  else
    leBytes 8 (fncSum s) ++ leBytes 4 s.fence.seqno ++ leBytes 4 (bruStat s)
    ++ leBytes 2 (s.fence.regions.filter fun kv => kv.2 != 0).length ++ leBytes 2 (s.fence.chans.filter fun kv => bit kv.2 2).length
    ++ leBytes 2 (s.fence.chans.filter fun kv => kv.2 % 4 != 0).length ++ leBytes 2 0

/-- Is the unit of the entry read first fitted (R4)? -/
def fenceFitted (s : State) (kind first : Nat) : Bool :=
  if kind = 0 then sitePresent s.member first
  else if kind = 1 then decide (first < numRegions s.member)
  else if kind = 2 then stackPresent s.member (first / 32)
  else true

/-- FENCE_READ; one whose FIRST names an absent unit is refused (R4). -/
def execFenceRead (port m : Nat) (s : State) : Out :=
  mbxRun 0x0501 (plenIs 12) .device false true (fun p m c s =>
    let k := par c 0 1
    let first := par c 4 4
    let n := par c 8 4
    let most := [2032, 64, 1024].getD k 0
    let all := [512 * 448, 64, 1024].getD k 0
    if 3 < k ∨ par c 1 3 ≠ 0 ∨ (k < 3 ∧ (most < n ∨ all < first + n)) then mbxDone p m mBadParam s
    else if 0 < n ∧ !(fenceFitted s k first) then mbxDone p m mNoUnit s
    else mbxComplete p m mOk 0 (fenceEntries s k first n) s) port m s

/-! ## Repairs (R143, R266, R431) -/

/-- Copy a row into its spare row: corrected cells are good, uncorrectable ones make the spare sour. -/
def copyRow (b r e : Nat) (m : Mm) : Mm :=
  let bytes := mmRow m b r
  let bad := rowBad (mmCells m b r)
  let a := (6176 * b + 6144 + e) * 64
  { m with mem := putBytes m.mem a bytes, code := putCodes m.code (a / 16) (List.replicate 4 (if bad then CellCode.sour else .good)) }

/-- REPAIR_ROW of an MM row. -/
def repairMmRow (p m n b r : Nat) (s : State) : State :=
  let x := mmAt s n
  let used := fun e => decide (8192 ≤ remapVal x b e)
  if siteLive s n then mbxDone p m mAreaBusy s
  else if (List.range 32).any fun e => used e && decide (remapVal x b e % 8192 = r) then mbxDone p m mBadParam s
  else match (List.range 32).find? fun e => !used e with
    | none => mbxCode p m 0x8D31 0 (count 0x1221 n 1 s)
    | some e =>
      let s := modMm n (fun x => let y := copyRow b r e x
        { y with remap := alter default y.remap (32 * b + e) fun q => { q with v := Tri.of (8192 + r) } }) s
      mbxComplete p m mOk 0 (leBytes 1 e) s

/-- Copy a stack row into its reserved row. -/
def copyStackRow (c bank row e : Nat) (k : Stack) : Stack :=
  (List.range 32).foldl (fun k g =>
    let o := g % 4 * 64 + c * 256 + g / 4 * 8192 + bank * 2 ^ 16 + row * 2 ^ 22
    let d := o % 2 ^ 22 + 2 ^ 22 * (16320 + e)
    let bad := rowBad (grainCells k o)
    { k with mem := putBytes k.mem d (grainBytes k o), code := putCodes k.code (d / 16) (List.replicate 4 (if bad then CellCode.sour else .good)) }) k

/-- REPAIR_ROW of a stack row, or its post-package repair. -/
def repairStackRow (p m k c bank row : Nat) (ppr pprOk : Bool) (s : State) : State :=
  let x := stackAt s k
  let v := fun e => (look default x.remap (64 * c + e)).v.val
  if optJob s (areaOfAtt s k) then mbxDone p m mAreaBusy s
  else if (List.range 64).any fun e => bit (v e) 20 && decide (v e % 2 ^ 20 = bank * 2 ^ 14 + row) then mbxDone p m mBadParam s
  else if ppr then (if pprOk then mbxComplete p m mOk 0 (leBytes 1 0xFF) s else mbxCode p m 0x8D31 0 s)
  else match (List.range 64).find? fun e => !bit (v e) 20 with
    | none => mbxCode p m 0x8D31 0 (count 0x160A (stackIdx k) 1 s)
    | some e =>
      let s := modStack k (fun x => let y := copyStackRow c bank row e x
        { y with remap := alter default y.remap (64 * c + e) fun q => { q with v := Tri.of (2 ^ 20 + bank * 2 ^ 14 + row) } }) s
      mbxComplete p m mOk 0 (leBytes 1 e) s

/-- REPAIR_ROW (R430, R431): `pprOk` says whether post-package repair resources were left. -/
def execRepairRow (port m : Nat) (pprOk : Bool) (s : State) : Out :=
  mbxRun 0x0502 (plenIs 16) .device false false (fun p m c s =>
    let k := par c 0 1
    let ppr := par c 1 1
    let u := par c 4 4
    let sel := par c 8 1
    let bank := par c 9 1
    let row := par c 12 4
    if 1 < k ∨ par c 2 2 ≠ 0 ∨ par c 10 2 ≠ 0 ∨ 1 < ppr then mbxDone p m mBadParam s
    else if k = 0 then
      if !siteReach s u then mbxDone p m mNoUnit s
      else if kindOf u ≠ .mm ∨ ppr = 1 ∨ 3 < sel ∨ bank ≠ 0 ∨ 6143 < row then mbxDone p m mBadParam s
      else repairMmRow p m u sel row s
    else if !stackPresent s.member u then mbxDone p m mNoUnit s
    else if 31 < sel ∨ 63 < bank ∨ 16383 < row then mbxDone p m mBadParam s
    else if 15258 < row then mbxDone p m mNoUnit s
    else repairStackRow p m u sel bank row (ppr == 1) pprOk s) port m s

/-- The parameters REPAIR_SITE shares: checks, then f on the site. -/
def repairSite (p m : Nat) (c : Tab Byte) (f : Nat → State → State) (s : State) : State :=
  let n := par c 4 4
  if 1 < par c 0 1 ∨ 1 < par c 1 1 ∨ par c 2 2 ≠ 0 then mbxDone p m mBadParam s
  else if !sitePresent s.member n then mbxDone p m mNoUnit s
  else if fenceLocked s then mbxDone p m mAccessLocked s
  else if siteLive s n then mbxDone p m mAreaBusy s
  else f n s

/-- A change of the map is written to flash before its command completes with the entry (R425, R430). -/
def repairedSite (p m n : Nat) (s : State) : State :=
  let s := allowCheck (flashWrite s)
  mbxComplete p m mOk 0 (leBytes 2 (look 0 s.fence.sites n)) s

/-- REPAIR_SITE with OP 0: fence at the host's request. -/
def execRepairSiteFence (port m : Nat) (s : State) : Out :=
  mbxRunOp (fun c => par c 0 1 != 1) 0x0503 (plenIs 8) .device false false (fun p m c s =>
    repairSite p m c (fun n s => repairedSite p m n (fenceSite n 0x20 (decide (par c 1 1 = 1)) false s)) s) port m s

/-- REPAIR_SITE with OP 1: a site whose tests pass returns to service, unless its cause is factory test. -/
def execRepairSiteRetest (port m : Nat) (pass : Bool) (s : State) : Out :=
  mbxRunOp (fun c => par c 0 1 == 1) 0x0503 (plenIs 8) .device false false (fun p m c s =>
    repairSite p m c (fun n s =>
      if !pass ∨ look 0 s.fence.sites n % 256 = 0x01 then mbxCode p m 0x8D32 0 s
      else repairedSite p m n { s with fence := { s.fence with sites := put 0 s.fence.sites n 0 } }) s) port m s

/-- The parameters REPAIR_CHANNEL shares. -/
def repairChannel (p m : Nat) (c : Tab Byte) (pass : Bool) (f : Nat → Nat → State → State) (s : State) : State :=
  let k := par c 2 1
  let ch := par c 3 1
  if 1 < par c 0 1 ∨ 2 < par c 1 1 ∨ par c 4 4 ≠ 0 ∨ 31 < ch then mbxDone p m mBadParam s
  else if !stackPresent s.member k then mbxDone p m mNoUnit s
  else if fenceLocked s then mbxDone p m mAccessLocked s
  else if optJob s (areaOfAtt s k) then mbxDone p m mAreaBusy s
  else if !pass then mbxCode p m 0x8D32 0 s
  else
    let s := flashWrite (f k ch (modStack k (modChan ch fun x => { x with misses := 0 }) s))
    mbxComplete p m mOk 0 (leBytes 1 (chanEntry s k ch)) s

/-- REPAIR_CHANNEL with OP 0: training at the recorded rate clears FAIL. -/
def execRepairChannelRetrain (port m : Nat) (pass : Bool) (s : State) : Out :=
  mbxRunOp (fun c => par c 0 1 != 1) 0x0504 (plenIs 8) .device false false (fun p m c s =>
    repairChannel p m c pass (fun k ch s => setChannel k ch (chanAt (stackAt s k) ch).rate.val false s) s) port m s

/-- REPAIR_CHANNEL with OP 1: training at RATE records it. -/
def execRepairChannelSetRate (port m : Nat) (pass : Bool) (s : State) : Out :=
  mbxRunOp (fun c => par c 0 1 == 1) 0x0504 (plenIs 8) .device false false (fun p m c s =>
    repairChannel p m c pass (fun k ch s => setChannel k ch (par c 1 1) (chanFailed (stackAt s k) ch) s) s) port m s

end Sys2Proof.Machine
end

