-- ==== Sys2Proof/Machine/Power.lean ====
section
/-! DEFINITION. Power and thermal control (13, R381-R411): samples, estimates and budgets, droop, the clamp, feeds, the power group,
energy, diodes, throttling, trips, coolant. -/
namespace Sys2Proof.Machine

/-! ## Regions, phases and the envelope (R387, R409) -/

/-- Regions whose sites are adjacent to those of r. -/
def neighbourRegions (m r : Nat) : List Nat :=
  (List.range (numRegions m)).filter fun q =>
    let dx := max (regionPc q) (regionPc r) - min (regionPc q) (regionPc r)
    let dy := max (regionPr q) (regionPr r) - min (regionPr q) (regionPr r)
    decide (dx + dy = 1)

/-- Neighbours of r in its own job area, and that area. -/
def envelopeOf (s : State) (r : Nat) : List Nat :=
  match areaOfRegion s r with
  | some a => (neighbourRegions s.member r).filter fun q => decide (areaOfRegion s q = some a)
  | none => []

/-- The treadle page that the SU of the region's lowest heddle has selected. -/
def regionPage (s : State) (r : Nat) : Nat := (look default (swAt s (suOf ((regionHeddles r).headD 0))).outp 0).page

/-- The step class of an area's running step. -/
def runningClass (s : State) (a : Nat) : Nat := match curStep s a with | some k => (stepClass s a k.k).getD 0 | none => 0

/-- The phase of a region as the key of its estimate; none outside an area (R387). -/
def phaseOf (s : State) (r : Nat) : Option Nat := (areaOfRegion s r).map fun a => phaseKey (runningClass s a) (regionPage s r)

/-- SLKMIN of a region's phase (R388). -/
def slkMin (s : State) (r : Nat) : Nat :=
  match areaOfRegion s r with
  | none => 0
  | some a => match (slackEntries s a).find? fun e => e.1 == runningClass s a && e.2.1 == regionPage s r && e.2.2.1 == r with
    | some e => e.2.2.2.1
    | none => 0

/-- The estimate E of a region in its phase, in 1/64 of 0.1 W; 0 without a phase. -/
def estimateOf (s : State) (r : Nat) : Nat := match phaseOf s r with | some k => look 0 (regionAt s r).est k | none => 0

/-- The items of a report that names a power region. -/
def regionReport (s : State) (r : Nat) : Report349 :=
  let a := areaOfRegion s r
  { (default : Report349) with area := a, unit := regionIdx r, offset := stepOffset s a, aux := leBytes 1 r }

/-- Raise a class 0x3 code at a region whose area runs a step (R394, R409). -/
def breakRegion (code r other : Nat) (s : State) : State :=
  match areaOfRegion s r with
  | none => s
  | some a => match curStep s a with
    | some k => if jobRuns s a ∧ ¬ k.ended then report code { regionReport s r with aux := leBytes 1 r ++ leBytes 1 other } s else s
    | none => s

/-! ## The clamp (R396, R397) -/

/-- The number of feeds present. -/
def feedsPresent (s : State) : Nat := b2n s.pwr.presA + b2n s.pwr.presB

/-- Enter the clamp: every running step is timing-broken. -/
def enterClamp (s : State) : State :=
  if s.pwr.clamp.isSome then s
  else
    let run := (areaList s).filter fun a => jobRuns s a && (match curStep s a with | some k => !k.ended | none => false)
    let s := { s with pwr := { s.pwr with clamp := some s.up } }
    let s := if run.isEmpty then reportUnit 0x3A06 hubIdx s else each run (reportArea 0x3A06) s
    refreshPins s

/-- Does the 10 µs mean ask for the clamp? -/
def clampDue (s : State) (mean10us : Nat) : Bool :=
  if feedsPresent s = 1 then decide (12000 < mean10us)
  else decide (feedsPresent s = 2) && decide (50 * s.pwr.pmax.val + 1000 < mean10us)

/-- READY and START values that passed while the clamp held steps back are those of the present pick (log 60). -/
def moveStart (s : State) : State :=
  let p := s.pick
  let late := fun (j : Join) => { j with ready := j.ready.map (max p), start := j.start.map (max p) }
  { s with su := mapTab default (fun n u =>
      let next := match areaOfSite s n with | some a => (areaAt s a).job.nextK | none => 0
      { u with
        join := match u.join with | some j => if j.start.isNone then some { j with ready := j.ready.map (max p) } else some j | none => none
        lastJoin := match u.lastJoin with | some j => if j.opens = next then some (late j) else some j | none => none }) s.su }

/-- Raise a holdoff; a rise from 0 counts PWR_HOLDOFF (R392). -/
def setHold (a h : Nat) (s : State) : State :=
  let old := (aregAt s a).hold
  let s := modAreg a (fun g => { g with hold := h }) s
  if old = 0 ∧ 0 < h then count 0x1A03 hubIdx 1 s else s

/-- The ACLK of the first 1 ms boundary of the pick count at or after ACLK t. -/
def msBoundary (t : Nat) : Nat := (t + milli - 1) / milli * milli

/-- CLAMP_END (R397). -/
def execClampEnd (s : State) : Out :=
  .next (match s.pwr.clamp with
    | none => s
    | some t =>
      if 50 * effInForce s < s.pwr.mean100us then s
      else
        let s := runTo (msBoundary (s.now + (t + milli - s.up))) s
        let s := { s with pwr := { s.pwr with clamp := none } }
        let s := each ((areaList s).filter (jobRuns s)) (fun a s => setHold a (max 256 (aregAt s a).hold) s) s
        refreshPins (moveStart s))

/-! ## Samples (R383, R389, R402) -/

/-- Add energy in 0.1 µJ to the area that covers a region, or to PWR_ENERGY_IDLE. -/
def addEnergy (a : Option Nat) (e : Nat) (s : State) : State :=
  match a with
  | some a => modAreg a (fun g => { g with energy := (g.energy + e) % (10 * 2 ^ 64) }) s
  | none => { s with pwr := { s.pwr with idle := (s.pwr.idle + e) % (10 * 2 ^ 64) } }

/-- A region's sample: what VRG_STAT shows, the 1 ms mean, the estimate of its phase. -/
def Region.sample (key : Option Nat) (v i p : Nat) (x : Region) : Region :=
  let sum := x.acc.1 + p
  let full := decide (1000 ≤ x.acc.2 + 1)
  { x with
    vout := v
    iout := i
    power := p
    acc := if full then (0, 0) else (sum, x.acc.2 + 1)
    power1ms := if full then sum / 10000 else x.power1ms
    est := match key with | some k => alter 0 x.est k (fun e => e + p - e / 64) | none => x.est }

/-- One region's sample. -/
def sampleRegion (y : Nat × Nat × Nat × Nat) (s : State) : State :=
  if numRegions s.member ≤ y.1 then s
  else addEnergy (areaOfRegion s y.1) y.2.2.2 (modRegion y.1 (Region.sample (phaseOf s y.1) y.2.1 y.2.2.1 y.2.2.2) s)

/-- The supply differences of R409: above 60 mV the steps running in either region are timing-broken. -/
def checkSupply (s : State) : State :=
  each (fittedRegions s) (fun r s => each ((envelopeOf s r).filter fun q => decide (r < q)) (fun q s =>
    let v := (regionAt s r).vout
    let w := (regionAt s q).vout
    if 60 < max v w - min v w then breakRegion 0x3A08 r q s else s) s) s

/-- REGULATOR_SAMPLE (R383): one interval's measurements. -/
def execRegulatorSample (r : PowerSample) (s : State) : Out :=
  .next (
    let s := each r.regions sampleRegion s
    let s := { s with pwr := { s.pwr with
      volta := r.voltA, voltb := r.voltB, inSeen := true, power := r.mean1ms, mean1us := r.mean1us, mean10us := r.mean10us, mean100us := r.mean100us, mean1ms := r.mean1ms } }
    let s := checkSupply s
    if clampDue s r.mean10us then enterClamp s else s)

/-- The sum of the region powers and the shared rails (W). -/
def railSum (s : State) (shared : Nat) : Nat := s.regions.foldl (fun n kv => n + kv.2.power1ms) shared

/-- SENSE_COMPARE (R384): `shared` is the power of the shared rails (W). -/
def execSenseCompare (shared : Nat) (s : State) : Out :=
  .next (
    let p := s.pwr.mean1ms
    let sum := railSum s shared
    let out := decide (6 * p + 20000 < 100 * (max p sum - min p sum))
    let s := { s with pwr := { s.pwr with
      shared := shared, outBand := if out then min 10 (s.pwr.outBand + 1) else 0, inBand := if out then 0 else min 10 (s.pwr.inBand + 1) } }
    if s.pwr.outBand = 10 ∧ !s.pwr.mismatch then reportUnit 0x1A07 hubIdx { s with pwr := { s.pwr with mismatch := true } }
    else if s.pwr.inBand = 10 then { s with pwr := { s.pwr with mismatch := false } }
    else s)

/-- The 1 ms mean that cap enforcement uses (R384). -/
def enforced1ms (s : State) : Nat := if s.pwr.mismatch then max s.pwr.mean1ms (railSum s s.pwr.shared) else s.pwr.mean1ms

/-! ## Budgets and holdoff (R390-R392) -/

/-- Has a region of a phase exhausted its slack? -/
def exhausted (s : State) (r : Nat) : Bool := decide ((regionAt s r).st = 2 * slkMin s r)

/-- Regions with a phase. -/
def phasedRegions (s : State) : List Nat := (fittedRegions s).filter fun r => (areaOfRegion s r).isSome

/-- Insert a region into a list in descending order of the estimate, earlier ids first among equals. -/
def insertByEst (s : State) (r : Nat) : List Nat → List Nat
  | [] => [r]
  | q :: l => if estimateOf s q < estimateOf s r then r :: q :: l else q :: insertByEst s r l

/-- The regions in descending E. -/
def byEstimate (s : State) : List Nat := (fittedRegions s).foldl (fun l r => insertByEst s r l) []

/-- Raise budgets until the predicted saving (1/64 of 0.1 W) covers the excess. The mean busy ACLK per MAC of a phase is a free value (log 61). -/
def raiseBudgets : List Nat → Nat → State → State
  | [], _, s => s
  | r :: l, need, s =>
    if need = 0 then s
    else if (regionAt s r).st < 2 * slkMin s r then
      let x := freshValue s
      let save := estimateOf s r * 2 / (2 + x.1)
      raiseBudgets l (need - save) (modRegion r (fun y => { y with st := min 30 (y.st + 2) }) x.2)
    else raiseBudgets l need s

/-- The predicted input power Q in 1/64 of 0.1 W. -/
def predicted (s : State) : Nat := (phasedRegions s).foldl (fun n r => n + estimateOf s r) (640 * s.pwr.shared)

/-- BUDGET_ADJUST (R391). -/
def execBudgetAdjust (s : State) : Out :=
  .next (
    let q := predicted s
    let cap := 640 * (50 * effInForce s)
    if cap < q then raiseBudgets (byEstimate s) (q - cap) s
    else if q + 640 * 400 < cap then each (byEstimate s).reverse (fun r => modRegion r fun x => { x with st := x.st - 2 }) s
    else s)

/-- Does a region of the area stand at or above THROT for 10 ms (R404)? -/
def areaHot (s : State) (a : Nat) : Bool := (fittedRegions s).any fun r => decide (areaOfRegion s r = some a) && (regionAt s r).hot10

/-- The next H of an area (R392, R404). -/
def nextHold (s : State) (a : Nat) : Nat :=
  let h := (aregAt s a).hold
  let tooFull := decide (50 * effInForce s < enforced1ms s) && (phasedRegions s).all (exhausted s)
  if tooFull || areaHot s a then min 65535 (max 16 (2 * h))
  else if enforced1ms s + 200 < 50 * effInForce s then h / 2
  else h

/-- HOLDOFF_UPDATE (R392): at the next pick divisible by 100,000. -/
def execHoldoffUpdate (s : State) : Out :=
  .next (
    let s := runTo (msBoundary s.now) s
    each ((areaList s).filter (jobRuns s)) (fun a s => setHold a (nextHold s a) s) s)

/-- Divide a rail's energy (µJ) among areas by traffic; what no share takes is idle energy (R402). -/
def shareEnergy (e : Nat) (traffic : List Nat) (s : State) : State :=
  let t := traffic.take 16
  let all := t.foldl (· + ·) 0
  if all = 0 then addEnergy none (10 * e) s
  else
    let part := fun i => 10 * e * t.getD i 0 / all
    let given := (List.range 16).foldl (fun n i => n + part i) 0
    addEnergy none (10 * e - given) (each (List.range 16) (fun i => addEnergy (some i) (part i)) s)

/-- ENERGY_SHARE (R402). -/
def execEnergyShare (r : SharedEnergy) (s : State) : Out :=
  .next (shareEnergy r.hub r.hubBytes (shareEnergy r.optics r.opticUnits (shareEnergy r.stks r.stackBeats s)))

/-! ## Droop (R393, R394) -/

/-- DROOP_ALARM (R393): the arrays of the region stop consuming. -/
def execDroopAlarm (region : Nat) (s : State) : Out :=
  atRegion region (fun s =>
    let s := riskEvent 0x1A01 region (count 0x1A01 (regionIdx region) 1 s)
    modRegion region (fun x => { x with droop := satAdd 0xFF x.droop 1, drooping := match x.drooping with | some t => some t | none => some s.now }) s) s

/-- ACLKs in which a MAC would have consumed between ACLKs t and e. -/
def MacOp.suppressed (o : MacOp) (t e : Nat) : Nat := if o.n * o.kb ≤ o.next then 0 else e - max t (o.t + 2)

/-- Charge the stalls of a droop to the running MACs of one site: a MAC beyond its S is late (R394). -/
def chargeDroop (t e n : Nat) (s : State) : State :=
  match (mxAt s n).macs with
  | [] => s
  | o :: r =>
    let k := o.suppressed t e
    let late := decide (8 + 2 * o.slk < o.st + o.stalls + k)
    let s := modMx n (fun x => { x with macs := { o with stalls := o.stalls + k } :: r, busy := x.busy.flatMap (stallAt (max t (o.t + 2)) k) }) s
    if late && decide (0 < k) then
      report 0x3A02 { siteReport s n with unit := regionIdx (powerRegion n), wu := none } s
    else s

/-- DROOP_CLEAR (R393): consumption resumes 8 ACLK after the alarm clears. -/
def execDroopClear (region : Nat) (s : State) : Out :=
  atRegion region (fun s => match (regionAt s region).drooping with
    | none => s
    | some t =>
      let s := modRegion region (fun x => { x with drooping := none }) s
      each ((s.mx.filter fun kv => decide (powerRegion kv.1 = region)).map Prod.fst) (chargeDroop t (s.now + 8)) s) s

/-! ## Feeds (R381, R385, R397) -/

/-- Is a feed present: 0 is A, 1 is B? -/
def feedPresent (s : State) (f : Nat) : Bool := if f = 0 then s.pwr.presA else s.pwr.presB

/-- Set a feed's presence. -/
def setFeed (f : Nat) (v : Bool) (s : State) : State := { s with pwr := if f = 0 then { s.pwr with presA := v, inSeen := true } else { s.pwr with presB := v, inSeen := true } }

/-- FEED_LOSS (R379, R385, R396). -/
def execFeedLoss (feed : Nat) (s : State) : Out :=
  guardUnit (decide (feed < 2)) (fun s =>
    if !feedPresent s feed then s
    else
      let s := setFeed feed false s
      let s := recap { s with pwr := { s.pwr with backAt := none, oneFeed := true } }
      let s := refreshPins (report 0x1A04 { (default : Report349) with unit := hubIdx, aux := leBytes 1 feed } s)
      if feedsPresent s = 1 ∧ 50 * effCap s < s.pwr.mean1us then enterClamp s else s) s

/-- FEED_RETURN (R397). -/
def execFeedReturn (feed : Nat) (s : State) : Out :=
  guardUnit (decide (feed < 2)) (fun s =>
    if feedPresent s feed then s
    else
      let s := setFeed feed true s
      let s := { s with pwr := { s.pwr with backAt := if feedsPresent s = 2 then some s.up else none } }
      refreshPins (report 0x1A05 { (default : Report349) with unit := hubIdx, aux := leBytes 1 feed } s)) s

/-- ONE_FEED_LIMIT_LIFT (R397): 1 s after both feeds are present again. -/
def execOneFeedLimitLift (s : State) : Out :=
  .next (match s.pwr.backAt with
    | some t =>
      if s.pwr.oneFeed then
        let s := runTo (s.now + (t + second - s.up)) s
        recap { s with pwr := { s.pwr with oneFeed := false, backAt := none } }
      else s
    | none => s)

/-! ## The power group (R398-R401) -/

/-- LIM: the least of the limits other than the group. -/
def ownLimit (s : State) : Nat := min s.pwr.cap.val (min (feedCap s) (coolCap s))

/-- Change the group. -/
def modGrp (f : Group2 → Group2) (s : State) : State := { s with pwr := { s.pwr with grp := s.pwr.grp.map f } }

/-- Did index i send a REPORT within 10 ms? -/
def groupPresent (s : State) (g : Group2) (i : Nat) : Bool :=
  match g.reports.find? fun kv => kv.1 == i with
  | some kv => decide (s.up ≤ kv.2.at_ + 10 * milli)
  | none => false

/-- Take a member's REPORT: its ledger entry, and who coordinates. -/
def takeReport (i : Nat) (r : Report) (s : State) : State :=
  modGrp (fun g =>
    let g := { g with reports := put default g.reports i r, given := put 0 g.given i r.applied }
    let lead := !((List.range g.index).any (groupPresent s g)) && (g.coord || decide (i = g.index))
    { g with coord := lead, move := if lead then g.move else none }) s

/-- The mean arrival slack of the last millisecond. -/
def meanSlack (g : Group2) : Nat := if g.slackN = 0 then 0xFFFF else min 0xFFFE (g.slackSum / g.slackN)

/-- GROUP_REPORT_SEND (R399). -/
def execGroupReportSend (s : State) : Out :=
  .next (match s.pwr.grp with
    | none => s
    | some g =>
      let r : Report := { power := min 0xFFFF (s.pwr.mean1ms / 10), slack := meanSlack g, lim := ownLimit s, applied := g.assign, at_ := s.up }
      let b := leBytes 1 1 ++ leBytes 2 s.mod.rackPos ++ leBytes 2 r.power ++ leBytes 2 r.slack ++ leBytes 2 r.lim ++ leBytes 2 r.applied ++ leBytes 5 0
      takeReport g.index r (modGrp (fun g => { g with slackSum := 0, slackN := 0 }) (emitSent (.smbus 0xA1 b) s)))

/-- An SMBus transaction whose PEC fails is discarded and counted (R486). -/
def pecFail (s : State) : State := count 0x1D08 hubIdx 1 s

/-- GROUP_REPORT_RECEIVE (R399, R400): another member's REPORT. -/
def execGroupReportReceive (block : List Byte) (pecOk : Bool) (s : State) : Out :=
  .next (
    if !pecOk then pecFail s
    else match s.pwr.grp with
      | none => s
      | some g => match g.list.findIdx? fun x => x == fld block 1 2 with
        | some i =>
          if block.length ≠ 16 ∨ fld block 0 1 ≠ 1 ∨ i = g.index then s
          else takeReport i { power := fld block 3 2, slack := fld block 5 2, lim := fld block 7 2, applied := fld block 9 2, at_ := s.up } s
        | none => s)

/-- The device's own assignment changes at the next pick boundary (R400). -/
def applyAssign (v : Nat) (s : State) : State :=
  let s := toPick ((s.now + 7) / 8) s
  recap (modGrp (fun g => { g with assign := v, lastAssign := s.up, lost := false }) s)

/-- Give index i the assignment v: an ASSIGN block on the bus, or the own assignment. -/
def sendAssign (i v : Nat) (s : State) : State :=
  match s.pwr.grp with
  | none => s
  | some g =>
    let s := modGrp (fun g => { g with given := put 0 g.given i v, seqno := (g.seqno + 1) % 2 ^ 24 }) s
    if i = g.index then applyAssign v s
    else emitSent (.smbus 0xA2 (leBytes 1 2 ++ leBytes 2 (g.list.getD i 0) ++ leBytes 2 v ++ leBytes 3 g.seqno)) s

/-- The member of a list with the least (greatest) arrival slack; the lower index among equals. -/
def leastSlack (g : Group2) (l : List Nat) : Option Nat :=
  l.foldl (fun m i => match m with
    | none => some i
    | some j => if (look default g.reports i).slack < (look default g.reports j).slack then some i else some j) none
def mostSlack (g : Group2) (l : List Nat) : Option Nat :=
  l.foldl (fun m i => match m with
    | none => some i
    | some j => if (look default g.reports j).slack < (look default g.reports i).slack then some i else some j) none

/-- The assignment at which the coordinator counts a member: its last one, and FLOOR once it has been absent for 50 ms (R400). -/
def countedAt (s : State) (g : Group2) (i : Nat) : Nat :=
  match g.reports.find? fun kv => kv.1 == i with
  | some kv => if kv.2.at_ + 50 * milli < s.up then g.floor else look 0 g.given i
  | none => look 0 g.given i

/-- Begin an update (R400): the member that gives is told first. -/
def beginMove (g : Group2) (s : State) : State :=
  let l := (List.range g.n).filter (groupPresent s g)
  match leastSlack g l with
  | none => s
  | some c => match mostSlack g (l.filter (· != c)) with
    | none => s
    | some d =>
      let rc := look default g.reports c
      let rd := look default g.reports d
      let ac := countedAt s g c
      let ad := countedAt s g d
      let x := min 5 (min (ad - g.floor) (rc.lim - ac))
      if rd.slack ≤ rc.slack + 8 ∨ 10 * rc.power + 250 < 50 * ac ∨ x = 0 then s
      else sendAssign d (ad - x) (modGrp (fun g => { g with move := some (d, ad - x, c, ac + x), sentAt := some s.up }) s)

/-- The assignment a member reports as applied. -/
def appliedBy (g : Group2) (i : Nat) : Nat := if i = g.index then g.assign else (look default g.reports i).applied

/-- GROUP_ASSIGN_SEND (R400): the second half of an update once its first is applied, or a new one, at most one a millisecond. -/
def execGroupAssignSend (s : State) : Out :=
  .next (match s.pwr.grp with
    | none => s
    | some g =>
      if !g.coord then s
      else match g.move with
        | some (d, v, c, w) =>
          if appliedBy g d = v then sendAssign c w (modGrp (fun g => { g with move := none }) s) else s
        | none =>
          if (match g.sentAt with | some t => decide (s.up < t + milli) | none => false) then s else beginMove g s)

/-- GROUP_ASSIGN_RECEIVE (R400). -/
def execGroupAssignReceive (block : List Byte) (pecOk : Bool) (s : State) : Out :=
  .next (
    if !pecOk then pecFail s
    else if s.pwr.grp.isSome ∧ block.length = 8 ∧ fld block 0 1 = 2 ∧ fld block 1 2 = s.mod.rackPos then applyAssign (fld block 3 2) s
    else s)

/-- GROUP_ASSIGN_TIMEOUT (R401): no ASSIGN for 50 ms. -/
def execGroupAssignTimeout (s : State) : Out :=
  .next (match s.pwr.grp with
    | none => s
    | some g =>
      if g.lost then s
      else
        let s := runTo (s.now + (g.lastAssign + 50 * milli - s.up)) s
        recap (reportUnit 0x1A09 hubIdx (modGrp (fun g => { g with assign := g.floor, lost := true }) s)))

/-- The APPLIED values reported. -/
def appliedLedger (t : Tab Report) : Tab Nat := t.filterMap fun kv => if kv.2.applied = 0 then none else some (kv.1, kv.2.applied)

/-- COORDINATOR_TAKEOVER (R401): the coordinator has been absent for 10 ms. -/
def execCoordinatorTakeover (s : State) : Out :=
  .next (match s.pwr.grp with
    | none => s
    | some g =>
      let s := match (List.range g.index).find? (groupPresent s g) with
        | some i => runTo (s.now + ((look default g.reports i).at_ + 10 * milli + 1 - s.up)) s
        | none => s
      if !g.coord ∧ groupPresent s g g.index ∧ !((List.range g.index).any (groupPresent s g)) then
        modGrp (fun g => { g with coord := true, move := none, given := appliedLedger g.reports }) s
      else s)

/-! ## Temperature (R403-R406, R409) -/

/-- A diode's next reading (1/16 °C): outside −40 to 150 °C, or stuck while the region's power moves, it is bad. -/
def Diode.read (v : Int) (power : Nat) (d : Diode) : Diode :=
  if d.bad then d
  else
    let same := d.seen && decide (v = d.last)
    let base := if same then d.base else power
    let moved := (same && d.moved) || decide (base < 10 * (max power base - min power base))
    let n := if same then d.same + 1 else 1
    { last := v, same := min n 1000, base := base, moved := moved, seen := true
      bad := decide (v < -640) || decide (2400 < v) || (decide (1000 ≤ n) && moved) }

/-- The good diodes of a region. -/
def goodDiodes (s : State) (r : Nat) : List (Nat × Diode) :=
  s.pwr.diodes.filter fun kv => kv.2.seen && !kv.2.bad && decide (powerRegion (suOf kv.1) = r)

/-- The highest reading and its heddle. -/
def hottest (l : List (Nat × Diode)) : Option (Nat × Int) :=
  l.foldl (fun m kv => match m with | none => some (kv.1, kv.2.last) | some x => if x.2 < kv.2.last then some (kv.1, kv.2.last) else some x) none

/-- Throttle a region: its ST becomes 2 × SLKMIN at once (R404). STATE shows it. -/
def throttle (r : Nat) (s : State) : State :=
  let st := 2 * slkMin s r
  modRegion r (fun x => { x with st := st, tstate := 1 }) s

/-- The throttle of a region for its own temperature begins or ends (R404); a region throttled for its neighbours' sake alone that reaches THROT
begins it too. `throtAt` runs while the region stands at or above THROT. -/
def judgeThrottle (r : Nat) (s : State) : State :=
  let x := regionAt s r
  let hot := decide (16 * (s.pwr.throt : Int) ≤ x.tmax)
  let cool := decide (x.tmax < 16 * ((s.pwr.throt : Int) - 3))
  let own := x.ownHot && decide (x.tstate = 1)
  let s := modRegion r (fun x => { x with throtAt := if hot then (match x.throtAt with | some t => some t | none => some s.up) else none }) s
  if hot && !own then riskEvent 0x1B01 r (report 0x1B01 (regionReport s r) (modRegion r (fun x => { x with ownHot := true }) (throttle r s)))
  else
    let stays := own && !cool
    modRegion r (fun x => { x with ownHot := stays, hot10 := x.hot10 && stays, tstate := b2n (stays || x.envHot) }) s

/-- Region r against a neighbour q of its area: the envelope of temperature (R409). -/
def judgePair (r q : Nat) (s : State) : State :=
  let t := (regionAt s r).tmax
  let u := (regionAt s q).tmax
  let d := max t u - min t u
  let h := if u ≤ t then r else q
  let s := if 25 * 16 < d ∧ (regionAt s h).tstate ≤ 1 then modRegion h (fun x => { x with envHot := true }) (if (regionAt s h).tstate = 0 then throttle h s else s) else s
  if 30 * 16 < d then riskEvent 0x3B05 h (breakRegion 0x3B05 h (if h = r then q else r) s) else s

/-- A region's throttle for its neighbours' sake ends at a difference of 20 °C. -/
def judgeEnvEnd (r : Nat) (s : State) : State :=
  let x := regionAt s r
  if x.envHot ∧ (envelopeOf s r).all fun q => decide (x.tmax - (regionAt s q).tmax ≤ 20 * 16) then modRegion r (fun x => { x with envHot := false }) s else s

/-- Force the sub-banks of a region whose change is pending (R147). -/
def forceSubs (r : Nat) (s : State) : State :=
  let l := s.mm.flatMap fun kv => if powerRegion kv.1 = r then (List.range 4).filterMap fun b => if (subAt kv.2 b).req.isSome then some (kv.1, b) else none else []
  each l (fun x => subChange x.1 x.2) s

/-- End the job that covers a region, the present pick the abort pick (R354, R405, R450): the code ends it after its steps are decided. -/
def regionFatal (code r : Nat) (s : State) : State :=
  let s := match areaOfRegion s r with | some a => commitBefore a s.pick 4 s | none => s
  report code (regionReport s r) s

/-- THM_TRIP (R405): the region's clocks are gated and it is wholly fenced; the map goes to flash (R425). -/
def tripRegion (r : Nat) (s : State) : State :=
  let s := fenceRegion r 1 (forceSubs r s)
  let s := modRegion r (fun x => { x with tstate := 2, throtAt := none, coolAt := none, envHot := false, hot10 := false, ownHot := false }) s
  allowCheck (flashWrite (regionFatal 0x6B02 r s))

/-- A tripped region cools: every good diode below 85 °C (R406). -/
def judgeCooling (r : Nat) (s : State) : State :=
  let cold := (goodDiodes s r).all fun kv => decide (kv.2.last < 85 * 16)
  modRegion r (fun x =>
    if cold then { x with tstate := 3, coolAt := match x.coolAt with | some t => some t | none => some s.up }
    else { x with tstate := 2, coolAt := none }) s

/-- What a new reading leads to. -/
def judgeRegion (r : Nat) (v : Int) (good : Bool) (s : State) : State :=
  match hottest (goodDiodes s r) with
  | none => s
  | some (h, t) =>
    let s := modRegion r (fun x => { x with heddle := h, tmax := t }) s
    if 2 ≤ (regionAt s r).tstate then judgeCooling r s
    else if good && decide (110 * 16 ≤ v) then tripRegion r s
    else
      let s := each (envelopeOf s r) (judgePair r) s
      judgeThrottle r (judgeEnvEnd r s)

/-- DIODE_READ (R403): a heddle's diode reads `reading` (1/16 °C), before the offset of its clock region. -/
def execDiodeRead (heddle : Nat) (reading : Int) (s : State) : Out :=
  guardUnit (sitePresent s.member (suOf heddle)) (fun s =>
    let n := suOf heddle
    let r := powerRegion n
    let v := reading + calEff s (68 + clockRegion n)
    let old := look default s.pwr.diodes heddle
    let d := old.read v (regionAt s r).power
    let s := { s with pwr := { s.pwr with diodes := put default s.pwr.diodes heddle d } }
    let s := if d.bad && !old.bad then count 0x1B04 n 1 s else s
    judgeRegion r v (!d.bad) s) s

/-- THROTTLE_HOLDOFF (R404): after 10 ms at or above THROT the area takes the holdoff rule of R392. -/
def execThrottleHoldoff (region : Nat) (s : State) : Out :=
  atRegion region (fun s => match (regionAt s region).throtAt with
    | none => s
    | some t => modRegion region (fun x => { x with hot10 := true }) (runTo (s.now + (t + 10 * milli - s.up)) s)) s

/-- REGION_RETURN (R406): after 10 s of cooling a tripped region is retested. -/
def execRegionReturn (region : Nat) (o : RetestOutcome) (s : State) : Out :=
  atRegion region (fun s => match (regionAt s region).coolAt with
    | none => s
    | some t =>
      if (regionAt s region).tstate ≠ 3 ∨ look 0 s.fence.regions region ≠ 1 then s
      else
        let s := retestRegion region o.regulatorOk o.sitesFailed (runTo (s.now + (t + 10 * second - s.up)) s)
        let s := modRegion region (fun x => { x with coolAt := none, tstate := if look 0 s.fence.regions region = 0 then 0 else 2 }) s
        let s := allowCheck (flashWrite s)
        if look 0 s.fence.regions region = 0 then report 0x1B03 (regionReport s region) s else s) s

/-! ## Coolant (R407, R408) -/

/-- The member's required flow, 0.01 L/min (00). -/
def requiredFlow (m : Nat) : Nat := if m = 8 then 3000 else if m = 4 then 1600 else 900

/-- The coolant limit from the 1 s means (R408): each term only where it is below PMAX, never below PMIN. -/
def coolantLimit (s : State) (inlet : Int) (flow : Nat) : Option Nat :=
  let pmax := s.pwr.pmax.val
  let a : Int := pmax * flow / requiredFlow s.member
  let b : Int := (16 * pmax - 10 * (inlet - 35 * 16)) / 16
  let x := min a b
  if x < pmax then some (max s.pwr.pmin.val x.toNat) else none

/-- COOLANT_SAMPLE (R407, R408). -/
def execCoolantSample (c : CoolantSample) (s : State) : Out :=
  .next (
    let out := decide (40 * 16 < c.inlet) || decide (100 * c.flow < 80 * requiredFlow s.member)
    let was := s.pwr.excursion
    let s := recap { s with pwr := { s.pwr with
      flow := c.flow, outlet := c.outlet, inlet := c.inlet, excursion := out, coolLimit := coolantLimit s c.meanInlet c.meanFlow } }
    let s := if out && !was then riskEvent 0x1B06 64 (reportUnit 0x1B06 hubIdx s) else s
    refreshPins s)

/-! ## Shorts (R449, R450) -/

/-- The site SRAM of a region is lost (R450): its sites are as power finds them (log 2), but for the remap entries in flash. -/
def loseSites (r : Nat) (s : State) : State :=
  let here := fun n => decide (powerRegion n = r)
  { s with
    sw := keepTab (fun n => !here n) s.sw
    mm := mapTab default (fun n m => if here n then { (default : Mm) with remap := m.remap } else m) s.mm
    mx := keepTab (fun n => !here n) s.mx
    sf := keepTab (fun n => !here n) s.sf
    su := keepTab (fun n => !here n) s.su }

/-- SHORT_DETECT (R449, R450). -/
def execShortDetect (region : Nat) (s : State) : Out :=
  atRegion region (fun s =>
    if (regionAt s region).vstate = 2 then s
    else
      let s := forceSubs region s
      let s := modRegion region (fun x => { x with vstate := 2, on := false, tstate := 0, coolAt := none, throtAt := none, hot10 := false, envHot := false, ownHot := false }) s
      let s := regionFatal 0x6A20 region s
      allowCheck (flashWrite (fenceRegion region 2 (loseSites region s)))) s

/-! ## Commands (R398, R410) -/

/-- PWR_SET_CAP. -/
def execPwrSetCap (port m : Nat) (s : State) : Out :=
  mbxRun 0x0400 (plenIs 8) .device false false (fun p m c s =>
    let v := par c 0 2
    if par c 2 6 ≠ 0 ∨ 511 < v then mbxDone p m mBadParam s
    else match writeCap v s with
      | (some _, s) => mbxDone p m mBadParam s
      | (none, s) => mbxComplete p m mOk 0 (leBytes 2 s.pwr.cap.val ++ leBytes 2 (s.pwr.shadowCap.getD s.pwr.cap.val) ++ leBytes 4 0) s) port m s

/-- PWR_STATUS. -/
def execPwrStatus (port m : Nat) (s : State) : Out :=
  mbxRun 0x0401 (plenIs 0) .device false false (fun p m _ s =>
    mbxComplete p m mOk 0 (leBytes 8 (pwrIn s) ++ leBytes 4 (pwrEff s) ++ leBytes 4 0
      ++ (List.range 64).flatMap (fun r => leBytes 2 (min 0xFFFF (regionAt s r).power1ms))
      ++ (List.range 64).flatMap (fun r => leBytes 2 (field 16 (regionAt s r).tmax))
      ++ (List.range 16).flatMap (fun a => leBytes 8 ((aregAt s a).energy / 10)) ++ leBytes 8 (s.pwr.idle / 10)) s) port m s

/-- RACK_BUDGET (R398). -/
def execRackBudget (port m : Nat) (s : State) : Out :=
  mbxRun 0x0402 (fun l => decide (8 ≤ l) && decide (l ≤ 72) && decide (l % 2 = 0)) .device false false (fun p m c s =>
    let budget := par c 0 2
    let floor := par c 2 2
    let n := par c 4 1
    let i := par c 5 1
    if hdrPlen c ≠ 8 + 2 * n then mbxDone p m mBadHeader s
    else if par c 6 2 ≠ 0 then mbxDone p m mBadParam s
    else if budget = 0 then mbxDone p m mOk (recap { s with pwr := { s.pwr with grp := none } })
    else if n = 0 ∨ 32 < n ∨ budget < n * floor ∨ floor < s.pwr.pmin.val ∨ n ≤ i ∨ par c (8 + 2 * i) 2 ≠ s.mod.rackPos then mbxDone p m mBadParam s
    else
      let g : Group2 := { (default : Group2) with
        budget := budget, floor := floor, n := n, index := i, assign := floor, lastAssign := s.up
        list := (List.range n).map fun k => par c (8 + 2 * k) 2 }
      mbxDone p m mOk (recap { s with pwr := { s.pwr with grp := some g } })) port m s

end Sys2Proof.Machine
end

