-- ==== Sys2Proof/Machine/Recovery.lean ====
section
/-! DEFINITION. Silent errors, recovery and skim (15): scald, the watch list, the risk level, the skim engine, restore (R444-R460). -/
namespace Sys2Proof.Machine

/-! ## Scald (R447, R448, R460) -/

/-- The clock regions that lie wholly within an area word: those whose every power region it covers (R14). -/
def wholeClockRegions (m w : Nat) : List Nat :=
  (List.range 32).filter fun c =>
    let rs := (List.range (numRegions m)).filter fun r => decide (r / 8 = c / 4) && decide (r % 8 / 2 = c % 4)
    !rs.isEmpty && rs.all (wCovers w)

/-- The sites and links a scald found failing, in the area. -/
def scaldSites (s : State) (w : Nat) (o : ScaldOutcome) : List SiteFailure :=
  o.sitesFailed.filter fun f => sitePresent s.member f.site && wHasSite w f.site

/-- Failing links of an outcome. -/
def failedLinks (f : SiteFailure) : List Nat := (List.range 4).filter (bit f.links)

/-- Is the site itself among the failures, not a link of it alone? -/
def siteItself (f : SiteFailure) : Bool := f.swOff || f.unreach || (failedLinks f).isEmpty

/-- MODE 0: fence, count RAS_SCALD_FAIL; MODE 1: the watch list (R448). -/
def scaldFailure (mode : Nat) (f : SiteFailure) (s : State) : State :=
  if mode = 0 then report 0x1D45 { (default : Report349) with unit := f.site } (fenceFailure f 0x22 s)
  else
    let s := if siteItself f then watchAdd (.site f.site) 0x1D45 s else s
    each (failedLinks f) (fun p => watchAdd (.link f.site p) 0x1D45) s

/-- SCALD (R447). -/
def execScald (port m : Nat) (o : ScaldOutcome) (s : State) : Out :=
  mbxRun 0x0600 (plenIs 8) .area false false (fun p m c s => onArea true p m c (fun a s =>
    let corners := par c 0 1
    let mode := par c 1 1
    if 7 < corners ∨ 1 < mode ∨ par c 2 2 ≠ 0 ∨ !within 1 3600 (par c 4 4) then mbxDone p m mBadParam s
    else if hasJob s a then mbxDone p m mAreaBusy s
    else if mode = 0 ∧ fenceLocked s then mbxDone p m mAccessLocked s
    else
      let w := (areaAt s a).word
      let s := runTo (s.now + o.elapsedMs * milli) s
      let l := scaldSites s w o
      let s := each l (scaldFailure mode) s
      let s := if mode = 0 ∧ !l.isEmpty then allowCheck (flashWrite s) else s
      let s := each ((wRegions w).filter (· < numRegions s.member)) (fun r => modRegion r fun x => { x with vset := x.vnom }) s
      let off : Int := if bit corners 0 then max (-25) (min 0 o.offset) else 0
      let fast := if bit corners 1 then (wholeClockRegions s.member w).foldl (fun n r => n + 2 ^ r) 0 else 0
      let links := l.foldl (fun n f => n + (failedLinks f).length) 0
      mbxComplete p m mOk 0 (leBytes 4 (l.filter siteItself).length ++ leBytes 4 links ++ leBytes 2 (field 16 off)
        ++ leBytes 2 o.temperature ++ leBytes 4 fast ++ leBytes 4 o.elapsedMs) s) s) port m s

/-! ## The watch list (R444-R446) -/

/-- KIND and UNIT of an entry (R460). -/
def watchKind : WatchUnit → Nat
  | .site _ => 1
  | .link _ _ => 2
  | .lane _ _ => 3
  | .channel _ _ => 4
def watchUnitWord : WatchUnit → Nat
  | .site n => n
  | .link n p => n + p * 2 ^ 18
  | .lane p l => p + l * 2 ^ 8
  | .channel k c => k + c * 2 ^ 8

/-- An entry's 16 bytes. -/
def watchBytes (w : Watch) : List Byte :=
  leBytes 1 (watchKind w.u) ++ leBytes 1 w.steps ++ leBytes 2 w.code ++ leBytes 4 (watchUnitWord w.u) ++ leBytes 8 w.added

/-- WATCH_READ. -/
def execWatchRead (port m : Nat) (s : State) : Out :=
  mbxRun 0x0601 (plenIs 8) .device false false (fun p m c s =>
    let n := par c 2 2
    if !within 1 253 n ∨ par c 4 4 ≠ 0 then mbxDone p m mBadParam s
    else
      let l := (s.ras.watch.drop (par c 0 2)).take n
      mbxComplete p m mOk 0 (leBytes 2 s.ras.watch.length ++ leBytes 2 l.length ++ leBytes 12 0 ++ l.flatMap watchBytes) s) port m s

/-- The power region of a unit. -/
def watchRegion : WatchUnit → Nat
  | .site n => powerRegion n
  | .link n _ => powerRegion n
  | .lane p _ => attRegion (32 + p)
  | .channel k _ => attRegion k

/-- Does a fitted unit have that name? -/
def watchPresent (s : State) : WatchUnit → Bool
  | .site n => sitePresent s.member n
  | .link n p => sitePresent s.member n && decide (p < 4)
  | .lane p l => portPresent s.member p && decide (l < 16)
  | .channel k c => stackPresent s.member k && decide (c < 32)

/-- May the unit be tested or changed now: its region in no area, or the area without a job or out of service for remapping (R268, R445)? -/
def testAllowed (s : State) (u : WatchUnit) : Bool :=
  match areaOfRegion s (watchRegion u) with
  | some a => !hasJob s a || (areaAt s a).job.ras == 2
  | none => true

/-- Change the entry of a unit. -/
def modWatch (u : WatchUnit) (f : Watch → Watch) (s : State) : State :=
  { s with ras := { s.ras with watch := s.ras.watch.map fun w => if w.u = u then f w else w } }

/-- The entry of a unit. -/
def watchOf (s : State) (u : WatchUnit) : Option Watch := s.ras.watch.find? fun w => w.u == u

/-- The in-service self-test of a site or link: a failure fences it (R445). -/
def siteTest (u : WatchUnit) (pass : Bool) (s : State) : State :=
  if !testAllowed s u then s
  else
    let s := match watchOf s u with
      | some w => runTo (s.now + (w.lastTest + 10 * minute - s.up)) s
      | none => s
    let s := modWatch u (fun w => { w with lastTest := s.up, testedOk := w.testedOk && pass }) s
    if pass then s
    else match u with
      | .site n => allowCheck (flashWrite (fenceSite n 0x10 false false s))
      | .link n p => allowCheck (flashWrite (fenceLink n p 0x12 s))
      | _ => s

/-- A lane's or channel's recurrences lead to one adjustment step each (R445); a lane's while it is the spare. -/
def unitAdjust (u : WatchUnit) (s : State) : State :=
  match watchOf s u with
  | none => s
  | some w =>
    let may := match u with
      | .lane p l => decide ((look default (shtAt s p).lanes l).role = 15) || decide (4 ≤ adjustSteps s u)
      | _ => testAllowed s u
    if w.recur = 0 ∨ !may then s else modWatch u (fun w => { w with recur := w.recur - 1 }) (adjustUnit u s)

/-- WATCH_TEST (R445, R446). -/
def execWatchTest (u : WatchUnit) (pass : Bool) (s : State) : Out :=
  guardUnit (watchPresent s u) (fun s => match u with
    | .site _ => siteTest u pass s
    | .link _ _ => siteTest u pass s
    | _ => unitAdjust u s) s

/-- WATCH_CLEAR (R446): 7 days without a trigger, every test passed. -/
def execWatchClear (u : WatchUnit) (s : State) : Out :=
  .next (match watchOf s u with
    | none => s
    | some w =>
      if !w.testedOk then s
      else
        let s := runTo (s.now + (w.lastTrig + 7 * 24 * hour - s.up)) s
        count 0x1D41 hubIdx 1 { s with ras := { s.ras with watch := s.ras.watch.filter fun x => x.u != u } })

/-! ## The risk level (R452, R453) -/

/-- Does an event of the last n ACLK with a code lie in the area's regions? -/
def recentEvents (s : State) (a : Nat) (codes : List Nat) (window : Nat) : Nat :=
  (s.ras.recent.filter fun x => codes.contains x.2.1 && decide (s.up < x.1 + window) && wCovers (areaAt s a).word x.2.2).length

/-- The corrected-errors term. -/
def correctedTerm (c : Nat) : Nat := if c < 256 then 0 else min 6 (Nat.log2 (c / 256) + 1)

/-- The least MARGIN of the active lanes of the area's ports in state 3. -/
def leastMargin (s : State) (a : Nat) : Option Nat :=
  ((List.range 32).filter fun p => portPresent s.member p && decide (areaOfAtt s (32 + p) = some a) && decide ((shtAt s p).state = 3)).foldl
    (fun m p => (shtAt s p).lanes.foldl (fun m kv => if kv.2.role = 15 ∨ kv.2.failed then m else match m with
      | none => some kv.2.margin
      | some y => some (min y kv.2.margin)) m) none

/-- The score of an area (R452). -/
def riskScore (s : State) (a : Nat) : Nat :=
  let tenMin := 10 * minute
  let x := areaAt s a
  let corrected := correctedTerm (recentEvents s a [0x2201, 0x2501, 0x2601] tenMin)
  let watched := min 6 (s.ras.watch.filter fun w => wCovers x.word (watchRegion w.u)).length
  let coolant := s.ras.recent.any fun e => e.2.1 == 0x1B06 && decide (s.up < e.1 + hour)
  let thermal := min 6 (2 * recentEvents s a [0x1B01, 0x3B05] hour + 2 * b2n coolant)
  let feeds := decide (feedsPresent s < 2)
  let regulators := min 8 (min 4 (recentEvents s a [0x1A01] tenMin / 64) + 4 * b2n s.pwr.mismatch + 4 * b2n feeds)
  let fec := match leastMargin s a with | some m => min 6 (8 - m) | none => 0
  let shared := 4 * b2n (decide (1 ≤ x.skim.state) && feedShared s (shtAt s x.skim.port).peer.feed)
  let sum := corrected + watched + thermal + regulators + fec + shared
  if (aregAt s a).ovr then 2 * sum else sum

/-- The level of an area: the estimate, raised to FLOOR and lowered to CEIL (R453). -/
def evalRisk (a : Nat) (s : State) : State :=
  let g := aregAt s a
  let score := riskScore s a
  let est := min 7 (score / 4)
  let level := min g.ceil (max g.floor est)
  let s := modAreg a (fun g => { g with score := min 255 score, est := est, level := level }) s
  if g.level < level then reportArea 0x1D44 a s else s

/-- RISK_EVAL (R452). -/
def execRiskEval (s : State) : Out := .next (each ((areaList s).filter (hasJob s)) evalRisk s)

/-! ## Skim partners (R454, R460) -/

/-- The ranges of a SKIM_PARTNER command. -/
def partnerRanges (c : Tab Byte) (n : Nat) : List SkimRange :=
  (List.range n).map fun i =>
    { src := par c (24 + 24 * i) 8, stage := par c (32 + 24 * i) 8, len := par c (40 + 24 * i) 8, count := 0, digest := 0 }

/-- Do two byte ranges overlap? -/
def overlaps (a n b k : Nat) : Bool := decide (a < b + k) && decide (b < a + n)

/-- Ranges as R460 wants them: in the area's stacks, each stage in the stack of its range, no range over another or over a stage. -/
def rangesOk (s : State) (a : Nat) (l : List SkimRange) : Bool :=
  l.all (fun r => decide (r.len % 128 = 0) && inAreaStacks s a r.src r.len && inAreaStacks s a r.stage r.len && decide (dpaStack r.src = dpaStack r.stage))
  && (List.range l.length).all (fun i => (List.range l.length).all fun j =>
    let x := l.getD i default
    let y := l.getD j default
    (decide (i = j) || !overlaps x.src x.len y.src y.len) && !overlaps x.src x.len y.stage y.len)

/-- Does a range or stage name a row of its stack that is reserved (R247)? -/
def namesReserved (s : State) (a : Nat) (l : List SkimRange) : Bool :=
  l.any fun r => [r.src, r.stage].any fun d => decide (areaOfAtt s (dpaStack d) = some a) && decide (userEnd < dpaOff d + r.len)

/-- Is a skim under way? -/
def skimBusy (s : State) (a : Nat) : Bool := decide (2 ≤ (areaAt s a).skim.state)

/-- SKIM_PARTNER with OP 0 (R454). A PORT that is absent (R4) or a reserved row (R247) is refused with NO_UNIT. -/
def execSkimPartnerSet (port m : Nat) (s : State) : Out :=
  mbxRunOp (fun c => par c 0 1 != 1) 0x0602 (fun l => decide (24 ≤ l) && decide (l % 24 = 0)) .area false false (fun p m c s =>
    onArea true p m c (fun a s =>
      let q := par c 1 1
      let dev := par c 2 2
      let n := par c 4 4
      let l := partnerRanges c n
      let x := (shtAt s q).peer
      if !within 1 160 n then mbxDone p m mBadParam s
      else if hdrPlen c ≠ 24 + 24 * n then mbxDone p m mBadHeader s
      else if !portPresent s.member q ∨ namesReserved s a l then mbxDone p m mNoUnit s
      else if par c 0 1 ≠ 0 ∨ 0xFFF < dev ∨ areaOfAtt s (32 + q) ≠ some a ∨ !rangesOk s a l
          ∨ 2 ^ 41 ≤ par c 8 8 ∨ 2 ^ 41 ≤ par c 16 8 then mbxDone p m mBadParam s
      else if skimBusy s a then mbxDone p m mAreaBusy s
      else if !x.hello ∨ x.devid ≠ dev then mbxDone p m mNoRoute s
      else if feedShared s x.feed ∧ !(aregAt s a).ovr then mbxCode p m 0x8D53 0 s
      else mbxDone p m mOk (modArea a (fun y => { y with skim := { Skim.reset with
        state := 1, port := q, partner := dev, bufs := (par c 8 8, par c 16 8), ranges := l } }) s)) s) port m s

/-- SKIM_PARTNER with OP 1. -/
def execSkimPartnerClear (port m : Nat) (s : State) : Out :=
  mbxRunOp (fun c => par c 0 1 == 1) 0x0602 (fun l => decide (24 ≤ l) && decide (l % 24 = 0)) .area false false (fun p m c s =>
    onArea true p m c (fun a s =>
      if skimBusy s a then mbxDone p m mAreaBusy s
      else mbxDone p m mOk (modArea a (fun y => { y with skim := Skim.reset }) s)) s) port m s

/-- SKIM_OVERRIDE with 1. -/
def execSkimOverrideSet (port m : Nat) (s : State) : Out :=
  mbxRunOp (fun c => par c 0 1 != 0) 0x0603 (plenIs 8) .area false false (fun p m c s =>
    onArea true p m c (fun a s =>
      if par c 0 1 ≠ 1 ∨ par c 1 7 ≠ 0 then mbxDone p m mBadParam s
      else mbxDone p m mOk (modAreg a (fun g => { g with ovr := true }) s)) s) port m s

/-- SKIM_OVERRIDE with 0. -/
def execSkimOverrideClear (port m : Nat) (s : State) : Out :=
  mbxRunOp (fun c => par c 0 1 == 0) 0x0603 (plenIs 8) .area false false (fun p m c s =>
    onArea true p m c (fun a s =>
      if par c 1 7 ≠ 0 then mbxDone p m mBadParam s
      else mbxDone p m mOk (modAreg a (fun g => { g with ovr := false }) s)) s) port m s

/-! ## The skim engine (R456-R458) -/

/-- The buffer of the current skim at the partner. -/
def skimBufDpa (k : Skim) : Nat := if k.buf = 0 then k.bufs.1 else k.bufs.2

/-- Send one RMA write of the skim on the skim port, whatever the routing table holds. -/
def skimWrite (a dst : Nat) (b : List Byte) (s : State) : State :=
  let k := (areaAt s a).skim
  let tag := 2 ^ 15 + s.fab.nextTag % 2 ^ 15
  let pay := leBytes 8 dst ++ leBytes 4 b.length ++ leBytes 4 tag ++ b
  let s := { s with fab := { s.fab with nextTag := (s.fab.nextTag + 1) % 2 ^ 15 } }
  queueFrame k.port (mkFrame 0x21 1 k.partner (ownSrc s) 31 pay) (modArea a (fun x => { x with skim := { x.skim with outstanding := x.skim.outstanding + 1 } }) s)

/-- Where byte n of the ranges lies: its range and its place in it. -/
def rangeCursor : List SkimRange → Nat → Option (Nat × Nat)
  | [], _ => none
  | r :: l, n => if n < r.len then some (0, n) else (rangeCursor l (n - r.len)).map fun x => (x.1 + 1, x.2)

/-- The seal record (R457). -/
def sealRecord (s : State) (k : Skim) : List Byte :=
  leBytes 4 0x4D4B5358 ++ leBytes 2 1 ++ leBytes 2 k.ranges.length ++ leBytes 8 s.mod.serial ++ leBytes 8 k.step ++ leBytes 8 k.draftId
  ++ leBytes 2 k.word ++ leBytes 2 k.buf ++ leBytes 4 0 ++ leBytes 8 s.pick ++ leBytes 16 0
  ++ sub (k.ranges.flatMap fun r => leBytes 8 r.src ++ leBytes 8 r.len ++ leBytes 8 r.digest.toNat) 0 4032

/-- Bytes written at a DPA in parts that each lie within one aligned 4,096-B block. -/
def skimWrites (a : Nat) : Nat → Nat → List Byte → State → State
  | 0, _, _, s => s
  | f + 1, d, b, s =>
    let n := 4096 - d % 4096
    if b.isEmpty then s else skimWrites a f (d + n) (b.drop n) (skimWrite a d (b.take n) s)

/-- SKIM_SEND (R456): the engine's next write: MAGIC zeroed, the stages in order, and once every write is answered the seal. -/
def execSkimSend (area : Nat) (s : State) : Out :=
  atArea area (fun s =>
    let k := (areaAt s area).skim
    let f := fun (g : Skim → Skim) (s : State) => modArea area (fun x => { x with skim := g x.skim }) s
    if k.state ≠ 3 ∨ k.sealing ∨ 64 ≤ k.outstanding then s
    else if !k.began then
      let none_ := 2 ^ 64 - 1
      skimWrite area (skimBufDpa k) (leBytes 4 0) (f (fun k => { k with
        began := true, seals := if k.buf = 0 then (none_, k.seals.2) else (k.seals.1, none_) }) s)
    else match rangeCursor k.ranges k.sent with
      | some (i, o) =>
        let r := k.ranges.getD i default
        let d := skimBufDpa k + (rangePlaces 4096 (k.ranges.map SkimRange.len)).getD i 0 + o
        let n := min (r.len - o) (4096 - d % 4096)
        let x := elasticRead (r.stage + o) n false s
        skimWrite area d x.1 (f (fun k => { k with sent := k.sent + n }) x.2.2)
      | none =>
        if k.outstanding = 0 then skimWrites area 2 (skimBufDpa k) (sealRecord s k) (f (fun k => { k with sealing := true }) s) else s) s

/-- SKIM_WRITE_ANSWER (R456, R458): `status` 0 OK, 1 DENIED, 3 RANGE as R312, 5 NO_ROUTE. -/
def execSkimWriteAnswer (area status : Nat) (s : State) : Out :=
  atArea area (fun s =>
    let k := (areaAt s area).skim
    if k.state ≠ 3 ∨ k.outstanding = 0 then s
    else if status = 1 then failSkim area 1 s
    else if status = 3 then failSkim area 2 s
    else if status = 5 then failSkim area 3 s
    else if status ≠ 0 then s
    else
      let s := modArea area (fun x => { x with skim := { x.skim with outstanding := k.outstanding - 1, lastAt := s.up } }) s
      if k.sealing ∧ k.outstanding = 1 then
        count 0x1D50 area 1 (modArea area (fun x => { x with skim := { x.skim with
          state := 1, sealing := false, seals := if k.buf = 0 then (k.step, k.seals.2) else (k.seals.1, k.step) } }) s)
      else s) s

/-- SKIM_STALL (R458): no write answered for 10 s. -/
def execSkimStall (area : Nat) (s : State) : Out :=
  atArea area (fun s =>
    let k := (areaAt s area).skim
    if k.state ≠ 3 then s else failSkim area 4 (runTo (s.now + (k.lastAt + 10 * second - s.up)) s)) s

/-! ## Restore (R459) -/

/-- RESTORE with OP 0: the seal records are asked for; R459's other steps follow as the answers come. -/
def execRestore (port m : Nat) (s : State) : Out :=
  mbxRunOp (fun c => par c 0 1 != 1) 0x0604 (plenIs 24) .area false false (fun p m c s =>
    onArea true p m c (fun a s =>
      let b := par c 1 1
      let dev := par c 2 2
      let d0 := par c 8 8
      let d1 := par c 16 8
      if par c 0 1 ≠ 0 ∨ 2 < b ∨ 4094 < dev ∨ par c 4 4 ≠ 0 ∨ 2 ^ 41 ≤ d0 ∨ 2 ^ 41 ≤ d1 then mbxDone p m mBadParam s
      else if hasJob s a then mbxDone p m mAreaBusy s
      else
        let id := s.nextJob
        let bufs := if b = 0 then [d0] else if b = 1 then [d1] else [d0, d1]
        let x : Restore := { area := a, dev := dev, bufs := bufs, sealRec := none, base := 0 }
        let j : RemoteJob := { id := id, port := p, m := m, list := [], sours := 0, bad := false, restore := some x }
        let reqs := (List.range bufs.length).foldl (fun (l : List Rma) i =>
          l ++ splitRma id dev false 2 (s.fab.nextTag + l.length) (bufs.getD i 0) (4096 * i) 4096 []) []
        stirRemote (addRmas reqs { s with nextJob := id + 1, remote := s.remote ++ [j] })) s) port m s

end Sys2Proof.Machine
end

