-- ==== Sys2Proof/Machine/Security.lean ====
section
/-! DEFINITION. Identity and boot security (16): certificate, attestation and its signature state, owner key, debug unlock, firmware
update (R466-R475). -/
namespace Sys2Proof.Machine

/-! ## The certificate (R468) -/

/-- The identity certificate; key, date and signature are the factory's. -/
def certificateBytes (s : State) : List Byte :=
  leBytes 4 0x54435844 ++ leBytes 2 1 ++ leBytes 1 s.member ++ leBytes 1 0 ++ leBytes 8 s.mod.serial ++ sub Config.certificate 0x10 60 ++ leBytes 4 0
  ++ sub Config.certificate 0x50 8 ++ List.replicate 40 0 ++ sub Config.certificate 0x80 3604

/-- DRASAL_CERT. -/
def execDrasalCert (port m : Nat) (s : State) : Out :=
  mbxRun 0x0700 (plenIs 0) .device false false (fun p m _ s => mbxComplete p m mOk 0 (certificateBytes s) s) port m s

/-! ## Signature state (R470-R472) -/

/-- The indexes a tree of height 20 has. -/
def treeSize : Nat := 2 ^ 20

/-- Above an index q a reservation Q (R470). -/
def reserve (Q q : Nat) : Nat := if Q ≤ q then q + 1024 else Q

/-- A spent bottom tree gives way to its successor, whose key the top tree signs (R470-R472). -/
def nextTree (c : Sec) : Sec :=
  if c.bottom < treeSize then c
  else
    { c with
      top := c.top + 1, topQ := reserve c.topQ c.top, topFuse := max c.topFuse ((c.top + 1) / 16384)
      bottom := 0, bottomQ := 0, nextRdy := false }

/-- Is there an index to sign with? -/
def canSign (c : Sec) : Bool := (decide (c.bottom < treeSize) || c.nextRdy) && decide (c.top < treeSize)

/-- Use the next bottom index: never one at or above the reservation in flash. -/
def useIndex (c : Sec) : Sec :=
  let c := nextTree c
  { c with bottom := c.bottom + 1, bottomQ := reserve c.bottomQ c.bottom }

/-- The signature the next index makes. -/
def signNext (c : Sec) (msg : List Byte) : List Byte := let c := nextTree c; sub (Config.hssSign c.top c.bottom msg) 0 3604

/-- BOTTOM_TREE_READY (R472): built once three quarters of the tree are used. -/
def execBottomTreeReady (s : State) : Out :=
  .next (if 786432 ≤ s.sec.bottom ∧ !s.sec.nextRdy then { s with sec := { s.sec with nextRdy := true } } else s)

/-! ## Attestation (R469) -/

/-- The draft that ran an area's last committed step; else the one in the active bank. -/
def committedDraft (x : Area) : Draft :=
  let act := look default x.drafts x.bank
  match x.job.committed with
  | none => act
  | some k => match x.drafts.find? fun kv => decide (kv.2.first ≤ k) && decide (k < kv.2.first + kv.2.steps) with
    | some kv => kv.2
    | none => act

/-- The report's entry of an area number. -/
def attestArea (s : State) (a : Nat) : List Byte :=
  let x := areaAt s a
  let d := committedDraft x
  if !x.defined then List.replicate 48 0
  else if d.content.isEmpty then leBytes 2 x.word ++ List.replicate 46 0
  else leBytes 2 x.word ++ leBytes 1 x.job.ras ++ leBytes 1 x.bank ++ leBytes 4 0 ++ leBytes 8 d.id ++ sub d.content 0 32

/-- The report. -/
def attestReport (s : State) (nonce : List Byte) : List Byte :=
  let g := slotImage s s.sec.slot
  leBytes 4 0x54415844 ++ leBytes 2 1 ++ leBytes 2 0 ++ leBytes 8 s.mod.serial ++ nonce ++ leBytes 8 s.pick ++ leBytes 4 Config.romVersion
  ++ leBytes 4 (fwVersion g) ++ sub g 0x18 32 ++ leBytes 1 (fwSvn g) ++ leBytes 1 s.sec.rollback
  ++ leBytes 1 (s.sec.slot + 2 * b2n s.sec.fallback + 4 * b2n s.sec.pendingFw + 8 * b2n (s.sec.dbgEn.val == 1)) ++ leBytes 1 0 ++ leBytes 4 s.sec.lock.val
  ++ ownerHash s ++ fenceDigest s (deviceWord s.member 0) [] ++ List.replicate 24 0 ++ (List.range 16).flatMap (attestArea s)

/-- DRASAL_ATTEST: every field is sampled at one pick boundary; the report and then its signature go to the host's buffer. -/
def execDrasalAttest (port m : Nat) (s : State) : Out :=
  mbxRun 0x0701 (plenIs 48) .device false false (fun p m c s =>
    let n := par c 32 4
    let x := scatterList s p (par c 40 8) n
    if n < 4564 ∨ par c 36 4 ≠ 0 ∨ !x.2 then mbxDone p m mBadParam s
    else if !canSign s.sec then mbxCode p m 0x8C22 0 s
    else
      let s := toPick ((s.now + 7) / 8) s
      let r := attestReport s (parBytes c 0 32)
      let sig := signNext s.sec r
      let s := toHost p x.1 0 (r ++ sig) { s with sec := useIndex s.sec }
      mbxComplete p m mOk 0 (leBytes 4 960 ++ leBytes 4 3604) s) port m s

/-! ## The owner key (R473) -/

/-- OWNER_ENROL. -/
def execOwnerEnrol (port m : Nat) (s : State) : Out :=
  mbxRun 0x0702 (plenIs 32) .device false false (fun p m c s =>
    if bit s.sec.lock.val 2 then mbxDone p m mAccessLocked s
    else mbxDone p m mOk { s with sec := { s.sec with owner := (List.range 8).map fun w => Tri.of (par c (4 * w) 4) } }) port m s

/-! ## Debug unlock (R475) -/

/-- Locked, or a job is present: OP 0 and OP 1 alike. -/
def debugRefusal (s : State) : Option Nat := if bit s.sec.lock.val 1 then some mAccessLocked else if anyJob s then some mAreaBusy else none

/-- DEBUG_UNLOCK with OP 0: `random` is the challenge drawn. -/
def execDebugUnlockChallenge (port m : Nat) (random : BitVec 256) (s : State) : Out :=
  mbxRunOp (fun c => par c 0 1 != 1 && par c 0 1 != 2) 0x0703 (fun l => decide (1 ≤ l)) .device false false (fun p m c s =>
    if par c 0 1 ≠ 0 then mbxDone p m mBadParam s
    else match debugRefusal s with
      | some e => mbxDone p m e s
      | none => mbxComplete p m mOk 0 (leBytes 32 random.toNat) { s with sec := { s.sec with challenge := some (random, s.up) } }) port m s

/-- Does the host's key and signature open the debug lock: the owner's key, or one of the debug authority (log 65)? -/
def debugSigOk (s : State) (challenge : BitVec 256) (key sig : List Byte) : Bool :=
  let owner := ownerEnrolled s
  (if owner then decide (sha256 key = ownerHash s) else decide (sha256 key = sha256 s.sec.dbgKey))
  && Config.hssVerify owner key (leBytes 8 s.mod.serial ++ leBytes 32 challenge.toNat) sig

/-- DEBUG_UNLOCK with OP 1. -/
def execDebugUnlockResponse (port m : Nat) (s : State) : Out :=
  mbxRunOp (fun c => par c 0 1 == 1) 0x0703 (fun l => decide (1 ≤ l)) .device false false (fun p m c s =>
    match debugRefusal s with
    | some e => mbxDone p m e s
    | none => match s.sec.challenge with
      | none => mbxCode p m 0x8C23 0 s
      | some (r, t) =>
        if t + 60 * second < s.up ∨ !debugSigOk s r (parBytes c 8 60) (parBytes c 68 (hdrPlen c - 68)) then mbxCode p m 0x8C23 0 s
        else mbxDone p m mOk (reportUnit 0x1C32 hubIdx { s with sec := { s.sec with dbgEn := Tri.of 1 } })) port m s

/-- DEBUG_UNLOCK with OP 2: permitted at any time. -/
def execDebugUnlockDisable (port m : Nat) (s : State) : Out :=
  mbxRunOp (fun c => par c 0 1 == 2) 0x0703 (fun l => decide (1 ≤ l)) .device false false (fun p m _ s =>
    mbxDone p m mOk { s with sec := { s.sec with dbgEn := Tri.of 0 } }) port m s

/-- DEBUG_CHALLENGE_EXPIRY: 60 s after its issue the challenge is stale. -/
def execDebugChallengeExpiry (s : State) : Out :=
  .next (match s.sec.challenge with
    | none => s
    | some (_, t) =>
      let s := runTo (s.now + (t + 60 * second - s.up)) s
      { s with sec := { s.sec with challenge := none } })

/-! ## Firmware update (R466, R467) -/

/-- The slot an update goes to: the one that did not boot; in recovery, the one not preferred (log 66). -/
def updateSlot (s : State) : Nat := 1 - (if s.sec.recovery then s.sec.pref else s.sec.slot)

/-- FW_UPDATE: also performed on a quiesced device and by the ROM in recovery (R334, R464). -/
def execFwUpdate (port m : Nat) (s : State) : Out :=
  mbxRun 0x0704 (plenIs 16) .device false (s.bru.fatal || s.sec.recovery) (fun p m c s =>
    let n := par c 0 4
    let x := scatterList s p (par c 8 8) n
    if par c 4 4 ≠ 0 ∨ !x.2 then mbxDone p m mBadParam s
    else
      let g := gatherHost (portAt s p).mem x.1
      if !fwOk s g then mbxCode p m 0x8C20 0 s
      else if fwSvn g < s.sec.rollback then mbxCode p m 0x8C21 0 s
      else
        let i := updateSlot s
        mbxDone p m mOk { s with sec := { s.sec with slots := put default s.sec.slots i ⟨g⟩, pref := i, pendingFw := true } }) port m s

end Sys2Proof.Machine
end

