-- ==== Sys2Proof/Machine/Sideband.lean ====
section
/-! DEFINITION. The rack SMBus target (R379, R486) and the draining of SU samples into PMON windows (R185, R362). -/
namespace Sys2Proof.Machine

/-- The highest region temperature. -/
def maxTemp (s : State) : Int :=
  (fittedRegions s).foldl (fun m r => max m (regionAt s r).tmax) (regionAt s 0).tmax

/-- Command 0x01: input power, effective cap, temperature, flags. -/
def smbStatus (s : State) : List Byte :=
  leBytes 2 (min 0xFFFF (s.pwr.mean1ms / 10)) ++ leBytes 2 (effInForce s) ++ leBytes 2 (field 16 (maxTemp s)) ++ leBytes 1 (smbFlags s) ++ leBytes 9 0

/-- SMB_READ_STATUS (R486): the read clears SMB_ALERT_N. -/
def execSmbReadStatus (s : State) : Out :=
  .next (emitSent (.smbus 0x01 (smbStatus s)) { s with mod := { s.mod with alertN := true } })

/-- Command 0x02: serial, member, generation, feed id, rack position. -/
def smbIdentity (s : State) : List Byte :=
  leBytes 8 s.mod.serial ++ leBytes 1 s.member ++ leBytes 1 1 ++ leBytes 1 s.mod.feedId ++ leBytes 1 0 ++ leBytes 2 s.mod.rackPos ++ leBytes 2 0

/-- SMB_READ_IDENTITY (R486). -/
def execSmbReadIdentity (s : State) : Out := .next (emitSent (.smbus 0x02 (smbIdentity s)) s)

/-- SMBUS_TIMEOUT (R379): the transaction is discarded and counted. -/
def execSmbusTimeout (s : State) : Out := .next (count 0x1D08 hubIdx 1 s)

/-- A record into a window: written at NEXT, the oldest overwritten. -/
def Pmon.push (r : W64) (x : Pmon) : Pmon := { x with recs := put 0 x.recs x.next r, next := (x.next + 1) % 64 }

/-- Does a window take the records of a heddle: EN set, HEDDLE its number? -/
def pmonTakes (h : Nat) (x : Pmon) : Bool := bit x.sel 31 && decide (bits x.sel 13 0 = h)

/-- SAMPLE_DRAIN (R185): the records of an SU, in order, go to every window that selects its heddle. -/
def execSampleDrain (su : Nat) (s : State) : Out :=
  onSite .su su (fun s =>
    if !siteReach s su then s
    else
      let l := (suAt s su).samples
      let s := modSu su (fun u => { u with samples := [] }) s
      { s with mod := { s.mod with pmon := mapTab default (fun _ x => if pmonTakes (heddleOf su) x then l.foldl (fun x r => x.push r) x else x) s.mod.pmon } }) s

end Sys2Proof.Machine
end

