-- ==== Sys2Proof/Machine/Dispatch.lean ====
section
/-! DEFINITION. One arm per command: the meaning of the command on everything but the queue. -/
namespace Sys2Proof.Machine

def exec (i : Instr) (s : State) : Host.Outcome State Fault Refusal :=
  match i with
  | .powerOnReset feedId rackPos => Sys2Proof.Machine.execPowerOnReset feedId rackPos s
  | .bringUp o => Sys2Proof.Machine.execBringUp o s
  | .bringupStageTimeout stage => Sys2Proof.Machine.execBringupStageTimeout stage s
  | .deviceResetDrst feedId rackPos => Sys2Proof.Machine.execDeviceResetDrst feedId rackPos s
  | .portReset port kind => Sys2Proof.Machine.execPortReset port kind s
  | .nop port m => Sys2Proof.Machine.execNop port m s
  | .identify port m => Sys2Proof.Machine.execIdentify port m s
  | .evqSetup port m => Sys2Proof.Machine.execEvqSetup port m s
  | .abort port m => Sys2Proof.Machine.execAbort port m s
  | .deviceReset port m => Sys2Proof.Machine.execDeviceReset port m s
  | .areaCreate port m => Sys2Proof.Machine.execAreaCreate port m s
  | .areaChange port m => Sys2Proof.Machine.execAreaChange port m s
  | .areaRemove port m => Sys2Proof.Machine.execAreaRemove port m s
  | .areaClear port m => Sys2Proof.Machine.execAreaClear port m s
  | .areaTake port m => Sys2Proof.Machine.execAreaTake port m s
  | .draftLoad port m => Sys2Proof.Machine.execDraftLoad port m s
  | .loadFlit su => Sys2Proof.Machine.execLoadFlit su s
  | .warmLoadComplete area => Sys2Proof.Machine.execWarmLoadComplete area s
  | .jobStart port m => Sys2Proof.Machine.execJobStart port m s
  | .jobStartPick area => Sys2Proof.Machine.execJobStartPick area s
  | .jobStatus port m => Sys2Proof.Machine.execJobStatus port m s
  | .bulkWrite port m hostErr => Sys2Proof.Machine.execBulkWrite port m hostErr s
  | .bulkRead port m hostErr => Sys2Proof.Machine.execBulkRead port m hostErr s
  | .remoteRead port m => Sys2Proof.Machine.execRemoteRead port m s
  | .remoteWrite port m => Sys2Proof.Machine.execRemoteWrite port m s
  | .setFabricId port m => Sys2Proof.Machine.execSetFabricId port m s
  | .pwrSetCap port m => Sys2Proof.Machine.execPwrSetCap port m s
  | .pwrStatus port m => Sys2Proof.Machine.execPwrStatus port m s
  | .rackBudget port m => Sys2Proof.Machine.execRackBudget port m s
  | .selftestTest port m o => Sys2Proof.Machine.execSelftestTest port m o s
  | .selftestInstall port m => Sys2Proof.Machine.execSelftestInstall port m s
  | .fenceRead port m => Sys2Proof.Machine.execFenceRead port m s
  | .repairRow port m pprOk => Sys2Proof.Machine.execRepairRow port m pprOk s
  | .repairSiteFence port m => Sys2Proof.Machine.execRepairSiteFence port m s
  | .repairSiteRetest port m pass => Sys2Proof.Machine.execRepairSiteRetest port m pass s
  | .repairChannelRetrain port m pass => Sys2Proof.Machine.execRepairChannelRetrain port m pass s
  | .repairChannelSetRate port m pass => Sys2Proof.Machine.execRepairChannelSetRate port m pass s
  | .scald port m o => Sys2Proof.Machine.execScald port m o s
  | .watchRead port m => Sys2Proof.Machine.execWatchRead port m s
  | .skimPartnerSet port m => Sys2Proof.Machine.execSkimPartnerSet port m s
  | .skimPartnerClear port m => Sys2Proof.Machine.execSkimPartnerClear port m s
  | .skimOverrideSet port m => Sys2Proof.Machine.execSkimOverrideSet port m s
  | .skimOverrideClear port m => Sys2Proof.Machine.execSkimOverrideClear port m s
  | .restore port m => Sys2Proof.Machine.execRestore port m s
  | .restoreResume port m => Sys2Proof.Machine.execRestoreResume port m s
  | .drasalCert port m => Sys2Proof.Machine.execDrasalCert port m s
  | .drasalAttest port m => Sys2Proof.Machine.execDrasalAttest port m s
  | .ownerEnrol port m => Sys2Proof.Machine.execOwnerEnrol port m s
  | .debugUnlockChallenge port m random => Sys2Proof.Machine.execDebugUnlockChallenge port m random s
  | .debugUnlockResponse port m => Sys2Proof.Machine.execDebugUnlockResponse port m s
  | .debugUnlockDisable port m => Sys2Proof.Machine.execDebugUnlockDisable port m s
  | .debugChallengeExpiry => Sys2Proof.Machine.execDebugChallengeExpiry s
  | .fwUpdate port m => Sys2Proof.Machine.execFwUpdate port m s
  | .bottomTreeReady => Sys2Proof.Machine.execBottomTreeReady s
  | .hpcAbortWrite port value => Sys2Proof.Machine.execHpcAbortWrite port value s
  | .abortHwTimeout => Sys2Proof.Machine.execAbortHwTimeout s
  | .hpcDrstWrite port value => Sys2Proof.Machine.execHpcDrstWrite port value s
  | .registerWrite port bar offset size value => Sys2Proof.Machine.execRegisterWrite port bar offset size value s
  | .timPickLoRead port size => Sys2Proof.Machine.execTimPickLoRead port size s
  | .idxDataRead port window => Sys2Proof.Machine.execIdxDataRead port window s
  | .idxDataWrite port window value => Sys2Proof.Machine.execIdxDataWrite port window value s
  | .idxAccessTimeout window write => Sys2Proof.Machine.execIdxAccessTimeout window write s
  | .secLockWrite port value => Sys2Proof.Machine.execSecLockWrite port value s
  | .tripleVoteSweep => Sys2Proof.Machine.execTripleVoteSweep s
  | .mmStageApply window site value => Sys2Proof.Machine.execMmStageApply window site value s
  | .xsStageApply window site value => Sys2Proof.Machine.execXsStageApply window site value s
  | .pwrStageApply port value => Sys2Proof.Machine.execPwrStageApply port value s
  | .shadowApply => Sys2Proof.Machine.execShadowApply s
  | .calUserWrite port k value => Sys2Proof.Machine.execCalUserWrite port k value s
  | .mmInjWrite window site value => Sys2Proof.Machine.execMmInjWrite window site value s
  | .mmRdataRead window site => Sys2Proof.Machine.execMmRdataRead window site s
  | .mmRdataWrite window site value => Sys2Proof.Machine.execMmRdataWrite window site value s
  | .mmPwrRequest window site value => Sys2Proof.Machine.execMmPwrRequest window site value s
  | .mmPwrForce window site value => Sys2Proof.Machine.execMmPwrForce window site value s
  | .subbankStateChange site sub => Sys2Proof.Machine.execSubbankStateChange site sub s
  | .subbankForceTimeout site sub => Sys2Proof.Machine.execSubbankForceTimeout site sub s
  | .subbankReturnOn site sub => Sys2Proof.Machine.execSubbankReturnOn site sub s
  | .shtCtlWrite window p value => Sys2Proof.Machine.execShtCtlWrite window p value s
  | .fabRouteWrite window d value => Sys2Proof.Machine.execFabRouteWrite window d value s
  | .stepStart area => Sys2Proof.Machine.execStepStart area s
  | .stepEndPick area => Sys2Proof.Machine.execStepEndPick area s
  | .exactDigest su => Sys2Proof.Machine.execExactDigest su s
  | .stepCommit area => Sys2Proof.Machine.execStepCommit area s
  | .remap area o => Sys2Proof.Machine.execRemap area o s
  | .remapTimeout area => Sys2Proof.Machine.execRemapTimeout area s
  | .jobResume area => Sys2Proof.Machine.execJobResume area s
  | .haltReach site => Sys2Proof.Machine.execHaltReach site s
  | .weaveEntryExec site out => Sys2Proof.Machine.execWeaveEntryExec site out s
  | .flitArrival site inp u => Sys2Proof.Machine.execFlitArrival site inp u s
  | .controlTokenArrival su flip => Sys2Proof.Machine.execControlTokenArrival su flip s
  | .tokenWindowExpiry site out => Sys2Proof.Machine.execTokenWindowExpiry site out s
  | .fellBankSwitch site out => Sys2Proof.Machine.execFellBankSwitch site out s
  | .pageTakeEffect su => Sys2Proof.Machine.execPageTakeEffect su s
  | .creditReturn att loop => Sys2Proof.Machine.execCreditReturn att loop s
  | .wrpCreditHang att loop => Sys2Proof.Machine.execWrpCreditHang att loop s
  | .tokenTableEmit su pos => Sys2Proof.Machine.execTokenTableEmit su pos s
  | .mmDelivery site => Sys2Proof.Machine.execMmDelivery site s
  | .pullEntryExec site => Sys2Proof.Machine.execPullEntryExec site s
  | .eccWriteBack site => Sys2Proof.Machine.execEccWriteBack site s
  | .dmaOpArrival site => Sys2Proof.Machine.execDmaOpArrival site s
  | .dmaQueueService site sub => Sys2Proof.Machine.execDmaQueueService site sub s
  | .edgeDmaSlot att site => Sys2Proof.Machine.execEdgeDmaSlot att site s
  | .fillSlot att heddle => Sys2Proof.Machine.execFillSlot att heddle s
  | .mmScrub site sub => Sys2Proof.Machine.execMmScrub site sub s
  | .ringDelivery site => Sys2Proof.Machine.execRingDelivery site s
  | .siteStart site => Sys2Proof.Machine.execSiteStart site s
  | .mxNop site w => Sys2Proof.Machine.execMxNop site w s
  | .mxEnd site w => Sys2Proof.Machine.execMxEnd site w s
  | .mxWait site w => Sys2Proof.Machine.execMxWait site w s
  | .mxWpk site w => Sys2Proof.Machine.execMxWpk site w s
  | .mxLoop site w => Sys2Proof.Machine.execMxLoop site w s
  | .setm site w => Sys2Proof.Machine.execSetm site w s
  | .seta site w => Sys2Proof.Machine.execSeta site w s
  | .adda site w => Sys2Proof.Machine.execAdda site w s
  | .setf site w => Sys2Proof.Machine.execSetf site w s
  | .rel site w => Sys2Proof.Machine.execRel site w s
  | .lds site w => Sys2Proof.Machine.execLds site w s
  | .ldss site w => Sys2Proof.Machine.execLdss site w s
  | .ldc site w => Sys2Proof.Machine.execLdc site w s
  | .genc site w => Sys2Proof.Machine.execGenc site w s
  | .mac site w => Sys2Proof.Machine.execMac site w s
  | .macBlockEntry site upset => Sys2Proof.Machine.execMacBlockEntry site upset s
  | .out site w => Sys2Proof.Machine.execOut site w s
  | .outs site w => Sys2Proof.Machine.execOuts site w s
  | .acc site w => Sys2Proof.Machine.execAcc site w s
  | .spmac site w => Sys2Proof.Machine.execSpmac site w s
  | .ldk site w => Sys2Proof.Machine.execLdk site w s
  | .setau site w => Sys2Proof.Machine.execSetau site w s
  | .sfNop site w => Sys2Proof.Machine.execSfNop site w s
  | .sfEnd site w => Sys2Proof.Machine.execSfEnd site w s
  | .sfWait site w => Sys2Proof.Machine.execSfWait site w s
  | .sfWpk site w => Sys2Proof.Machine.execSfWpk site w s
  | .sfLoop site w => Sys2Proof.Machine.execSfLoop site w s
  | .sfBr site w => Sys2Proof.Machine.execSfBr site w s
  | .bz site w => Sys2Proof.Machine.execBz site w s
  | .bnz site w => Sys2Proof.Machine.execBnz site w s
  | .sli site w => Sys2Proof.Machine.execSli site w s
  | .sadd site w => Sys2Proof.Machine.execSadd site w s
  | .smovv site w => Sys2Proof.Machine.execSmovv site w s
  | .getpk site w => Sys2Proof.Machine.execGetpk site w s
  | .fadd site w => Sys2Proof.Machine.execFadd site w s
  | .fsub site w => Sys2Proof.Machine.execFsub site w s
  | .fmul site w => Sys2Proof.Machine.execFmul site w s
  | .ffma site w => Sys2Proof.Machine.execFfma site w s
  | .fmin site w => Sys2Proof.Machine.execFmin site w s
  | .fmax site w => Sys2Proof.Machine.execFmax site w s
  | .fcmp site w => Sys2Proof.Machine.execFcmp site w s
  | .iadd site w => Sys2Proof.Machine.execIadd site w s
  | .isub site w => Sys2Proof.Machine.execIsub site w s
  | .imul site w => Sys2Proof.Machine.execImul site w s
  | .imulh site w => Sys2Proof.Machine.execImulh site w s
  | .iand site w => Sys2Proof.Machine.execIand site w s
  | .ior site w => Sys2Proof.Machine.execIor site w s
  | .ixor site w => Sys2Proof.Machine.execIxor site w s
  | .ishl site w => Sys2Proof.Machine.execIshl site w s
  | .ishr site w => Sys2Proof.Machine.execIshr site w s
  | .isra site w => Sys2Proof.Machine.execIsra site w s
  | .icmp site w => Sys2Proof.Machine.execIcmp site w s
  | .sel site w => Sys2Proof.Machine.execSel site w s
  | .cvt site w => Sys2Proof.Machine.execCvt site w s
  | .cvtmx site w => Sys2Proof.Machine.execCvtmx site w s
  | .fexp site w => Sys2Proof.Machine.execFexp site w s
  | .fexp2 site w => Sys2Proof.Machine.execFexp2 site w s
  | .fexpsub site w => Sys2Proof.Machine.execFexpsub site w s
  | .flog site w => Sys2Proof.Machine.execFlog site w s
  | .flog2 site w => Sys2Proof.Machine.execFlog2 site w s
  | .frcp site w => Sys2Proof.Machine.execFrcp site w s
  | .frsq site w => Sys2Proof.Machine.execFrsq site w s
  | .fsqrt site w => Sys2Proof.Machine.execFsqrt site w s
  | .ftanh site w => Sys2Proof.Machine.execFtanh site w s
  | .fsig site w => Sys2Proof.Machine.execFsig site w s
  | .ferf site w => Sys2Proof.Machine.execFerf site w s
  | .fgelu site w => Sys2Proof.Machine.execFgelu site w s
  | .rsum site w => Sys2Proof.Machine.execRsum site w s
  | .rmax site w => Sys2Proof.Machine.execRmax site w s
  | .rmin site w => Sys2Proof.Machine.execRmin site w s
  | .rrsum site w => Sys2Proof.Machine.execRrsum site w s
  | .perm site w => Sys2Proof.Machine.execPerm site w s
  | .bcast site w => Sys2Proof.Machine.execBcast site w s
  | .ldv site w => Sys2Proof.Machine.execLdv site w s
  | .stv site w => Sys2Proof.Machine.execStv site w s
  | .send site w => Sys2Proof.Machine.execSend site w s
  | .hash site w => Sys2Proof.Machine.execHash site w s
  | .rng site w => Sys2Proof.Machine.execRng site w s
  | .sortcx site w => Sys2Proof.Machine.execSortcx site w s
  | .topki site w => Sys2Proof.Machine.execTopki site w s
  | .topk site w => Sys2Proof.Machine.execTopk site w s
  | .suNop site w => Sys2Proof.Machine.execSuNop site w s
  | .suWait site w => Sys2Proof.Machine.execSuWait site w s
  | .wt site w => Sys2Proof.Machine.execWt site w s
  | .suLoop site w => Sys2Proof.Machine.execSuLoop site w s
  | .suBr site w => Sys2Proof.Machine.execSuBr site w s
  | .sett site w => Sys2Proof.Machine.execSett site w s
  | .addt site w => Sys2Proof.Machine.execAddt site w s
  | .go site w => Sys2Proof.Machine.execGo site w s
  | .page site w => Sys2Proof.Machine.execPage site w s
  | .fell site w => Sys2Proof.Machine.execFell site w s
  | .cwait site w => Sys2Proof.Machine.execCwait site w s
  | .qwait site w => Sys2Proof.Machine.execQwait site w s
  | .join site w => Sys2Proof.Machine.execJoin site w s
  | .joinReady su => Sys2Proof.Machine.execJoinReady su s
  | .barrierFlit su => Sys2Proof.Machine.execBarrierFlit su s
  | .barrierFlitSend su down => Sys2Proof.Machine.execBarrierFlitSend su down s
  | .barrierWindowEnd su => Sys2Proof.Machine.execBarrierWindowEnd su s
  | .samp site w => Sys2Proof.Machine.execSamp site w s
  | .descriptorFlit site => Sys2Proof.Machine.execDescriptorFlit site s
  | .readerEmit site => Sys2Proof.Machine.execReaderEmit site s
  | .updateFlit site => Sys2Proof.Machine.execUpdateFlit site s
  | .accQueueServe site bank => Sys2Proof.Machine.execAccQueueServe site bank s
  | .flushEmit site => Sys2Proof.Machine.execFlushEmit site s
  | .skipAlarmEval => Sys2Proof.Machine.execSkipAlarmEval s
  | .hbmRequest stack => Sys2Proof.Machine.execHbmRequest stack s
  | .hbmGrainAccess stack ch => Sys2Proof.Machine.execHbmGrainAccess stack ch s
  | .hbmWriteBack stack ch => Sys2Proof.Machine.execHbmWriteBack stack ch s
  | .hbmReturnRelease stack => Sys2Proof.Machine.execHbmReturnRelease stack s
  | .hbmFrameStart stack => Sys2Proof.Machine.execHbmFrameStart stack s
  | .gatherWindowStart stack => Sys2Proof.Machine.execGatherWindowStart stack s
  | .hbmScrub stack => Sys2Proof.Machine.execHbmScrub stack s
  | .hbmTrainStep stack margin temp converged => Sys2Proof.Machine.execHbmTrainStep stack margin temp converged s
  | .hbmCaPar stack ch => Sys2Proof.Machine.execHbmCaPar stack ch s
  | .hbmOdecc stack ch => Sys2Proof.Machine.execHbmOdecc stack ch s
  | .elasticStackAccess dpa len data => Sys2Proof.Machine.execElasticStackAccess dpa len data s
  | .pickFrameSend p => Sys2Proof.Machine.execPickFrameSend p s
  | .slotTake p => Sys2Proof.Machine.execSlotTake p s
  | .codewordDecode p o => Sys2Proof.Machine.execCodewordDecode p o s
  | .laneFail p lane => Sys2Proof.Machine.execLaneFail p lane s
  | .pickHeaderReceive p f => Sys2Proof.Machine.execPickHeaderReceive p f s
  | .slotPush p => Sys2Proof.Machine.execSlotPush p s
  | .elasticFrameReceive p frame bad => Sys2Proof.Machine.execElasticFrameReceive p frame bad s
  | .elasticFrameSend p => Sys2Proof.Machine.execElasticFrameSend p s
  | .linkFrameSend p => Sys2Proof.Machine.execLinkFrameSend p s
  | .linkFrame p ownDelta payload => Sys2Proof.Machine.execLinkFrame p ownDelta payload s
  | .signalDetect p => Sys2Proof.Machine.execSignalDetect p s
  | .portTrained p o => Sys2Proof.Machine.execPortTrained p o s
  | .trainingTimeout p => Sys2Proof.Machine.execTrainingTimeout p s
  | .lossOfSignal p => Sys2Proof.Machine.execLossOfSignal p s
  | .rotationPoint p => Sys2Proof.Machine.execRotationPoint p s
  | .pickSteer => Sys2Proof.Machine.execPickSteer s
  | .upstreamLoss => Sys2Proof.Machine.execUpstreamLoss s
  | .holdoverExpiry => Sys2Proof.Machine.execHoldoverExpiry s
  | .betterOffer p => Sys2Proof.Machine.execBetterOffer p s
  | .masterProposal => Sys2Proof.Machine.execMasterProposal s
  | .epochInEdge width => Sys2Proof.Machine.execEpochInEdge width s
  | .epochOutPulse => Sys2Proof.Machine.execEpochOutPulse s
  | .refclkLoss => Sys2Proof.Machine.execRefclkLoss s
  | .helloSend p => Sys2Proof.Machine.execHelloSend p s
  | .helloReceive p payload => Sys2Proof.Machine.execHelloReceive p payload s
  | .helloTimeout p => Sys2Proof.Machine.execHelloTimeout p s
  | .routeSend p => Sys2Proof.Machine.execRouteSend p s
  | .routeReceive p payload => Sys2Proof.Machine.execRouteReceive p payload s
  | .routedFrame frame => Sys2Proof.Machine.execRoutedFrame frame s
  | .rmaRequest frame => Sys2Proof.Machine.execRmaRequest frame s
  | .rmaResponse frame => Sys2Proof.Machine.execRmaResponse frame s
  | .rmaTimeout tag => Sys2Proof.Machine.execRmaTimeout tag s
  | .tallyBuild p => Sys2Proof.Machine.execTallyBuild p s
  | .tallyReceive p payload => Sys2Proof.Machine.execTallyReceive p payload s
  | .fbPageSend exch peer => Sys2Proof.Machine.execFbPageSend exch peer s
  | .fbPageReceive frame => Sys2Proof.Machine.execFbPageReceive frame s
  | .fbgrantSend exch peer => Sys2Proof.Machine.execFbgrantSend exch peer s
  | .fbgrantReceive frame => Sys2Proof.Machine.execFbgrantReceive frame s
  | .fbResendTimeout exch peer => Sys2Proof.Machine.execFbResendTimeout exch peer s
  | .regulatorSample r => Sys2Proof.Machine.execRegulatorSample r s
  | .clampEnd => Sys2Proof.Machine.execClampEnd s
  | .senseCompare shared => Sys2Proof.Machine.execSenseCompare shared s
  | .budgetAdjust => Sys2Proof.Machine.execBudgetAdjust s
  | .holdoffUpdate => Sys2Proof.Machine.execHoldoffUpdate s
  | .energyShare r => Sys2Proof.Machine.execEnergyShare r s
  | .droopAlarm region => Sys2Proof.Machine.execDroopAlarm region s
  | .droopClear region => Sys2Proof.Machine.execDroopClear region s
  | .feedLoss feed => Sys2Proof.Machine.execFeedLoss feed s
  | .feedReturn feed => Sys2Proof.Machine.execFeedReturn feed s
  | .oneFeedLimitLift => Sys2Proof.Machine.execOneFeedLimitLift s
  | .groupReportSend => Sys2Proof.Machine.execGroupReportSend s
  | .groupReportReceive block pecOk => Sys2Proof.Machine.execGroupReportReceive block pecOk s
  | .groupAssignSend => Sys2Proof.Machine.execGroupAssignSend s
  | .groupAssignReceive block pecOk => Sys2Proof.Machine.execGroupAssignReceive block pecOk s
  | .groupAssignTimeout => Sys2Proof.Machine.execGroupAssignTimeout s
  | .coordinatorTakeover => Sys2Proof.Machine.execCoordinatorTakeover s
  | .diodeRead heddle reading => Sys2Proof.Machine.execDiodeRead heddle reading s
  | .throttleHoldoff region => Sys2Proof.Machine.execThrottleHoldoff region s
  | .regionReturn region o => Sys2Proof.Machine.execRegionReturn region o s
  | .coolantSample c => Sys2Proof.Machine.execCoolantSample c s
  | .shortDetect region => Sys2Proof.Machine.execShortDetect region s
  | .watchTest u pass => Sys2Proof.Machine.execWatchTest u pass s
  | .watchClear u => Sys2Proof.Machine.execWatchClear u s
  | .riskEval => Sys2Proof.Machine.execRiskEval s
  | .skimSend area => Sys2Proof.Machine.execSkimSend area s
  | .skimWriteAnswer area status => Sys2Proof.Machine.execSkimWriteAnswer area status s
  | .skimStall area => Sys2Proof.Machine.execSkimStall area s
  | .smbReadStatus => Sys2Proof.Machine.execSmbReadStatus s
  | .smbReadIdentity => Sys2Proof.Machine.execSmbReadIdentity s
  | .smbusTimeout => Sys2Proof.Machine.execSmbusTimeout s
  | .sampleDrain su => Sys2Proof.Machine.execSampleDrain su s
  | .dmaReturnArrival site flit => Sys2Proof.Machine.execDmaReturnArrival site flit s
  | .triplicatedRead f => Sys2Proof.Machine.execTriplicatedRead f s
  | .hostLinkUp port => Sys2Proof.Machine.execHostLinkUp port s

end Sys2Proof.Machine
end

