-- ==== Sys2Proof/Safety.lean ====
section
/-! DEFINITION. The terms statements use: a safe run, when a program word issues and in which state, and frames (which parts of
the state a command may have changed). -/
namespace Sys2Proof.Machine

/-- The commands of the queue run to a next state, one after another, at most n of them. -/
def runsOn : Nat → State → Prop
  | 0, _ => True
  | n + 1, s => ∃ t, step s = .next t ∧ runsOn n t

/-- No area's job is halted and the device is not quiesced. -/
def undisturbed (s : State) : Prop :=
  s.bru.fatal = false ∧ ∀ a, (areaAt s a).job.state ≠ jHalted

/-! ## Frames -/

/-- Only the exact-mode counts of switches (R213) differ. -/
def sameSwitches (r t : State) : Prop := ∀ m, swAt t m = { swAt r m with exc := (swAt t m).exc }

/-- Only MX site n and exact-mode counts differ. -/
def onlyMx (n : Nat) (r t : State) : Prop :=
  t = { r with mx := t.mx, sw := t.sw } ∧ (∀ m, m ≠ n → mxAt t m = mxAt r m) ∧ sameSwitches r t

/-- Only SF site n, exact-mode counts and the count of a code at n differ. -/
def onlySf (code n : Nat) (r t : State) : Prop :=
  t = { r with sf := t.sf, sw := t.sw, counts := t.counts } ∧ (∀ m, m ≠ n → sfAt t m = sfAt r m) ∧ sameSwitches r t
  ∧ ∀ k, k ≠ countKey code n → look 0 t.counts k = look 0 r.counts k

/-- Only SU n and exact-mode counts differ. -/
def onlySu (n : Nat) (r t : State) : Prop :=
  t = { r with su := t.su, sw := t.sw } ∧ (∀ m, m ≠ n → suAt t m = suAt r m) ∧ sameSwitches r t

/-- Only MM site n differs. -/
def onlyMm (n : Nat) (r t : State) : Prop := t = { r with mm := t.mm } ∧ ∀ m, m ≠ n → mmAt t m = mmAt r m

/-- Only the switch of site n differs. -/
def onlySw (n : Nat) (r t : State) : Prop := t = { r with sw := t.sw } ∧ ∀ m, m ≠ n → swAt t m = swAt r m

/-- Only stack k differs. -/
def onlyStack (k : Nat) (r t : State) : Prop := t = { r with stks := t.stks } ∧ ∀ m, m ≠ k → stackAt t m = stackAt r m

/-- Only Shuttle port p differs. -/
def onlySht (p : Nat) (r t : State) : Prop := t = { r with sht := t.sht } ∧ ∀ m, m ≠ p → shtAt t m = shtAt r m

/-- Only Shuttle port q differs, where one frame has joined the frames waiting (R281). -/
def frameQueued (q : Nat) (f : List Byte) (r t : State) : Prop := onlySht q r t ∧ shtAt t q = { shtAt r q with txq := (shtAt r q).txq ++ [f] }

/-- Only host port p differs. -/
def onlyPort (p : Nat) (r t : State) : Prop := t = { r with ports := t.ports } ∧ ∀ m, m ≠ p → portAt t m = portAt r m

/-- Only area a differs. -/
def onlyArea (a : Nat) (r t : State) : Prop := t = { r with areas := t.areas } ∧ ∀ m, m ≠ a → areaAt t m = areaAt r m

/-! ## Invariants -/

/-- Every store of units is in its canonical form: keys strictly rising, no unit listed that is as reset leaves it. -/
abbrev storesWf (s : State) : Prop :=
  TabWf 0 s.counts = true ∧ TabWf default s.ports = true ∧ TabWf default s.wins = true ∧ TabWf Area.reset s.areas = true
  ∧ TabWf AreaRegs.reset s.aregs = true ∧ TabWf default s.sw = true ∧ TabWf default s.mm = true ∧ TabWf default s.mx = true
  ∧ TabWf default s.sf = true ∧ TabWf default s.su = true ∧ TabWf default s.att = true ∧ TabWf default s.stks = true
  ∧ TabWf default s.sht = true ∧ TabWf Region.reset s.regions = true

/-- Every memory of bytes is in its canonical form: addresses strictly rising, no byte listed that is 0 (log 2). -/
def memoriesWf (s : State) : Prop :=
  ∀ n, TabWf 0 (mmAt s n).mem = true ∧ TabWf 0 (mxAt s n).mem = true ∧ TabWf 0 (mxAt s n).lanes = true ∧ TabWf 0 (sfAt s n).mem = true
    ∧ TabWf 0 (stackAt s n).mem = true ∧ TabWf 0 (portAt s n).mem = true

/-- R24, R25: a defined area has a valid word that carries its number, and no power region lies in two defined areas. -/
def areasApart (s : State) : Prop :=
  TabWf Area.reset s.areas = true
  ∧ ∀ a, (areaAt s a).defined = true → wArea (areaAt s a).word = a ∧ wValid s.member (areaAt s a).word = true
    ∧ ∀ b, (areaAt s b).defined = true → b ≠ a → ∀ r, r < 64 → ¬ (wCovers (areaAt s a).word r = true ∧ wCovers (areaAt s b).word r = true)

/-! ## Site programs (R153, R154) -/

/-- The word w stands at the program address of an MX site that issues. -/
abbrev mxCanIssue (n : Nat) (w : W64) (s : State) : Prop :=
  sitePresent s.member n = true ∧ kindOf n = .mx ∧ siteRuns s n = true ∧ (mxAt s n).seq.live = true ∧ (mxAt s n).seq.pc < 256
  ∧ mxWord (mxAt s n) = w

/-- The state in the ACLK in which the next word of an MX site issues. -/
def mxAtIssue (n : Nat) (s : State) : State := runTo (mxAt s n).seq.next s

/-- The command ends in a next state in which MX site n is x and nothing else differs from r. -/
def mxEnds (o : Out) (n : Nat) (r : State) (x : Mx) : Prop := ∃ t, o = .next t ∧ onlyMx n r t ∧ mxAt t n = x

/-- The word w stands at the program address of an SF site that issues. -/
abbrev sfCanIssue (n : Nat) (w : W64) (s : State) : Prop :=
  sitePresent s.member n = true ∧ kindOf n = .sf ∧ siteRuns s n = true ∧ (sfAt s n).seq.live = true ∧ (sfAt s n).seq.pc < 1024
  ∧ sfWord (sfAt s n) = w

/-- The state in the ACLK in which the next word of an SF site issues. -/
def sfAtIssue (n : Nat) (s : State) : State := runTo (sfAt s n).seq.next s

/-- The command ends in a next state in which SF site n is f; a code may have been counted there; nothing else differs from r. -/
def sfEnds (code : Nat) (o : Out) (n : Nat) (r : State) (f : Sf) : Prop := ∃ t, o = .next t ∧ onlySf code n r t ∧ sfAt t n = f

/-- A result that an SF instruction issued in state r has pending (R154, R169). -/
def sfPending (r : State) (lat : Nat) (dst : SfDst) (mask : W32) (val : Vec) : SfWb :=
  { due := r.now + lat - 1, dst := dst, mask := mask, val := val }

/-- No result is due to the register in the same ACLK (R172). -/
abbrev sfNoClash (f : Sf) (r : State) (lat : Nat) (dst : SfDst) : Prop := ∀ x ∈ f.wb, x.due = r.now + lat - 1 → x.dst ≠ dst

/-- An SF site after an instruction of unit u, busy for `busy` ACLK, with results pending. -/
def sfAfter (f : Sf) (r : State) (u : SfUnit) (busy : Nat) (l : List SfWb) : Sf :=
  { f.hold u (r.now + busy) with seq := f.seq.advance (r.now + 1), wb := f.wb ++ l }

/-- A lane-by-lane SF instruction: its command, opcode, unit, busy time, latency, how many of va, vb, vc it reads, its lane function. -/
structure LaneWord where
  cmd : Nat → W64 → Instr
  op : Nat
  unit : SfUnit
  busy : Nat
  lat : Nat
  reads : Nat
  lane : W32 → W32 → W32 → W32

/-- R71, R73, R170: the lane-by-lane instructions, with the unit, busy time and latency of R170. -/
def laneWords : List LaneWord :=
  [⟨.fadd, 0x10, .vec, 1, 4, 2, fun a b _ => fAdd a b⟩, ⟨.fsub, 0x11, .vec, 1, 4, 2, fun a b _ => fSub a b⟩,
   ⟨.fmul, 0x12, .vec, 1, 4, 2, fun a b _ => fMul a b⟩, ⟨.ffma, 0x13, .vec, 1, 4, 3, fFma⟩,
   ⟨.fmin, 0x14, .vec, 1, 4, 2, fun a b _ => fMin a b⟩, ⟨.fmax, 0x15, .vec, 1, 4, 2, fun a b _ => fMax a b⟩,
   ⟨.iadd, 0x18, .vec, 1, 2, 2, fun a b _ => a + b⟩, ⟨.isub, 0x19, .vec, 1, 2, 2, fun a b _ => a - b⟩,
   ⟨.imul, 0x1A, .vec, 1, 2, 2, fun a b _ => a * b⟩, ⟨.imulh, 0x1B, .vec, 1, 2, 2, fun a b _ => BitVec.ofNat 32 (a.toNat * b.toNat / 2 ^ 32)⟩,
   ⟨.iand, 0x1C, .vec, 1, 2, 2, fun a b _ => a &&& b⟩, ⟨.ior, 0x1D, .vec, 1, 2, 2, fun a b _ => a ||| b⟩,
   ⟨.ixor, 0x1E, .vec, 1, 2, 2, fun a b _ => a ^^^ b⟩, ⟨.ishl, 0x1F, .vec, 1, 2, 2, fun a b _ => a <<< (b.toNat % 32)⟩,
   ⟨.ishr, 0x20, .vec, 1, 2, 2, fun a b _ => a >>> (b.toNat % 32)⟩, ⟨.isra, 0x21, .vec, 1, 2, 2, fun a b _ => a.sshiftRight (b.toNat % 32)⟩]
  ++ [⟨.fexp, 0x30, .tr, 4, 12, 1, fun a _ _ => fExp a⟩, ⟨.fexp2, 0x31, .tr, 4, 12, 1, fun a _ _ => fExp2 a⟩,
   ⟨.fexpsub, 0x32, .tr, 4, 12, 2, fun a b _ => fExpSub a b⟩, ⟨.flog, 0x33, .tr, 4, 12, 1, fun a _ _ => fLogOf 3 a⟩,
   ⟨.flog2, 0x34, .tr, 4, 12, 1, fun a _ _ => fLogOf 4 a⟩, ⟨.frcp, 0x35, .tr, 4, 12, 1, fun a _ _ => fRcp a⟩,
   ⟨.frsq, 0x36, .tr, 4, 12, 1, fun a _ _ => fRsq a⟩, ⟨.fsqrt, 0x37, .tr, 4, 12, 1, fun a _ _ => fSqrt a⟩,
   ⟨.ftanh, 0x38, .tr, 4, 12, 1, fun a _ _ => fTanh a⟩, ⟨.fsig, 0x39, .tr, 4, 12, 1, fun a _ _ => fSig a⟩,
   ⟨.ferf, 0x3A, .tr, 4, 12, 1, fun a _ _ => fErf a⟩, ⟨.fgelu, 0x3B, .tr, 4, 12, 1, fun a _ _ => fGelu a⟩]

/-- The SU n issues the word w: no JOIN holds its program. -/
abbrev suCanIssue (n : Nat) (w : W64) (s : State) : Prop :=
  sitePresent s.member n = true ∧ kindOf n = .su ∧ siteRuns s n = true ∧ (suAt s n).seq.live = true ∧ (suAt s n).join = none
  ∧ suStartDue n (max s.now (suAt s n).seq.next) s = s ∧ (suAt s n).seq.pc < 512 ∧ suWord (suAt s n) = w

/-- The state in the ACLK in which the next word of an SU issues: timed actions sent by then have left its queue. -/
def suAtIssue (n : Nat) (s : State) : State :=
  let r := runTo (suAt s n).seq.next s
  suClock (r.now + 1) n r

/-- The command ends in a next state in which SU n is u and nothing else differs from r. -/
def suEnds (o : Out) (n : Nat) (r : State) (u : Su) : Prop := ∃ t, o = .next t ∧ onlySu n r t ∧ suAt t n = u

/-! ## Mailboxes (R337-R342, R353, R422) -/

/-- A command of an opcode stands posted in mailbox m of port p with a header in order; Prijan takes it: the device is ready, not fatal,
not in recovery, and no transfer holds the command back. -/
abbrev mbxGood (s : State) (p m opc plen : Nat) (sc : Scope) : Prop :=
  let b := mbxAt s p m
  p < 2 ∧ m < 8 ∧ b.state = 1 ∧ hdrOpcode b.cmd = opc ∧ hdrSeq b.cmd = b.seq ∧ hdrPlen b.cmd = plen ∧ plen ≤ 4064
  ∧ hdrReservedOk b.cmd = true ∧ scopeOk sc (hdrFlags b.cmd) = true ∧ mbxWaits s sc b.cmd = false
  ∧ 1 ≤ s.bru.stage ∧ s.bru.ready = true ∧ s.bru.fatal = false ∧ s.sec.recovery = false

/-- A header in order with a parameter length and a scope (R339). -/
abbrev mbxGoodHeader (s : State) (p m plen : Nat) (sc : Scope) : Prop :=
  let b := mbxAt s p m
  hdrSeq b.cmd = b.seq ∧ hdrPlen b.cmd = plen ∧ plen ≤ 4064 ∧ hdrReservedOk b.cmd = true ∧ scopeOk sc (hdrFlags b.cmd) = true ∧ s.sec.recovery = false

/-- A command that never waits and needs no completed bring-up (R422, R353) stands posted with a header in order, and posts are taken. -/
abbrev mbxEarly (s : State) (p m opc plen : Nat) : Prop :=
  p < 2 ∧ m < 8 ∧ (mbxAt s p m).state = 1 ∧ hdrOpcode (mbxAt s p m).cmd = opc ∧ 1 ≤ s.bru.stage ∧ mbxGoodHeader s p m plen .none

/-- An area command stands posted as mbxGood says, names a defined area by its whole word, and comes from the area's owner (R351). -/
abbrev areaGood (s : State) (p m opc plen : Nat) : Prop :=
  let c := (mbxAt s p m).cmd
  mbxGood s p m opc plen .area ∧ areaNamed s c = true ∧ (areaAt s (wArea (hdrArea c))).owner.val = p

/-- The state in which the command of a mailbox runs: its STATE is 2 (R337). -/
def mbxTaken (p m : Nat) (s : State) : State := modMbx p m (fun b => { b with state := 2 }) s

end Sys2Proof.Machine
end

