-- ==== Sys2Proof/WellFormed.lean ====
section
/-! DEFINITION. Which commands are well formed: every operand in the range of the field or unit number it stands for (R13, R14, R339,
R358, R363). Whether the unit is fitted on a member is exec's question, not this one. -/
namespace Sys2Proof

def isArea (n : Nat) : Bool := decide (n < 16)
def isAtt (n : Nat) : Bool := decide (n ≤ 64)
def isBank (n : Nat) : Bool := decide (n < 16)
def isBar (n : Nat) : Bool := n == 0 || n == 2 || n == 4
def isBlock (b : List Byte) : Bool := decide (b.length ≤ 32)
def isByte (n : Nat) : Bool := decide (n < 256)
def isCal (n : Nat) : Bool := decide (n < 100)
def isChannel (n : Nat) : Bool := decide (n < 32)
def isDevice (n : Nat) : Bool := decide (n < 4096)
def isDpa (n : Nat) : Bool := decide (n < 2 ^ 41)
def isExchange (n : Nat) : Bool := decide (n < 65536)
def isFeed (n : Nat) : Bool := decide (n < 2)
def isFrame (b : List Byte) : Bool := decide (b.length ≤ 8192)
def isHalf (n : Nat) : Bool := decide (n < 65536)
def isHeddle (n : Nat) : Bool := decide (n < 14336)
def isLane (n : Nat) : Bool := decide (n < 16)
def isLength (n : Nat) : Bool := decide (n ≤ 2 ^ 30)
def isLoop (n : Nat) : Bool := decide (n < 7)
def isMailbox (n : Nat) : Bool := decide (n < 8)
def isMargin (n : Nat) : Bool := decide (n < 32)
def isOffset (n : Nat) : Bool := decide (n < 2 ^ 32)
def isPort (n : Nat) : Bool := decide (n < 2)
def isPortOf (n : Nat) : Bool := decide (n < 5)
def isPos (n : Nat) : Bool := decide (n < 16)
def isRegion (n : Nat) : Bool := decide (n < 64)
def isShuttle (n : Nat) : Bool := decide (n < 32)
def isSite (n : Nat) : Bool := decide (n < 229376)
def isSize (n : Nat) : Bool := n == 1 || n == 2 || n == 4 || n == 8
def isStack (n : Nat) : Bool := decide (n < 32)
def isStage (n : Nat) : Bool := decide (1 ≤ n) && decide (n ≤ 9)
def isSub (n : Nat) : Bool := decide (n < 4)
def isSums (l : List Int) : Bool := decide (l.length ≤ 17)
def isWindow (n : Nat) : Bool := decide (n < 4)
def isWord (n : Nat) : Bool := decide (n < 2 ^ 32)
def isWord64 (n : Nat) : Bool := decide (n < 2 ^ 64)
def isOptWindow (o : Option Nat) : Bool := match o with | some w => isWindow w | none => true
def isOptWord (o : Option Nat) : Bool := match o with | some v => isWord64 v | none => true
def isOptData (o : Option (List Byte)) : Bool := match o with | some b => decide (b.length ≤ 2 ^ 30) | none => true

/-- A failed site: a fitted number, a cause of one byte, one bit a link. -/
def isFailure (f : SiteFailure) : Bool := isSite f.site && isByte f.cause && decide (f.links < 16)

/-- A channel's training. -/
def isTraining (t : ChannelTraining) : Bool :=
  isStack t.stack && isChannel t.ch && isMargin t.margin && (match t.rate with | some r => decide (r < 3) | none => true)

/-- A bring-up's outcome. -/
def isBringUp (o : BringUpOutcome) : Bool :=
  o.regionsFailed.all isRegion && o.sitesFailed.all isFailure && o.crossingsFailed.all (fun x => isSite x.1 && decide (x.2 < 4))
  && o.training.all isTraining && o.enginesFailed.all (fun e => decide (e < 16)) && o.microcodeFailed.all isFailure && o.refDiffers.all isFailure
  && o.fusesFailed.all (fun b => decide (b < 64))

/-- A self-test's outcome. -/
def isTest (o : TestOutcome) : Bool := o.sitesFailed.all isFailure && o.training.all isTraining && o.regionsFailed.all isRegion

/-- A decoded codeword. -/
def isCodeword (o : CodewordOutcome) : Bool := isLane o.role && isLane o.lane

/-- A training of a port: the spare, one bit a lane, a margin a lane. -/
def isTrain (o : TrainOutcome) : Bool := isLane o.spare && decide (o.usable < 65536) && decide (o.margins.length ≤ 16)

/-- A received frame: an 84-byte header or none, slots 0 to 13. -/
def isRxFrame (f : RxFrame) : Bool :=
  (match f.header with | some h => decide (h.length = 84) | none => true) && f.slots.all fun x => decide (x.1 < 14)

/-- What befell a flit: segments 0 to 7. -/
def isUpset (u : LinkUpset) : Bool := u.ce.all (fun i => decide (i < 8)) && u.ue.all (fun i => decide (i < 8))

/-- A unit of the watch list. -/
def isUnit : WatchUnit → Bool
  | .site n => isSite n
  | .link n p => isSite n && decide (p < 4)
  | .lane p l => isShuttle p && isLane l
  | .channel k c => isStack k && isChannel c

/-- A measurement of one interval: each region once at most. -/
def isSample (r : PowerSample) : Bool := r.regions.all (fun x => isRegion x.1) && decide ((r.regions.map Prod.fst).Nodup)

/-- A millisecond's traffic: one number an area. -/
def isEnergy (r : SharedEnergy) : Bool :=
  decide (r.stackBeats.length ≤ 16) && decide (r.opticUnits.length ≤ 16) && decide (r.hubBytes.length ≤ 16)

/-- A triplicated field. -/
def isTri : TriField → Bool
  | .secOwner w => decide (w < 8)
  | .owned p => isPort p
  | .areaOwner a => isArea a
  | .mmRemap n e => isSite n && decide (e < 128)
  | .hbmRate k c => isStack k && isChannel c
  | .hbmFail k c => isStack k && isChannel c
  | .hbmRemap k e => isStack k && decide (e < 2048)
  | .secLock => true
  | .pmax => true
  | .pmin => true
  | .cap => true
  | .prio => true
  | .fabId => true
  | .dbgEn => true

/-- Is every operand of a command a value its field can hold? No wildcard: every command is listed. -/
def Instr.wf : Instr → Bool
  | .powerOnReset feedId rackPos => isByte feedId && isHalf rackPos
  | .bringUp o => isBringUp o
  | .bringupStageTimeout stage => isStage stage
  | .deviceResetDrst feedId rackPos => isByte feedId && isHalf rackPos
  | .portReset port _ => isPort port
  | .nop port m => isPort port && isMailbox m
  | .identify port m => isPort port && isMailbox m
  | .evqSetup port m => isPort port && isMailbox m
  | .abort port m => isPort port && isMailbox m
  | .deviceReset port m => isPort port && isMailbox m
  | .areaCreate port m => isPort port && isMailbox m
  | .areaChange port m => isPort port && isMailbox m
  | .areaRemove port m => isPort port && isMailbox m
  | .areaClear port m => isPort port && isMailbox m
  | .areaTake port m => isPort port && isMailbox m
  | .draftLoad port m => isPort port && isMailbox m
  | .loadFlit su => isSite su
  | .warmLoadComplete area => isArea area
  | .jobStart port m => isPort port && isMailbox m
  | .jobStartPick area => isArea area
  | .jobStatus port m => isPort port && isMailbox m
  | .bulkWrite port m _ => isPort port && isMailbox m
  | .bulkRead port m _ => isPort port && isMailbox m
  | .remoteRead port m => isPort port && isMailbox m
  | .remoteWrite port m => isPort port && isMailbox m
  | .setFabricId port m => isPort port && isMailbox m
  | .pwrSetCap port m => isPort port && isMailbox m
  | .pwrStatus port m => isPort port && isMailbox m
  | .rackBudget port m => isPort port && isMailbox m
  | .selftestTest port m o => isPort port && isMailbox m && isTest o
  | .selftestInstall port m => isPort port && isMailbox m
  | .fenceRead port m => isPort port && isMailbox m
  | .repairRow port m _ => isPort port && isMailbox m
  | .repairSiteFence port m => isPort port && isMailbox m
  | .repairSiteRetest port m _ => isPort port && isMailbox m
  | .repairChannelRetrain port m _ => isPort port && isMailbox m
  | .repairChannelSetRate port m _ => isPort port && isMailbox m
  | .scald port m o => isPort port && isMailbox m && o.sitesFailed.all isFailure
  | .watchRead port m => isPort port && isMailbox m
  | .skimPartnerSet port m => isPort port && isMailbox m
  | .skimPartnerClear port m => isPort port && isMailbox m
  | .skimOverrideSet port m => isPort port && isMailbox m
  | .skimOverrideClear port m => isPort port && isMailbox m
  | .restore port m => isPort port && isMailbox m
  | .restoreResume port m => isPort port && isMailbox m
  | .drasalCert port m => isPort port && isMailbox m
  | .drasalAttest port m => isPort port && isMailbox m
  | .ownerEnrol port m => isPort port && isMailbox m
  | .debugUnlockChallenge port m _ => isPort port && isMailbox m
  | .debugUnlockResponse port m => isPort port && isMailbox m
  | .debugUnlockDisable port m => isPort port && isMailbox m
  | .debugChallengeExpiry => true
  | .fwUpdate port m => isPort port && isMailbox m
  | .bottomTreeReady => true
  | .hpcAbortWrite port value => isPort port && isWord value
  | .abortHwTimeout => true
  | .hpcDrstWrite port value => isPort port && isWord value
  | .registerWrite port bar offset size value => isPort port && isBar bar && isOffset offset && isSize size && isWord64 value
  | .timPickLoRead port size => isPort port && isSize size
  | .idxDataRead port window => isPort port && isWindow window
  | .idxDataWrite port window value => isPort port && isWindow window && isWord64 value
  | .idxAccessTimeout window write => isWindow window && isOptWord write
  | .secLockWrite port value => isPort port && isWord value
  | .tripleVoteSweep => true
  | .mmStageApply window site value => isWindow window && isSite site && isWord value
  | .xsStageApply window site value => isWindow window && isSite site && isWord value
  | .pwrStageApply port value => isPort port && isWord value
  | .shadowApply => true
  | .calUserWrite port i value => isPort port && isCal i && isWord value
  | .mmInjWrite window site value => isWindow window && isSite site && isWord value
  | .mmRdataRead window site => isWindow window && isSite site
  | .mmRdataWrite window site value => isWindow window && isSite site && isWord value
  | .mmPwrRequest window site value => isOptWindow window && isSite site && isWord value
  | .mmPwrForce window site value => isWindow window && isSite site && isWord value
  | .subbankStateChange site sub => isSite site && isSub sub
  | .subbankForceTimeout site sub => isSite site && isSub sub
  | .subbankReturnOn site sub => isSite site && isSub sub
  | .shtCtlWrite window p value => isWindow window && isShuttle p && isWord value
  | .fabRouteWrite window d value => isWindow window && isDevice d && isWord value
  | .stepStart area => isArea area
  | .stepEndPick area => isArea area
  | .exactDigest su => isSite su
  | .stepCommit area => isArea area
  | .remap area o => isArea area && o.failed.all isUnit
  | .remapTimeout area => isArea area
  | .jobResume area => isArea area
  | .haltReach site => isSite site
  | .weaveEntryExec site dir => isSite site && isPortOf dir
  | .flitArrival site inp u => isSite site && isPortOf inp && isUpset u
  | .controlTokenArrival su _ => isSite su
  | .tokenWindowExpiry site dir => isSite site && isPortOf dir
  | .fellBankSwitch site dir => isSite site && isPortOf dir
  | .pageTakeEffect su => isSite su
  | .creditReturn att loop => isAtt att && isLoop loop
  | .wrpCreditHang att loop => isAtt att && isLoop loop
  | .tokenTableEmit su pos => isSite su && isPos pos
  | .mmDelivery site => isSite site
  | .pullEntryExec site => isSite site
  | .eccWriteBack site => isSite site
  | .dmaOpArrival site => isSite site
  | .dmaQueueService site sub => isSite site && isSub sub
  | .edgeDmaSlot att site => isAtt att && isSite site
  | .fillSlot att heddle => isAtt att && isHeddle heddle
  | .mmScrub site sub => isSite site && isSub sub
  | .ringDelivery site => isSite site
  | .siteStart site => isSite site
  | .mxNop site _ => isSite site
  | .mxEnd site _ => isSite site
  | .mxWait site _ => isSite site
  | .mxWpk site _ => isSite site
  | .mxLoop site _ => isSite site
  | .setm site _ => isSite site
  | .seta site _ => isSite site
  | .adda site _ => isSite site
  | .setf site _ => isSite site
  | .rel site _ => isSite site
  | .lds site _ => isSite site
  | .ldss site _ => isSite site
  | .ldc site _ => isSite site
  | .genc site _ => isSite site
  | .mac site _ => isSite site
  | .macBlockEntry site upset => isSite site && isSums upset
  | .out site _ => isSite site
  | .outs site _ => isSite site
  | .acc site _ => isSite site
  | .spmac site _ => isSite site
  | .ldk site _ => isSite site
  | .setau site _ => isSite site
  | .sfNop site _ => isSite site
  | .sfEnd site _ => isSite site
  | .sfWait site _ => isSite site
  | .sfWpk site _ => isSite site
  | .sfLoop site _ => isSite site
  | .sfBr site _ => isSite site
  | .bz site _ => isSite site
  | .bnz site _ => isSite site
  | .sli site _ => isSite site
  | .sadd site _ => isSite site
  | .smovv site _ => isSite site
  | .getpk site _ => isSite site
  | .fadd site _ => isSite site
  | .fsub site _ => isSite site
  | .fmul site _ => isSite site
  | .ffma site _ => isSite site
  | .fmin site _ => isSite site
  | .fmax site _ => isSite site
  | .fcmp site _ => isSite site
  | .iadd site _ => isSite site
  | .isub site _ => isSite site
  | .imul site _ => isSite site
  | .imulh site _ => isSite site
  | .iand site _ => isSite site
  | .ior site _ => isSite site
  | .ixor site _ => isSite site
  | .ishl site _ => isSite site
  | .ishr site _ => isSite site
  | .isra site _ => isSite site
  | .icmp site _ => isSite site
  | .sel site _ => isSite site
  | .cvt site _ => isSite site
  | .cvtmx site _ => isSite site
  | .fexp site _ => isSite site
  | .fexp2 site _ => isSite site
  | .fexpsub site _ => isSite site
  | .flog site _ => isSite site
  | .flog2 site _ => isSite site
  | .frcp site _ => isSite site
  | .frsq site _ => isSite site
  | .fsqrt site _ => isSite site
  | .ftanh site _ => isSite site
  | .fsig site _ => isSite site
  | .ferf site _ => isSite site
  | .fgelu site _ => isSite site
  | .rsum site _ => isSite site
  | .rmax site _ => isSite site
  | .rmin site _ => isSite site
  | .rrsum site _ => isSite site
  | .perm site _ => isSite site
  | .bcast site _ => isSite site
  | .ldv site _ => isSite site
  | .stv site _ => isSite site
  | .send site _ => isSite site
  | .hash site _ => isSite site
  | .rng site _ => isSite site
  | .sortcx site _ => isSite site
  | .topki site _ => isSite site
  | .topk site _ => isSite site
  | .suNop site _ => isSite site
  | .suWait site _ => isSite site
  | .wt site _ => isSite site
  | .suLoop site _ => isSite site
  | .suBr site _ => isSite site
  | .sett site _ => isSite site
  | .addt site _ => isSite site
  | .go site _ => isSite site
  | .page site _ => isSite site
  | .fell site _ => isSite site
  | .cwait site _ => isSite site
  | .qwait site _ => isSite site
  | .join site _ => isSite site
  | .joinReady su => isSite su
  | .barrierFlit su => isSite su
  | .barrierFlitSend su _ => isSite su
  | .barrierWindowEnd su => isSite su
  | .samp site _ => isSite site
  | .descriptorFlit site => isSite site
  | .readerEmit site => isSite site
  | .updateFlit site => isSite site
  | .accQueueServe site bank => isSite site && isBank bank
  | .flushEmit site => isSite site
  | .skipAlarmEval => true
  | .hbmRequest stack => isStack stack
  | .hbmGrainAccess stack ch => isStack stack && isChannel ch
  | .hbmWriteBack stack ch => isStack stack && isChannel ch
  | .hbmReturnRelease stack => isStack stack
  | .hbmFrameStart stack => isStack stack
  | .gatherWindowStart stack => isStack stack
  | .hbmScrub stack => isStack stack
  | .hbmTrainStep stack margin temp _ => isStack stack && isMargin margin && isByte temp
  | .hbmCaPar stack ch => isStack stack && isChannel ch
  | .hbmOdecc stack ch => isStack stack && isChannel ch
  | .elasticStackAccess dpa len data => isDpa dpa && isLength len && isOptData data
  | .pickFrameSend p => isShuttle p
  | .slotTake p => isShuttle p
  | .codewordDecode p o => isShuttle p && isCodeword o
  | .laneFail p lane => isShuttle p && isLane lane
  | .pickHeaderReceive p f => isShuttle p && isRxFrame f
  | .slotPush p => isShuttle p
  | .elasticFrameReceive p frame _ => isShuttle p && isFrame frame
  | .elasticFrameSend p => isShuttle p
  | .linkFrameSend p => isShuttle p
  | .linkFrame p _ payload => isShuttle p && isFrame payload
  | .signalDetect p => isShuttle p
  | .portTrained p o => isShuttle p && isTrain o
  | .trainingTimeout p => isShuttle p
  | .lossOfSignal p => isShuttle p
  | .rotationPoint p => isShuttle p
  | .pickSteer => true
  | .upstreamLoss => true
  | .holdoverExpiry => true
  | .betterOffer p => isShuttle p
  | .masterProposal => true
  | .epochInEdge _ => true
  | .epochOutPulse => true
  | .refclkLoss => true
  | .helloSend p => isShuttle p
  | .helloReceive p payload => isShuttle p && isFrame payload
  | .helloTimeout p => isShuttle p
  | .routeSend p => isShuttle p
  | .routeReceive p payload => isShuttle p && isFrame payload
  | .routedFrame frame => isFrame frame
  | .rmaRequest frame => isFrame frame
  | .rmaResponse frame => isFrame frame
  | .rmaTimeout tag => isHalf tag
  | .tallyBuild p => isShuttle p
  | .tallyReceive p payload => isShuttle p && isFrame payload
  | .fbPageSend exch peer => isExchange exch && isDevice peer
  | .fbPageReceive frame => isFrame frame
  | .fbgrantSend exch peer => isExchange exch && isDevice peer
  | .fbgrantReceive frame => isFrame frame
  | .fbResendTimeout exch peer => isExchange exch && isDevice peer
  | .regulatorSample r => isSample r
  | .clampEnd => true
  | .senseCompare _ => true
  | .budgetAdjust => true
  | .holdoffUpdate => true
  | .energyShare r => isEnergy r
  | .droopAlarm region => isRegion region
  | .droopClear region => isRegion region
  | .feedLoss feed => isFeed feed
  | .feedReturn feed => isFeed feed
  | .oneFeedLimitLift => true
  | .groupReportSend => true
  | .groupReportReceive block _ => isBlock block
  | .groupAssignSend => true
  | .groupAssignReceive block _ => isBlock block
  | .groupAssignTimeout => true
  | .coordinatorTakeover => true
  | .diodeRead heddle _ => isHeddle heddle
  | .throttleHoldoff region => isRegion region
  | .regionReturn region o => isRegion region && o.sitesFailed.all isFailure
  | .coolantSample _ => true
  | .shortDetect region => isRegion region
  | .watchTest u _ => isUnit u
  | .watchClear u => isUnit u
  | .riskEval => true
  | .skimSend area => isArea area
  | .skimWriteAnswer area status => isArea area && isByte status
  | .skimStall area => isArea area
  | .smbReadStatus => true
  | .smbReadIdentity => true
  | .smbusTimeout => true
  | .sampleDrain su => isSite su
  | .dmaReturnArrival site _ => isSite site
  | .triplicatedRead f => isTri f
  | .hostLinkUp port => isPort port

end Sys2Proof
end

