-- ==== Sys2Proof/Certificates/Slice0/Obligations.lean ====
section
/-! DEFINITION. The statements for the provers, family by family; each docstring names the rules of the spec it rests on. -/
open Sys2Proof Sys2Proof.Machine

/-- A step takes the command at the front of the queue and performs it on the state with the queue's rest. Where no command waits, one ACLK passes: the
clocks advance by one and the queue stays empty (the model's choice, log 1). -/
def Obligations.StepRunsTheFrontCommandOrIdles : Prop :=
  (∀ (c : Instr) (rest : List Instr) (s : State), step { s with pending := c :: rest } = exec c { s with pending := rest })
  ∧ (∀ s : State, s.pending = [] → ∃ t, step s = .next t ∧ t.now = s.now + 1 ∧ t.up = s.up + 1 ∧ t.pending = [])

/-- R155, R164: NOP, END, WAIT, WPK and LOOP. Each goes on to the next word (closing the loops that end at this one) and leaves every register: NOP in the
next ACLK, WAIT N ACLK later than that, WPK at ACLK AC of pick S_k + OFF where that is not before t + 1; END idles the site, which may start from t +
1 on (R180); LOOP, with fewer than four levels open, enters words t + 1 … ENDA for CNTM1 + 1 repetitions. R159, R163, R164, R237: SETM (with a mode
word of no reserved code), SETA, ADDA (modulo 2 ^ 18), SETF, SETAU and REL (of rows the ring holds) write their one register and leave every other.
Where the manual leaves a choice or a reading, the model’s is that of log 8, 9. -/
def Obligations.MxSequencerAndRegisterWords : Prop :=
  (∀ (n : Nat) (w : W64) (s : State), mxCanIssue n w s →
       let r := mxAtIssue n s
       let x := mxAt r n
       let e := 8 * (x.seq.step + bits w.toNat 31 0) + bits w.toNat 34 32
       (wOp w = 0x00 → mxEnds (exec (.mxNop n w) s) n r { x with seq := x.seq.advance (r.now + 1) })
       ∧ (wOp w = 0x01 → mxEnds (exec (.mxEnd n w) s) n r { x with seq := { x.seq with running := false, loops := [], next := r.now + 1 } })
       ∧ (wOp w = 0x02 → mxEnds (exec (.mxWait n w) s) n r { x with seq := x.seq.advance (r.now + bits w.toNat 31 0 + 1) })
       ∧ (wOp w = 0x03 → r.now + 1 ≤ e → mxEnds (exec (.mxWpk n w) s) n r { x with seq := x.seq.advance e })
       ∧ (wOp w = 0x04 → x.seq.loops.length < 4 → mxEnds (exec (.mxLoop n w) s) n r { x with seq := { x.seq with
           loops := { start := x.seq.pc + 1, last := bits w.toNat 7 0, left := bits w.toNat 23 8 + 1 } :: x.seq.loops
           pc := x.seq.pc + 1
           next := r.now + 1 } }))
  ∧ (∀ (n : Nat) (w : W64) (s : State), mxCanIssue n w s →
       let r := mxAtIssue n s
       let x := mxAt r n
       let q := x.seq.advance (r.now + 1)
       let k := bits w.toNat 43 40
       let g := look default x.rings k
       (wOp w = 0x05 → modeCodesOk (BitVec.ofNat 32 w.toNat) = true →
         mxEnds (exec (.setm n w) s) n r { x with seq := q, mode := BitVec.ofNat 32 w.toNat })
       ∧ (wOp w = 0x06 → mxEnds (exec (.seta n w) s) n r { x with seq := q, a := put 0 x.a (wAR w) (BitVec.ofNat 18 w.toNat) })
       ∧ (wOp w = 0x07 → mxEnds (exec (.adda n w) s) n r
           { x with seq := q, a := put 0 x.a (wAR w) (look 0 x.a (wAR w) + BitVec.ofNat 18 w.toNat) })
       ∧ (wOp w = 0x08 → mxEnds (exec (.setf n w) s) n r { x with seq := q, mult := BitVec.ofNat 32 w.toNat })
       ∧ (wOp w = 0x0A → mxEnds (exec (.setau n w) s) n r { x with seq := q, skip := { x.skip with thr := BitVec.ofNat 32 w.toNat } })
       ∧ (wOp w = 0x09 → bits w.toNat 10 0 ≤ ringOcc g → mxEnds (exec (.rel n w) s) n r
           { x with seq := q, rings := put default x.rings k { g with rptr := ptrAdd (rgLenM1 g.desc + 1) g.rptr (bits w.toNat 10 0) } }))

/-- R165: LDS on free units, of rows that exist and that no MAC in progress needs, holds the load unit for its rows and has one row due in each ACLK from
t + 1 on; nothing else changes. A row that falls due is copied into its lane-store row, and exactly the blocks it touches lose their valid bits; every
other lane byte stays. R160, R165, R237: LDSS, LDC, LDK and GENC on free units hold them and have one row, or block, due in each ACLK from t + 1 on. A
scale-store row that falls due clears every valid bit; a check row holds 16 weights, and a block of which both rows are written is valid; LDK's row is
the skip mask; a block of GENC gets the check weights of R70 and is valid. The one act due at a site in an ACLK is performed in it; of two that access
one bank neither is (DEDUCED, log 23). -/
def Obligations.MxLoadsFillTheLanes : Prop :=
  ((∀ (n : Nat) (w : W64) (s : State), mxCanIssue n w s → wOp w = 0x10 →
       let r := mxAtIssue n s
       let x := mxAt r n
       let a := aReg x (wAR w)
       let l0 := bits w.toNat 15 12
       let nl := bits w.toNat 11 8 + 1
       let rpl := bits w.toNat 7 4 + 1
       let row0 := bits w.toNat 2 0
       x.loadTill ≤ r.now → x.genTill ≤ r.now → rowsOk a (nl * rpl) = true → l0 + nl ≤ 16 → row0 + rpl ≤ 8 →
       hazLanes x r.now (128 * row0) (128 * rpl) = false →
       ∃ t, exec (.lds n w) s = .next t ∧ onlyMx n r t ∧ mxAt t n = { x with
         loadTill := r.now + nl * rpl + 1
         acts := x.acts ++ (List.range (nl * rpl)).map fun q =>
           { at_ := r.now + 1 + q, pc := some x.seq.pc, act := .lds (a + 128 * q) (l0 + q / rpl) (row0 + q % rpl) x.mode }
         seq := x.seq.advance (r.now + 1) })
     ∧ ∀ (x : Mx) (a lane row : Nat) (m : W32), lane < 16 → row < 8 →
         let y := MxAct.perform x (.lds a lane row m)
         y = { x with lanes := y.lanes, lsour := y.lsour, valid := y.valid, ldcRows := y.ldcRows }
         ∧ laneBytes y lane (128 * row) 128 = bytesAt x.mem a 128
         ∧ (∀ i o, o < 1024 → ¬ (i = lane ∧ 128 * row ≤ o ∧ o < 128 * (row + 1)) → look 0 y.lanes (1024 * i + o) = look 0 x.lanes (1024 * i + o))
         ∧ ∀ b, b < 64 → bit y.valid.toNat b = (bit x.valid.toNat b && !(blocksOf m (128 * row) 128).contains b))
  ∧ ((∀ (n : Nat) (w : W64) (s : State), mxCanIssue n w s →
       let r := mxAtIssue n s
       let x := mxAt r n
       let a := aReg x (wAR w)
       let q := x.seq.advance (r.now + 1)
       let n7 := bits w.toNat 14 8 + 1
       let n3 := bits w.toNat 6 4 + 1
       let n6 := bits w.toNat 13 8 + 1
       let due := fun (k : Nat) (f : Nat → MxAct) => (List.range k).map fun i => ({ at_ := r.now + 1 + i, pc := some x.seq.pc, act := f i } : MxDue)
       x.loadTill ≤ r.now →
       (wOp w = 0x11 → x.genTill ≤ r.now → rowsOk a n3 = true → bits w.toNat 2 0 + n3 ≤ 8 → hazScales x r.now = false →
         ∃ t, exec (.ldss n w) s = .next t ∧ onlyMx n r t ∧ mxAt t n = { x with
           loadTill := r.now + n3 + 1, acts := x.acts ++ due n3 (fun i => .ldss (a + 128 * i) (bits w.toNat 2 0 + i)), seq := q })
       ∧ (wOp w = 0x12 → rowsOk a n7 = true → bits w.toNat 6 0 + n7 ≤ 128 →
         ∃ t, exec (.ldc n w) s = .next t ∧ onlyMx n r t ∧ mxAt t n = { x with
           loadTill := r.now + n7 + 1, acts := x.acts ++ due n7 (fun i => .ldc (a + 128 * i) (bits w.toNat 6 0 + i)), seq := q })
       ∧ (wOp w = 0x14 → rowsOk a 1 = true →
         ∃ t, exec (.ldk n w) s = .next t ∧ onlyMx n r t ∧ mxAt t n = { x with
           loadTill := r.now + 2, acts := x.acts ++ due 1 (fun _ => .ldk a), seq := q })
       ∧ (wOp w = 0x13 → x.genTill ≤ r.now → bits w.toNat 5 0 + n6 ≤ 64 →
         ∃ t, exec (.genc n w) s = .next t ∧ onlyMx n r t ∧ mxAt t n = { x with
           genTill := r.now + n6 + 1, acts := x.acts ++ due n6 (fun i => .genc (bits w.toNat 5 0 + i) x.mode), seq := q }))
     ∧ (∀ (x : Mx) (a k : Nat) (m : W32),
       (k < 8 → let y := MxAct.perform x (.ldss a k)
         y = { x with scales := y.scales, ssour := y.ssour, valid := y.valid, ldcRows := y.ldcRows } ∧ y.valid = 0
         ∧ bytesAt y.scales (128 * k) 128 = bytesAt x.mem a 128 ∧ ∀ j, ¬ (128 * k ≤ j ∧ j < 128 * (k + 1)) → look 0 y.scales j = look 0 x.scales j)
       ∧ (k < 128 → let y := MxAct.perform x (.ldc a k)
         y = { x with check := y.check, valid := y.valid, ldcRows := y.ldcRows }
         ∧ (∀ j, j < 16 → look 0 y.check (16 * k + j) = BitVec.ofNat 64 (leNat (bytesAt x.mem (a + 8 * j) 8)))
         ∧ (∀ j, ¬ (16 * k ≤ j ∧ j < 16 * (k + 1)) → look 0 y.check j = look 0 x.check j)
         ∧ bit y.ldcRows.toNat k = true ∧ (∀ j, j < 128 → j ≠ k → bit y.ldcRows.toNat j = bit x.ldcRows.toNat j)
         ∧ ∀ b, b < 64 → bit y.valid.toNat b = (bit x.valid.toNat b || (decide (b = k / 2) && bit y.ldcRows.toNat (2 * b) && bit y.ldcRows.toNat (2 * b + 1))))
       ∧ MxAct.perform x (.ldk a) = { x with skip := { x.skip with mask := BitVec.ofNat 256 (leNat (bytesAt x.mem a 32)) } }
       ∧ (k < 64 → let y := MxAct.perform x (.genc k m)
         y = { x with check := y.check, valid := y.valid } ∧ (∀ j, j < 32 → look 0 y.check (32 * k + j) = checkWeight (blockLanes x m k) j)
         ∧ (∀ j, ¬ (32 * k ≤ j ∧ j < 32 * (k + 1)) → look 0 y.check j = look 0 x.check j)
         ∧ ∀ b, b < 64 → bit y.valid.toNat b = (bit x.valid.toNat b || decide (b = k))))
     ∧ ∀ (u n : Nat) (s : State) (l : List MxDue),
         let x := mxAt s n
         let x' := { x with acts := x.acts.filter fun e => !decide (e.at_ = u) }
         x.spmac = none → (x.acts.filter fun e => decide (e.at_ = u)) = l → (∀ e ∈ l, mxHeld s n e = false) →
         (∀ d, l = [d] → d.act ≠ .rowchk → mxAt (mxClock u n s) n = d.act.perform x')
         ∧ ∀ d e a b, l = [d, e] → d.act.addr = some a → e.act.addr = some b → a / 65536 = b / 65536 → a < 196608 →
             mxAt (mxClock u n s) n = x' ∧ counted (mxClock u n s) 0x4111 n = counted s 0x4111 n + 1)

/-- R166, R238, R239: a MAC whose operands exist, whose array is free, whose accumulators are not held and whose blocks have valid check weights where CHK
is set joins the MACs in progress with the fields its word gives, counts its skipped and audited vectors, has its row reads due, and holds the array
for half of N · KB · (twice the ACLK of a block) + 8 + 2 SLK; no accumulator, operand or register of the site changes. A row read that falls due gives
that MAC alone the row as it stands. R62-R69, R166, R238, R239: the next block of the oldest MAC enters at u + 6, where neither a droop nor the ramp
holds its array (R393, R395). A vector that is not skipped puts the block's sixteen results into the sixteen lanes of its accumulator; a skipped one,
audited or not, leaves every accumulator; every other accumulator stays; the MAC leaves when its last block has entered. Where the manual leaves a
choice or a reading, the model’s is that of log 8, 10, 26, 27. -/
def Obligations.MacRunsItsBlocks : Prop :=
  ((∀ (n : Nat) (w : W64) (s : State), mxCanIssue n w s → wOp w = 0x20 →
       let r := mxAtIssue n s
       let x := mxAt r n
       let v := bits w.toNat 23 16 + 1
       let skips := if bit w.toNat 47 then macSkips x.skip.mask (bits w.toNat 31 24) v else List.replicate v false
       let audit := macAudits x.skip.skipped skips
       let o := macOf x w r.now (macStall r n (bits w.toNat 51 48)) skips audit
       let busy := (v * (bits w.toNat 5 0 + 1) * cpb2 x.mode + 1) / 2
       x.arrTill ≤ r.now → macChecks x o = true →
       (∀ u ∈ x.outs, u.2.2 ≤ r.now ∨ bits w.toNat 31 24 + v ≤ u.1 ∨ u.1 + u.2.1 ≤ bits w.toNat 31 24) →
       (mCHK x.mode = true → ∀ b, b < bits w.toNat 5 0 + 1 → bit x.valid.toNat (bits w.toNat 13 8 + b) = true) →
       ∃ t, exec (.mac n w) s = .next t
         ∧ t = { r with mx := t.mx, sw := t.sw }
         ∧ (∀ m, m ≠ n → mxAt t m = mxAt r m) ∧ sameSwitches r t
         ∧ mxAt t n = { x with
             macs := x.macs ++ [o], arrTill := r.now + busy + 8 + 2 * bits w.toNat 51 48, busy := x.busy ++ o.consumes
             acts := x.acts ++ macReads o, seq := x.seq.advance (r.now + 1)
             skip := { x.skip with skipped := x.skip.skipped + (skips.filter id).length
                                   audited := x.skip.audited + (audit.filter id).length } })
     ∧ ∀ (x : Mx) (t a : Nat) (sc : Bool),
         let y := MxAct.perform x (.mac t sc a)
         y = { x with macs := y.macs } ∧ y.macs.length = x.macs.length
         ∧ ∀ (i : Nat) (o : MacOp), x.macs[i]? = some o → y.macs[i]? = some (if o.t = t then
             { o with rows := o.rows ++ [{ scale := sc, addr := a, data := rowOf (bytesAt x.mem a 128)
                                           lo := look false x.gsour (a / 64), hi := look false x.gsour (a / 64 + 1) }] } else o))
  ∧ (∀ (n : Nat) (upset : List Int) (s : State) (o' o : MacOp) (rest' rest : List MacOp),
       sitePresent s.member n = true → kindOf n = .mx → siteRuns s n = true → s.pwr.clamp = none → (mxAt s n).macs = o' :: rest' →
       droopHolds s n o' = false →
       let r := runTo (o'.entryAt o'.next) s
       let x := mxAt r n
       x.macs = o :: rest → 0 < o.kb → o.m0 + o.n ≤ 256 → o.next < o.n * o.kb →
       (o.audit.getD (o.next / o.kb) false = true → o.skips.getD (o.next / o.kb) false = true) →
       let v := o.next / o.kb
       arrayHeld r n (o.lastUse o.next) = false →
       ∃ t, exec (.macBlockEntry n upset) s = .next t ∧ t.now = r.now ∧ t.mm = r.mm ∧ t.sf = r.sf ∧ t.stks = r.stks
         ∧ (∀ m, m ≠ n → mxAt t m = mxAt r m)
         ∧ (mxAt t n = { x with acc := (mxAt t n).acc, macs := (mxAt t n).macs, macsDone := (mxAt t n).macsDone, skip := (mxAt t n).skip })
         ∧ (if o.skips.getD v false then (mxAt t n).acc = x.acc
            else accsAt (mxAt t n) (o.m0 + v) = (doBlock x o o.next upset (accsAt x (o.m0 + v))).accs
              ∧ ∀ e, e ≠ o.m0 + v → e < 256 → accsAt (mxAt t n) e = accsAt x e)
         ∧ (mxAt t n).macs.length = if o.next + 1 = o.n * o.kb then rest.length else rest.length + 1)

/-- R164, R167, R491: ACC holds the output unit and its accumulators and has, in each ACLK from t + 1 on, sixteen entries due to be cleared to +0 (OP 0)
or a row of two due to be loaded as FP32 (OP 1), each free again one ACLK later. Entries that fall due take their values and every other accumulator
stays. R228-R230: an SPMAC of a mode it allows, on a free array and output unit, holds both for its NF flits of N sub-steps and is the SPMAC in
progress; its ring stays until a flit has been used. Under CHK which of its sub-steps an upset strikes is a free value (log 28). -/
def Obligations.AccAndSpmacComplete : Prop :=
  ((∀ (n : Nat) (w : W64) (s : State), mxCanIssue n w s → wOp w = 0x23 →
       let r := mxAtIssue n s
       let x := mxAt r n
       let a := aReg x (wAR w)
       let m0 := bits w.toNat 31 24
       let k := bits w.toNat 23 16 + 1
       let op := bits w.toNat 9 8
       let busy := if op = 0 then (k + 15) / 16 else (k + 1) / 2
       let each_ := if op = 0 then 16 else 2
       let part := fun q => if op = 0 then MxAct.zero (m0 + 16 * q) (min 16 (k - 16 * q)) else .acc (a + 128 * q) (m0 + 2 * q) (min 2 (k - 2 * q))
       op < 2 → x.outTill ≤ r.now → m0 + k ≤ 256 → hazAcc x r.now m0 k = false → (op = 1 → rowsOk a ((k + 1) / 2) = true) →
       ∃ t, exec (.acc n w) s = .next t ∧ onlyMx n r t ∧ mxAt t n = { x with
         outTill := r.now + busy
         outs := (x.outs.filter fun u => decide (r.now < u.2.2)) ++ (List.range busy).map fun q => (m0 + each_ * q, min each_ (k - each_ * q), r.now + 2 + q)
         acts := x.acts ++ (List.range busy).map fun q => { at_ := r.now + 1 + q, pc := some x.seq.pc, act := part q }
         seq := x.seq.advance (r.now + 1) })
     ∧ ∀ (x : Mx) (a e k : Nat), e + k ≤ 256 →
         let y := MxAct.perform x (.zero e k)
         let z := MxAct.perform x (.acc a e k)
         y = { x with acc := y.acc } ∧ z = { x with acc := z.acc }
         ∧ (∀ j, e ≤ j → j < e + k → accsAt y j = List.replicate 16 { window := false, v := 0, sour := false })
         ∧ (∀ j i, e ≤ j → j < e + k → i < 16 → (accsAt z j).getD i default =
             { window := false, v := BitVec.ofNat 96 (leNat (bytesAt x.mem (a + 64 * (j - e) + 4 * i) 4)), sour := look false x.gsour (a / 64 + (j - e)) })
         ∧ ∀ j, ¬ (e ≤ j ∧ j < e + k) → j < 256 → accsAt y j = accsAt x j ∧ accsAt z j = accsAt x j)
  ∧ (∀ (n : Nat) (w : W64) (s : State), mxCanIssue n w s → wOp w = 0x24 →
       let r := mxAtIssue n s
       let x := mxAt r n
       let nlog := bits w.toNat 34 32
       let nf := bits w.toNat 13 0 + 1
       let free := mCHK x.mode
       let op : SpOp := { t := r.now, pc := x.seq.pc, mode := x.mode, ring := bits w.toNat 43 40, nlog := nlog, nf := nf
                          upset := if free then (freshValue r).1 else 0, at_ := r.now, freed := 0, flit := default }
       nlog ≤ 4 → x.arrTill ≤ r.now → x.outTill ≤ r.now → spModeOk x.mode = true →
       ∃ t, exec (.spmac n w) s = .next t ∧ (∀ m, m ≠ n → mxAt t m = mxAt r m)
         ∧ t = { r with mx := t.mx, sw := t.sw, freeCtr := r.freeCtr + b2n free } ∧ sameSwitches r t
         ∧ mxAt t n = { x with spmac := some op
                               arrTill := r.now + nf * 2 ^ nlog + 2, outTill := r.now + 4 + nf * 2 ^ nlog
                               busy := x.busy ++ [(r.now + 2, nf * 2 ^ nlog)], seq := x.seq.advance (r.now + 1) })

/-- R64, R68, R167, R168: OUT to the switch holds the output unit for its flits and, with CLR, leaves the accumulators it read at +0, else as they were;
flit j enters the switch's local input one ACLK after t + 2 + j, the first with the codes of its accumulators. OUTS sends the staging row, a segment
sour where a scale in it comes from a sour accumulator, and clears it. R167: OUT and OUTS with the SRAM as destination have rows from a[AR] on due,
OUT one a flit from t + 2 on, OUTS the staging row at t + 2; nothing enters the switch and the SRAM stays as it was until then. A row that falls due
is written, with the marks of its two grains, and no byte of the SRAM outside it. Where the manual leaves a choice or a reading, the model’s is that
of log 8, 10. -/
def Obligations.OutAndOutsSendOrStore : Prop :=
  (∀ (n : Nat) (w : W64) (s : State), mxCanIssue n w s →
       let r := mxAtIssue n s
       let x := mxAt r n
       let m0 := bits w.toNat 31 24
       let nf := bits w.toNat 23 16 + 1
       let k := outK (mFO x.mode)
       bit w.toNat 8 = false → x.outTill ≤ r.now →
       (wOp w = 0x21 → m0 + nf * k ≤ 256 → hazAcc x r.now m0 (nf * k) = false →
         ∃ t, exec (.out n w) s = .next t ∧ t.now = r.now ∧ t.mm = r.mm ∧ t.sf = r.sf ∧ (∀ m, m ≠ n → mxAt t m = mxAt r m) ∧
           let y := mxAt t n
           y = { x with acc := y.acc, sr := y.sr, stage := y.stage, outTill := r.now + nf, outs := y.outs, seq := x.seq.advance (r.now + 1) }
           ∧ (∀ e, e < 256 → accsAt y e = if bit w.toNat 9 = true ∧ m0 ≤ e ∧ e < m0 + nf * k then List.replicate 16 default else accsAt x e)
           ∧ (∀ j, j < nf → ∃ f, (swAt t n).fly[(swAt r n).fly.length + j]? = some { due := r.now + 3 + j, inp := 4, flit := f }
               ∧ (j = 0 → f = { data := BitVec.ofNat 1024 (packCodes (fmtWidth (mFO x.mode)) (outCodes x (flitAccs x m0 k)).2.1)
                                sour := outSour (fmtWidth (mFO x.mode)) (flitAccs x m0 k) }))
           ∧ (swAt t n).fly.length = (swAt r n).fly.length + nf)
       ∧ (wOp w = 0x22 →
         ∃ t f, exec (.outs n w) s = .next t ∧ t = { r with mx := t.mx, sw := t.sw } ∧ (∀ m, m ≠ n → mxAt t m = mxAt r m)
           ∧ (swAt t n).fly = (swAt r n).fly ++ [{ due := r.now + 3, inp := 4, flit := f }]
           ∧ f = { data := rowOf (x.stage.map Prod.fst), sour := f.sour }
           ∧ (∀ i, i < 8 → x.stage.length ≤ 128 → bit f.sour.toNat i = ((x.stage.drop (16 * i)).take 16).any Prod.snd)
           ∧ mxAt t n = { x with stage := [], outTill := r.now + 1, seq := x.seq.advance (r.now + 1) }))
  ∧ ((∀ (n : Nat) (w : W64) (s : State), mxCanIssue n w s →
       let r := mxAtIssue n s
       let x := mxAt r n
       let a := aReg x (wAR w)
       let m0 := bits w.toNat 31 24
       let nf := bits w.toNat 23 16 + 1
       let k := outK (mFO x.mode)
       bit w.toNat 8 = true → x.outTill ≤ r.now →
       (wOp w = 0x21 → m0 + nf * k ≤ 256 → rowsOk a nf = true → hazAcc x r.now m0 (nf * k) = false →
         ∃ t, exec (.out n w) s = .next t ∧ t.now = r.now ∧ t.mm = r.mm ∧ t.sf = r.sf ∧ (∀ m, m ≠ n → mxAt t m = mxAt r m) ∧
           let y := mxAt t n
           y = { x with acc := y.acc, sr := y.sr, stage := y.stage, acts := y.acts, outTill := r.now + nf, outs := y.outs, seq := x.seq.advance (r.now + 1) }
           ∧ y.acts.take x.acts.length = x.acts ∧ y.acts.length = x.acts.length + nf
           ∧ (∀ j, j < nf → ∃ f, y.acts[x.acts.length + j]? = some { at_ := r.now + 2 + j, pc := some x.seq.pc, act := .row (a + 128 * j) f }
               ∧ (j = 0 → f = { data := BitVec.ofNat 1024 (packCodes (fmtWidth (mFO x.mode)) (outCodes x (flitAccs x m0 k)).2.1)
                                sour := outSour (fmtWidth (mFO x.mode)) (flitAccs x m0 k) }))
           ∧ (∀ m, (swAt t m).fly = (swAt r m).fly))
       ∧ (wOp w = 0x22 → rowsOk a 1 = true →
         ∃ t f, exec (.outs n w) s = .next t ∧ onlyMx n r t ∧ f = { data := rowOf (x.stage.map Prod.fst), sour := f.sour }
           ∧ mxAt t n = { x with stage := [], acts := x.acts ++ [{ at_ := r.now + 2, pc := some x.seq.pc, act := .row a f }]
                                 outTill := r.now + 1, seq := x.seq.advance (r.now + 1) }))
     ∧ ∀ (x : Mx) (a : Nat) (f : Flit), a % 128 = 0 →
         let y := MxAct.perform x (.row a f)
         y = { x with mem := y.mem, gsour := y.gsour } ∧ bytesAt y.mem a 128 = rowBytes f.data
         ∧ (∀ j, ¬ (a ≤ j ∧ j < a + 128) → look 0 y.mem j = look 0 x.mem j)
         ∧ look false y.gsour (a / 64) = (List.range 4).any (fun i => bit f.sour.toNat i)
         ∧ look false y.gsour (a / 64 + 1) = (List.range 4).any (fun i => bit f.sour.toNat (4 + i))
         ∧ ∀ g, g ≠ a / 64 → g ≠ a / 64 + 1 → look false y.gsour g = look false x.gsour g)

/-- R66-R70 (headline): over check weights made by GENC from the lane store as it stands, the row check of a narrow block with no sour operand whose lanes
are off the special path and whose scales spread by at most 16 passes when the array adds no error, and a non-zero error in the sum of one lane alone
raises it. Where the manual leaves a choice or a reading, the model’s is that of log 27. -/
def Obligations.RowCheckFindsEverySingleLaneError : Prop :=
  ∀ (x : Mx) (o : MacOp) (accs : List Acc) (g b i : Nat) (d : Int),
    b = o.b0 + g % o.kb → modeOk o.mode = true → mCHK o.mode = true → fmtWidth (mFS o.mode) ≤ 8 → fmtWidth (mFA o.mode) ≤ 8 → accs.length = 16 → i < 16 →
    (∀ j, j < 32 → look 0 x.check (32 * b + j) = checkWeight (blockLanes x o.mode b) j) →
    (∀ l, l < 16 → laneSpecial (streamBlock o g) (streamScale o g) (laneScale x o.mode l b) (stationary x o.mode l b) = false) →
    (∀ l, l < 16 → laneScale x o.mode l b - minScale x o.mode b ≤ 16) →
    streamSour o g = false → (∀ l, l < 16 → laneSour x l (b * blockBytes o.mode) (blockBytes o.mode) = false ∧ (mSCS o.mode && look false x.ssour l) = false) →
    (doBlock x o g [] accs).rowchk = false ∧ (d ≠ 0 → (doBlock x o g (List.replicate i 0 ++ [d]) accs).rowchk = true)

/-- R155, R170, R180: NOP, END outside a loop (a start may follow from t + 1 on), WAIT, WPK, LOOP, BR, BZ and BNZ: the next word and its earliest ACLK (a
taken branch costs two), with every register as it was. R155, R170: SLI, SADD, SMOVV and GETPK have one scalar result of latency 1 pending: the
immediate, the sum modulo 2 ^ 32, lane IMM 4:0 of a vector, the pick offset from S_k; nothing else changes. Where the manual leaves a choice or a
reading, the model’s is that of log 8, 9. -/
def Obligations.SfSequencerAndScalarWords : Prop :=
  (∀ (n : Nat) (w : W64) (s : State), sfCanIssue n w s →
       let r := sfAtIssue n s
       let f := sfAt r n
       let e := 8 * (f.seq.step + sfImm w) + sfPM w
       let goesOn := fun (o : Out) (q : Seq) => sfEnds 0 o n r { f with seq := q }
       let taken := { f.seq with pc := bits w.toNat 9 0, next := r.now + 2 }
       (wOp w = 0x00 → goesOn (exec (.sfNop n w) s) (f.seq.advance (r.now + 1)))
       ∧ (wOp w = 0x01 → f.seq.loops = [] → goesOn (exec (.sfEnd n w) s) { f.seq with running := false, loops := [], next := r.now + 1 })
       ∧ (wOp w = 0x02 → goesOn (exec (.sfWait n w) s) (f.seq.advance (r.now + sfImm w + 1)))
       ∧ (wOp w = 0x03 → r.now + 1 ≤ e → goesOn (exec (.sfWpk n w) s) (f.seq.advance e))
       ∧ (wOp w = 0x04 → f.seq.loops.length < 4 → goesOn (exec (.sfLoop n w) s) { f.seq with
           loops := { start := f.seq.pc + 1, last := bits w.toNat 9 0, left := bits w.toNat 25 10 + 1 } :: f.seq.loops
           pc := f.seq.pc + 1
           next := r.now + 1 })
       ∧ (wOp w = 0x05 → goesOn (exec (.sfBr n w) s) taken)
       ∧ (wOp w = 0x06 → goesOn (exec (.bz n w) s) (if sfS f (sfVA w) = 0 then taken else f.seq.advance (r.now + 1)))
       ∧ (wOp w = 0x07 → goesOn (exec (.bnz n w) s) (if sfS f (sfVA w) = 0 then f.seq.advance (r.now + 1) else taken)))
  ∧ (∀ (n : Nat) (w : W64) (s : State), sfCanIssue n w s →
       let r := sfAtIssue n s
       let f := sfAt r n
       let dst := SfDst.s (sfVD w % 16)
       let yields := fun (o : Out) (x : W32) => sfEnds 0 o n r { f with
         seq := f.seq.advance (r.now + 1), wb := f.wb ++ [sfPending r 1 dst (BitVec.allOnes 32) { data := BitVec.ofNat 1024 x.toNat, sour := 0 }] }
       sfNoClash f r 1 dst →
       (wOp w = 0x08 → yields (exec (.sli n w) s) (BitVec.ofNat 32 (sfImm w)))
       ∧ (wOp w = 0x09 → yields (exec (.sadd n w) s) (sfS f (sfVA w) + if sfBS w then sfS f (sfVB w) else BitVec.ofNat 32 (sfImm w)))
       ∧ (wOp w = 0x0A → yields (exec (.smovv n w) s) (laneOf (sfV f (sfVA w)).data (bits w.toNat 4 0)))
       ∧ (wOp w = 0x0B → yields (exec (.getpk n w) s) (BitVec.ofNat 32 (r.now / 8 - f.seq.step))))

/-- R71, R73, R170, R171: each lane-by-lane instruction on a free unit has one vector result pending, lane by lane its function of the operands' lanes, a
segment sour where an operand read is, in the lanes of its predicate; only NaNs may be counted beside. Where the manual leaves a choice or a reading,
the model’s is that of log 8, 12. -/
def Obligations.SfLaneWordsComplete : Prop :=
  ∀ l ∈ laneWords, ∀ (n : Nat) (w : W64) (s : State), sfCanIssue n w s → wOp w = l.op →
    let r := sfAtIssue n s
    let f := sfAt r n
    let a := sfV f (sfVA w)
    let b := sfB f w
    let c := sfV f (sfVC w)
    f.till l.unit ≤ r.now → sfNoClash f r l.lat (.v (sfVD w)) →
    sfEnds 0x1302 (exec (l.cmd n w) s) n r (sfAfter f r l.unit l.busy [sfPending r l.lat (.v (sfVD w)) (sfP f (sfPM w))
      { data := ofLanes ((List.range 32).map fun i => l.lane (laneOf a.data i) (laneOf b.data i) (laneOf c.data i))
        sour := if l.reads = 1 then a.sour else if l.reads = 2 then a.sour ||| b.sour else a.sour ||| b.sour ||| c.sour }])

/-- R170, R171: FCMP and ICMP write the predicate lane by lane; SEL takes va where the predicate is set and vb elsewhere, in every lane. R51-R54, R170,
R171: CVT converts 32 elements from one format to another, each result segment with the mark of the operand's in its place, sets the rounding and
overflow mode of the program and moves the stochastic register on; CVTMX makes one MX block with its scale code in a scalar. Where the manual leaves a
choice or a reading, the model’s is that of log 8, 26, 28. -/
def Obligations.SfComparesAndConversions : Prop :=
  (∀ (n : Nat) (w : W64) (s : State), sfCanIssue n w s →
       let r := sfAtIssue n s
       let f := sfAt r n
       let a := sfV f (sfVA w)
       let b := sfB f w
       let flags := fun (cmp : Nat → W32 → W32 → Bool) (x : W32) => ∀ i, i < 32 →
         bit x.toNat i = cmp (bits w.toNat 2 0) (laneOf a.data i) (laneOf b.data i)
       f.vecTill ≤ r.now →
       (wOp w = 0x16 → bits w.toNat 2 0 ≤ 4 → sfNoClash f r 4 (.p (sfVD w % 8)) → ∃ x : W32, flags fCmp x ∧
         sfEnds 0 (exec (.fcmp n w) s) n r (sfAfter f r .vec 1 [sfPending r 4 (.p (sfVD w % 8)) (sfP f (sfPM w)) (vecOf x)]))
       ∧ (wOp w = 0x22 → bits w.toNat 2 0 ≤ 3 → sfNoClash f r 2 (.p (sfVD w % 8)) → ∃ x : W32, flags iCmp x ∧
         sfEnds 0 (exec (.icmp n w) s) n r (sfAfter f r .vec 1 [sfPending r 2 (.p (sfVD w % 8)) (sfP f (sfPM w)) (vecOf x)]))
       ∧ (wOp w = 0x23 → sfNoClash f r 2 (.v (sfVD w)) → ∃ x : Row128,
         (∀ i, i < 32 → laneOf x i = if bit (sfP f (sfPM w)).toNat i then laneOf a.data i else laneOf b.data i) ∧
         sfEnds 0 (exec (.sel n w) s) n r (sfAfter f r .vec 1
           [sfPending r 2 (.v (sfVD w)) (BitVec.allOnes 32) { data := x, sour := a.sour ||| b.sour }])))
  ∧ (∀ (n : Nat) (w : W64) (s : State), sfCanIssue n w s →
       let r := sfAtIssue n s
       let f := sfAt r n
       let a := sfV f (sfVA w)
       let fr := bits w.toNat 3 0
       let fo := bits w.toNat 7 4
       let rm := bits w.toNat 9 8
       let ov := bit w.toNat 10
       let nums := (List.range 32).map fun i => decodeNum fr (elemAt (fmtWidth fr) a.data.toNat i)
       let c := if cvtWidens fr fo then convertAll fo 0 true nums f.sr else convertAll fo rm ov nums f.sr
       let b := toBlock fr f.rm f.ov ((lanesOf a.data).map ofF32) f.sr
       f.vecTill ≤ r.now →
       (wOp w = 0x28 → fr ≤ 11 → fo ≤ 11 → rm ≠ 3 → sfNoClash f r 4 (.v (sfVD w)) →
         ∃ t, exec (.cvt n w) s = .next t ∧ t = { r with sf := t.sf, sw := t.sw, counts := t.counts } ∧ (∀ m, m ≠ n → sfAt t m = sfAt r m)
           ∧ sameSwitches r t ∧ (∀ k, k ≠ countKey 0x1301 n → k ≠ countKey 0x1302 n → look 0 t.counts k = look 0 r.counts k)
           ∧ sfAt t n = sfAfter { f with rm := rm, ov := ov, sr := c.2.2 } r .vec 1 [sfPending r 4 (.v (sfVD w)) (sfP f (sfPM w))
               { data := BitVec.ofNat 1024 (packCodes (fmtWidth fo) c.1), sour := a.sour }])
       ∧ (wOp w = 0x29 → isMxOut fr = true → sfNoClash f r 6 (.v (sfVD w)) → sfNoClash f r 6 (.s (sfVC w % 16)) →
         ∃ t, exec (.cvtmx n w) s = .next t ∧ t = { r with sf := t.sf, sw := t.sw, counts := t.counts } ∧ (∀ m, m ≠ n → sfAt t m = sfAt r m)
           ∧ sameSwitches r t ∧ (∀ k, k ≠ countKey 0x1301 n → k ≠ countKey 0x1302 n → look 0 t.counts k = look 0 r.counts k)
           ∧ sfAt t n = (sfAfter { f with sr := b.2.2.2 } r .vec 2
           [sfPending r 6 (.v (sfVD w)) (sfP f (sfPM w)) { data := BitVec.ofNat 1024 (packCodes (fmtWidth fr) b.2.1), sour := anySour a.sour },
            sfPending r 6 (.s (sfVC w % 16)) (BitVec.allOnes 32) (vecOf (BitVec.ofNat 32 b.1))])))

/-- R73, R74, R170, R171: RSUM, RMAX, RMIN and RRSUM on a free unit complete, with one vector result pending: the reduction by the pairwise tree, masked
lanes contributing -0, -inf, +inf, -0, in every lane; a NaN that no operand is is counted once (log 28). PERM and BCAST complete with lane (vb of lane
i) mod 32, or lane IMM 4:0, of va pending in the lanes of their predicate. Their result is sour in every segment if an operand is in any. Nothing else
of the site or the device changes. R173-R176: on free units HASH completes with the sixteen hashes pending, RNG with 32 words of the counter, SORTCX
with one compare-exchange of keys and payloads, TOPKI with the empty list and TOPK with a list of 64 positions pending in v24-v27: of the entries held
and the new pairs of unmasked lanes, in order, at most k, then empty positions. Nothing else of the site or the device changes. -/
def Obligations.SfReductionsHashAndSort : Prop :=
  (∀ (n : Nat) (w : W64) (s : State), sfCanIssue n w s →
       let r := sfAtIssue n s
       let f := sfAt r n
       let a := sfV f (sfVA w)
       let b := sfB f w
       let mask := sfP f (sfPM w)
       let dst := SfDst.v (sfVD w)
       let kept := fun (ident : W32) => (List.range 32).map fun i => if bit mask.toNat i then laneOf a.data i else ident
       let all := fun (lat : Nat) (x : W32) => [sfPending r lat dst (BitVec.allOnes 32) { vecAll x with sour := anySour a.sour }]
       (wOp w = 0x40 → f.vecTill ≤ r.now → sfNoClash f r 8 dst → ∃ t, exec (.rsum n w) s = .next t ∧ onlySf 0x1302 n r t
         ∧ sfAt t n = sfAfter f r .vec 1 (all 8 (tree fAdd (kept 0x80000000#32))))
       ∧ (wOp w = 0x41 → f.vecTill ≤ r.now → sfNoClash f r 8 dst → ∃ t, exec (.rmax n w) s = .next t ∧ onlySf 0x1302 n r t
         ∧ sfAt t n = sfAfter f r .vec 1 (all 8 (tree fMax (kept 0xFF800000#32))))
       ∧ (wOp w = 0x42 → f.vecTill ≤ r.now → sfNoClash f r 8 dst → ∃ t, exec (.rmin n w) s = .next t ∧ onlySf 0x1302 n r t
         ∧ sfAt t n = sfAfter f r .vec 1 (all 8 (tree fMin (kept 0x7F800000#32))))
       ∧ (wOp w = 0x43 → f.trTill ≤ r.now → sfNoClash f r 16 dst → ∃ t, exec (.rrsum n w) s = .next t ∧ onlySf 0x1302 n r t
         ∧ sfAt t n = sfAfter f r .tr 4 (all 16 (fRcpSum (tree fAdd (kept 0x80000000#32)))))
       ∧ (wOp w = 0x48 → f.vecTill ≤ r.now → sfNoClash f r 3 dst → ∃ t, exec (.perm n w) s = .next t ∧ onlySf 0 n r t
         ∧ sfAt t n = sfAfter f r .vec 1 [sfPending r 3 dst mask
             { data := ofLanes ((List.range 32).map fun i => laneOf a.data ((laneOf b.data i).toNat % 32)), sour := anySour (a.sour ||| b.sour) }])
       ∧ (wOp w = 0x49 → f.vecTill ≤ r.now → sfNoClash f r 3 dst → ∃ t, exec (.bcast n w) s = .next t ∧ onlySf 0 n r t
         ∧ sfAt t n = sfAfter f r .vec 1 [sfPending r 3 dst mask { vecAll (laneOf a.data (bits w.toNat 4 0)) with sour := anySour a.sour }]))
  ∧ (∀ (n : Nat) (w : W64) (s : State), sfCanIssue n w s →
       let r := sfAtIssue n s
       let f := sfAt r n
       let a := sfV f (sfVA w)
       let b := sfB f w
       let mask := sfP f (sfPM w)
       let pairs := (List.range 32).map (sortLane (bit w.toNat 8) (bits w.toNat 4 0) (2 ^ bits w.toNat 7 5) fun i => (laneOf a.data i, laneOf b.data i))
       let hashes := (List.range 16).map fun k => (hash64 (BitVec.ofNat 64 (a.data.toNat / 2 ^ (64 * k))) (sfS f (sfVB w))).toNat
       let free := fun lat => ∀ v, 24 ≤ v → v ≤ 27 → sfNoClash f r lat (.v v)
       let new := ((List.range 32).filter fun i => bit mask.toNat i).map fun i => (laneOf a.data i, laneOf b.data i)
       let entries := (topList f ++ new).filter fun x => decide (x ≠ emptyPos)
       (wOp w = 0x58 → sfBS w = true → f.hashTill ≤ r.now → sfNoClash f r 8 (.v (sfVD w)) → ∃ t, exec (.hash n w) s = .next t ∧ onlySf 0 n r t
         ∧ sfAt t n = sfAfter f r .hash 2 [sfPending r 8 (.v (sfVD w)) mask { data := BitVec.ofNat 1024 (packCodes 64 hashes), sour := a.sour }])
       ∧ (wOp w = 0x59 → f.hashTill ≤ r.now → sfNoClash f r 10 (.v (sfVD w)) → ∃ t, exec (.rng n w) s = .next t ∧ onlySf 0 n r t
         ∧ sfAt t n = sfAfter f r .hash 2 [sfPending r 10 (.v (sfVD w)) mask
             { data := ofLanes ((List.range 32).map (rngWord (sfS f (sfVA w)) (sfS f (sfVB w)) (bit w.toNat 0))), sour := 0 }])
       ∧ (wOp w = 0x5A → bits w.toNat 4 0 ∈ [1, 2, 4, 8, 16] → 1 ≤ bits w.toNat 7 5 → bits w.toNat 7 5 ≤ 5 → sfVD w % 2 = 0 → f.vecTill ≤ r.now →
           sfNoClash f r 4 (.v (sfVD w)) → sfNoClash f r 4 (.v (sfVD w + 1)) → ∃ t, exec (.sortcx n w) s = .next t ∧ onlySf 0 n r t
         ∧ sfAt t n = sfAfter f r .vec 1
             [sfPending r 4 (.v (sfVD w)) mask { data := ofLanes (pairs.map Prod.fst), sour := anySour (a.sour ||| b.sour) },
              sfPending r 4 (.v (sfVD w + 1)) mask { data := ofLanes (pairs.map Prod.snd), sour := anySour (a.sour ||| b.sour) }])
       ∧ (wOp w = 0x5B → f.topTill ≤ r.now → free 2 → ∃ t, exec (.topki n w) s = .next t ∧ onlySf 0 n r t
           ∧ sfAt t n = sfAfter f r .topk 1 ([(24, 0xFF800000#32), (26, 0xFFFFFFFF#32), (25, 0xFF800000#32), (27, 0xFFFFFFFF#32)].map
               fun x : Nat × W32 => sfPending r 2 (.v x.1) (BitVec.allOnes 32) (vecAll x.2)))
       ∧ (wOp w = 0x5C → 1 ≤ bits w.toNat 6 0 → bits w.toNat 6 0 ≤ 64 → f.topTill ≤ r.now → free 10 →
           ∃ (t : State) (l : List (W32 × W32)), exec (.topk n w) s = .next t ∧ onlySf 0 n r t ∧ l.length = 64
             ∧ (∀ x ∈ l, x = emptyPos ∨ x ∈ entries)
             ∧ (∀ x ∈ entries, x ∈ l ∨ (bits w.toNat 6 0 ≤ (l.filter fun y => decide (y ≠ emptyPos)).length
                 ∧ ∀ y ∈ l, y ≠ emptyPos → topBetter (bit w.toNat 8) (bit w.toNat 9) x y = false))
             ∧ (∀ i j, i < j → j < 64 → l[i]! ≠ emptyPos → topBetter (bit w.toNat 8) (bit w.toNat 9) l[j]! l[i]! = false ∨ l[j]! = emptyPos)
             ∧ sfAt t n = sfAfter f r .topk 6 ([(24, (l.take 32).map Prod.fst), (26, (l.take 32).map Prod.snd),
                 (25, (l.drop 32).map Prod.fst), (27, (l.drop 32).map Prod.snd)].map fun x : Nat × List W32 =>
                   sfPending r 10 (.v x.1) (BitVec.allOnes 32)
                     { data := ofLanes x.2, sour := anySour ([24, 25, 26, 27].foldl (fun y q => y ||| (sfV f q).sour) (a.sour ||| b.sour)) })))

/-- R160, R169, R170: on a free memory unit and for a row that exists, LDV has its result pending and its row read at t + 1, STV its row written at t + 1,
SEND puts v[VA] on the switch's local input. A row that is read gives its pending result the row with its grains' marks; a row that is written changes
no other byte of the SRAM; two accesses to one bank in an ACLK leave both undone (R160). R154, R169: a result due in an ACLK, alone at its site, is
written when that ACLK ends: a vector in the lanes of its predicate, a scalar and a predicate into their register; s0 and p0 take no write, s0 reads 0
and p0 reads all ones. R158, R159: the flit at the head of an MX or SF site's deliveries, with a tag that names an enabled ring with room, is due in
this ACLK as the ring's next row, and the write pointer moves on by one row. Where the manual leaves a choice or a reading, the model’s is that of log
8, 10, 23, 28. -/
def Obligations.SfMemoryResultsAndRings : Prop :=
  ((∀ (n : Nat) (w : W64) (s : State), sfCanIssue n w s →
       let r := sfAtIssue n s
       let f := sfAt r n
       let a := sfAddr f w
       let v := sfV f (sfVA w)
       let due := fun (act : SfAct) => f.acts ++ [({ at_ := r.now + 1, pc := some f.seq.pc, act := act } : SfDue)]
       f.memTill ≤ r.now →
       (wOp w = 0x50 → sfRowOk a = true → sfNoClash f r 3 (.v (sfVD w)) →
         ∃ t, exec (.ldv n w) s = .next t ∧ onlySf 0 n r t
           ∧ sfAt t n = sfAfter { f with acts := due (.load a (r.now + 2) (sfVD w)) } r .mem 1
               [sfPending r 3 (.v (sfVD w)) (sfP f (sfPM w)) default])
       ∧ (wOp w = 0x51 → sfRowOk a = true →
         ∃ t, exec (.stv n w) s = .next t ∧ onlySf 0 n r t
           ∧ sfAt t n = sfAfter { f with acts := due (.row a { data := v.data, sour := v.sour }) } r .mem 1 [])
       ∧ (wOp w = 0x52 →
         ∃ t, exec (.send n w) s = .next t ∧ t = { r with sf := t.sf, sw := t.sw } ∧ (∀ m, m ≠ n → sfAt t m = sfAt r m)
           ∧ sfAt t n = sfAfter f r .mem 1 []
           ∧ (swAt t n).fly = (swAt r n).fly ++ [{ due := r.now + 1, inp := 4, flit := { data := v.data, sour := v.sour } }]
           ∧ ∀ m, m ≠ n → swAt t m = swAt r m))
     ∧ (∀ (f : Sf) (a d k : Nat) (x : Flit), a % 128 = 0 →
         let y := SfAct.perform f (.row a x)
         let z := SfAct.perform f (.load a d k)
         y = { f with mem := y.mem, gsour := y.gsour } ∧ bytesAt y.mem a 128 = rowBytes x.data
         ∧ (∀ j, ¬ (a ≤ j ∧ j < a + 128) → look 0 y.mem j = look 0 f.mem j)
         ∧ look false y.gsour (a / 64) = (List.range 4).any (fun i => bit x.sour.toNat i)
         ∧ look false y.gsour (a / 64 + 1) = (List.range 4).any (fun i => bit x.sour.toNat (4 + i))
         ∧ z = { f with wb := z.wb } ∧ ∀ (i : Nat) (q : SfWb), f.wb[i]? = some q → z.wb[i]? = some (if q.due = d ∧ q.dst = SfDst.v k then
             { q with val := ⟨rowOf (bytesAt f.mem a 128), BitVec.ofNat 8 (15 * b2n (look false f.gsour (a / 64)) + 240 * b2n (look false f.gsour (a / 64 + 1)))⟩ }
             else q))
     ∧ ∀ (u n : Nat) (s : State) (l : List SfDue),
         let f := sfAt s n
         let f' := { f with acts := f.acts.filter fun e => !decide (e.at_ = u) }
         (f.acts.filter fun e => decide (e.at_ = u)) = l →
         (∀ d, l = [d] → sfAt (sfClock u n s) n = d.act.perform f')
         ∧ ∀ d e, l = [d, e] → d.act.addr / 32768 = e.act.addr / 32768 → d.act.addr < 65536 →
             sfAt (sfClock u n s) n = e.act.drop (d.act.drop f') ∧ counted (sfClock u n s) 0x4311 n = counted s 0x4311 n + 1)
  ∧ (∀ (n : Nat) (s : State) (x : SfWb), s.sw = [] → s.sf = [(n, { sfAt s n with wb := [x] })] → x.due = s.now →
       (∀ d ∈ (sfAt s n).acts, s.now < d.at_) →
       let f := sfAt s n
       let g := sfAt (runTo (s.now + 1) s) n
       g.wb = [] ∧ (∀ i, i % 16 = 0 → sfS g i = 0) ∧ (∀ i, i % 8 = 0 → sfP g i = BitVec.allOnes 32)
       ∧ (match x.dst with
         | .v k => g = { f with wb := [], v := g.v } ∧ sfV g k = mergeVec x.mask (sfV f k) x.val ∧ ∀ j, j ≠ k → sfV g j = sfV f j
         | .s k => g = { f with wb := [], s := g.s } ∧ (k ≠ 0 → k < 16 → sfS g k = laneOf x.val.data 0) ∧ (k = 0 → g.s = f.s) ∧ ∀ j, j < 16 → j ≠ k → sfS g j = sfS f j
         | .p k => g = { f with wb := [], p := g.p } ∧ (k = 0 → g.p = f.p) ∧ (∀ j, j < 8 → j ≠ k → sfP g j = sfP f j)
           ∧ (k ≠ 0 → k < 8 → ∀ i, i < 32 → bit (sfP g k).toNat i = if bit x.mask.toNat i then bit (laneOf x.val.data 0).toNat i else bit (look 0 f.p k).toNat i)))
  ∧ (∀ (n k : Nat) (s : State) (d : Deliv) (rest : List Deliv), sitePresent s.member n = true → siteRuns s n = true →
       (swAt s n).deliv = d :: rest → s.now = d.due →
       (kindOf n = .mx → d.tag.bind (ringTag 16) = some k →
         let x := mxAt s n
         let g := look default x.rings k
         rgEn g.desc = true → ringOcc g ≠ rgLenM1 g.desc + 1 →
         ∃ t, exec (.ringDelivery n) s = .next t ∧ t = { s with mx := t.mx, sw := t.sw } ∧ (∀ m, m ≠ n → mxAt t m = mxAt s m)
           ∧ swAt t n = { swAt s n with deliv := rest } ∧ (∀ m, m ≠ n → swAt t m = swAt s m)
           ∧ mxAt t n = { x with
               acts := x.acts ++ [{ at_ := s.now, pc := none, act := .row (128 * (rgBase g.desc + g.wptr % 32768)) d.flit }]
               rings := put default x.rings k { g with wptr := ptrAdd (rgLenM1 g.desc + 1) g.wptr 1 } })
       ∧ (kindOf n = .sf → d.tag.bind (ringTag 8) = some k →
         let x := sfAt s n
         let g := look default x.rings k
         rgEn g.desc = true → ringOcc g ≠ rgLenM1 g.desc + 1 →
         ∃ t, exec (.ringDelivery n) s = .next t ∧ t = { s with sf := t.sf, sw := t.sw } ∧ (∀ m, m ≠ n → sfAt t m = sfAt s m)
           ∧ swAt t n = { swAt s n with deliv := rest } ∧ (∀ m, m ≠ n → swAt t m = swAt s m)
           ∧ sfAt t n = { x with
               acts := x.acts ++ [{ at_ := s.now, pc := none, act := .row (128 * (rgBase g.desc + g.wptr % 32768)) d.flit }]
               rings := put default x.rings k { g with wptr := ptrAdd (rgLenM1 g.desc + 1) g.wptr 1 } }))

/-- R178: NOP, WAIT, WT to an ACLK not before t + 1, LOOP, BR, SETT and ADDT: the next word, its earliest ACLK, and T; nothing else. R178, R180: GO, PAGE
and FELL that issue at least two ACLK early, with fewer than eight actions pending, join the timer queue: GO with the starts of its masked sites at e,
PAGE for ACLK 0 of the pick of e, FELL with a token on the token net for e. R178, R185: CWAIT and QWAIT add their ready condition while fewer than
eight stand; SAMP of a creel's occupancy puts its record into a sample buffer that is not full. Where the manual leaves a choice or a reading, the
model’s is that of log 8, 9. -/
def Obligations.SuWordsComplete : Prop :=
  (∀ (n : Nat) (w : W64) (s : State), suCanIssue n w s →
       let r := suAtIssue n s
       let u := suAt r n
       let q := u.seq.advance (r.now + 1)
       (wOp w = 0x00 → suEnds (exec (.suNop n w) s) n r { u with seq := q })
       ∧ (wOp w = 0x02 → suEnds (exec (.suWait n w) s) n r { u with seq := u.seq.advance (r.now + bits w.toNat 31 0 + 1) })
       ∧ (wOp w = 0x03 → r.now + 1 ≤ suEffective u w → suEnds (exec (.wt n w) s) n r { u with seq := u.seq.advance (suEffective u w) })
       ∧ (wOp w = 0x04 → u.seq.loops.length < 4 → suEnds (exec (.suLoop n w) s) n r { u with seq := { u.seq with
           loops := { start := u.seq.pc + 1, last := bits w.toNat 8 0, left := bits w.toNat 24 9 + 1 } :: u.seq.loops
           pc := u.seq.pc + 1
           next := r.now + 1 } })
       ∧ (wOp w = 0x05 → suEnds (exec (.suBr n w) s) n r { u with seq := { u.seq with pc := bits w.toNat 8 0, next := r.now + 2 } })
       ∧ (wOp w = 0x06 → suEnds (exec (.sett n w) s) n r { u with seq := q, tOff := bits w.toNat 31 0, tAc := bits w.toNat 34 32 })
       ∧ (wOp w = 0x07 → suEnds (exec (.addt n w) s) n r { u with seq := q, tOff := (u.tOff + bits w.toNat 31 0) % 2 ^ 32 }))
  ∧ (∀ (n : Nat) (w : W64) (s : State), suCanIssue n w s →
       let r := suAtIssue n s
       let u := suAt r n
       let q := u.seq.advance (r.now + 1)
       let e := suEffective u w
       let mask := bits w.toNat 15 0
       let addr := bits w.toNat 25 16
       u.timers.length < 8 →
       (wOp w = 0x10 → r.now + 2 ≤ e → suEnds (exec (.go n w) s) n r { u with
           seq := q, timers := u.timers ++ [(e - 2, .go mask addr)], goMask := u.goMask ||| mask
           starts := u.starts ++ ((List.range 16).filter (bit mask)).map fun p => (e, siteOf (heddleOf n) p, addr, u.seq.pc) })
       ∧ (wOp w = 0x11 → r.now + 2 ≤ e / 8 * 8 → suEnds (exec (.page n w) s) n r { u with
           seq := q, timers := u.timers ++ [(e / 8 * 8, .page (bits w.toNat 5 0))] })
       ∧ (wOp w = 0x12 → r.now + 2 ≤ e → bits w.toNat 6 4 ≤ 4 → suEnds (exec (.fell n w) s) n r { u with
           seq := q, timers := u.timers ++ [(e - 2, .fell (bits w.toNat 7 7) (bits w.toNat 6 4) (bits w.toNat 3 0))]
           tokOut := addToken e (tokenWord (bits w.toNat 3 0) (bits w.toNat 6 4) 2 (bits w.toNat 7 7)) u.tokOut }))
  ∧ (∀ (n : Nat) (w : W64) (s : State), suCanIssue n w s →
       let r := suAtIssue n s
       let u := suAt r n
       let q := u.seq.advance (r.now + 1)
       let pos := bits w.toNat 3 0
       let src := bits w.toNat 7 4
       (wOp w = 0x18 → u.conds.length < 8 → suEnds (exec (.cwait n w) s) n r { u with
           seq := q, conds := u.conds ++ [.creel (bits w.toNat 31 16) (bit w.toNat 8) src pos] })
       ∧ (wOp w = 0x19 → u.conds.length < 8 → bits w.toNat 6 0 ≤ 64 → suEnds (exec (.qwait n w) s) n r { u with
           seq := q, conds := u.conds ++ [.queue (bits w.toNat 25 16) (bit w.toNat 9) (bit w.toNat 8) (bits w.toNat 6 0)] })
       ∧ (wOp w = 0x28 → bits w.toNat 9 8 = 0 → kindOfPos pos = .mm → u.samples.length < 256 → suEnds (exec (.samp n w) s) n r { u with
           seq := q
           samples := u.samples ++ [BitVec.ofNat 64 ((r.now / 8 - suBase u) % 2 ^ 24 * 2 ^ 40 + pos * 2 ^ 36 + src * 2 ^ 32
             + min (crOcc (creelAt (mmAt r (siteOf (heddleOf n) pos)) src)) 65535)] }))

/-- R178, R182, R204: a JOIN that is in time joins the start barrier of the next step with the fields of its word; the program waits at it. The first JOIN
of a job takes P as the end pick and selects its barrier page at once. R182: at the pick boundary where every condition holds and step k - 2 has
committed, an SU in JOIN becomes ready; a root without DEV whose children are all ready sets START to the latest READY plus D, and its JOIN completes
with T at offset 0 of the new step. Where the manual leaves a choice or a reading, the model’s is that of log 8, 29. -/
def Obligations.JoinsAgreeOnAStart : Prop :=
  (∀ (n a : Nat) (w : W64) (s : State), suCanIssue n w s → wOp w = 0x20 →
       let r := suAtIssue n s
       let u := suAt r n
       areaOfSite r n = some a → (u.lastJoin ≠ none → r.now + 2 ≤ 8 * (suBase u + bits w.toNat 55 32)) →
       ∃ t, exec (.join n w) s = .next t ∧ (∀ m, m ≠ n → suAt t m = suAt r m) ∧ t.mx = r.mx ∧ t.sf = r.sf ∧
         let v := suAt t n
         v = { u with join := v.join, savedJoin := v.savedJoin, barrier := v.barrier }
         ∧ v.join = some { len := bits w.toNat 55 32, d := bits w.toNat 31 20, bpg := bits w.toNat 19 14, nch := bits w.toNat 13 10
                           root := bit w.toNat 9, dev := bit w.toNat 8
                           endPick := if u.lastJoin = none then (areaAt r a).job.p else suBase u + bits w.toNat 55 32
                           opens := u.inStep, ready := none, start := none, startSeen := 0 }
         ∧ (u.inStep, u.seq.pc, u.seq.loops, u.seq.bank, w) ∈ v.savedJoin
         ∧ v.barrier = if u.lastJoin = none then some (bits w.toNat 19 14) else u.barrier)
  ∧ (∀ (n a : Nat) (s : State) (j : Join), sitePresent s.member n = true → kindOf n = .su → siteRuns s n = true →
       areaOfSite s n = some a → (suAt s n).join = some j → j.ready = none →
       let r := toPick (max ((s.now + 7) / 8) (j.endPick + (aregAt s a).hold)) s
       let u := suAt r n
       let p := r.pick
       let S := maxReady (heard j u) p + j.d
       ((suAt s n).conds.all (condHolds r (heddleOf n))) = true → commitReady r a j.opens = true →
       ((j.root = false ∨ j.dev = true) →
         ∃ t, exec (.joinReady n) s = .next t ∧ t = { r with su := t.su } ∧ (∀ m, m ≠ n → suAt t m = suAt r m)
           ∧ suAt t n = { u with join := some { j with ready := some p } })
       ∧ (j.root = true → j.dev = false → j.start = none → 0 < j.d → kidsReady (heard j u) j p = true → r.pwr.clamp = none → areaOfSite r n = some a →
         joinSwaps r a j.opens u.seq.bank = false →
         ∃ t, exec (.joinReady n) s = .next t ∧ (∀ m, m ≠ n → suAt t m = suAt r m) ∧ t.sw = r.sw ∧ t.mm = r.mm ∧ t.areas = r.areas ∧
           let v := suAt t n
           v.join = none ∧ v.lastJoin = some { j with ready := some p, start := some S, startSeen := p - 1 }
           ∧ v.downOut = some [j.opens, suStatus (heard j u), S] ∧ v.tOff = 0 ∧ v.tAc = 0 ∧ v.conds = [] ∧ v.inStep = j.opens + 1
           ∧ v.seq = u.seq.advance (r.now + 2)))

/-- R33, R181, R182, R315, R318: an up flit of the served JOIN's step replaces what its child, of this device or another, had said; a down flit with START
completes the JOIN, and its START, STATUS and step are what the SU sends down; one that comes too late leaves the SU waiting for the replay. A flit of
another step that came by a port ends the job: the two devices' steps are not the same. R181, R182: on its barrier page an SU sends its up flit at
ACLK 0 of a pick, with the latest READY once it and all its children are ready, and its down flit at ACLK 4, with the STATUS and START it has been
told; each enters its switch's local input. R317, R437: an SU of a cross-device edge that has no START when the barrier window of the step last
started ends, at S_k + NENT of its port, gives that step a second failure: at its commit pick where that is still to come, at once where its run has
failed. Where the manual leaves a choice or a reading, the model’s is that of log 29. -/
def Obligations.BarrierFlitsPassUpAndDown : Prop :=
  (∀ (n a : Nat) (s : State) (j : Join) (d : Deliv) (rest : List Deliv), sitePresent s.member n = true → kindOf n = .su →
       siteRuns s n = true → areaOfSite s n = some a → (swAt s n).deliv = d :: rest → d.due = s.now → d.tag = none → awaitsTag (swAt s n) d = false → d.flit.sour = 0 →
       servedJoin (s.now / 8) (suAt s n) = some j →
       let u := { suAt s n with farPort := if d.flit.port.isSome then d.flit.port else (suAt s n).farPort }
       let down := bfStep d.flit = j.opens ∧ bfKind d.flit = 2 ∧ bfStart d.flit ≠ 0 ∧ (suAt s n).join = some j ∧ j.start = none ∧ j.root = false
       (bfStep d.flit = j.opens → bfKind d.flit = 1 →
         ∃ t, exec (.barrierFlit n) s = .next t ∧ t = { s with su := t.su, sw := t.sw } ∧ swAt t n = { swAt s n with deliv := rest }
           ∧ (∀ m, m ≠ n → suAt t m = suAt s m)
           ∧ suAt t n = { u with kids := (u.kids.filter fun k => !(k.heddle == bfHeddle d.flit && k.far == d.flit.port.isSome)) ++
               [{ heddle := bfHeddle d.flit, far := d.flit.port.isSome, ready := bfReady d.flit, status := bfStatus d.flit, seen := s.now / 8 }] })
       ∧ (down → bfStart d.flit ≤ (s.now + 1) / 8 →
         ∃ t, exec (.barrierFlit n) s = .next t ∧ (suAt t n).join = none ∧ (suAt t n).seq.stopped = true)
       ∧ (bfStep d.flit ≠ j.opens → bfKind d.flit ∈ [1, 2] → d.flit.port ≠ none → hasJob s a = true →
         ∃ t, exec (.barrierFlit n) s = .next t ∧ (areaAt t a).job.state = jEnded)
       ∧ (down → (s.now + 1) / 8 < bfStart d.flit → joinSwaps s a j.opens (suAt s n).seq.bank = false →
         ∃ t, exec (.barrierFlit n) s = .next t ∧ t = { s with su := t.su, sw := t.sw } ∧ swAt t n = { swAt s n with deliv := rest }
           ∧ (∀ m, m ≠ n → suAt t m = suAt s m) ∧
           let v := suAt t n
           v.join = none ∧ v.lastJoin = some { j with start := some (bfStart d.flit), startSeen := s.now / 8 }
           ∧ v.downOut = some [j.opens, bfStatus d.flit, bfStart d.flit] ∧ v.inStep = j.opens + 1 ∧ v.tOff = 0 ∧ v.tAc = 0))
  ∧ (∀ (n : Nat) (s : State) (j : Join), sitePresent s.member n = true → kindOf n = .su → siteRuns s n = true →
       (suAt s n).barrier ≠ none → servedJoin (s.now / 8) (suAt s n) = some j → rootStart n s = s →
       let u := heard j (suAt s n)
       let sends := fun (o : Out) (f : Flit) => ∃ t, o = .next t ∧ onlySw n s t
         ∧ swAt t n = { swAt s n with fly := (swAt s n).fly ++ [{ due := s.now + 1, inp := 4, flit := f }] }
       (s.now % 8 = 0 → (j.root = false ∨ j.dev = true) → ∀ p, j.ready = some p → p ≤ s.now / 8 →
           j.nch ≤ (u.kids.filter fun k => decide (k.ready ≠ 0)).length →
         sends (exec (.barrierFlitSend n false) s) (barrierFlitOf (maxReady u p) j.opens (suStatus u) 0 1 (heddleOf n)))
       ∧ (s.now % 8 = 4 → j.nch ≠ 0 → ∀ st S, u.downOut = some [j.opens, st, S] → j.startSeen < s.now / 8 →
         sends (exec (.barrierFlitSend n true) s) (barrierFlitOf 0 j.opens st S 2 (heddleOf n))))
  ∧ (∀ (n a p : Nat) (s : State) (j : Join) (x : PlanStep), sitePresent s.member n = true → kindOf n = .su →
       (suAt s n).join = some j → areaOfSite s n = some a → jobRuns s a = true → (areaAt s a).job.plan.getLast? = some x → edgePort s a n x = some p →
       j.dev = true → j.start = none → x.s + planLen x.plans p x.cls ≤ s.now / 8 →
       let kept := fun t : State => (∀ b, b ≠ a → areaAt t b = areaAt s b) ∧ t.mm = s.mm ∧ t.mx = s.mx ∧ t.sw = s.sw ∧ t.now = s.now
       (∀ st, curStep s a = some st → st.k = x.k →
         ∃ t, exec (.barrierWindowEnd n) s = .next t ∧ kept t
           ∧ ∃ y, curStep t a = some y ∧ y.failed = true ∧ y.second = true ∧ y.status % 8 / 4 = 1 ∧ y.k = st.k)
       ∧ ((areaAt s a).job.steps = [] → (areaAt s a).job.ras = 1 → (areaAt s a).job.cycle < 3 →
         ∃ t, exec (.barrierWindowEnd n) s = .next t ∧ kept t ∧ (areaAt t a).job.ras = 2 ∧ (areaAt t a).job.cycle = (areaAt s a).job.cycle + 1))

/-- R155, R180: the next start on the start net of a heddle's SU, due now, begins the MX or SF program it names where the site executed END at least one
ACLK before: its address, at its ACLK, in the step that runs, with no loop open and every register kept. R95, R108: the halt of an area reaches a site
at a pick boundary: its sequencer stops, its switch stops, and the flits in flight, join slack, deliveries and token latches of the switch are empty;
the registers of the site stay. Where the manual leaves a choice or a reading, the model’s is that of log 17. -/
def Obligations.SitesStartAndStop : Prop :=
  (∀ (n e addr pa : Nat) (s : State), sitePresent s.member n = true → siteRuns s n = true →
       let su := suOf (heddleOf n)
       firstStart n (suAt s su).starts = some (e, n, addr, pa) → e = s.now → suStartDue su e s = s →
       let begun := fun q : Seq => { q with pc := addr, running := true, next := e, loops := [], step := stepBase s (areaOfSite s n) / 8 }
       let gone := fun t : State => (∀ m, m ≠ su → suAt t m = suAt s m)
         ∧ suAt t su = { suAt s su with starts := (suAt s su).starts.erase (e, n, addr, pa) }
       (kindOf n = .mx → (mxAt s n).seq.running = false → (mxAt s n).seq.next ≤ e →
         ∃ t, exec (.siteStart n) s = .next t ∧ t = { s with su := t.su, mx := t.mx } ∧ gone t ∧ (∀ m, m ≠ n → mxAt t m = mxAt s m)
           ∧ mxAt t n = { mxAt s n with seq := begun (mxAt s n).seq })
       ∧ (kindOf n = .sf → (sfAt s n).seq.running = false → (sfAt s n).seq.next ≤ e →
         ∃ t, exec (.siteStart n) s = .next t ∧ t = { s with su := t.su, sf := t.sf } ∧ gone t ∧ (∀ m, m ≠ n → sfAt t m = sfAt s m)
           ∧ sfAt t n = { sfAt s n with seq := begun (sfAt s n).seq }))
  ∧ (∀ (n a : Nat) (s : State), sitePresent s.member n = true → areaOfSite s n = some a → (areaAt s a).halted = true → s.now % 8 = 0 →
       ∃ t, exec (.haltReach n) s = .next t ∧ t.now = s.now ∧ (∀ m, m ≠ n → swAt t m = swAt s m ∧ mxAt t m = mxAt s m ∧ sfAt t m = sfAt s m)
         ∧ (swAt t n).stopped = true ∧ (swAt t n).fly = [] ∧ (swAt t n).inp = [] ∧ (swAt t n).deliv = [] ∧ (swAt t n).weave = (swAt s n).weave
         ∧ siteRuns t n = false ∧ t.mm = s.mm
         ∧ (kindOf n = .mx → mxAt t n = { mxAt s n with seq := { (mxAt s n).seq with stopped := true }, macs := [], macsDone := [], spmac := none, outs := [], acts := [] })
         ∧ (kindOf n = .sf → sfAt t n = { sfAt s n with seq := { (sfAt s n).seq with stopped := true }, wb := [], acts := [] }))

/-- R83, R84, R90: an output port of a running switch executes a forward entry: the head of the source's join slack FIFO leaves for the neighbour's facing
input (one ACLK after it leaves, later by the link's extra) or for the site (port L), and the FIFO's head is marked for its pop unless KEEP is set;
every other FIFO, table and unit is unchanged. At an edge input the flit stays on the link for every other output that names it in the ACLK. R83,
R91-R93: a reduce entry combines the heads of its two sources lane by lane, a segment sour where either is; the result leaves one ACLK later than a
forwarded flit would. Where the manual leaves a choice or a reading, the model’s is that of log 24, 76. -/
def Obligations.WeaveForwardsAndReduces : Prop :=
  ((∀ (n p a l : Nat) (s : State) (f : Flit), sitePresent s.member n = true → p < 5 → switchRuns s n = true →
       let e := portEntry (swAt s n) p s.now
       let x := edgeAtt s a l s.now
       resultLeaves (swAt s n) p s.now = false → weKind e = 1 → weTok e = false → attOf s.member n (weSrcA e) = some (a, l) → edgeHead s x l = some f →
       ∃ t, exec (.weaveEntryExec n p) s = .next t ∧ edgeHead t x l = some f ∧ (∀ m i, (look default (swAt t m).inp i).q = (look default (swAt s m).inp i).q)
         ∧ t.mm = s.mm ∧ t.mx = s.mx ∧ t.sf = s.sf ∧ t.stks = s.stks)
     ∧ ∀ (n p : Nat) (s : State) (f : Flit) (rest : List Flit), sitePresent s.member n = true → p < 5 → switchRuns s n = true →
       let w := swAt s n
       let e := portEntry w p s.now
       resultLeaves w p s.now = false → weKind e = 1 → weTok e = false → attOf s.member n (weSrcA e) = none →
       (look default w.inp (weSrcA e)).q = f :: rest → heldIdle s n p = false →
       ∃ t, exec (.weaveEntryExec n p) s = .next t ∧ t = { s with sw := t.sw, att := t.att, counts := t.counts, ports := t.ports, areas := t.areas, su := t.su }
         ∧ (∀ i, i ≠ weSrcA e → look default (swAt t n).inp i = look default w.inp i)
         ∧ look default (swAt t n).inp (weSrcA e) = (if weKeep e then look default w.inp (weSrcA e) else { look default w.inp (weSrcA e) with pop := true })
         ∧ (swAt t n).weave = w.weave ∧ (swAt t n).pages = w.pages ∧ (swAt t n).outp = w.outp
         ∧ (p = 4 → (swAt t n).deliv = w.deliv ++ [{ due := s.now + 1, te := s.now, tok := false, tag := none, flit := f }] ∧ t.att = s.att)
         ∧ ∀ m, p < 4 → neighbour s.member n p = some m → m ≠ n →
             (swAt t m).fly = (swAt s m).fly ++ [{ due := s.now + 1 + linkExtra n p, inp := facing p, flit := f }] ∧ t.att = s.att)
  ∧ (∀ (n p : Nat) (s : State) (f g : Flit), sitePresent s.member n = true → p < 5 → switchRuns s n = true →
       let w := swAt s n
       let e := portEntry w p s.now
       resultLeaves w p s.now = false → weKind e = 2 → weTok e = false → attOf s.member n (weSrcA e) = none → attOf s.member n (weSrcB e) = none →
       (look default w.inp (weSrcA e)).q.head? = some f → (look default w.inp (weSrcB e)).q.head? = some g → heldIdle s n p = false →
       let out : Flit := { data := ofLanes (List.zipWith (reduceLane (weRop e)) (lanesOf f.data) (lanesOf g.data)), sour := f.sour ||| g.sour, loose := f.loose && g.loose }
       ∃ t, exec (.weaveEntryExec n p) s = .next t ∧ t.mm = s.mm ∧ t.mx = s.mx ∧ t.sf = s.sf ∧ t.now = s.now
         ∧ (look default (swAt t n).outp p).redAt = some (s.now + 1)
         ∧ (weKeep e = false → (look default (swAt t n).inp (weSrcA e)).pop = true ∧ (look default (swAt t n).inp (weSrcB e)).pop = true)
         ∧ (p = 4 → (swAt t n).deliv = w.deliv ++ [{ due := s.now + 2, te := s.now, tok := false, tag := none, flit := out }])
         ∧ ∀ m, p < 4 → neighbour s.member n p = some m → m ≠ n →
             (swAt t m).fly = (swAt s m).fly ++ [{ due := s.now + 2 + linkExtra n p, inp := facing p, flit := out }])

/-- R78, R80, R94, R106: a flit due now at an input of a running switch, from a switch of its area, is pushed to the join slack FIFO; a segment with an
uncorrectable error that was not sour becomes sour and raises a code of class 3, a flit whose valid wires disagree is discarded. On an edge link, and
on a link with no flit, valid wires that disagree raise WRP_VALID too, and an edge flit of theirs is lost. R96, R97, R177: the SU's next DLV token,
unharmed, enters the latch of port L of its switch, which holds no more than two; the token table of an SU sends the token of an entry with TOK = 1 of
the page then in force two ACLK before port L executes it. Where the manual leaves a choice or a reading, the model’s is that of log 13. -/
def Obligations.FlitsAndTokensArrive : Prop :=
  ((∀ (n i : Nat) (u : LinkUpset) (s : State), sitePresent s.member n = true → switchRuns s n = true → i < 5 → u.validBad = true →
       (∀ a l, attOf s.member n i = some (a, l) → (attAt s (edgeAtt s a l s.now)).taken.any (fun x => x.1 == l) = false →
         ∃ t, exec (.flitArrival n i u) s = .next t ∧ counted t 0x3503 n = counted s 0x3503 n + 1 ∧ edgeHead t (edgeAtt s a l s.now) l = none ∧ t.sw = s.sw)
       ∧ (attOf s.member n i = none → foreignInput s n i = false → earliest i (swAt s n).fly = none →
         ∃ t, exec (.flitArrival n i u) s = .next t ∧ counted t 0x3503 n = counted s 0x3503 n + 1 ∧ t.sw = s.sw ∧ t.att = s.att))
     ∧ ∀ (n i : Nat) (u : LinkUpset) (s : State) (f : Fly), sitePresent s.member n = true → switchRuns s n = true → foreignInput s n i = false →
       attOf s.member n i = none → earliest i (swAt s n).fly = some f → f.due = s.now →
       let w := swAt s n
       let fresh := u.ue.filter fun k => decide (k < 8) && !(bit f.flit.sour.toNat k)
       ∃ t, exec (.flitArrival n i u) s = .next t ∧ (swAt t n).fly = w.fly.erase f ∧ (∀ m, m ≠ n → swAt t m = swAt s m)
         ∧ t.mm = s.mm ∧ t.mx = s.mx ∧ t.sf = s.sf ∧ t.now = s.now
         ∧ (look default (swAt t n).inp i).q = (look default w.inp i).q ++ (if u.validBad then [] else [{ f.flit with sour := (sourSegs fresh f.flit).sour }])
         ∧ (∀ j, j ≠ i → look default (swAt t n).inp j = look default w.inp j)
         ∧ (u.ce = [] → u.ue = [] → u.validBad = false → t = { s with sw := t.sw }))
  ∧ (∀ (u : Nat) (s : State), sitePresent s.member u = true → kindOf u = .su →
       (∀ (w : BitVec 24) (r : List (Nat × BitVec 24)), (suAt s u).tokOut = (s.now, w) :: r →
         let n := siteOf (heddleOf u) (tkSite w.toNat)
         tkType w.toNat = 1 → tkPort w.toNat = 4 → switchRuns s n = true → tokenBad (swAt s n) w.toNat = false →
         (look default (swAt s n).outp 4).latch.length < 2 → (look default (swAt s n).outp 4).waits = [] →
         ∃ t, exec (.controlTokenArrival u 0) s = .next t ∧ t = { s with su := t.su, sw := t.sw } ∧ (∀ m, m ≠ u → suAt t m = suAt s m)
           ∧ suAt t u = { suAt s u with tokOut := r } ∧ (∀ m, m ≠ n → swAt t m = swAt s m)
           ∧ (look default (swAt t n).outp 4).latch = (look default (swAt s n).outp 4).latch ++ [{ word := w, arr := s.now }])
       ∧ (∀ pos, pos < 16 → siteRuns s u = true →
         let n := siteOf (heddleOf u) pos
         let x := pageAt s n u (s.now + 2)
         let d := pageDesc (swAt s n) x.2.2 4 x.1
         let i := entryIndex d x.2.1 (s.now + 2)
         let e := (look 0 (swAt s n).weave ((5 * x.2.2 + 4) * 1024 + i)).toNat
         switchRuns s n = true → pdValid d = true → x.2.1 ≤ s.now + 2 → weTok e = true → weKind e ≠ 0 →
         ∃ t, exec (.tokenTableEmit u pos) s = .next t ∧ t = { s with su := t.su, sw := t.sw } ∧ sameSwitches s t
           ∧ (∀ m, m ≠ u → suAt t m = suAt s m)
           ∧ suAt t u = { suAt s u with tokOut := addToken (s.now + 2) (tokenWord pos 4 1 (look 0 (swAt s n).tokens (1024 * x.2.2 + i)).toNat) (suAt s u).tokOut }))

/-- R88, R97, R108, R116: a page selection takes effect on every port of the heddle's switches and on its pull plans at its ACLK, but not where a halt has
stopped them; a port whose FELL was met, and whose output no reduce result occupies, changes to the named bank, page 0, three ACLK after its entry.
R102, R105, R109, R110: a returning credit leaves the list of credits out, and a slow round trip is counted at the switch of its edge link; the oldest
credit that has not hung before and has been out for 10,000 picks raises WRP_CREDIT_HANG there, once. Where the manual leaves a choice or a reading,
the model’s is that of log 17, 75. -/
def Obligations.PagesTakeEffectAndCreditsReturn : Prop :=
  (∀ (n : Nat) (s : State), sitePresent s.member n = true →
       (kindOf n = .su → (swAt s n).stopped = false → ∀ pg, nextPage (suAt s n) = some (s.now, pg, false) →
         ∃ t, exec (.pageTakeEffect n) s = .next t ∧ t.mx = s.mx ∧ t.sf = s.sf ∧ t.now = s.now
           ∧ (suAt t n) = { suAt s n with timers := (suAt s n).timers.erase (s.now, .page pg), barrier := none }
           ∧ (∀ m ∈ heddleSites (heddleOf n), (swAt s m).stopped = false → ∀ p, p < 5 → (look default (swAt t m).outp p).page = pg ∧ (look default (swAt t m).outp p).since = s.now)
           ∧ (∀ m ∈ heddleSites (heddleOf n), (swAt s m).stopped = false → kindOf m = .mm → (mmAt t m).page = pg ∧ (mmAt t m).since = s.now)
           ∧ (∀ m ∈ heddleSites (heddleOf n), (swAt s m).stopped = true → (swAt t m).outp = (swAt s m).outp ∧ mmAt t m = mmAt s m)
           ∧ (∀ m, m ∉ heddleSites (heddleOf n) → swAt t m = swAt s m ∧ mmAt t m = mmAt s m))
       ∧ (∀ p b, p < 4 → (look default (swAt s n).outp p).fell = some (s.now, b) → (look default (swAt s n).outp p).redAt ≠ some s.now →
         ∃ t, exec (.fellBankSwitch n p) s = .next t ∧ onlySw n s t
           ∧ swAt t n = { swAt s n with outp := (swAt t n).outp } ∧ (∀ q, q ≠ p → look default (swAt t n).outp q = look default (swAt s n).outp q)
           ∧ look default (swAt t n).outp p = { look default (swAt s n).outp p with bank := b, page := 0, since := s.now, fell := none, fellDone := true })
       ∧ (∀ b, (look default (swAt s n).outp 4).fell = some (s.now, b) → (look default (swAt s n).outp 4).redAt ≠ some s.now →
         ∃ t, exec (.fellBankSwitch n 4) s = .next t ∧ t = { s with sw := t.sw, mm := t.mm, mx := t.mx, sf := t.sf }
           ∧ look default (swAt t n).outp 4 = { look default (swAt s n).outp 4 with bank := b, page := 0, since := s.now, fell := none, fellDone := true }
           ∧ (kindOf n = .mm → (mmAt t n).bank = b ∧ (mmAt t n).page = 0 ∧ (mmAt t n).since = s.now)
           ∧ (kindOf n = .mx → (mxAt t n).seq = { (mxAt s n).seq with bank := b }) ∧ (kindOf n = .sf → (sfAt t n).seq = { (sfAt s n).seq with bank := b })))
  ∧ (∀ (a k e l : Nat) (r : List (Nat × Nat)) (s : State), attPresent s.member a = true →
       let sw := (edgeSite a l).1
       (look [] (attAt s a).flying k = (e, l) :: r →
         ∃ t, exec (.creditReturn a k) s = .next t ∧ t = { s with att := t.att, counts := t.counts } ∧ (∀ b, b ≠ a → attAt t b = attAt s b)
         ∧ attAt t a = { attAt s a with flying := (attAt t a).flying, hung := (attAt t a).hung } ∧ look [] (attAt t a).flying k = r
         ∧ look 0 (attAt t a).hung k = look 0 (attAt s a).hung k - 1
         ∧ (∀ j, j ≠ k → look [] (attAt t a).flying j = look [] (attAt s a).flying j ∧ look 0 (attAt t a).hung j = look 0 (attAt s a).hung j)
         ∧ counted t 0x1523 sw = counted s 0x1523 sw + if loopBound k < s.now - e then 1 else 0)
       ∧ ((look [] (attAt s a).flying k).drop (look 0 (attAt s a).hung k) = (e, l) :: r → e + 80000 ≤ s.now →
         ∃ t, exec (.wrpCreditHang a k) s = .next t ∧ t.sw = s.sw ∧ t.now = s.now ∧ (∀ b, b ≠ a → attAt t b = attAt s b)
         ∧ attAt t a = { attAt s a with hung := (attAt t a).hung } ∧ look 0 (attAt t a).hung k = look 0 (attAt s a).hung k + 1
         ∧ counted t 0x3522 sw = counted s 0x3522 sw + 1
         ∧ ∀ b st, areaOfSite s sw = some b → curStep s b = some st → ∃ x, curStep t b = some x ∧ x.failed = true))

/-- R153, R164, R172: a WPK for a past ACLK and a fifth loop level raise MX_SEQ, and the MX site goes on to the next word in the next ACLK; the area whose
job runs is halted at this pick (R108), and the code is counted once more at the site. R94: when an ACLK ends, every marked head is popped and a 17th
flit is discarded: no FIFO of join slack holds more than 16 flits. R98, R108: at the end of its ± 2 ACLK window a token left in a latch is dropped and
raises WRP_TOKEN; the area whose job runs halts. Where the manual leaves a choice or a reading, the model’s is that of log 17. -/
def Obligations.ScheduleDefectsHaltTheArea : Prop :=
  (∀ (n : Nat) (w : W64) (s : State) (a : Nat), mxCanIssue n w s →
       let r := mxAtIssue n s
       let x := mxAt r n
       areaOfSite r n = some a → jobRuns r a = true →
       let halts := fun o : Out => ∃ t, o = .next t ∧ (areaAt t a).halted = true ∧ (areaAt t a).job.state = jHalted
         ∧ counted t 0x4116 n = counted r 0x4116 n + 1 ∧ mxAt t n = { x with seq := x.seq.advance (r.now + 1) }
         ∧ ∀ b, b ≠ a → areaAt t b = areaAt r b
       (wOp w = 0x03 → 8 * (x.seq.step + bits w.toNat 31 0) + bits w.toNat 34 32 < r.now + 1 → halts (exec (.mxWpk n w) s))
       ∧ (wOp w = 0x04 → 4 ≤ x.seq.loops.length → halts (exec (.mxLoop n w) s)))
  ∧ (∀ (s : State) (n i : Nat), TabWf default s.sw = true → TabWf default (swAt s n).inp = true →
       let q := look default (swAt s n).inp i
       (look default (swAt (runTo (s.now + 1) s) n).inp i).q = (if q.pop then q.q.drop 1 else q.q).take 16
       ∧ (look default (swAt (runTo (s.now + 1) s) n).inp i).q.length ≤ 16)
  ∧ (∀ (n p a : Nat) (s : State) (k : Tok), sitePresent s.member n = true →
       let o := look default (swAt s n).outp p
       o.waits = [] → o.latch = [k] → k.arr + 2 ≤ s.now → areaOfSite s n = some a → jobRuns s a = true →
       ∃ t, exec (.tokenWindowExpiry n p) s = .next t ∧ look default (swAt t n).outp p = { o with latch := [] }
         ∧ (∀ m, m ≠ n → swAt t m = swAt s m) ∧ counted t 0x4512 n = counted s 0x4512 n + 1
         ∧ (areaAt t a).halted = true ∧ (areaAt t a).job.state = jHalted ∧ (∀ b, b ≠ a → areaAt t b = areaAt s b) ∧ t.mm = s.mm ∧ t.mx = s.mx ∧ t.sf = s.sf)

/-- R113-R115, R121, R124: a delivery whose tag pushes one half of its flit into an enabled creel with room writes PADV cells at TAIL and moves TAIL by
PADV (CTAIL with it outside commit mode); every other byte of the site, every other creel and unit is unchanged. R112, R117, R121, R124: a pull entry
for one half sends CADV cells from HEAD, clean and zero-filled, to the switch's local input and moves HEAD by CADV; the bytes of the site stay as they
are. Where the manual leaves a choice or a reading, the model’s is that of log 70, 73. -/
def Obligations.CreelsPushAndPull : Prop :=
  (∀ (n tag i : Nat) (hi : Bool) (s : State) (d : Deliv) (rest : List Deliv), sitePresent s.member n = true → kindOf n = .mm → siteRuns s n = true →
       (swAt s n).deliv = d :: rest → d.due = s.now → d.tag = some tag → bits tag 11 10 = 0 → bit tag 9 = hi → bit tag 8 = !hi →
       i = (if hi then bits tag 7 4 else bits tag 3 0) → d.flit.sour = 0 →
       let m := mmAt s n
       let c := creelAt m i
       let b := crSub c.desc
       (crMode c.desc = 1 ∨ crMode c.desc = 3) → (subAt m b).power = 0 → (subAt m b).lastSched ≠ some s.now → crPadv c.desc ≤ crFree c →
       let a := mmRowAddr m b (crRow c.desc c.tail) + 16 * (c.tail % 4)
       let half := if hi then (rowBytes d.flit.data).drop 64 else (rowBytes d.flit.data).take 64
       crPadv c.desc ≤ 4 →
       ∃ t, exec (.mmDelivery n) s = .next t ∧ t = { s with mm := t.mm, sw := t.sw } ∧ (∀ k, k ≠ n → mmAt t k = mmAt s k) ∧
         let y := mmAt t n
         y = { m with mem := y.mem, code := y.code, creels := y.creels, subs := y.subs }
         ∧ bytesAt y.mem a (16 * crPadv c.desc) = half.take (16 * crPadv c.desc)
         ∧ (∀ j, ¬ (a ≤ j ∧ j < a + 16 * crPadv c.desc) → look 0 y.mem j = look 0 m.mem j)
         ∧ creelAt y i = { c with tail := ptrAdd (crCap c.desc) c.tail (crPadv c.desc)
                                  ctail := if crMode c.desc = 3 then c.ctail else ptrAdd (crCap c.desc) c.tail (crPadv c.desc) }
         ∧ ∀ k, k ≠ i → creelAt y k = creelAt m k)
  ∧ (∀ (n : Nat) (hi : Bool) (s : State), sitePresent s.member n = true → kindOf n = .mm → siteRuns s n = true →
       let m := mmAt s n
       let e := pullPlanEntry m s.now
       let i := if hi then bits e 9 6 else bits e 13 10
       let c := creelAt m i
       let b := crSub c.desc
       let row := crRow c.desc c.head
       bits e 15 14 = 1 → bit e 5 = !hi → bit e 4 = hi → sparseLeaves m s.now = false →
       crMode c.desc ≠ 0 → crCadv c.desc ≤ (if crMode c.desc = 3 then crCommitted c else crOcc c) → crCadv c.desc ≤ 4 →
       (subAt m b).power = 0 → (subAt m b).lastSched ≠ some s.now → mmCells m b row = List.replicate 4 .good → m.inj = none →
       let cells := ((mmRow m b row).drop (16 * (c.head % 4))).take (16 * crCadv c.desc)
       let half := cells ++ List.replicate (64 - cells.length) 0
       let zero := List.replicate 64 (0 : Byte)
       ∃ t, exec (.pullEntryExec n) s = .next t ∧ t = { s with mm := t.mm, sw := t.sw } ∧ (∀ k, k ≠ n → mmAt t k = mmAt s k ∧ swAt t k = swAt s k)
         ∧ (swAt t n).fly = (swAt s n).fly ++ [{ due := s.now + 1, inp := 4, flit := { data := rowOf (if hi then zero ++ half else half ++ zero), sour := 0 } }]
         ∧ (mmAt t n).mem = m.mem ∧ (mmAt t n).code = m.code ∧ (creelAt (mmAt t n) i).head = ptrAdd (crCap c.desc) c.head (crCadv c.desc)
         ∧ (creelAt (mmAt t n) i).tail = c.tail ∧ ∀ k, k ≠ i → creelAt (mmAt t n) k = creelAt m k)

/-- R129-R135: a DMA delivery joins its sub-bank's queue; the queue's head, a push into an elastic creel with room, is stored at TAIL, a read of committed
cells of a host-readable commit creel puts them into the return queue, after two accesses where they lie in two rows; each takes an ACLK that no other
access has (log 72). The edge's slot sends its oldest operation where it has a credit, else a blank. That a push into another creel or a drain is
answered as it is, is the model's choice (log 73). R137, R140: a write-back corrects the oldest corrected row of a free sub-bank in place; a scrub of
a free sub-bank reads the next of its 6,144 rows, corrects the cells with one symbol in error, and makes a row with an uncorrectable cell sour,
counted where it was not sour already; data of good rows stay. Each takes an ACLK that no other access of the sub-bank has (log 72). -/
def Obligations.DmaMovesAndRowsAreCorrected : Prop :=
  (∀ (n : Nat) (s : State), sitePresent s.member n = true → kindOf n = .mm → siteRuns s n = true →
       let m := mmAt s n
       (∀ d rest, (swAt s n).deliv = d :: rest → d.due = s.now → d.tag = some 0x400 →
         let o := dmaOpOf d.flit
         let b := crSub (creelAt m o.creel).desc
         o.op ≠ 0 → (subAt m b).power = 0 → (subAt m b).dmaq.length < 4 →
         ∃ t, exec (.dmaOpArrival n) s = .next t ∧ t = { s with mm := t.mm, sw := t.sw } ∧ (subAt (mmAt t n) b).dmaq = (subAt m b).dmaq ++ [{ o with arr := s.now }]
           ∧ (mmAt t n).mem = m.mem ∧ (mmAt t n).creels = m.creels ∧ (∀ k, k ≠ n → mmAt t k = mmAt s k))
       ∧ (∀ b o rest, b < 4 → (subAt m b).dmaq = o :: rest → (subAt m b).lowNext < s.now → o.arr < s.now → (∀ u, (subAt m b).lastSched = some u → u + 1 < s.now) →
         let c := creelAt m o.creel
         let a := mmRowAddr m b (crRow c.desc c.tail) + 16 * (c.tail % 4)
         let at_ := fun k => ptrAdd (crCap c.desc) (ptrAdd (crCap c.desc) c.head o.arg) k
         crSub c.desc = b →
         (o.op = 1 → crMode c.desc = 2 → (subAt m b).power = 0 → crPadv c.desc ≤ crFree c → crPadv c.desc ≤ 4 → s.bulk = [] →
           ∃ t, exec (.dmaQueueService n b) s = .next t ∧ onlyMm n s t ∧ (subAt (mmAt t n) b).dmaq = rest
             ∧ bytesAt (mmAt t n).mem a (16 * crPadv c.desc) = (leBytes 64 o.data.toNat).take (16 * crPadv c.desc)
             ∧ (∀ j, ¬ (a ≤ j ∧ j < a + 16 * crPadv c.desc) → look 0 (mmAt t n).mem j = look 0 m.mem j)
             ∧ (creelAt (mmAt t n) o.creel).tail = ptrAdd (crCap c.desc) c.tail (crPadv c.desc))
         ∧ (o.op = 2 → o.half = none → m.retq.length < 4 → dmaStatus c o ≠ 0 →
           ∃ t, exec (.dmaQueueService n b) s = .next t ∧ onlyMm n s t ∧ (subAt (mmAt t n) b).dmaq = rest ∧ (mmAt t n).mem = m.mem
             ∧ (mmAt t n).creels = m.creels
             ∧ (mmAt t n).retq = m.retq ++ [{ op := 2, creel := o.creel, status := dmaStatus c o, tag := o.tag, data := 0, sour := 0 }])
         ∧ (o.op = 2 → o.half = none → m.retq.length < 4 → dmaStatus c o = 0 → (subAt m b).power = 0 → m.inj = none → (∀ r, mmCells m b r = List.replicate 4 .good) →
           (((List.range 4).map fun k => crRow c.desc (at_ k)).eraseDups).length = 2 →
           ∃ t h, exec (.dmaQueueService n b) s = .next t ∧ onlyMm n s t ∧ (subAt (mmAt t n) b).dmaq = { o with half := some h } :: rest ∧ (mmAt t n).mem = m.mem
             ∧ (mmAt t n).retq = m.retq ∧ h.ptr = ptrAdd (crCap c.desc) c.head o.arg ∧ h.vis = crCommitted c - o.arg)
         ∧ (∀ h, o.op = 2 → o.half = some h → m.retq.length < 4 → (subAt m b).power = 0 → m.inj = none → (∀ r, mmCells m b r = List.replicate 4 .good) →
           ∃ t x, exec (.dmaQueueService n b) s = .next t ∧ onlyMm n s t ∧ (subAt (mmAt t n) b).dmaq = rest ∧ (mmAt t n).mem = m.mem
             ∧ (mmAt t n).retq = m.retq ++ [x] ∧ x.op = 1 ∧ x.creel = o.creel ∧ x.status = 0 ∧ x.tag = o.tag)
         ∧ (o.op = 2 → o.half = none → m.retq.length < 4 → dmaStatus c o = 0 → (subAt m b).power = 0 → m.inj = none → (∀ r, mmCells m b r = List.replicate 4 .good) →
           (∀ k, k < 4 → crRow c.desc (at_ k) = crRow c.desc (at_ 0)) →
           ∃ t x, exec (.dmaQueueService n b) s = .next t ∧ onlyMm n s t ∧ (subAt (mmAt t n) b).dmaq = rest ∧ (mmAt t n).mem = m.mem
             ∧ (mmAt t n).creels = m.creels ∧ (mmAt t n).retq = m.retq ++ [x] ∧ x.op = 1 ∧ x.creel = o.creel ∧ x.status = 0 ∧ x.tag = o.tag ∧ x.sour = 0
             ∧ ∀ k, k < 4 → x.data.toNat / 2 ^ (128 * k) % 2 ^ 128 = if o.arg + k < crCommitted c then
                 leNat (bytesAt m.mem (mmRowAddr m b (crRow c.desc (at_ k)) + 16 * (at_ k % 4)) 16)
               else 0)
         ∧ (o.op = 3 → m.retq.length < 4 → dmaStatus c o = 0 →
           ∃ t, exec (.dmaQueueService n b) s = .next t ∧ onlyMm n s t ∧ (subAt (mmAt t n) b).dmaq = rest ∧ (mmAt t n).mem = m.mem
             ∧ (creelAt (mmAt t n) o.creel).head = ptrAdd (crCap c.desc) c.head o.arg
             ∧ (mmAt t n).retq = m.retq ++ [{ op := 1, creel := o.creel, status := 0, tag := o.tag, data := 0, sour := 0 }]))
       ∧ (∀ a l, attPresent s.member a = true → m.lane = some (a, l) → m.recalled = 0 → (attAt s a).outE.length < 256 - (attAt s a).sOut →
         ∃ t f, exec (.edgeDmaSlot a n) s = .next t ∧ t = { s with mm := t.mm, att := t.att } ∧ (∀ k, k ≠ a → attAt t k = attAt s k)
           ∧ (attAt t a).outE = (attAt s a).outE ++ [{ flit := f, link := l, arr := s.now }]
           ∧ (m.edgeq = [] ∨ creditsLeft (attAt s a) (laneLoop a true) = 0 → f = { data := 0, sour := 0, loose := true } ∧ (mmAt t n).edgeq = m.edgeq)
           ∧ ∀ e r, m.edgeq = e :: r → edgeMay m e.op = true → 0 < creditsLeft (attAt s a) (laneLoop a true) → (mmAt t n).edgeq = r
             ∧ look [] (attAt t a).flying (laneLoop a true) = look [] (attAt s a).flying (laneLoop a true) ++ [(s.now, l)] ∧ (flitHdr f) % 2 ^ 28 = (e.op.op + e.op.creel * 4 + e.op.arg * 64 + e.op.tag * 2 ^ 21) % 2 ^ 28))
  ∧ (∀ (n b : Nat) (s : State), sitePresent s.member n = true → kindOf n = .mm → b < 4 →
       let m := mmAt s n
       (subAt m b).lowNext < s.now → (∀ u, (subAt m b).lastSched = some u → u + 1 < s.now) →
       (∀ r rest, writeBackSub s n = some b → (subAt m b).writeBack = r :: rest →
         ∃ t, exec (.eccWriteBack n) s = .next t ∧ onlyMm n s t ∧ (subAt (mmAt t n) b).writeBack = rest ∧ (mmAt t n).mem = m.mem
           ∧ mmCells (mmAt t n) b r = (mmCells m b r).map fun c => if c = .ce then .good else c)
       ∧ (subFree s n b = true → m.inj = none →
         let r := (subAt m b).scrubRow
         ∃ t, exec (.mmScrub n b) s = .next t ∧ (subAt (mmAt t n) b).scrubRow = (r + 1) % 6144 ∧ (∀ k, k ≠ n → mmAt t k = mmAt s k)
           ∧ (if .ue ∈ mmCells m b r then mmCells (mmAt t n) b r = List.replicate 4 .sour
                ∧ counted t 0x1203 n = counted s 0x1203 n + if .sour ∈ mmCells m b r then 0 else 1
              else (mmAt t n).mem = m.mem ∧ mmCells (mmAt t n) b r = (mmCells m b r).map fun c => if c = .ce then .good else c)))

/-- R145-R149: a requested state is taken at a pick boundary once no credit is out, or 200 picks after the request in any case, and the elastic creels of
the sub-bank record their TAIL; a return to ON takes 20 picks from RETAIN and 800 from OFF, with every row sour where it has been OFF (log 73), and
grants one credit a transfer of the space that no uncommitted step has freed. R146, R147, R373: through a window, a write of MM_PWR that asks one
sub-bank without a running draft's creels to leave ON makes its request wait and asks for its RECALL, and FORCE performs a pending change at once; the
window's status keeps its bits. -/
def Obligations.SubBankPowerChangesOnRequest : Prop :=
  (∀ (n b : Nat) (s : State), sitePresent s.member n = true → kindOf n = .mm → b < 4 → s.now % 8 = 0 →
       let m := mmAt s n
       let changed := fun (o : Out) (st : Nat) => ∃ t, o = .next t ∧ onlyMm n s t
         ∧ subAt (mmAt t n) b = { subAt m b with power := st, req := none, waits := false, lost := (subAt m b).lost || decide (st = 2) } ∧ (∀ k, k ≠ b → subAt (mmAt t n) k = subAt m k)
         ∧ (mmAt t n).mem = m.mem ∧ (∀ i, i < 16 → crMode (creelAt m i).desc = 2 → crSub (creelAt m i).desc = b →
             (creelAt (mmAt t n) i).offTail ≠ none ∧ look 0 (mmAt t n).grants i = 0)
       (∀ st e, (subAt m b).req = some (st, e) →
         (creditsOut m b = 0 → changed (exec (.subbankStateChange n b) s) st)
         ∧ (8 * (e / 8 + 200) ≤ s.now → changed (exec (.subbankForceTimeout n b) s) st))
       ∧ (∀ e, (subAt m b).waking = some e →
         (e + 7) / 8 + (if (subAt m b).power = 2 then 800 else 20) ≤ s.now / 8 →
         ∃ t, exec (.subbankReturnOn n b) s = .next t ∧ onlyMm n s t ∧ (subAt (mmAt t n) b).power = 0 ∧ (subAt (mmAt t n) b).waking = none
           ∧ (∀ k, k ≠ b → subAt (mmAt t n) k = subAt m k) ∧ bit (mmAt t n).recalled b = false
           ∧ (∀ i, i < 16 → crMode (creelAt m i).desc = 2 → crSub (creelAt m i).desc = b →
               look 0 (mmAt t n).grants i = (crFree (creelAt m i) - uncommitted (creelAt m i)) / crPadv (creelAt m i).desc)
           ∧ ((subAt m b).power = 2 ∨ (subAt m b).lost = true → ∀ r, r < 6144 → elasticOf m b = [] → mmCells (mmAt t n) b r = List.replicate 4 .sour)))
  ∧ (∀ (w n b st : Nat) (s : State), w < 4 → siteReach s n = true → kindOf n = .mm → siteLive s n = false → b < 4 → (st = 1 ∨ st = 2) →
       let m := mmAt s n
       (∀ k, k < 4 → (subAt m k).waking = none) →
       ((∀ k, k < 4 → (subAt m k).power = 0 ∧ (subAt m k).req = none) →
         ∃ t, exec (.mmPwrRequest (some w) n (st * 2 ^ (2 * b))) s = .next t ∧ t = { s with mm := t.mm, wins := t.wins } ∧ (winAt t w).stat = (winAt s w).stat
           ∧ (∀ k, k ≠ n → mmAt t k = mmAt s k) ∧ subAt (mmAt t n) b = { subAt m b with req := some (st, s.now), waits := true, waking := none }
           ∧ (∀ k, k ≠ b → k < 4 → subAt (mmAt t n) k = subAt m k) ∧ bit (mmAt t n).recallSet b = true ∧ (mmAt t n).mem = m.mem)
       ∧ (∀ e, (subAt m b).req = some (st, e) → (∀ k, k ≠ b → k < 4 → (subAt m k).req = none ∧ (subAt m k).power < 3) →
         ∃ t, exec (.mmPwrForce w n (2 ^ (8 + b))) s = .next t ∧ t = { s with mm := t.mm, wins := t.wins } ∧ (winAt t w).stat = (winAt s w).stat
           ∧ (∀ k, k ≠ n → mmAt t k = mmAt s k) ∧ (subAt (mmAt t n) b).power = st ∧ (subAt (mmAt t n) b).req = none ∧ (mmAt t n).mem = m.mem))

/-- R224: a descriptor flit whose unlisted bits are zero and whose fields are in range, those of a part it does not start too (DEDUCED, log 32), starts
the reader, the flush, or both; another raises MM_SPR_FORM and starts nothing. R231-R234: an update flit with one update, its bank free and no flush
of its entry in this ACLK, has it landing, and takes the bank's ACLK; a waiting group is served the same way in its ACLK. What lands changes its entry
at the end of the third ACLK after: the sum in FP32, with the sour mark. R222, R225, R226, R234: the reader sends its next flit of sixteen records at
d + DEL + j, until NF have gone; a flush sends 32 entries at d + FDEL + f and leaves them +0 and clean. R240, R241: at the next 1 ms evaluation an
area with WINDOW further audits and more than LIMIT misses among them raises SKP_ALARM, and its counting begins afresh; the rest of the device is as
it was but for that record. -/
def Obligations.SparseReadersAccumulateAndFlush : Prop :=
  (∀ (n : Nat) (s : State) (d : Deliv) (rest : List Deliv), sitePresent s.member n = true → kindOf n = .mm → siteRuns s n = true →
       (swAt s n).deliv = d :: rest → d.due = s.now → d.tag = some 0x900 →
       let p := (mmAt s n).sp
       let rd := bit (flitLane d.flit 0) 0
       let fl := bit (flitLane d.flit 0) 1
       let ok := descZero d.flit && readerOk (descReader s.now d.flit) && flushOk (descFlush s.now d.flit)
       (ok = false → ∃ t, exec (.descriptorFlit n) s = .next t ∧ mmAt t n = mmAt s n ∧ counted t 0x4240 n = counted s 0x4240 n + 1)
       ∧ (ok = true → (rd = true → p.rd = none) → (fl = true → p.fl = none) →
       ∃ t, exec (.descriptorFlit n) s = .next t ∧ t = { s with mm := t.mm, sw := t.sw } ∧ (∀ k, k ≠ n → mmAt t k = mmAt s k)
         ∧ swAt t n = { swAt s n with deliv := rest }
         ∧ mmAt t n = { mmAt s n with sp := { p with
             rd := if rd then some (descReader s.now d.flit) else p.rd, rdFlit := if rd then 0 else p.rdFlit, segs := if rd then 0 else p.segs
             fl := if fl then some (descFlush s.now d.flit) else p.fl, flFlit := if fl then 0 else p.flFlit } }))
  ∧ ((∀ (n a : Nat) (s : State), sitePresent s.member n = true → kindOf n = .mm →
       let p := (mmAt s n).sp
       let lands := fun (o : Out) (g : Group) => ∃ t, o = .next t ∧ t = { s with mm := t.mm, sw := t.sw } ∧ (∀ k, k ≠ n → mmAt t k = mmAt s k)
         ∧ mmAt t n = { mmAt s n with sp := (mmAt t n).sp } ∧ (mmAt t n).sp = { p with landing := p.landing ++ [g], free := (mmAt t n).sp.free, queues := (mmAt t n).sp.queues }
       flushedNow p a s.now = false →
       (∀ d rest x, (swAt s n).deliv = d :: rest → d.due = s.now → d.tag = some 0x800 → siteRuns s n = true → d.flit.sour.toNat / 16 = 0 →
         flitUpdates d.flit = [(a, x)] → look [] p.queues (a % 16) = [] → look 0 p.free (a % 16) ≤ s.now →
         lands (exec (.updateFlit n) s) { addr := a, sum := x.1, sour := x.2, at_ := s.now })
       ∧ (∀ g r, look [] p.queues (a % 16) = g :: r → g.addr = a → g.at_ = s.now → lands (exec (.accQueueServe n (a % 16)) s) g))
     ∧ ∀ (m : Mm) (g : Group) (t : Nat), m.sp.landing = [g] → g.at_ + 3 < t →
         let q := (Mm.settled t m).sp
         q.landing = [] ∧ look default q.acc g.addr = { v := fAdd (look default m.sp.acc g.addr).v g.sum, sour := (look default m.sp.acc g.addr).sour || g.sour }
         ∧ ∀ k, k ≠ g.addr → look default q.acc k = look default m.sp.acc k)
  ∧ (∀ (n : Nat) (s : State), sitePresent s.member n = true → kindOf n = .mm → siteRuns s n = true →
       let p := (mmAt s n).sp
       (∀ r, p.rd = some r → r.d + r.del + r.next = s.now + 1 → TabWf default s.sw = true → TabWf default s.mm = true → (mxAt s n).spmac = none → (∀ k, (mmAt s k).sp.landing = []) → r.isub ≠ r.vsub → (mmAt s n).inj = none →
         (∀ b, b = r.isub ∨ b = r.vsub → (subAt (mmAt s n) b).power = 0 ∧ (subAt (mmAt s n) b).lastSched ≠ some s.now) →
         let per := if fmtWidth r.vfmt = 8 then 4 else 2
         let row := fun b k => (BitVec.ofNat 512 (leNat (mmRow (mmAt s n) b k)), false)
         let x := { r with idx := if r.next % 2 = 0 then row r.isub (r.irow + r.next / 2) else r.idx
                           val := if r.next % per = 0 then row r.vsub (r.vrow + r.next / per) else r.val }
         mmCells (mmAt s n) r.isub (r.irow + r.next / 2) = List.replicate 4 .good → mmCells (mmAt s n) r.vsub (r.vrow + r.next / per) = List.replicate 4 .good →
         (readerFlit x).2.1 = 0 →
         ∃ t, exec (.readerEmit n) s = .next t ∧ t.now = s.now + 1 ∧ (∀ k, k ≠ n → mmAt t k = mmAt s k)
           ∧ (swAt t n).fly = (swAt s n).fly ++ [{ due := s.now + 2, inp := 4, flit := (readerFlit x).1 }]
           ∧ (mmAt t n).mem = (mmAt s n).mem ∧ (mmAt t n).sp.acc = p.acc ∧ (mmAt t n).sp.rdFlit = r.next + 1
           ∧ (mmAt t n).sp.rd = if r.next + 1 < r.nf then some { x with next := r.next + 1, seg := (readerFlit x).2.2.1, started := (readerFlit x).2.2.2 } else none)
       ∧ (∀ x, p.fl = some x → x.d + x.fdel + x.next = s.now → p.rd = none → p.rdAt ≠ s.now + 1 →
         let base := x.addr + 32 * x.next
         (∀ i, i < 32 → flushHaz p (base + i) s.now = false) →
         ∃ t f, exec (.flushEmit n) s = .next t ∧ t = { s with mm := t.mm, sw := t.sw } ∧ (∀ k, k ≠ n → mmAt t k = mmAt s k)
           ∧ (swAt t n).fly = (swAt s n).fly ++ [{ due := s.now + 1, inp := 4, flit := f }]
           ∧ (∀ i, i < 32 → laneOf f.data i = (look default p.acc (base + i)).v)
           ∧ (∀ k, look default (mmAt t n).sp.acc k = if base ≤ k ∧ k < base + 32 then default else look default p.acc k)
           ∧ (mmAt t n).sp.fl = if x.next + 1 < x.num then some { x with next := x.next + 1 } else none))
  ∧ (∀ (s : State) (a : Nat), areaList s = [a] →
       let r := toPick ((s.pick + 100000) / 100000 * 100000) s
       let g := aregAt r a
       let window := bits g.skpCtl 31 12
       let misses := (areaAudits r a).2 - g.auditBase.2
       ∃ t, exec .skipAlarmEval s = .next t ∧ t.mx = r.mx ∧ t.mm = r.mm ∧ t.sf = r.sf ∧ t.areas = r.areas ∧ t.now = r.now
         ∧ (window = 0 ∨ (areaAudits r a).1 < g.auditBase.1 + window → t = r)
         ∧ (window ≠ 0 → g.auditBase.1 + window ≤ (areaAudits r a).1 → (aregAt t a).auditBase = areaAudits r a
             ∧ counted t 0x1119 hubIdx = counted r 0x1119 hubIdx + if bits g.skpCtl 11 0 < misses then 1 else 0))

/-- R252-R256: a stream request whose header, data flits and addresses pass, and whose data can be ready, leaves the inbound queue: every grain of it is
queued at its channel, in order, and a read stages its return flits for ACLKs a + 768 + k. R254, R255, R259: a gather or scatter of one valid row
within its channel's allowance counts the row against it, queues the row's four grains, and stages its return flits and a status flit of zeros; a row
beyond the allowance is not accessed and has status 1. Where the manual leaves a choice or a reading, the model’s is that of log 34. -/
def Obligations.StackRequestsAreQueued : Prop :=
  (∀ (k : Nat) (s : State) (h : QEntry) (rest : List QEntry), stackPresent s.member k = true → stackHalted s k = false → (attAt s k).inS = h :: rest →
       hbHeaderOk (stackPlan s k) h.flit = true → streamOff h.flit (hbN h.flit) ≤ userEnd →
       let n := hbN h.flit
       let q := stackAt s k
       let grain := fun j => streamOff h.flit (j / 2) / 64 + j % 2
       let queued := fun (t : State) (l : List GrainOp) (st : List Staged) => t = { s with att := t.att, stks := t.stks }
         ∧ (∀ m, m ≠ k → stackAt t m = stackAt s m ∧ attAt t m = attAt s m)
         ∧ stackAt t k = { q with nextReq := q.nextReq + 1, staged := q.staged ++ st, chans := (stackAt t k).chans }
         ∧ ∀ c, chanAt (stackAt t k) c = { chanAt q c with ops := (chanAt q c).ops ++ l.filter fun o => offChan (64 * o.grain) == c }
       (hbOp h.flit = 1 →
         (∀ j, j < n → readyBy s k (offChan (streamOff h.flit j)) (2 * ((List.range (j + 1)).filter fun i =>
           offChan (streamOff h.flit i) == offChan (streamOff h.flit j)).length) 9 (h.arr + 768 + j - 1) = true) →
         (∀ y ∈ q.staged, y.link ≠ hbLink h.flit) →
         ∃ t, exec (.hbmRequest k) s = .next t ∧ attAt t k = { attAt s k with inS := dropRequest rest h.link h.arr 0 }
           ∧ queued t ((List.range (2 * n)).map fun j => { grain := grain j, write := none, req := q.nextReq, part := j, beats := 9, arr := h.arr })
               ((List.range n).map fun j => emptyStage (h.arr + 768 + j) (hbLink h.flit) q.nextReq j 2))
       ∧ (∀ d, hbOp h.flit = 2 → dataFlits rest h.link h.arr n = some d →
         ∃ t, exec (.hbmRequest k) s = .next t ∧ attAt t k = { attAt s k with inS := dropRequest rest h.link h.arr n }
           ∧ queued t ((List.range (2 * n)).map fun j =>
               { grain := grain j, write := some (halfOf (d.getD (j / 2) { data := 0, sour := 0 }) (j % 2)), req := q.nextReq, part := 0, beats := 9, arr := h.arr }) []))
  ∧ (∀ (k : Nat) (s : State) (h : QEntry) (rest : List QEntry) (e : Nat × List Nat), stackPresent s.member k = true → stackHalted s k = false → (attAt s k).inS = h :: rest →
       hbHeaderOk (stackPlan s k) h.flit = true → seriesOf (stackPlan s k) (hbSeries h.flit) = some e → hbN h.flit = 1 →
       let q := stackAt s k
       let u := bits (hbLane h.flit 2) 27 0
       let c := u % 32
       let key := 32 * hbSeries h.flit + c
       let ops := fun (t : State) (l : List GrainOp) => (chanAt (stackAt t k) c).ops = (chanAt q c).ops ++ l
       let frame := fun (t : State) => t = { s with att := t.att, stks := t.stks, counts := t.counts }
         ∧ (∀ m, m ≠ k → stackAt t m = stackAt s m ∧ attAt t m = attAt s m) ∧ (stackAt t k).mem = q.mem ∧ (stackAt t k).code = q.code
         ∧ ∀ i, i ≠ c → chanAt (stackAt t k) i = chanAt q i
       bit (hbLane h.flit 2) 31 = true → u < 250003456 → chanFailed q c = false → q.staged = [] →
       (hbOp h.flit = 3 → look 0 q.series key < allowNow q e → readyBy s k c 4 14 (h.arr + 783) = true →
         ∃ t, exec (.hbmRequest k) s = .next t ∧ frame t ∧ t.counts = s.counts ∧ look 0 (stackAt t k).series key = look 0 q.series key + 1
           ∧ ops t ((List.range 4).map fun g => { grain := 4 * u + g, write := none, req := q.nextReq, part := g, beats := 14, arr := h.arr })
           ∧ (stackAt t k).staged = [emptyStage (h.arr + 784) (hbLink h.flit) q.nextReq 0 2, emptyStage (h.arr + 785) (hbLink h.flit) q.nextReq 1 2,
               { emptyStage (h.arr + 786) (hbLink h.flit) q.nextReq 2 0 with flit := statusFlit [0] }])
       ∧ (hbOp h.flit = 3 → allowNow q e ≤ look 0 q.series key →
         ∃ t, exec (.hbmRequest k) s = .next t ∧ frame t ∧ (stackAt t k).series = q.series ∧ ops t []
           ∧ counted t 0x1606 (stackIdx k) = counted s 0x1606 (stackIdx k) + 1
           ∧ (stackAt t k).staged = [emptyStage (h.arr + 784) (hbLink h.flit) q.nextReq 0 0, emptyStage (h.arr + 785) (hbLink h.flit) q.nextReq 1 0,
               { emptyStage (h.arr + 786) (hbLink h.flit) q.nextReq 2 0 with flit := statusFlit [1] }])
       ∧ (∀ d0 d1, hbOp h.flit = 4 → look 0 q.series key < allowNow q e → dataFlits rest h.link h.arr 2 = some [d0, d1] →
         ∃ t, exec (.hbmRequest k) s = .next t ∧ frame t ∧ t.counts = s.counts ∧ look 0 (stackAt t k).series key = look 0 q.series key + 1
           ∧ ops t ((List.range 4).map fun g =>
               { grain := 4 * u + g, write := some (halfOf (if g < 2 then d0 else d1) (g % 2)), req := q.nextReq, part := 0, beats := 14, arr := h.arr })
           ∧ (stackAt t k).staged = [{ emptyStage (h.arr + 784) (hbLink h.flit) q.nextReq 0 0 with flit := statusFlit [0] }]))

/-- R248, R255-R257, R262, R263: a channel's oldest access, in the first pick in which the channel serves requests and has the beats, writes its grain or
puts what it reads into its return; a filled return enters the outbound partition one ACLK before its release; a corrected grain is written back good.
R249, R250, R259, R264, R265: frames and gather windows begin; a scrub, once in picks 13-30 of a frame, leaves none of its 180 grains correctable or
uncorrectable and every byte as it was; a parity or on-die correction event is counted in its channel and its code. Where the manual leaves a choice
or a reading, the model’s is that of log 34. -/
def Obligations.GrainsMoveInTheirFrames : Prop :=
  (∀ (k c : Nat) (s : State), stackPresent s.member k = true → c < 32 →
       (∀ g r, (chanAt (stackAt s k) c).ops = g :: r → chanFailed (stackAt s k) c = false → offChan (64 * g.grain) = c →
         let x := channelFree s k c
         let u := serveFrom k c (beatsPerPick (stackAt s k) c) x.1 x.2 g.beats
         let b := toPick u.1 s
         let popped := modChan c (fun x => { x with ops := r, usedAt := u.1, used := u.2 }) (stackAt b k)
         stackHalted s k = false →
         (∀ d, g.write = some (d, false) → (∀ a, areaOfAtt b k = some a → (areaAt b a).skim.state ≠ 2) → areaOfAtt b k = areaOfAtt s k → (stackAt b k) = stackAt s k →
           ∃ t, exec (.hbmGrainAccess k c) s = .next t ∧ onlyStack k b t
             ∧ stackAt t k = putGrain (64 * g.grain) (leBytes 64 d.toNat) false popped)
         ∧ (g.write = none → (stackAt b k) = stackAt s k → grainCells (stackAt s k) (64 * g.grain) = List.replicate 4 .good →
           ∃ t, exec (.hbmGrainAccess k c) s = .next t ∧ onlyStack k b t
             ∧ stackAt t k = fillStage g.req g.part (grainBytes (stackAt s k) (64 * g.grain)) false popped))
       ∧ (∀ x, firstStaged (stackAt s k).staged = some x → x.waiting = 0 →
         let b := runTo (x.at_ - 1) s
         stackAt b k = stackAt s k → (attAt b k).outS.length < (attAt b k).sOut →
         ∃ t, exec (.hbmReturnRelease k) s = .next t ∧ t = { b with att := t.att, stks := t.stks } ∧ stackAt t k = { stackAt s k with staged := (stackAt s k).staged.erase x }
           ∧ attAt t k = { attAt b k with outS := (attAt b k).outS ++ [{ flit := x.flit, link := x.link, arr := b.now }] }
           ∧ ∀ m, m ≠ k → stackAt t m = stackAt b m ∧ attAt t m = attAt b m)
       ∧ (∀ o r, (chanAt (stackAt s k) c).wbq = o :: r → ∃ t, exec (.hbmWriteBack k c) s = .next t ∧ onlyStack k s t
           ∧ (stackAt t k).mem = (stackAt s k).mem ∧ (chanAt (stackAt t k) c).wbq = r
           ∧ (∀ i, i < 4 → look .good (stackAt t k).code (physOff (stackAt s k) o / 16 + i) ≠ .ce)
           ∧ ∀ j, (∀ i, i < 4 → j ≠ physOff (stackAt s k) o / 16 + i) → look .good (stackAt t k).code j = look .good (stackAt s k).code j))
  ∧ (∀ (k c : Nat) (s : State), stackPresent s.member k = true → c < 32 →
       (let f := (s.now + 247) / 248
         ∃ t, exec (.hbmFrameStart k) s = .next t ∧ onlyStack k (toPick (31 * f) s) t
           ∧ t = toPick (31 * f) s ∧ outChan k t.pick = (f + k) % 32)
       ∧ (∀ a st, areaOfAtt s k = some a → curStep s a = some st →
         let i := (s.now - 8 * st.s + 247) / 248
         ∃ t, exec (.gatherWindowStart k) s = .next t ∧ onlyStack k (toPick (st.s + 31 * i) s) t
           ∧ stackAt t k = { stackAt (toPick (st.s + 31 * i) s) k with series := [], window := i })
       ∧ (let b := toPick (framePick (stackAt s k).scrubbedIn 13 30 s.pick) s
         let ch := outChan k b.pick
         13 ≤ b.pick % 31 ∧ (stackAt s k).scrubbedIn ≤ b.pick / 31 ∧
         ∃ t, exec (.hbmScrub k) s = .next t ∧ (∀ j, look 0 (stackAt t k).mem j = look 0 (stackAt b k).mem j) ∧ (stackAt t k).remap = (stackAt b k).remap
           ∧ (stackAt t k).scrubbedIn = b.pick / 31 + 1 ∧ (chanAt (stackAt t k) ch).scrub = ((chanAt (stackAt b k) ch).scrub + 180) % 2 ^ 25
           ∧ (∀ i, i < 180 → ∀ x ∈ grainCells (stackAt t k) (chanGrain ch (((chanAt (stackAt b k) ch).scrub + i) % 2 ^ 25)), x = .good ∨ x = .sour)
           ∧ (∀ m, m ≠ k → stackAt t m = stackAt b m) ∧ t.now = b.now ∧ t.mm = b.mm ∧ t.att = b.att ∧ t.areas = b.areas)
       ∧ (∃ t, exec (.hbmCaPar k c) s = .next t ∧ t = { s with stks := t.stks, counts := t.counts } ∧ (∀ m, m ≠ k → stackAt t m = stackAt s m)
           ∧ counted t 0x2602 (stackIdx k) = counted s 0x2602 (stackIdx k) + 1
           ∧ chanAt (stackAt t k) c = { chanAt (stackAt s k) c with capar := min 0xFF ((chanAt (stackAt s k) c).capar + 1) })
       ∧ (∃ t, exec (.hbmOdecc k c) s = .next t ∧ t = { s with stks := t.stks, counts := t.counts } ∧ (∀ m, m ≠ k → stackAt t m = stackAt s m)
           ∧ counted t 0x1605 (stackIdx k) = counted s 0x1605 (stackIdx k) + 1
           ∧ chanAt (stackAt t k) c = { chanAt (stackAt s k) c with odecc := min 0xFFFF ((chanAt (stackAt s k) c).odecc + 1) }))

/-- R249, R267, R268, R425: a training step, once in picks 3-12 of a frame, that converges with margin enough writes MARGIN and the temperature; one that
does not converge fails the channel: FAIL, its entry of the fence map, in force and in flash, one HBM_CH_FAIL. R102, R103, R246, R261: bytes written
by an elastic access to user memory of a stack without remapped rows or failed channels, over clean grains, are what a read of them then gives; every
byte outside them is as it was. The write takes a credit of the stack's request loop, the read one of each of its two loops (log 75), and without one
an access waits. -/
def Obligations.StacksTrainAndAnswer : Prop :=
  (∀ (k margin temp : Nat) (s : State), stackPresent s.member k = true → k < 32 → margin < 32 → temp < 256 →
       let b := toPick (framePick (stackAt s k).trainedIn 3 12 s.pick) s
       let c := outChan k b.pick
       let x := chanAt (stackAt b k) c
       3 ≤ b.pick % 31 ∧ b.pick % 31 ≤ 12 ∧ (x.minm ≤ margin →
       (∃ t, exec (.hbmTrainStep k margin temp true) s = .next t ∧ onlyStack k b t
         ∧ stackAt t k = { (modChan c (fun x => { x with margin := margin, misses := 0 }) (stackAt b k)) with temp := temp, trainedIn := b.pick / 31 + 1 })
       ∧ (chanFailed (stackAt b k) c = false → ∃ t, exec (.hbmTrainStep k margin temp false) s = .next t
         ∧ t = { b with stks := t.stks, fence := t.fence, mod := t.mod, counts := t.counts, ports := t.ports } ∧ (∀ m, m ≠ k → stackAt t m = stackAt b m)
         ∧ (chanAt (stackAt t k) c).fail = Tri.of 1 ∧ (∀ i, i ≠ c → chanAt (stackAt t k) i = chanAt (stackAt b k) i)
         ∧ look 0 t.fence.chans (32 * k + c) = look 0 b.fence.chans (32 * k + c) ||| 4 ∧ t.fence.sites = b.fence.sites ∧ t.fence.regions = b.fence.regions
         ∧ (t.mod.flash0 = t.fence ∨ t.mod.flash1 = t.fence) ∧ counted t 0x1609 (stackIdx k) = counted b 0x1609 (stackIdx k) + 1)))
  ∧ (∀ (d : Nat) (b : List Byte) (s : State), dpaOk s.member d b.length = true → b ≠ [] →
       let n := dpaStack d
       let k := stackAt s n
       (creditsLeft (attAt s n) 0 = 0 → exec (.elasticStackAccess d 0 (some b)) s = .next s ∧ exec (.elasticStackAccess d b.length none) s = .next s)
       ∧ (1 < creditsLeft (attAt s n) 0 → 0 < creditsLeft (attAt s n) 1 →
       k.remap = [] → (∀ c, chanFailed k c = false) → (∀ i, look .good k.code i = .good) →
       ∃ t u, exec (.elasticStackAccess d 0 (some b)) s = .next t ∧ t = { s with stks := t.stks, att := t.att } ∧ (∀ m, m ≠ n → stackAt t m = stackAt s m ∧ attAt t m = attAt s m)
         ∧ attAt t n = takeCredit 0 s.now 0 (attAt s n)
         ∧ (∀ i, (i < dpaOff d ∨ dpaOff d + b.length ≤ i) → look 0 (stackAt t n).mem i = look 0 k.mem i)
         ∧ bytesAt (stackAt t n).mem (dpaOff d) b.length = b
         ∧ exec (.elasticStackAccess d b.length none) t = .next u ∧ u = { t with att := u.att, sent := t.sent ++ [.ring b] }
         ∧ (∀ m, m ≠ n → attAt u m = attAt t m) ∧ attAt u n = takeCredit 0 s.now 0 (takeCredit 1 s.now 0 (attAt t n))))

/-- R190-R192: a draft-load command whose image passes every check begins the load in the area's inactive bank (bank 0 where it has no job), with a stream
for each heddle that has a site record; one that comes after the start of the running draft's fell step is too late and writes nothing (R197, R202).
R193-R197: a load flit at the offset its SU has reached is accepted, one elsewhere sends the stream again from that offset; a fill slot of a warm
load, of which a step has no more than FILL, carries the next 96 bytes of its heddle's stream, a blank otherwise; a warm load whose streams are
complete ends with DRAFT_ID. Where the manual leaves a choice or a reading, the model’s is that of log 16, 33, 35. -/
def Obligations.DraftsLoadThroughTheirStreams : Prop :=
  (∀ (p m : Nat) (s : State) (img : List Byte), mbxGood s p m 0x0110 8 .area →
       let r := mbxTaken p m s
       let c := (mbxAt s p m).cmd
       let a := wArea (hdrArea c)
       let d := par c 0 8
       areaNamed s c = true → (areaAt s a).owner.val = p → (areaAt s a).load = none → (areaAt s a).job.state ≠ jHalted → (areaAt s a).swapOpen = false →
       d < 2 ^ 41 → stackPresent s.member (dpaStack d) = true → (∀ b, areaOfAtt s (dpaStack d) = some b → b = a) → dpaOff d + 256 ≤ userEnd →
       elasticRead d 256 false r = (img.take 256, 0, r) → headerOk (img.take 256) = true → dpaOk s.member d (dLen (img.take 256)) = true →
       256 ≤ dLen (img.take 256) → img.length = dLen (img.take 256) → elasticRead (d + 256) (dLen (img.take 256) - 256) false r = (img.drop 256, 0, r) →
       match checkImage r (areaAt s a).word img with
       | .inl e => exec (.draftLoad p m) s = .next (mbxComplete p m e.1 e.2 (leBytes 8 (dId img)) r)
       | .inr l => (hasJob s a = true → (draftOf s a).first + (draftOf s a).steps ≤ (areaAt s a).job.top →
           exec (.draftLoad p m) s = .next (mbxComplete p m 0x8C09 0 (leBytes 8 (dId img)) r))
         ∧ ((hasJob s a = true → (areaAt s a).job.top < (draftOf s a).first + (draftOf s a).steps) → streamsOf l ≠ [] → (∀ n, (suAt s n).loadLast = false) → ∃ t x, exec (.draftLoad p m) s = .next t ∧ (areaAt t a).load = some x ∧ x.streams = streamsOf l ∧ x.port = p ∧ x.m = m ∧ x.sent = []
         ∧ x.bank = (if hasJob s a then 1 - (areaAt s a).bank else 0) ∧ x.draft.id = dId img ∧ x.draft.steps = dSteps img
         ∧ (mbxAt t p m).state = 2 ∧ (∀ b, b ≠ a → areaAt t b = areaAt s b) ∧ t.now = s.now ∧ t.stks = s.stks))
  ∧ (∀ (s : State) (a : Nat) (l : Load), (areaAt s a).load = some l → a < 16 →
       (∀ su d rest, sitePresent s.member su = true → kindOf su = .su → areaOfSite s su = some a → (swAt s su).deliv = d :: rest → d.due = s.now → d.tag = none → awaitsTag (swAt s su) d = false →
         bits (laneOf d.flit.data 7).toNat 1 0 = 3 → (suAt s su).barrier = none → d.flit.sour = 0 → lfHeddle d.flit = heddleOf su →
         0 < lfCount d.flit → lfCount d.flit ≤ 96 →
         (lfOffset d.flit ≠ (suAt s su).loadPos → ∃ t, exec (.loadFlit su) s = .next t ∧ t = { s with sw := t.sw, areas := t.areas }
           ∧ (areaAt t a).load = some { l with sent := put 0 l.sent (heddleOf su) (suAt s su).loadPos } ∧ swAt t su = { swAt s su with deliv := rest })
         ∧ (let buf := (suAt s su).loadBuf ++ sub (rowBytes d.flit.data) 32 (lfCount d.flit)
             ∀ rem rs, lfOffset d.flit = (suAt s su).loadPos → hasJob s a = true → drainRecs (buf.length + 1) buf = (rem, rs, false) →
             (∀ r ∈ rs, crc32c r.data = r.crc) →
             ∃ t, exec (.loadFlit su) s = .next t ∧ t.now = s.now ∧ t.areas = s.areas ∧ (suAt t su).loadPos = (suAt s su).loadPos + lfCount d.flit
               ∧ (suAt t su).loadLast = lfLast d.flit ∧ (suAt t su).loadBuf = rem ∧ (suAt t su).loadBad = (suAt s su).loadBad
               ∧ (rs = [] → rem.length < 24 → t = { s with sw := t.sw, su := t.su } ∧ swAt t su = { swAt s su with deliv := rest })
               ∧ (∀ r, rs = [r] → r.type = 3 → rem.length < 24 → t = { s with sw := t.sw, su := t.su, mx := t.mx } ∧ (∀ n, n ≠ r.target → mxAt t n = mxAt s n)
                   ∧ ∀ i, look 0 (mxAt t r.target).prog (l.bank * 256 + i) = if i < (words r.data).length then (words r.data).getD i 0 else look 0 (mxAt s r.target).prog (l.bank * 256 + i))))
       ∧ (∀ k h, attPresent s.member k = true → areaOfAtt s k = some a → (attAt s k).outS.length < (attAt s k).sOut →
         let o := look 0 l.sent h
         let used := look 0 (attAt s k).filled h
         ∃ t, exec (.fillSlot k h) s = .next t ∧ (fillLink s k h = none → t = s) ∧ ∀ link n, fillLink s k h = some (link, n) → (n ≤ used → t = s) ∧ (used < n → ∃ f,
           t = { s with att := t.att, areas := t.areas }
           ∧ attAt t k = { attAt s k with outS := (attAt s k).outS ++ [{ flit := f, link := link, arr := s.now }], filled := (attAt t k).filled }
           ∧ look 0 (attAt t k).filled h = used + 1
           ∧ (∀ b, streamOf l h = some b → hasJob s a = true → o < b.length →
               f = loadFlit h o ((b.drop o).take 96) (decide (b.length ≤ o + 96)) ∧ (areaAt t a).load = some { l with sent := alter 0 l.sent h (· + ((b.drop o).take 96).length) })
           ∧ ((streamOf l h = none ∨ hasJob s a = false ∨ ∃ b, streamOf l h = some b ∧ b.length ≤ o) → f = loadFlit h 0 [] false)))
       ∧ (hasJob s a = true → (draftOf s a).fill ≠ 0 → loadComplete s l = true → (mbxAt s l.port l.m).state = 2 →
         ∃ t, exec (.warmLoadComplete a) s = .next t ∧ t = { s with areas := t.areas, ports := t.ports } ∧ (∀ b, b ≠ a → areaAt t b = areaAt s b)
           ∧ areaAt t a = { areaAt s a with load := none, complete := 1, drafts := put default (areaAt s a).drafts l.bank l.draft }
           ∧ (mbxAt t l.port l.m).state = 3 ∧ (mbxAt t l.port l.m).status = mOk ∧ bytesAt (mbxAt t l.port l.m).rsp 32 8 = leBytes 8 l.draft.id))

/-- R276-R281, R286, R291, R292, R304, R306: the frame of the pick that begins, the steps due having been decided and begun, carries the slots taken for
it and the next bytes of the elastic stream, and goes to the lane coder; a release sends the oldest held slot of a committed step; a frame its credits
allow enters the stream, a routed one with a credit of the port transmit loop; link frames, hellos and route fragments join the frames waiting. R282,
R284-R286: at a pick boundary the framer takes four flits for a slot to send, holds those of a slot to hold, and marks a slot that a release is to
fill; a received slot of an aligned port alone in its group is pushed, four flits in order, and the pick is done with. R287: a run that has failed has
no slots. Where the manual leaves a choice or a reading, the model’s is that of log 11, 16, 40, 41. -/
def Obligations.PortsSendFramesAndSlots : Prop :=
  (∀ (p : Nat) (s : State), portPresent s.member p = true → 2 ≤ (shtAt s p).state →
       (let b := toPick ((s.now + 7) / 8) s
         let r := match areaOfAtt b (32 + p) with | some a => startDue a b.now (commitBefore a (b.pick + 1) 2 b) | none => b
         let P := r.pick
         let x := (shtAt r p).rotated P
         let mine := if x.state = 3 then (List.range 14).filterMap (fun i => x.txSlots.find? fun t => t.pick == P && t.slot == i) else []
         let q := each mine (sendTally p) (modSht p (fun x => x.rotated P) r)
         let n := min ((List.range 14).filter fun i => !(mine.map TxSlot.slot).contains i).length (((waitingBytes x).length - 248 + 511) / 512)
         2 ≤ x.state → (∀ t ∈ x.txSlots, t.pick = P → t.rel = false) → (∀ f r, x.stream = f :: r → x.streamOff < f.length) →
         ∃ t h slots, exec (.pickFrameSend p) s = .next t
           ∧ t = { q with sht := t.sht, freeCtr := q.freeCtr + 1
                          sent := q.sent ++ .pick p P h slots (sub (waitingBytes x) (512 * n) 248) :: codewordsOf (shtAt t p) p P }
           ∧ (∀ m, m ≠ p → shtAt t m = shtAt r m) ∧ h.length = 84 ∧ fld h 0 8 = P % 2 ^ 64 ∧ slots.take mine.length = mine.map (fun t => (t.slot, t.data))
           ∧ slots.length = mine.length + n
           ∧ shtAt t p = { x with stream := (shtAt t p).stream, streamOff := (shtAt t p).streamOff, txSlots := x.txSlots.filter fun t => decide (P < t.pick)
                                  txTally := (shtAt q p).txTally
                                  frames := (x.frames.filter fun y => decide (y.1 / 32 = P / 32) && decide (y.1 < P)) ++
                                    [(P, h ++ ((List.range 14).flatMap (slotBytes slots (freshValue q).1)) ++ sub (waitingBytes x) (512 * n) 248)] }
           ∧ waitingBytes (shtAt t p) = (waitingBytes x).drop (512 * n + 248))
       ∧ (let b := toPick ((s.now + 7) / 8) s
         let r := match areaOfAtt b (32 + p) with | some a => startDue a b.now (commitBefore a (b.pick + 1) 2 b) | none => b
         let x := shtAt r p
         ∀ u h l, x.state = 3 → (x.txSlots.filter fun t => t.pick == r.pick) = [u] → u.rel = true → u.slot < 14 → x.held = h :: l → heldReady r h = true →
         ∃ t hd slots tail, exec (.pickFrameSend p) s = .next t ∧ (shtAt t p).held = l ∧ slots.head? = some (u.slot, h.data)
           ∧ t.sent = r.sent ++ .pick p r.pick hd slots tail :: codewordsOf (shtAt t p) p r.pick)
       ∧ (∀ f, nextFrame (decide (0 < creditsLeft (attAt s (32 + p)) 2)) (shtAt s p) = some f → ∃ t, exec (.elasticFrameSend p) s = .next t
           ∧ t = { s with sht := t.sht, att := t.att } ∧ (∀ m, m ≠ p → shtAt t m = shtAt s m) ∧ (∀ m, m ≠ 32 + p → attAt t m = attAt s m)
           ∧ attAt t (32 + p) = (if typeRouted (fhType f) then takeCredit 2 s.now 0 (attAt s (32 + p)) else attAt s (32 + p))
           ∧ shtAt t p = { shtAt s p with txq := (shtAt s p).txq.erase f, stream := (shtAt s p).stream ++ [f]
                                          sent := alter 0 (shtAt s p).sent (fhVc f) fun n => (n + frameUnits f) % 65536 })
       ∧ ((shtAt s p).ownDelta.1 ≠ 0 → ∃ t, exec (.linkFrameSend p) s = .next t ∧ onlySht p s t
           ∧ shtAt t p = { shtAt s p with txq := (shtAt s p).txq ++ [mkFrame 0x01 0 0xFFF (ownSrc s) 1
               (leBytes 8 (shtAt s p).ownDelta.1 ++ leBytes 4 (field 32 (shtAt s p).ownDelta.2) ++ leBytes 4 0)] })
       ∧ ((shtAt s p).ownDelta.1 = 0 → ∃ t, exec (.linkFrameSend p) s = .next t ∧ t = { s with sht := t.sht, freeCtr := s.freeCtr + 1 }
           ∧ (∀ m, m ≠ p → shtAt t m = shtAt s m)
           ∧ shtAt t p = { shtAt s p with txq := (shtAt s p).txq ++ [mkFrame 0x01 0 0xFFF (ownSrc s) 1
               (leBytes 8 (s.pick / 32 * 32) ++ leBytes 4 (field 32 ((freshValue s).1 : Int)) ++ leBytes 4 0)] })
       ∧ (∃ t, exec (.helloSend p) s = .next t ∧ onlySht p s t
           ∧ shtAt t p = { shtAt s p with txq := (shtAt s p).txq ++ [mkFrame 0x10 0 0xFFF (ownSrc s) 1 (helloPayload s p)] })
       ∧ ((shtAt s p).peer.hello = true → ∃ t, exec (.routeSend p) s = .next t ∧ t = { s with sht := t.sht, freeCtr := s.freeCtr + 1024 }
           ∧ (∀ m, m ≠ p → shtAt t m = shtAt s m)
           ∧ shtAt t p = { shtAt s p with nextFrag := ((shtAt s p).nextFrag + 1) % 4
                                          txq := (shtAt s p).txq ++ [mkFrame 0x11 0 0xFFF (ownSrc s) 1 (routePayload s (shtAt s p).nextFrag)] }))
  ∧ (∀ (p i a j ent : Nat) (y : PlanStep) (s : State), portPresent s.member p = true → i < 14 →
       (let b := toPick ((s.now + 7) / 8) s
         let q := (attAt b (32 + p)).inS
         let d := slotData ((q.take 4).map QEntry.flit)
         let slot : TxSlot := { pick := b.pick + 1, slot := i, step := y.k, off := j, inLen := decide (j < y.len), rel := false, data := d.1, sour := d.2 }
         let frame := fun (t : State) => t = { b with sht := t.sht, att := t.att } ∧ (∀ m, m ≠ p → shtAt t m = shtAt b m) ∧ (∀ m, m ≠ 32 + p → attAt t m = attAt b m)
         (∃ t, exec (.slotTake p) s = .next t ∧ (planAt b p (b.pick + 1) = none → t = b)
           ∧ (planAt b p (b.pick + 1) = some (a, y, j, ent) → jobRuns b a = false ∨ y.dead = true → t = b))
         ∧ (planAt b p (b.pick + 1) = some (a, y, j, ent) → jobRuns b a = true → y.dead = false → (∀ n, n < 14 → n ≠ i → peTx ent n = 0) →
         (peTx ent i = 1 → 4 ≤ q.length → ∃ t, exec (.slotTake p) s = .next t ∧ frame t
           ∧ attAt t (32 + p) = { attAt b (32 + p) with inS := q.drop 4 }
           ∧ shtAt t p = { shtAt b p with txSlots := (shtAt b p).txSlots ++ [slot] })
         ∧ (peTx ent i = 2 → 4 ≤ q.length → (shtAt b p).held.length < 256 → ∃ t, exec (.slotTake p) s = .next t ∧ frame t
           ∧ attAt t (32 + p) = { attAt b (32 + p) with inS := q.drop 4 }
           ∧ shtAt t p = { shtAt b p with held := (shtAt b p).held ++ [{ area := a, step := y.k, data := d.1, sour := d.2 }] })
         ∧ (peTx ent i = 3 → ∃ t, exec (.slotTake p) s = .next t ∧ onlySht p b t
           ∧ shtAt t p = { shtAt b p with txSlots := (shtAt b p).txSlots ++ [{ slot with rel := true, data := 0, sour := 0 }] })))
       ∧ (let b := if s.ac < 4 then runTo (8 * s.pick + 4) s else s
         let P := b.pick + 1 - ppRelease (portPlan b p)
         let q := attAt b (32 + p)
         (∃ t, exec (.slotPush p) s = .next t ∧ (planAt b p P = none → t = b)
           ∧ (planAt b p P = some (a, y, j, ent) → jobRuns b a = false ∨ y.dead = true → t = b))
         ∧ ∀ r, planAt b p P = some (a, y, j, ent) → jobRuns b a = true → y.dead = false → (List.range 14).filter (peRx ent) = [i] → (shtAt b p).pushed ≤ P →
         (shtAt b p).state = 3 → groupOf b p = [p] →
         reachesPeer b p = true → (portPlan b p) ≠ [] → rxAt (shtAt b p) P i = some r → r.kind = 0 → q.outS.length + 4 ≤ q.sOut →
         ∃ t, exec (.slotPush p) s = .next t ∧ t = { b with sht := t.sht, att := t.att } ∧ (∀ m, m ≠ p → shtAt t m = shtAt b m) ∧ (∀ m, m ≠ 32 + p → attAt t m = attAt b m)
           ∧ attAt t (32 + p) = { q with outS := q.outS ++ (slotFlits p r.data r.sour).map fun f => { flit := f, link := anyLink, arr := 8 * (b.pick + 1) } }
           ∧ (shtAt t p).pushed = P + 1 ∧ (shtAt t p).rxSlots = (shtAt b p).rxSlots.filter fun y => decide (P ≤ y.pick)))

/-- R275, R277, R278, R281, R285: the header of the next peer pick updates credits, the peer's time and lane control, and its expected slot is kept for
its push, the segments a failed codeword carried sour; a header of any other pick counts SHT_SLIP and takes the port from state 3 to state 2; a lost
header changes no credit, and the pick after it is checked as before. Where the manual leaves a choice or a reading, the model’s is that of log 40. -/
def Obligations.PickHeadersAreTaken : Prop :=
  ∀ (p : Nat) (s : State) (f : RxFrame), portPresent s.member p = true → (shtAt s p).state = 3 →
    let x := shtAt s p
    (∀ h, f.header = some h → wordsLost x f.pick 0 21 = false →
      let P := fld h 0 8
      let y := shtAt (takeHeader p h s) p
      ((∀ q, x.lastPick = some q → P = q + 1) → planAt s p P = none → schedSlots h = [] →
        ∃ t, exec (.pickHeaderReceive p f) s = .next t ∧ onlySht p s t ∧ shtAt t p = { y with lastPick := some P }
          ∧ look 0 (shtAt t p).lim 0 = fld h 70 2 ∧ look 0 (shtAt t p).lim 1 = fld h 72 2 ∧ (shtAt t p).tstat = fld h 78 4 ∧ (shtAt t p).peerLctl = fld h 82 2)
      ∧ (∀ a z j e i, (∀ q, x.lastPick = some q → P = q + 1) → planAt s p P = some (a, z, j, e) → z.dead = false → schedSlots h = [i] → peRx e i = true →
        x.pushed ≤ P →
        ∃ t, exec (.pickHeaderReceive p f) s = .next t ∧ onlySht p s t
          ∧ (shtAt t p).rxSlots = x.rxSlots ++ [{ pick := P, slot := i, kind := if lostSegs x P i = 0 then 0 else 1, data := rxData f i
                                                  sour := BitVec.ofNat 32 (fld h (12 + 4 * i) 4) ||| lostSegs x P i }])
      ∧ (∀ q, x.lastPick = some q → P ≠ q + 1 → planAt s p P = none → schedSlots h = [] →
        ∃ t, exec (.pickHeaderReceive p f) s = .next t ∧ t = { s with sht := t.sht, counts := t.counts } ∧ (∀ m, m ≠ p → shtAt t m = shtAt s m)
          ∧ (shtAt t p).state = 2 ∧ counted t 0x1715 (portIdx p) = counted s 0x1715 (portIdx p) + 1))
    ∧ (f.header = none ∨ wordsLost x f.pick 0 21 = true → planAt s p f.pick = none → ∃ t, exec (.pickHeaderReceive p f) s = .next t ∧ onlySht p s t
        ∧ shtAt t p = { x with lastPick := x.lastPick.map (· + 1), resync := true, sprdyRun := 0 })

/-- R290, R291: a detected signal starts training; a trained port enters state 2 with fresh credits and lanes, the worst lane its spare, and says hello; a
port with under fifteen lanes, that does not train in 250 ms or that loses its signal enters state 0; from the eighth delay pair on the last eight set
delay and offset, and LAT once. R275, R280, R292, R293: a codeword's outcome is counted at its lane; a failed one sours the words it carried unless a
copy of it decodes; a whole frame frees its units and a bad one is dropped; at a rotation point the spare begins to mirror a logical lane, and 32
picks later it carries the role; a lane the peer reports failed hands its role to the spare, and one this end declares failed is reported. -/
def Obligations.PortsTrainAndCorrect : Prop :=
  (∀ (p : Nat) (s : State), portPresent s.member p = true →
       let x := shtAt s p
       (x.state = 0 → bit x.ctl 0 = false → x.engineOff = false → ∃ t, exec (.signalDetect p) s = .next t ∧ onlySht p s t
         ∧ shtAt t p = { x with state := 1, signalAt := some s.up })
       ∧ (∀ o, x.state = 1 → 15 ≤ laneCountOf o.usable → (∀ l, l < 16 → bit o.usable l = true → 4 ≤ o.margins.getD l 0) →
         ∃ t f, exec (.portTrained p o) s = .next t ∧ t = { s with sht := t.sht, counts := t.counts, ports := t.ports } ∧ (∀ m, m ≠ p → shtAt t m = shtAt s m)
           ∧ counted t 0x1713 (portIdx p) = counted s 0x1713 (portIdx p) + 1
           ∧ (shtAt t p).state = 2 ∧ (shtAt t p).spare = worstLane o ∧ (shtAt t p).txSpare = worstLane o ∧ (shtAt t p).lat = 0 ∧ (shtAt t p).sent = [] ∧ (shtAt t p).lim = [] ∧ (shtAt t p).freed = []
           ∧ (shtAt t p).mirror = none ∧ (shtAt t p).frames = [] ∧ (shtAt t p).copies = []
           ∧ (shtAt t p).peer.hello = false ∧ (shtAt t p).txq = [f] ∧ fhType f = 0x10
           ∧ ∀ l, l < 16 → look default (shtAt t p).lanes l = { look default x.lanes l with
               role := if l = worstLane o then 15 else if l < worstLane o then l else l - 1, failed := !(bit o.usable l), margin := min 127 (o.margins.getD l 0), recent := [] })
       ∧ (∀ o, x.state = 1 → laneCountOf o.usable < 15 → ∃ t, exec (.portTrained p o) s = .next t ∧ onlySht p s t ∧ (shtAt t p).state = 0)
       ∧ (∀ u, x.state = 1 → x.signalAt = some u → u + 250 * milli = s.up → ∃ t, exec (.trainingTimeout p) s = .next t ∧ onlySht p s t ∧ (shtAt t p).state = 0 ∧ (shtAt t p).txq = [])
       ∧ (within 2 4 x.state = true → ∃ t, exec (.lossOfSignal p) s = .next t ∧ t = { s with sht := t.sht, counts := t.counts, ports := t.ports }
         ∧ (∀ m, m ≠ p → shtAt t m = shtAt s m) ∧ (shtAt t p).state = 0 ∧ (shtAt t p).lat = 0 ∧ (shtAt t p).peer.hello = false ∧ (shtAt t p).txq = []
         ∧ (shtAt t p).held = x.held ∧ counted t 0x1714 (portIdx p) = counted s 0x1714 (portIdx p) + 1)
       ∧ (∀ own pay, 2 ≤ x.state → x.state ≠ 2 → pay.length = 16 →
         let l := (x.deltas ++ [(own, signed 32 (fld pay 8 4))]).drop (x.deltas.length + 1 - 8)
         (l.length < 8 → ∃ t, exec (.linkFrame p own pay) s = .next t ∧ onlySht p s t ∧ shtAt t p = { x with deltas := l, ownDelta := (fld pay 0 8, own) })
         ∧ (8 ≤ l.length → ∃ t, exec (.linkFrame p own pay) s = .next t ∧ onlySht p s t
             ∧ shtAt t p = { x with deltas := l, ownDelta := (fld pay 0 8, own), theta := (delayOf l).2, delay := (delayOf l).1.toNat % 2 ^ 20
                                    lat := if x.lat = 0 then ((delayOf l).1.toNat + 63) / 64 + 40 else x.lat })))
  ∧ (∀ (p : Nat) (s : State), portPresent s.member p = true → 2 ≤ (shtAt s p).state →
       let x := shtAt s p
       (∀ o, o.lane < 16 → o.role < 15 → ((Lane.note o (look default x.lanes o.lane)).recent.filter id).length < 16 →
         let words := codewordWords o.first o.role o.cwi
         ∃ t, exec (.codewordDecode p o) s = .next t ∧ (o.corrected = false ∨ o.failed = true → onlySht p s t) ∧ (∀ m, m ≠ p → shtAt t m = shtAt s m)
           ∧ look default (shtAt t p).lanes o.lane = Lane.note o (look default x.lanes o.lane)
           ∧ (∀ l, l ≠ o.lane → look default (shtAt t p).lanes l = look default x.lanes l)
           ∧ (o.failed = true → shtAt t p = { x with lanes := (shtAt t p).lanes
                                                     lostWords := if x.copies.contains (o.first, o.role, o.cwi) then x.lostWords else x.lostWords ++ words })
           ∧ (o.failed = false → shtAt t p = { x with lanes := (shtAt t p).lanes
                                                      copies := (x.copies.filter fun y => decide (o.first < y.1 + 64)) ++ [(o.first, o.role, o.cwi)]
                                                      lostWords := x.lostWords.filter fun y => !words.contains y }))
       ∧ (∀ f, x.resync = false → (frameOk f = false → ∃ t, exec (.elasticFrameReceive p f false) s = .next t ∧ t = { s with sht := t.sht, counts := t.counts }
             ∧ (∀ m, m ≠ p → shtAt t m = shtAt s m) ∧ shtAt t p = { x with eldrop := min 0xFFFF (x.eldrop + 1), resync := true }
             ∧ counted t 0x1710 (portIdx p) = counted s 0x1710 (portIdx p) + 1)
           ∧ (frameOk f = true → fhType f = 0x01 → ∃ t, exec (.elasticFrameReceive p f false) s = .next t ∧ onlySht p s t
             ∧ shtAt t p = { x with freed := alter 0 x.freed (fhVc f) fun n => (n + frameUnits f) % 65536 })
           ∧ (frameOk f = true → typeRouted (fhType f) = true → creditsLeft (attAt s (32 + p)) 3 = 0 → exec (.elasticFrameReceive p f false) s = .next s))
       ∧ (let b := toPick (rotationPick (rotPhase s p) ((s.now + 7) / 8)) s
         let y := (shtAt b p).rotated b.pick
         (bit y.ctl 1 = true → ∃ t, exec (.rotationPoint p) s = .next t ∧ onlySht p b t ∧ shtAt t p = y)
         ∧ (bit y.ctl 1 = false → y.sprdyRun < 32 → ∃ t, exec (.rotationPoint p) s = .next t ∧ t = { b with sht := t.sht, counts := t.counts }
           ∧ (∀ m, m ≠ p → shtAt t m = shtAt b m) ∧ shtAt t p = { y with rotskip := min 255 (y.rotskip + 1) }
           ∧ counted t 0x1712 (portIdx p) = counted b 0x1712 (portIdx p) + 1)
         ∧ (∀ l, bit y.ctl 1 = false → 32 ≤ y.sprdyRun → laneOfRole y (y.rot % 15) = some l → ∃ t, exec (.rotationPoint p) s = .next t ∧ onlySht p b t
           ∧ shtAt t p = { y with mirror := some (b.pick, l) }))
       ∧ (∀ q l P, x.mirror = some (q, l) → q + 32 ≤ P → x.txSpare ≠ l → (x.rotated P).rot = x.rot + 1 ∧ (x.rotated P).txSpare = l ∧ (x.rotated P).mirror = none
           ∧ look 0 (x.rotated P).txRole x.txSpare = look 0 x.txRole l ∧ look 0 (x.rotated P).txRole l = 15)
       ∧ (∀ lane, lane < 16 → bit x.peerLctl 5 = true → bits x.peerLctl 4 1 = lane → lane ≠ x.txSpare →
         let b := toPick ((s.pick / 32 + 1) * 32) s
         ∃ t, exec (.laneFail p lane) s = .next t ∧ t = { b with sht := t.sht, counts := t.counts, ports := t.ports } ∧ (∀ m, m ≠ p → shtAt t m = shtAt b m)
           ∧ shtAt t p = moveRole lane ((shtAt b p).rotated b.pick) ∧ counted t 0x1711 (portIdx p) = counted b 0x1711 (portIdx p) + 1)
       ∧ (∀ lane, lane < 16 → bit x.peerLctl 5 = false → lane ≠ x.spare → x.nospare = false → (look default x.lanes x.spare).failed = false →
         ∃ t, exec (.laneFail p lane) s = .next t ∧ onlySht p s t
           ∧ shtAt t p = { x with lanes := alter default x.lanes lane fun y => { y with failed := true, recent := [] } }))

/-- R294-R296: at each pick a slave follows the best port and steers by at most a tick; a device with no port in state 2 or 3 is its own master at GEN 0,
and so is, at its GEN, one without an id that has no upstream after holdover; without a port it holds over, and an expired holdover clears LOCKED and
takes every port from state 3; a better offer within 76 ticks is adopted; a device that may propose becomes master of the next generation. R297, R298,
R379: an edge of EPOCH_IN sets the pick count of an armed master without a job at the next pick; a short pulse counts RAS_TREF; the pulse of EPOCH_OUT
leaves at a multiple of PERIOD; a lost reference puts a master into holdover. Where the manual leaves a choice or a reading, the model’s is that of
log 7, 50. -/
def Obligations.TimeFollowsTheBestOffer : Prop :=
  (∀ s : State,
       (let b := toPick (s.pick + 1) s
         let turns := fun t => exec .pickSteer s = .next t ∧ t = { b with sht := t.sht, time := t.time }
         (noPorts b = true → b.time.master = true ∨ b.time.holdover = false →
           ∃ t, turns t ∧ t.time.master = true ∧ t.time.gen = 0 ∧ t.time.hops = 0 ∧ (idAssigned b = true → t.time.tmid = devId b) ∧ (idAssigned b = false → t.time.tmid = 0xFFF))
         ∧ (noPorts b = false → b.time.master = false → b.time.holdover = false → idAssigned b = false → bestUpstream b = none →
           ∃ t, turns t ∧ t.time.master = true ∧ t.time.gen = b.time.gen ∧ t.time.hops = 0 ∧ t.time.tmid = 0xFFF ∧ t.time.locked = false)
         ∧ ∀ p, b.time.master = false → noPorts b = false → bestUpstream b = some p →
         let st := steerBy (shtAt b p).theta
         ∃ t, exec .pickSteer s = .next t ∧ t = { b with sht := t.sht, time := t.time } ∧ t.time.hasUp = true ∧ t.time.upport = p
           ∧ t.time.hops = tsHops (shtAt b p).tstat + 1 ∧ t.time.tprio = tsPrio (shtAt b p).tstat ∧ t.time.theta = (shtAt b p).theta - st
           ∧ t.time.locked = (decide (t.time.hops ≤ 6) && decide (t.time.theta.natAbs ≤ 8)) ∧ st.natAbs ≤ 1)
       ∧ (s.time.master = false → s.time.hasUp = true → qualifies s s.time.upport = false → bestUpstream s = none →
         ∃ t, exec .upstreamLoss s = .next t ∧ t = { s with time := t.time, counts := t.counts } ∧ t.time.holdover = true ∧ t.time.hasUp = false
           ∧ t.time.holdAt = s.up ∧ t.time.locked = s.time.locked ∧ counted t 0x1720 hubIdx = counted s 0x1720 hubIdx + 1)
       ∧ (s.time.holdover = true → s.up = s.time.holdAt + s.time.hold * milli →
         ∃ t, exec .holdoverExpiry s = .next t ∧ t = { s with time := t.time, sht := t.sht, counts := t.counts, ports := t.ports } ∧ t.time.holdover = false
           ∧ t.time.locked = false ∧ (TabWf default s.sht = true → ∀ p, (shtAt t p).state = if (shtAt s p).state = 3 then 2 else (shtAt s p).state)
           ∧ counted t 0x1721 hubIdx = counted s 0x1721 hubIdx + 1)
       ∧ (∀ p, portPresent s.member p = true →
         let x := shtAt s p
         within 2 3 x.state = true → tsLocked x.tstat = true → tsHops x.tstat ≤ 5 → x.lat ≠ 0 → x.theta.natAbs ≤ 76 →
         betterOffer (tsGen x.tstat) (tsPrio x.tstat) (tsTmid x.tstat) s.time.gen s.time.tprio s.time.tmid = true →
         ∃ t, exec (.betterOffer p) s = .next t ∧ t = { s with time := t.time, counts := t.counts, sht := t.sht } ∧ t.time.tmid = tsTmid x.tstat ∧ t.time.gen = tsGen x.tstat
           ∧ t.time.upport = p ∧ t.time.hops = tsHops x.tstat + 1 ∧ t.time.master = false ∧ counted t 0x1722 hubIdx = counted s 0x1722 hubIdx + 1)
       ∧ (mayPropose s = true → ∃ t, exec .masterProposal s = .next t ∧ t = { s with time := t.time, sht := t.sht } ∧ t.time.master = true ∧ t.time.gen = (s.time.gen + 1) % 256
           ∧ t.time.tmid = devId s ∧ t.time.hops = 0 ∧ t.time.tprio = s.time.prio.val ∧ t.time.holdover = false ∧ t.time.locked = s.time.refclk))
  ∧ (∀ s : State,
       (∀ width, 20 ≤ width → (∀ e, s.time.lastEdge = some e → e + milli ≤ s.up) → s.time.master = true → s.time.eparm = true → anyJob s = false →
         let b := toPick (s.pick + 1) { s with time := { s.time with lastEdge := some s.up } }
         ∃ t, exec (.epochInEdge width) s = .next t
           ∧ t = { b with now := 8 * b.time.epoch, time := { b.time with eparm := false }, counts := t.counts, sht := t.sht }
           ∧ counted t 0x1724 hubIdx = counted b 0x1724 hubIdx + 1)
       ∧ (∀ width, width < 20 → ∃ t, exec (.epochInEdge width) s = .next t ∧ t = { s with counts := t.counts }
           ∧ counted t 0x1D08 hubIdx = counted s 0x1D08 hubIdx + 1)
       ∧ (s.time.period ≠ 0 →
         let b := toPick (((s.now + 7) / 8 + s.time.period - 1) / s.time.period * s.time.period) s
         (b.time.master || b.time.locked) = true → ∃ t, exec .epochOutPulse s = .next t ∧ t = { b with sent := b.sent ++ [.epochOut b.pick] } ∧ b.pick % s.time.period = 0)
       ∧ (s.time.master = true → s.time.holdover = false → ∃ t, exec .refclkLoss s = .next t ∧ t = { s with time := t.time, counts := t.counts }
           ∧ t.time.refclk = false ∧ t.time.holdover = true ∧ t.time.master = true ∧ counted t 0x1D08 hubIdx = counted s 0x1D08 hubIdx + 1
           ∧ counted t 0x1720 hubIdx = counted s 0x1720 hubIdx + 1))

/-- R304, R305, R307-R309: a matching, acknowledged hello completes; one without ACK or mismatched, and silence, end it, and a changed serial is answered
with a HELLO; an advertisement computes its fragment's unpinned entries again; a frame for another device goes on by its entry with TTL one less, or
is counted and discarded. R311-R313: a permitted remote write stores its bytes and is answered OK, one not permitted stores nothing and is answered
DENIED, a clean read is answered with its bytes; the last response of a remote command, or 100 ms without one, completes the command. Where the manual
leaves a choice or a reading, the model’s is that of log 43, 51, 75. -/
def Obligations.RoutesAndRemoteAccess : Prop :=
  (∀ (p : Nat) (s : State), portPresent s.member p = true →
       let x := shtAt s p
       (∀ h, x.state = 2 ∨ x.state = 3 → h.length = 24 → x.peer.feed = fld h 13 1 →
         let changed := match x.peer.lastSerial with | some y => decide (y ≠ fld h 0 8) | none => false
         let q : Peer := { hello := false, mismatch := false, serial := fld h 0 8, fabric := fld h 8 2, valid := heValid h, devid := heDev h, port := fld h 12 1
                           feed := fld h 13 1, rackpos := fld h 14 2, member := fld h 16 1, at_ := some s.up, lastSerial := some (fld h 0 8), ack := heAck h
                           sound := decide (fld h 17 1 = 1) && !changed }
         (peerMismatch s q = false → heAck h = true → ∃ t, exec (.helloReceive p h) s = .next t ∧ onlySht p s t ∧ (shtAt t p).peer = { q with hello := true }
           ∧ (shtAt t p).state = if x.state = 2 ∧ mayLock t p = false then 2 else 3)
         ∧ (peerMismatch s q = false → heAck h = false → ∃ t, exec (.helloReceive p h) s = .next t ∧ onlySht p s t ∧ (shtAt t p).peer = q ∧ (shtAt t p).state = 2)
         ∧ (peerMismatch s q = true → ∃ t, exec (.helloReceive p h) s = .next t ∧ t = { s with sht := t.sht, counts := t.counts } ∧ (∀ m, m ≠ p → shtAt t m = shtAt s m)
           ∧ (shtAt t p).peer = { q with mismatch := true } ∧ (shtAt t p).state = 2 ∧ counted t 0x1801 (portIdx p) = counted s 0x1801 (portIdx p) + 1
           ∧ if changed then ∃ f, fhType f = 0x10 ∧ (shtAt t p).txq = x.txq ++ [f] else (shtAt t p).txq = x.txq))
       ∧ (∀ e, x.peer.at_ = some e → x.peer.hello = true → e + 240000 = s.up → ∃ t, exec (.helloTimeout p) s = .next t ∧ onlySht p s t
           ∧ (shtAt t p).peer = { x.peer with hello := false } ∧ (shtAt t p).state = if x.state = 3 then 2 else x.state)
       ∧ (∀ pay, x.peer.hello = true → pay.length = 4100 → idAssigned s = false → s.fab.noauto = false →
         let f := bits (fld pay 0 4) 1 0
         ∃ t, exec (.routeReceive p pay) s = .next t ∧ t = { s with sht := t.sht, fab := { s.fab with route := t.fab.route }, counts := t.counts }
           ∧ (∀ m, m ≠ p → shtAt t m = shtAt s m) ∧ (∀ n, n < 1024 → freshAdvert t (1024 * f + n) p = some (bits (fld pay (4 + 4 * n) 4) 5 0, bits (fld pay (4 + 4 * n) 4) 31 6))
           ∧ (∀ d, d / 1024 ≠ f ∨ d = 0xFFF ∨ rtPin (rtAt s d) = true → rtAt t d = rtAt s d)
           ∧ ∀ d, d / 1024 = f → d ≠ 0xFFF → rtPin (rtAt s d) = false → rtAt t d = autoRoute t d)
       ∧ (∀ f, typeRouted (fhType f) = true → fhDst f ≠ 0xFFF → (idAssigned s = true → fhDst f ≠ devId s) →
         let e := rtAt s (fhDst f)
         (fhTtl f = 0 → ∃ t, exec (.routedFrame f) s = .next t ∧ t = { s with counts := t.counts } ∧ counted t 0x1804 hubIdx = counted s 0x1804 hubIdx + 1)
         ∧ (fhTtl f ≠ 0 → rtValid e = true → 2 ≤ (shtAt s (rtPort e)).state → ∃ t, exec (.routedFrame f) s = .next t ∧ frameQueued (rtPort e) (ttlDown f) s t)))
  ∧ (∀ (s : State) (f : List Byte),
       let h := fhPay f
       let dpa := fld h 0 8
       let len := fld h 8 4
       let tag := fld h 12 2
       let src := fhSrc f
       let e := rtAt s src
       let rsp := fun st map data => mkFrame 0x22 1 src (ownSrc s) 31 (rmaRsp tag st map data)
       (rtValid e = true → 2 ≤ (shtAt s (rtPort e)).state →
         (fhType f = 0x21 → rmaStatus s true dpa len = 0 →
           let w := elasticWrite dpa (sub h 16 len) s
           w = { s with stks := w.stks } → ∃ t, exec (.rmaRequest f) s = .next t ∧ frameQueued (rtPort e) (rsp 0 0 []) w t)
         ∧ (fhType f = 0x21 → s.fab.rmawr = false → ∃ t, exec (.rmaRequest f) s = .next t ∧ frameQueued (rtPort e) (rsp 1 0 []) s t)
         ∧ (fhType f = 0x20 → rmaStatus s false dpa len = 0 →
           (∀ i, look .good (stackAt s (dpaStack dpa)).code i = .good) → (∀ c, chanFailed (stackAt s (dpaStack dpa)) c = false) → (stackAt s (dpaStack dpa)).remap = [] →
           ∃ t, exec (.rmaRequest f) s = .next t ∧ frameQueued (rtPort e) (rsp 0 0 (bytesAt (stackAt s (dpaStack dpa)).mem (dpaOff dpa) len)) s t))
       ∧ ∀ r j at0, s.fab.rmas = [r] → r.answer = none → r.sentAt = some at0 → s.remote = [j] → j.id = r.job → j.restore = none → (mbxAt s j.port j.m).state = 2 →
         let ends := fun (o : Out) (st : Nat) => ∃ t, o = .next t ∧ t = { s with ports := t.ports, fab := t.fab, remote := [] } ∧ t.fab = { s.fab with rmas := [] }
           ∧ (mbxAt t j.port j.m).state = 3 ∧ (mbxAt t j.port j.m).status = st
           ∧ (portAt t j.port).mem = if st = mOk ∧ r.write = false then scatterHost (portAt s j.port).mem r.off (sub (h.drop 16) 0 r.len) j.list else (portAt s j.port).mem
         (fhType f = 0x22 → fld h 0 2 = r.tag → bit r.tag 15 = false → fld h 2 1 = 0 → ends (exec (.rmaResponse f) s) mOk)
         ∧ (fhType f = 0x22 → fld h 0 2 = r.tag → bit r.tag 15 = false → fld h 2 1 = 3 → ends (exec (.rmaResponse f) s) mRange)
         ∧ (at0 + 100 * milli = s.up → ends (exec (.rmaTimeout r.tag) s) mTimeout))

/-- R319-R322: at its build pick a contribution is sent as a TALLY of what its slots carried; a received tally that agrees is counted verified, one that
does not is counted bad and marks its step's STATUS bit 1. R323-R329: the source engine sends the next fragment of a committed page before LIMIT and
goes back to NEXT 1 ms after a fragment that NEXT has not passed; a grant drains the pages it passes; the landing engine pushes an expected fragment's
rows and answers with a grant. Where the manual leaves a choice or a reading, the model’s is that of log 16, 44, 52. -/
def Obligations.TalliesAndFallbackPages : Prop :=
  (∀ (p a cls : Nat) (st : Step) (s : State), portPresent s.member p = true →
       (∃ t, exec (.tallyBuild p) s = .next t) ∧ (∀ pay, ∃ t, exec (.tallyReceive p pay) s = .next t)
       ∧ (areaOfAtt s (32 + p) = some a → jobRuns s a = true → stepClass s a st.k = some cls →
       (∀ j, ((areaAt s a).job.steps.find? fun y => !(look default (shtAt s p).txTally y.k).done && (match stepClass s a y.k with
           | some c => !(txOffsets (draftFor s a y.k).recs p c).isEmpty | none => false)) = some st →
         (txOffsets (draftFor s a st.k).recs p cls).getLast? = some j → 8 * (st.s + j + 33) ≤ s.now → 2 ≤ (shtAt s p).state →
         let y := look default (shtAt s p).txTally st.k
         let row := (areaAt s a).job.steps.any fun x => decide (st.k ≤ x.k) && bit x.status 0
         let sour := (areaAt s a).job.steps.any fun x => decide (x.k = st.k) && bit x.status 1
         ∃ t, exec (.tallyBuild p) s = .next t ∧ onlySht p s t ∧ (look default (shtAt t p).txTally st.k) = { y with done := true }
           ∧ (shtAt t p).txq = (shtAt s p).txq ++ [mkFrame 0x13 0 0xFFF (ownSrc s) 1 (leBytes 8 st.k
               ++ leBytes 8 (hash64 (BitVec.ofNat 64 (y.crc ^^^ (b2n row + 2 * b2n sour))) (BitVec.ofNat 32 st.k)).toNat ++ leBytes 2 y.slots ++ leBytes 6 0)])
       ∧ (∀ pay, pay.length = 24 → fld pay 0 8 = st.k → ((areaAt s a).job.steps.find? fun y => y.k == st.k) = some st → st.ended = false → st.len ≠ 0 →
         s.now ≤ 8 * (st.s + st.len) → rxOffsets (draftFor s a st.k).recs p cls ≠ [] →
         let y := (planStep s a st.k st.s).foldl (fun y x => foldMissing p x x.len y) (look default (shtAt s p).rxTally st.k)
         let want := hash64 (BitVec.ofNat 64 y.crc) (BitVec.ofNat 32 st.k)
         let got : W64 := BitVec.ofNat 64 (fld pay 8 8)
         ∃ t, exec (.tallyReceive p pay) s = .next t ∧ t.now = s.now ∧ t.mm = s.mm ∧ t.stks = s.stks
           ∧ look default (shtAt t p).rxTally st.k = { y with done := true, got := some got }
           ∧ (got = want → t = { s with sht := t.sht, aregs := t.aregs } ∧ aregAt t a = { aregAt s a with verified := min (2 ^ 32 - 1) ((aregAt s a).verified + 1) })
           ∧ (got ≠ want → aregAt t a = { aregAt s a with bad := min 0xFFFF ((aregAt s a).bad + 1) } ∧ counted t 0x3810 (portIdx p) = counted s 0x3810 (portIdx p) + 1
               ∧ ∃ z ∈ (areaAt t a).job.steps, z.k = st.k ∧ z.origin = true ∧ bit z.status 1 = true))))
  ∧ (∀ (exch peer a i : Nat) (d : List Byte) (s : State), exchangeOf s exch peer = some (a, d, i) → peer < 4096 → bkFbcap d ≠ 0 →
       let e := fbSrcAt s exch peer
       let g := fbDstAt s exch peer
       let rt := rtAt s peer
       let P := fbRows (bkRsz d) (bkFbcap d)
       let out := bkOut d i
       let c := creelAt (mmAt s out.1) out.2
       let other := fun (t : State) => ∀ k, k ≠ exch * 4096 + peer → look default t.fab.fbSrc k = look default s.fab.fbSrc k ∧ look default t.fab.fbDst k = look default s.fab.fbDst k
       (rtValid rt = true → 2 ≤ (shtAt s (rtPort rt)).state →
         (∀ hb pay, e.sentSeq < e.limit → crMode c.desc = 3 →
           let at0 := 4 * P * ((e.sentSeq - e.seq) % 65536)
           let rows := pageRows d hb
           at0 + 4 * P ≤ crCommitted c → creelRows out.1 out.2 1 at0 s = (hb, s) →
           creelRows out.1 out.2 (min 64 (rows - 64 * e.sentFrag)) (at0 + 256 * e.sentFrag) s = (pay, s) →
           let last := decide ((rows + 63) / 64 ≤ e.sentFrag + 1)
           ∃ t, exec (.fbPageSend exch peer) s = .next t ∧ frameQueued (rtPort rt) (mkFrame 0x30 1 peer (ownSrc s) 31
               (leBytes 2 exch ++ leBytes 2 e.sentSeq ++ leBytes 2 e.sentFrag ++ leBytes 2 ((rows + 63) / 64) ++ leBytes 8 (fld hb 4 8) ++ pay)) { s with fab := t.fab } t
             ∧ other t ∧ t.fab = { s.fab with fbSrc := t.fab.fbSrc }
             ∧ fbSrcAt t exch peer = { e with sentSeq := if last then e.sentSeq + 1 else e.sentSeq, sentFrag := if last then 0 else e.sentFrag + 1, lastAt := s.up })
         ∧ (∃ t, exec (.fbgrantSend exch peer) s = .next t ∧ frameQueued (rtPort rt) (mkFrame 0x31 0 peer (ownSrc s) 31
               (leBytes 2 exch ++ leBytes 2 g.nextSeq ++ leBytes 2 g.nextFrag ++ leBytes 2 (fbLimit s d i g))) s t)
         ∧ (∀ f, fhType f = 0x30 → fld (fhPay f) 0 2 = exch → fhSrc f = peer → fld (fhPay f) 2 2 = g.nextSeq % 65536 → fld (fhPay f) 4 2 = g.nextFrag →
             g.nextFrag ≠ 0 → g.nextFrag + 1 ≠ fld (fhPay f) 6 2 →
           ∃ t fr, exec (.fbPageReceive f) s = .next t ∧ t = { s with mm := t.mm, fab := { s.fab with fbDst := t.fab.fbDst }, sht := t.sht } ∧ other t
             ∧ fbDstAt t exch peer = { g with nextFrag := g.nextFrag + 1 } ∧ (shtAt t (rtPort rt)).txq = (shtAt s (rtPort rt)).txq ++ [fr] ∧ fhType fr = 0x31
             ∧ (∀ n, n ≠ (bkIn d i).1 → mmAt t n = mmAt s n) ∧ mmAt t (bkIn d i).1 = { mmAt s (bkIn d i).1 with
                 edgeq := (mmAt s (bkIn d i).1).edgeq ++ (rowsOf ((fhPay f).drop 16)).map fun x =>
                   { op := { op := 1, creel := (bkIn d i).2, arg := 0, tag := 0, data := x, sour := 0, arr := 0, half := none }, job := none } }))
       ∧ (∀ f, fhType f = 0x31 → fld (fhPay f) 0 2 = exch → fhSrc f = peer →
         let next := unwrap e.seq (fld (fhPay f) 2 2)
         next - e.seq < 32768 → 4 * P * (next - e.seq) ≤ crCommitted c →
         ∃ t, exec (.fbgrantReceive f) s = .next t ∧ t = { s with mm := t.mm, fab := { s.fab with fbSrc := t.fab.fbSrc } } ∧ other t
           ∧ (fbSrcAt t exch peer).seq = next ∧ (fbSrcAt t exch peer).nextSeq = next ∧ (fbSrcAt t exch peer).nextFrag = fld (fhPay f) 4 2
           ∧ (fbSrcAt t exch peer).limit = unwrap next (fld (fhPay f) 6 2)
           ∧ (∀ n, n ≠ out.1 → mmAt t n = mmAt s n) ∧ creelAt (mmAt t out.1) out.2 = Creel.drained (4 * P * (next - e.seq)) c
           ∧ ∀ k, k ≠ out.2 → creelAt (mmAt t out.1) k = creelAt (mmAt s out.1) k)
       ∧ (¬ (e.sentSeq = e.nextSeq ∧ e.sentFrag = e.nextFrag) → e.lastAt + milli = s.up →
         ∃ t, exec (.fbResendTimeout exch peer) s = .next t ∧ t = { s with counts := t.counts, aregs := t.aregs, fab := { s.fab with fbSrc := t.fab.fbSrc } } ∧ other t
           ∧ fbSrcAt t exch peer = { e with sentSeq := e.nextSeq, sentFrag := e.nextFrag } ∧ aregAt t a = { aregAt s a with resend := min 0xFFFF ((aregAt s a).resend + 1) }
           ∧ counted t 0x1805 hubIdx = counted s 0x1805 hubIdx + 1))

/-- R336, R337, R354, R358-R361, R370, R373, R376, R378: what host writes of BAR0, of a command area and of the key registers do, and what a refused one
leaves; a bit that hardware sets in the ACLK of a W1C write stays set, and of two writes of one register in an ACLK port 0's comes first. Where the
manual leaves a choice or a reading, the model’s is that of log 55, 74. -/
def Obligations.HostRegisterAccesses : Prop :=
  ∀ (p : Nat) (s : State), p < 2 → (p = 0 → ∀ y ∈ (portAt s 1).writes, y.1 ≠ s.up) →
    let x := portAt s p
    let sameBut := fun (q : Nat) (t : State) => ∀ k, k ≠ q → portAt t k = { portAt s k with writes := (portAt t k).writes }
    (∀ q v, q < 2 → v < 2 ^ 32 → ∃ t, exec (.registerWrite p 0 (0x20000 + 8 * q) 4 v) s = .next t ∧ t = { s with ports := t.ports } ∧ sameBut q t
      ∧ portAt t q = { portAt s q with irqMask := v % 256 / 2 * 2, writes := (portAt t q).writes })
    ∧ (∀ q v u, q < 2 → v < 2 ^ 32 → u < 2 ^ 32 → p = 1 → ∃ r t, exec (.registerWrite 1 0 (0x20000 + 8 * q) 4 v) s = .next r
      ∧ exec (.registerWrite 0 0 (0x20000 + 8 * q) 4 u) r = .next t ∧ (portAt t q).irqMask = v % 256 / 2 * 2)
    ∧ (∀ q v, q < 2 → v < 2 ^ 32 → let y := portAt s q
      let kept := fun i => decide (y.regerrSet.1 = s.up + 1) && bit y.regerrSet.2 i
      ∃ t, exec (.registerWrite p 0 (0x60000 + 8 * q) 4 v) s = .next t ∧ t = { s with ports := t.ports } ∧ sameBut q t
        ∧ (portAt t q).regerrValid = (y.regerrValid && (!bit v 0 || kept 0)) ∧ (portAt t q).regerrOvf = (y.regerrOvf && (!bit v 1 || kept 1))
        ∧ (portAt t q).regerrCode = y.regerrCode ∧ (portAt t q).regerrOff = y.regerrOff)
    ∧ (∀ m v, m < 8 → v < 2 ^ 32 → s.bru.drst = false → ((mbxAt s p m).state = 0 ∨ (mbxAt s p m).state = 3) → opcodeKnown (hdrOpcode (mbxAt s p m).cmd) = true →
      ∃ t, exec (.registerWrite p 0 (0x2000 + 16 * m) 4 v) s = .next t ∧ onlyPort p s t ∧ mbxAt t p m = { mbxAt s p m with state := 1, seq := v / 2 ^ 16 }
        ∧ ∀ k, k ≠ m → mbxAt t p k = mbxAt s p k)
    ∧ (∀ m o n v, m < 8 → o + n ≤ 0x1000 → ∃ t, exec (.registerWrite p 2 (0x2000 * m + o) n v) s = .next t ∧ onlyPort p s t
        ∧ mbxAt t p m = { mbxAt s p m with cmd := putBytes (mbxAt s p m).cmd o (leBytes n v) } ∧ ∀ k, k ≠ m → mbxAt t p k = mbxAt s p k)
    ∧ (∀ off size v, off + size ≤ 2 ^ 24 → ¬ (size = 4 ∧ off % 4 = 0) → ¬ (size = 8 ∧ off % 8 = 0) → ∃ t, exec (.registerWrite p 0 off size v) s = .next t ∧ onlyPort p s t
        ∧ portAt t p = { (if x.regerrValid then { x with regerrOvf := true } else { x with regerrValid := true, regerrCode := 0x8D05, regerrOff := off % 2 ^ 24 })
            with regerrSet := noteSet s.up (if x.regerrValid then 2 else 1) x.regerrSet, writes := (portAt t p).writes })
    ∧ (∀ c, c < 512 →
      let b := shadowDue 4 s
      within b.pwr.pmin.val b.pwr.pmax.val c = true → ∃ t, exec (.registerWrite p 0 0x40008 4 c) s = .next t ∧ sameBut 2 t
        ∧ t = { b with pwr := { b.pwr with shadowCap := some c }, mod := { b.mod with shadowAt := put 0 b.mod.shadowAt 4 b.pick }, ports := t.ports })
    ∧ (∃ t, exec (.timPickLoRead p 4) s = .next t ∧ t = { s with time := t.time, ports := t.ports } ∧ (portAt t p).readData = s.pick % 2 ^ 32
        ∧ look 0 t.time.hiLatch p = s.pick / 2 ^ 32 % 2 ^ 32 ∧ (∀ q, q ≠ p → portAt t q = portAt s q ∧ look 0 t.time.hiLatch q = look 0 s.time.hiLatch q))
    ∧ (∀ v, ∃ t, exec (.secLockWrite p v) s = .next t ∧ t = { s with sec := { s.sec with lock := Tri.of (s.sec.lock.val ||| (v % 2 ^ 32) % 32) } })
    ∧ (let b := shadowDue 4 s
      bit b.sec.lock.val 0 = false ∨ b.pwr.stagedMax = b.pwr.pmax.val →
        (limitsOk b = true → ∃ t, exec (.pwrStageApply p 1) s = .next t ∧ sameBut 2 t
          ∧ t = { b with pwr := { b.pwr with shadowLim := some (b.pwr.stagedMax, b.pwr.stagedMin) }, mod := { b.mod with shadowAt := put 0 b.mod.shadowAt 4 b.pick }
                         ports := t.ports })
        ∧ (limitsOk b = false → b.pwr.shadowLim = none → x.regerrValid = false → ∃ t, exec (.pwrStageApply p 1) s = .next t ∧ t = { b with pwr := t.pwr, ports := t.ports }
            ∧ t.pwr = { b.pwr with stagedMax := b.pwr.pmax.val, stagedMin := b.pwr.pmin.val } ∧ (portAt t p).regerrCode = 0x8D03 ∧ (portAt t p).regerrValid = true))
    ∧ (∀ i v, i < 100 → v < 2 ^ 32 → (calRange i).1.1 ≤ signed 32 v → signed 32 v ≤ (calRange i).1.2 →
        (calRange i).2.1 ≤ (calAt s i).fact + signed 32 v → (calAt s i).fact + signed 32 v ≤ (calRange i).2.2 →
        ∃ t, exec (.calUserWrite p i v) s = .next t ∧ t = { s with mod := { s.mod with cal := t.mod.cal }, ports := t.ports } ∧ sameBut 2 t ∧ (∀ k, k ≠ i → calAt t k = calAt s k)
          ∧ (calAt t i).user = signed 32 v ∧ calEff t i = calEff s i ∧ calEff { t with now := s.now + 8 } i = (calAt s i).fact + signed 32 v)
    ∧ (∀ v, v % 65536 ≠ 0 → bit v 31 = false → s.bru.drst = false → prijanRuns s = false → ∃ t, exec (.hpcAbortWrite p v) s = .next t ∧ onlyPort p s t
        ∧ portAt t p = { x with abortBusy := true, abortAt := s.up, abortReq := v % 65536 })
    ∧ (∃ t, exec (.hpcDrstWrite p 0x44525354) s = .next t ∧ t = { s with bru := { s.bru with ready := false, drst := true }, ports := t.ports, mod := t.mod }
        ∧ (∀ q m, (mbxAt t q m).state = 0) ∧ t.mod = { s.mod with faultN := t.mod.faultN, pwrgd := t.mod.pwrgd, alertN := t.mod.alertN, smbLast := t.mod.smbLast })
    ∧ (∀ v, v ≠ 0x44525354 → exec (.hpcDrstWrite p v) s = .next s)

/-- R122, R141, R150, R363-R366, R377, R380: through a window, reads and writes reach the site's register, the address advances, and a refusal stands in
IDX_STAT; staged descriptors come into force together or not at all. R290, R310, R373, R492: an XS_STAGE write puts rings in force together or not at
all; SHT_CTL takes its two bits and a set bit 0 takes the port down; a FAB_ROUTE write sets an entry, and the own id's entry takes none. R372, R375,
R376: a read of a triplicated field rewrites its three copies with their bitwise majority and counts a difference, and the sweep votes every field;
without a running job a pending shadow comes into force at the next pick boundary. Where the manual leaves a choice or a reading, the model’s is that
of log 47, 55, 56. -/
def Obligations.WindowsVotesAndShadows : Prop :=
  (∀ (w n : Nat) (s : State), w < 4 → siteReach s n = true → kindOf n = .mm → siteLive s n = false →
       let m := mmAt s n
       let x := winAt s w
       let mmOnly := fun (t : State) => t = { s with mm := t.mm, wins := t.wins } ∧ (∀ k, k ≠ n → mmAt t k = mmAt s k) ∧ (∀ k, k ≠ w → winAt t k = winAt s k)
       (∀ p c, p < 2 → c < 16 → x.addr = 0x100 + 8 * c → x.site = n → bit x.ctrl 2 = true → x.ctrl % 4 = 2 → bit x.ctrl 3 = false →
         let v := (creelAt m c).desc.toNat
         (∃ t, exec (.idxDataRead p w) s = .next t ∧ t = { s with wins := t.wins, ports := t.ports } ∧ (portAt t p).readData = v % 2 ^ 32
           ∧ winAt t w = { x with lo := v % 2 ^ 32, hi := v / 2 ^ 32, addr := 0x108 + 8 * c } ∧ ∀ k, k ≠ w → winAt t k = winAt s k)
         ∧ (∀ u, x.hi < 2 ^ 32 → u < 2 ^ 32 →
           let d := u + x.hi * 2 ^ 32
           let ok := creelWriteOk (BitVec.ofNat 64 d)
           ∃ t, exec (.idxDataWrite p w u) s = .next t ∧ mmOnly t
             ∧ winAt t w = { x with lo := u, addr := 0x108 + 8 * c, stat := if ok then x.stat else x.stat ||| 1
                                    hwSet := if ok then x.hwSet else noteSet s.up 1 x.hwSet }
             ∧ creelAt (mmAt t n) c = (if ok then { creelAt m c with staged := BitVec.ofNat 64 (d / 2 ^ 26 * 2 ^ 26) } else creelAt m c)
             ∧ ∀ k, k ≠ c → creelAt (mmAt t n) k = creelAt m k))
       ∧ (∃ t, exec (.idxAccessTimeout w none) s = .next t ∧ t = { s with wins := t.wins, counts := t.counts } ∧ (winAt t w).lo = 2 ^ 32 - 1 ∧ bit (winAt t w).stat 1 = true
           ∧ counted t 0x1D06 hubIdx = counted s 0x1D06 hubIdx + 1)
       ∧ (∀ v, v < 2 ^ 16 →
         let want := (List.range 16).map fun i => if bit v i then (creelAt m i).staged else (creelAt m i).desc
         ∃ t, exec (.mmStageApply w n v) s = .next t ∧ mmOnly t ∧ (mmAt t n).mem = m.mem
           ∧ (creelSetOk want = true → (winAt t w).stat = x.stat ∧ ∀ i, i < 16 → creelAt (mmAt t n) i = if bit v i then (creelAt m i).apply (creelAt m i).staged else creelAt m i)
           ∧ (creelSetOk want = false → (winAt t w).stat = x.stat ||| 32 ∧
               ∀ i, i < 16 → creelAt (mmAt t n) i = if bit v i then { creelAt m i with staged := (creelAt m i).desc } else creelAt m i))
       ∧ (∀ v, bits v 13 8 ≤ 35 → (bit v 1 = true → bits v 7 2 ≤ 35) → bits v 28 16 ≤ 6143 → bit v 31 = true →
         ∃ t, exec (.mmInjWrite w n v) s = .next t ∧ mmOnly t
           ∧ (s.sec.dbgEn.val ≠ 0 → mmAt t n = { m with inj := some { sub := bits v 30 29, row := bits v 28 16, cell := bits v 15 14, sym1 := bits v 13 8, sym2 := bits v 7 2, two := bit v 1 } })
           ∧ (s.sec.dbgEn.val = 0 → mmAt t n = m ∧ (winAt t w).stat = x.stat ||| 16))
       ∧ (raRow m < 6144 → (subAt m (raSub m)).power = 0 → mmCells m (raSub m) (raRow m) = List.replicate 4 .good → m.inj = none →
         (∃ t, exec (.mmRdataRead w n) s = .next t ∧ mmOnly t ∧ mmAt t n = { m with rsour := false, rdata := rowWords (mmRow m (raSub m) (raRow m)) })
         ∧ (∀ v, ∃ t, exec (.mmRdataWrite w n v) s = .next t ∧ mmOnly t
           ∧ bytesAt (mmAt t n).mem (mmRowAddr m (raSub m) (raRow m)) 64 = ((List.range 15).flatMap fun i => leBytes 4 (look 0 m.rdata i).toNat) ++ leBytes 4 v
           ∧ ∀ j, ¬ (mmRowAddr m (raSub m) (raRow m) ≤ j ∧ j < mmRowAddr m (raSub m) (raRow m) + 64) → look 0 (mmAt t n).mem j = look 0 m.mem j)))
  ∧ (∀ (w : Nat) (s : State), w < 4 →
       (∀ n v, siteReach s n = true → (kindOf n = .mx ∨ kindOf n = .sf) → siteLive s n = false → v < 2 ^ ringCount n →
         let r := fun (t : State) i => look default (siteRings t n) i
         let rows := if kindOf n = .mx then 1536 else 512
         let want := (List.range (ringCount n)).map fun i => if bit v i then (r s i).staged else (r s i).desc
         ∃ t, exec (.xsStageApply w n v) s = .next t ∧ t = { s with mx := t.mx, sf := t.sf, wins := t.wins } ∧ (∀ k, k ≠ n → mxAt t k = mxAt s k ∧ sfAt t k = sfAt s k)
           ∧ mxAt t n = { mxAt s n with rings := (mxAt t n).rings } ∧ sfAt t n = { sfAt s n with rings := (sfAt t n).rings }
           ∧ (ringSetOk rows want = true → (winAt t w).stat = (winAt s w).stat ∧ ∀ i, i < ringCount n → r t i = if bit v i then (r s i).apply (r s i).staged else r s i)
           ∧ (ringSetOk rows want = false → (winAt t w).stat = (winAt s w).stat ||| 32
               ∧ ∀ i, i < ringCount n → r t i = if bit v i then { r s i with staged := (r s i).desc } else r s i))
       ∧ (∀ p v, portPresent s.member p = true → p < 32 → optJob s (areaOfAtt s (32 + p)) = false →
         ∃ t, exec (.shtCtlWrite w p v) s = .next t ∧ (∀ q, q ≠ p → shtAt t q = shtAt s q) ∧ (shtAt t p).ctl = v % 4 ∧ t.mm = s.mm ∧ t.now = s.now
           ∧ (bit v 0 = false → (shtAt t p) = { shtAt s p with ctl := v % 4 }) ∧ (bit v 0 = true → (shtAt t p).state = 0))
       ∧ (∀ d v, d < 4096 → ∃ t, exec (.fabRouteWrite w d v) s = .next t ∧ t = { s with fab := { s.fab with route := t.fab.route }, wins := t.wins }
           ∧ (∀ k, k ≠ d → rtAt t k = rtAt s k)
           ∧ (d ≠ 0xFFF → (idAssigned s = true → d ≠ devId s) → rtAt t d = bits v 31 30 * 2 ^ 30 + bits v 26 16 * 2 ^ 16)
           ∧ (d = 0xFFF ∨ (idAssigned s = true ∧ d = devId s) → rtAt t d = rtAt s d)))
  ∧ (∀ s : State,
       (∀ f, (f = .secLock ∨ f = .pmax ∨ f = .pmin ∨ f = .cap ∨ f = .prio ∨ f = .fabId ∨ f = .dbgEn) →
         let k := triGet s f
         ∃ t, exec (.triplicatedRead f) s = .next t ∧ triGet t f = (if k.agree then k else Tri.of ((k.a &&& k.b) ||| (k.a &&& k.c) ||| (k.b &&& k.c)))
           ∧ (triGet t f).agree = true ∧ (∀ g, g = .secLock ∨ g = .pmax ∨ g = .pmin ∨ g = .cap ∨ g = .prio ∨ g = .fabId ∨ g = .dbgEn → g ≠ f → triGet t g = triGet s g)
           ∧ counted t 0x2D10 hubIdx = (if k.agree then counted s 0x2D10 hubIdx else counted s 0x2D10 hubIdx + 1) ∧ t.mm = s.mm ∧ t.mx = s.mx ∧ t.now = s.now)
       ∧ (∃ t, exec .tripleVoteSweep s = .next t ∧ (∀ f ∈ [TriField.secLock, .pmax, .pmin, .cap, .prio, .fabId, .dbgEn], (triGet t f).agree = true ∧ (triGet t f).val = (triGet s f).val)
           ∧ t.now = s.now ∧ t.sw = s.sw ∧ t.mx = s.mx)
       ∧ (∀ c, (areaList s).filter (jobRuns s) = [] → s.pwr.shadowCap.isSome = true → s.pwr.shadowThrot = none → (∀ kv ∈ s.mod.pmon, kv.2.shadow = none) →
         let b := toPick (look 0 s.mod.shadowAt 4 + 1) s
         b.pwr.shadowCap = some c → ∃ t, exec .shadowApply s = .next t ∧ t = { b with pwr := t.pwr } ∧ t.pwr.cap = Tri.of c ∧ t.pwr.shadowCap = none ∧ t.pwr.shadowLim = none
           ∧ (∀ x, b.pwr.shadowLim = some x → t.pwr.pmax = Tri.of x.1 ∧ t.pwr.pmin = Tri.of x.2) ∧ (b.pwr.shadowLim = none → t.pwr.pmax = b.pwr.pmax ∧ t.pwr.pmin = b.pwr.pmin)
           ∧ t.pwr.effDue = some (b.pick + 1, min (min c (feedCap b)) (min (coolCap b) (groupCap b))) ∧ effInForce t = effInForce b))

/-- R365: after every data access through a window, whatever its outcome (one that is abandoned too), INDEX advances by STRIDE (0, 4 or 8), modulo 2 ^ 28,
within bits 27:0, and bits 31:28 do not change; with SITESTEP = 1, IDX_SITE advances by 1 and INDEX keeps its value. R4: where the index names an
absent unit a read gives 0, a write has no effect, and NXU is set. Where the manual leaves a choice or a reading, the model’s is that of log 47. -/
def Obligations.WindowIndexAdvancesAfterEveryAccess : Prop :=
  ∀ (p w : Nat) (s : State), p < 2 → w < 4 →
    let x := winAt s w
    let advanced := fun (t : State) =>
      (bit x.ctrl 3 = true → (winAt t w).site = (x.site + 1) % 2 ^ 18 ∧ (winAt t w).addr = x.addr)
      ∧ (bit x.ctrl 3 = false → (winAt t w).site = x.site ∧ (winAt t w).addr / 2 ^ 28 = x.addr / 2 ^ 28
        ∧ ∀ k, k < 3 → x.ctrl % 4 = k → (winAt t w).addr % 2 ^ 28 = (x.addr % 2 ^ 28 + (if k = 0 then 0 else 4 * k)) % 2 ^ 28)
    (∃ t, exec (.idxDataRead p w) s = .next t ∧ advanced t)
    ∧ (∀ v, ∃ t, exec (.idxDataWrite p w v) s = .next t ∧ advanced t)
    ∧ ∀ o, ∃ t, exec (.idxAccessTimeout w o) s = .next t ∧ advanced t
    ∧ (idxUnit s x.addr x.site = .absent → x.addr % 4 = 0 → (bit x.ctrl 2 = true → x.addr % 8 = 0) →
      (∃ t, exec (.idxDataRead p w) s = .next t ∧ t = { s with wins := t.wins, ports := t.ports } ∧ (portAt t p).readData = 0 ∧ (winAt t w).lo = 0 ∧ (winAt t w).stat = x.stat ||| 4)
      ∧ ∀ v, ∃ t, exec (.idxDataWrite p w v) s = .next t ∧ t = { s with wins := t.wins } ∧ (winAt t w).stat = x.stat ||| 4 ∧ ∀ k, k ≠ w → winAt t k = winAt s k)

/-- R337-R341, R353: a completed command has STATE 3, its STATUS, the response header and parameters, and sends MSI-X vector m; a command whose header is
out of order completes BAD_HEADER and changes nothing else, one that is not permitted yet completes NOT_READY, one behind a transfer waits. Where the
manual leaves a choice or a reading, the model’s is that of log 18, 30. -/
def Obligations.MailboxesAnswerTheirCommands : Prop :=
  ∀ (p m : Nat) (s : State), p < 2 → m < 8 →
    (∀ st detail rsp, (mbxAt s p m).state = 2 →
      let t := mbxComplete p m st detail rsp s
      let c := (mbxAt s p m).cmd
      onlyPort p s t ∧ (∀ k, k ≠ m → mbxAt t p k = mbxAt s p k) ∧ portAt t p = { portAt s p with mbx := (portAt t p).mbx, msix := (portAt s p).msix ++ [m] }
      ∧ (mbxAt t p m).state = 3 ∧ (mbxAt t p m).status = st ∧ (mbxAt t p m).donepick = s.pick ∧ (mbxAt t p m).cmd = c ∧ (mbxAt t p m).seq = (mbxAt s p m).seq
      ∧ bytesAt (mbxAt t p m).rsp 0 (32 + rsp.length) = leBytes 2 (hdrOpcode c) ++ leBytes 2 (hdrSeq c) ++ leBytes 2 st ++ leBytes 2 rsp.length ++ leBytes 8 s.pick
          ++ leBytes 8 (hdrTag c) ++ leBytes 8 detail ++ rsp)
    ∧ (∀ o opc plen sc, (opc, o) ∈ [(0x0001, Instr.nop p m), (0x0100, .areaCreate p m), (0x0110, .draftLoad p m), (0x0111, .jobStart p m), (0x0400, .pwrSetCap p m)] →
      (opc, plen, sc) ∈ [(0x0001, 0, Scope.none), (0x0100, 0, .area), (0x0110, 8, .area), (0x0111, 12, .area), (0x0400, 8, .device)] →
      let b := mbxAt s p m
      b.state = 1 → hdrOpcode b.cmd = opc → postsTaken s = true →
      (mbxWaits s sc b.cmd = false → (hdrSeq b.cmd ≠ b.seq ∨ hdrPlen b.cmd ≠ plen ∨ hdrReservedOk b.cmd = false) →
        exec o s = .next (mbxComplete p m mBadHeader 0 [] (mbxTaken p m s)))
      ∧ (opc ≠ 1 → mbxGoodHeader s p m plen sc → mbxWaits s sc b.cmd = false → s.bru.ready = false → exec o s = .next (mbxComplete p m mNotReady 0 [] (mbxTaken p m s)))
      ∧ (opc ≠ 1 → mbxWaits s sc b.cmd = true → exec o s = .next s))

/-- R302, R336, R343, R350, R354, R355: what NOP, IDENTIFY, EVQ_SETUP, DEVICE_RESET, SET_FABRIC_ID and ABORT do and answer; the hub performs an abort that
Prijan has not completed. Where the manual leaves a choice or a reading, the model’s is that of log 18, 54. -/
def Obligations.DeviceCommandsComplete : Prop :=
  ∀ (p m : Nat) (s : State),
    let r := mbxTaken p m s
    let c := (mbxAt s p m).cmd
    (mbxEarly s p m 0x0001 0 → exec (.nop p m) s = .next (mbxComplete p m mOk 0 [] r))
    ∧ (mbxEarly s p m 0x0002 0 → exec (.identify p m) s = .next (mbxComplete p m mOk 0
        (leBytes 8 (s.mod.member + 2 ^ 8 + s.mod.stepping * 2 ^ 16 + s.mod.fwver * 2 ^ 32) ++ leBytes 1 p ++ leBytes 2 (ownedMask s p) ++ leBytes 2 (ownedMask s (1 - p))) r))
    ∧ (mbxEarly s p m 0x0003 16 → par c 12 4 = 0 → (par c 0 8) % 64 = 0 → (∃ i, i ≤ 10 ∧ par c 8 4 = 64 * 2 ^ i) →
      exec (.evqSetup p m) s = .next (mbxComplete p m mOk 0 [] (modPort p (fun x => { x with evq := { x.evq with
        addr := par c 0 8, count := par c 8 4, pi := 0, ci := 0, phase := true, lost := false } }) r)))
    ∧ (mbxEarly s p m 0x0011 4 → par c 0 4 = 0x44525354 → ∃ t, exec (.deviceReset p m) s = .next t ∧ t.bru = { s.bru with ready := false, drst := true }
        ∧ t = { s with bru := t.bru, ports := t.ports, mod := t.mod } ∧ ∀ q k, (mbxAt t q k).state = 0)
    ∧ (mbxGood s p m 0x0302 4 .device → par c 2 2 ≤ 4094 → anyJob s = false → (∀ q, q < 32 → (shtAt s q).peer.hello = false) → s.time.master = false →
      let r := { r with fab := { s.fab with id := Tri.of (par c 0 2 * 2 ^ 16 + 2 ^ 15 + par c 2 2), conflict := false } }
      ((∀ q, q < 32 → (shtAt s q).peer.at_ = none) → exec (.setFabricId p m) s = .next (mbxComplete p m mOk 0 [] r))
      ∧ ∃ t, exec (.setFabricId p m) s = .next t ∧ t = { r with ports := t.ports, sht := t.sht } ∧ (mbxAt t p m).state = 3 ∧ (mbxAt t p m).status = mOk
        ∧ ∀ q u, q < 32 → (shtAt s q).peer.at_ = some u → let y := (shtAt s q).peer
          (shtAt t q).peer = { y with hello := !peerMismatch r y && y.ack && decide (s.up < u + 240000), mismatch := peerMismatch r y })
    ∧ (∀ a, mbxGood s p m 0x0010 0 .both → hdrFlags c % 4 = 1 → wArea (hdrArea c) = a → areaNamed s c = true →
      let b := toPick ((s.now + 7) / 8) r
      storesWf b → areaList b = [a] → (areaAt b a).job.steps = [] → b.bulk = [] → b.remote = [] → (areaAt b a).load = none → (areaAt b a).skim.state ≠ 2 →
      (mbxAt b p m).state = 2 → (mbxAt b p m).cmd = c →
      ∃ t, exec (.abort p m) s = .next t ∧ t.now = b.now ∧ (areaAt t a).job.state = jEnded ∧ (areaAt t a).job.committed = (areaAt b a).job.committed ∧ (areaAt t a).halted = false
        ∧ (areaAt t a).defined = true ∧ (mbxAt t p m).state = 3 ∧ (mbxAt t p m).status = mOk ∧ bytesAt (mbxAt t p m).rsp 32 8 = leBytes 8 b.pick
        ∧ bit (portAt t p).abortDone a = true ∧ 10 ∈ (portAt t p).msix
        ∧ (∀ n, wHasSite (areaAt b a).word n = false → mmAt t n = mmAt b n ∧ mxAt t n = mxAt b n ∧ sfAt t n = sfAt b n))
    ∧ (∀ a, (portAt s 0).abortBusy = true → (portAt s 0).abortAt + 10 * milli = s.up → (portAt s 0).abortReq = 2 ^ a → a < 16 → postedAborts s 0 = [] →
      (portAt s 1).abortReq = 0 → postedAborts s 1 = [] →
      let b := toPick ((s.now + 7) / 8) s
      storesWf b → areaList b = [a] → (areaAt b a).job.steps = [] → b.bulk = [] → b.remote = [] → (areaAt b a).load = none → (areaAt b a).skim.state ≠ 2 →
      ∃ t, exec .abortHwTimeout s = .next t ∧ (areaAt t a).job.state = jEnded ∧ (portAt t 0).abortHw = true ∧ (portAt t 0).abortBusy = false
        ∧ bit (portAt t 0).abortDone a = true ∧ counted t 0x1904 0 = counted b 0x1904 0 + 1)

/-- R24, R25, R344, R351, R352: an area command whose conditions hold defines, changes, removes, clears or takes the area; one that R24 or R25 refuses
changes nothing. Where the manual leaves a choice or a reading, the model’s is that of log 18, 45. -/
def Obligations.AreaCommandsComplete : Prop :=
  ∀ (p m : Nat) (s : State),
    let r := mbxTaken p m s
    let c := (mbxAt s p m).cmd
    let w := hdrArea c
    let a := wArea w
    let x := areaAt s a
    (mbxGood s p m 0x0100 0 .area →
      ((areaList s).length < 16 → areaRefusal s w 16 = mOk → x.defined = false → exec (.areaCreate p m) s = .next (mbxComplete p m mOk 0 []
        (modArea a (fun x => { Area.reset with defined := true, word := w, owner := Tri.of p, skim := x.skim }) r)))
      ∧ ((areaList s).length < 16 → areaRefusal s w 16 ≠ mOk → x.defined = false → exec (.areaCreate p m) s = .next (mbxComplete p m (areaRefusal s w 16) 0 [] r))
      ∧ (areaRefusal s w 16 = mOk → 16 ≤ (areaList s).length → exec (.areaCreate p m) s = .next (mbxComplete p m mAreaLimit 0 [] r))
      ∧ (areaRefusal s w 16 = mOk → (areaList s).length < 16 → x.defined = true → exec (.areaCreate p m) s = .next (mbxComplete p m mBadParam 0 [] r)))
    ∧ (mbxGood s p m 0x0101 0 .area → x.defined = true → x.owner.val = p → hasJob s a = false → areaBusy s a = false → x.load = none →
      (areaRefusal s w a = mOk → exec (.areaChange p m) s = .next (mbxComplete p m mOk 0 [] (modArea a (fun y => { y with
        word := w, drafts := [], bank := 0, complete := 0, swapOpen := false, load := none, job := default, halted := false, applyAt := [] }) (dropRecords a r))))
      ∧ (areaRefusal s w a ≠ mOk → exec (.areaChange p m) s = .next (mbxComplete p m (areaRefusal s w a) 0 [] r)))
    ∧ (areaGood s p m 0x0102 0 → areaBusy s a = false → x.load = none →
      (hasJob s a = false → exec (.areaRemove p m) s = .next (mbxComplete p m mOk 0 [] (modArea a (fun y => { Area.reset with skim := y.skim }) (dropRecords a r))))
      ∧ (hasJob s a = true → exec (.areaRemove p m) s = .next (mbxComplete p m mAreaBusy 0 [] r)))
    ∧ (storesWf s → areaGood s p m 0x0103 0 → x.job.state = jHalted → x.load = none → x.skim.state ≠ 2 →
      ∃ t, exec (.areaClear p m) s = .next t ∧ (areaAt t a).job.state = jEnded ∧ (areaAt t a).halted = false ∧ (areaAt t a).defined = true ∧ (areaAt t a).word = x.word
        ∧ (∀ b, b ≠ a → areaAt t b = areaAt s b) ∧ (mbxAt t p m).state = 3 ∧ (mbxAt t p m).status = mOk ∧ t.now = s.now
        ∧ ∀ n, wHasSite x.word n = false → mmAt t n = mmAt s n ∧ mxAt t n = mxAt s n ∧ sfAt t n = sfAt s n ∧ suAt t n = suAt s n)
    ∧ (mbxGood s p m 0x0104 0 .area → areaNamed s c = true → x.owner.val < 2 → (portAt s x.owner.val).up = false → (portAt s x.owner.val).downAt + second ≤ s.up →
      exec (.areaTake p m) s = .next (mbxComplete p m mOk 0 [] (modArea a (fun y => { y with owner := Tri.of p }) r)))

/-- R311, R313, R345-R347: bulk commands move a whole buffer between the host and user memory or a site's SRAM, or queue a creel's operations at the edge;
remote commands send their requests, or answer NO_ROUTE; a DMA return grants, recalls and completes the read it ends. Where the manual leaves a choice
or a reading, the model’s is that of log 14, 18, 64, 75. -/
def Obligations.TransfersComplete : Prop :=
  ∀ (p m : Nat) (s : State),
    let r := mbxTaken p m s
    let c := (mbxAt s p m).cmd
    let b := bulkPar c
    let l := scatterList s p b.list b.len
    let named := ∀ a, b.area = some a → areaNamed s c = true ∧ (areaAt s a).owner.val = p
    (named → par c 13 3 = 0 → par c 24 8 = 0 → l.2 = true →
      (mbxGood s p m 0x0200 32 .both → bulkRefusal s true b = mOk →
        let data := gatherHost (portAt s p).mem l.1
        (b.kind = 0 → exec (.bulkWrite p m none) s = .next (mbxComplete p m mOk 0 [] (elasticWrite b.target data r)))
        ∧ (b.kind = 4 → exec (.bulkWrite p m none) s = .next (mbxComplete p m mOk 0 [] (sramWrites (btSite b.target) (btSub b.target)
            ((data.length + sramRowSize (btSite b.target) - 1) / sramRowSize (btSite b.target)) (btRow b.target) data r)))
        ∧ (b.kind = 1 → ∃ t, exec (.bulkWrite p m none) s = .next t ∧ (mbxAt t p m).state = 2 ∧ t.bulk.length = s.bulk.length + 1 ∧ t.nextJob = s.nextJob + 1
            ∧ (mmAt t (btSite b.target)).edgeq.length = (mmAt s (btSite b.target)).edgeq.length
                + data.length / (16 * crPadv (creelAt (mmAt s (btSite b.target)) (btCreel b.target)).desc)))
      ∧ (mbxGood s p m 0x0201 32 .both → bulkRefusal s false b = mOk →
        (∀ bytes, b.kind = 0 → elasticRead b.target (chunkLen l.1) true r = (bytes, 0, r) →
          exec (.bulkRead p m none) s = .next (mbxComplete p m mOk 0 [] (modPort p (fun x => { x with mem := scatterHost x.mem 0 bytes l.1 }) r)))
        ∧ ((b.kind = 2 ∨ b.kind = 3) → bulkState s b.area = 1 → ∃ t, exec (.bulkRead p m none) s = .next t ∧ (mbxAt t p m).state = 2
            ∧ t.bulk.length = s.bulk.length + 1 ∧ (mmAt t (btSite b.target)).edgeq.length = (mmAt s (btSite b.target)).edgeq.length + b.len / 64)))
    ∧ (let dev := par c 0 2
      let len := par c 4 4
      let dpa := par c 8 8
      let rl := scatterList s p (par c 16 8) len
      par c 2 2 = 0 → dev ≤ 4094 → len % 4 = 0 → len ≠ 0 → dpa % 4096 + len ≤ 4096 → dpa + len ≤ 2 ^ 64 → rl.2 = true → s.fab.rmas = [] → s.remote = [] → s.fab.nextTag < 32768 →
      (∀ w, (w = false ∧ mbxGood s p m 0x0300 24 .device) ∨ (w = true ∧ mbxGood s p m 0x0301 24 .device) →
        let data := if w then gatherHost (portAt s p).mem rl.1 else []
        let o := exec (if w then .remoteWrite p m else .remoteRead p m) s
        (rtValid (rtAt s dev) = false → ∃ t, o = .next t ∧ (mbxAt t p m).state = 3 ∧ (mbxAt t p m).status = mNoRoute ∧ t.stks = s.stks ∧ t.remote = [])
        ∧ (rtValid (rtAt s dev) = true → 2 ≤ (shtAt s (rtPort (rtAt s dev))).state → ∃ t q, o = .next t ∧ (mbxAt t p m).state = 2 ∧ t.remote.length = 1
            ∧ t.fab.rmas = [q] ∧ q.tag = s.fab.nextTag ∧ q.dpa = dpa ∧ q.len = len ∧ q.write = w ∧ q.answer = none ∧ q.sentAt = some s.up ∧ t.fab.nextTag = (s.fab.nextTag + 1) % 32768
            ∧ (shtAt t (rtPort (rtAt s dev))).txq = (shtAt s (rtPort (rtAt s dev))).txq ++
                [mkFrame (if w then 0x21 else 0x20) 1 dev (ownSrc s) 31 (leBytes 8 dpa ++ leBytes 4 len ++ leBytes 4 s.fab.nextTag ++ data.take len)])))
    ∧ (∀ n k k2 f e, sitePresent s.member n = true → kindOf n = .mm → (mmAt s n).lane = some (k, k2) → ((attAt s k).inE.find? fun e => e.flit == f) = some e →
      let h := flitHdr f
      let g := { s with att := (modAtt k (fun q => { q with inE := q.inE.erase e }) s).att
                        mm := (modMm n (fun x => { x with credits := alter 0 x.credits (bits h 31 28) (· + bits h 47 32), recalled := x.recalled ||| bits h 51 48 }) s).mm }
      (bits h 1 0 = 0 → exec (.dmaReturnArrival n f) s = .next g)
      ∧ (∀ j, bits h 1 0 = 1 → s.bulk = [j] → j.kind = 2 → j.site = n → j.creel = bits h 5 2 → j.left = 1 → j.status = 0 → j.sours = 0 → f.sour.toNat % 16 = 0 →
          (mbxAt s j.port j.m).state = 2 →
          exec (.dmaReturnArrival n f) s = .next (mbxComplete j.port j.m mOk 0 [] { (toHost j.port j.dests (64 * (j.total - 1)) (leBytes 64 f.data.toNat) g) with bulk := [] })))

/-- R204, R343, R344, R439, R460: JOB_START begins a loaded job with its counters at 0, or answers why not; at its pick every SU of the area in service
begins at word 0 of bank 0; JOB_STATUS answers the job; RESTORE with OP 1 names the resume pick. Where the manual leaves a choice or a reading, the
model’s is that of log 37. -/
def Obligations.JobsBeginAndReport : Prop :=
  ∀ (p m : Nat) (s : State),
    let r := mbxTaken p m s
    let c := (mbxAt s p m).cmd
    let a := wArea (hdrArea c)
    let x := areaAt s a
    (areaGood s p m 0x0111 12 →
      let P := par c 0 8
      let fl := par c 8 4
      (fl < 2 → x.job.state ≠ jLoaded → exec (.jobStart p m) s = .next (mbxComplete p m mNoDraft 0 [] r))
      ∧ (fl < 2 → x.job.state = jLoaded → P < s.pick + 1000 → exec (.jobStart p m) s = .next (mbxComplete p m mStartLate 0 [] r))
      ∧ (fl = 1 → x.job.state = jLoaded → s.pick + 1000 ≤ P → bit (draftOf s a).flags 1 = false → exec (.jobStart p m) s = .next (mbxComplete p m mNoExpect 0 [] r))
      ∧ (fl < 2 → x.job.state = jLoaded → s.pick + 1000 ≤ P → (fl = 1 → bit (draftOf s a).flags 1 = true) →
        ∃ t, exec (.jobStart p m) s = .next t ∧ (mbxAt t p m).state = 3 ∧ (mbxAt t p m).status = mOk ∧ t.now = s.now
          ∧ (areaAt t a).job = { (default : Job) with state := jRunning, p := P, exact := decide (fl = 1), ras := 1, haltSeq := x.job.haltSeq }
          ∧ (aregAt t a).energy = 0 ∧ (aregAt t a).fbrec = 0 ∧ (aregAt t a).fbdrop = 0 ∧ (aregAt t a).resend = 0 ∧ (aregAt t a).verified = 0
          ∧ (∀ n, wHasSite x.word n = true → (mxAt t n).skip.total = (0, 0, 0))
          ∧ (∀ b, b ≠ a → areaAt t b = areaAt s b ∧ aregAt t b = aregAt s b) ∧ t.su = s.su ∧ t.sf = s.sf ∧ t.mm = s.mm ∧ t.sw = s.sw ∧ t.stks = s.stks))
    ∧ (mbxGood s p m 0x0112 0 .area → areaNamed s c = true → exec (.jobStatus p m) s = .next (mbxComplete p m mOk 0
        (leBytes 1 x.job.state ++ leBytes 7 0 ++ leBytes 8 (match x.job.committed with | some k => k | none => 2 ^ 64 - 1)
          ++ leBytes 8 (draftOf s a).id ++ leBytes 8 x.job.haltSeq) r))
    ∧ (areaGood s p m 0x0604 16 → par c 0 1 = 1 → par c 1 7 = 0 →
      (x.job.ras = 3 → s.pick + 1000 ≤ par c 8 8 → exec (.restoreResume p m) s = .next (mbxComplete p m mOk 0 []
        (modArea a (fun y => { y with job := { y.job with resumeP := some (par c 8 8) } }) r)))
      ∧ (x.job.ras = 3 → par c 8 8 < s.pick + 1000 → exec (.restoreResume p m) s = .next (mbxComplete p m mStartLate 0 [] r))
      ∧ (x.job.ras ≠ 3 → exec (.restoreResume p m) s = .next (mbxComplete p m mAreaBusy 0 [] r)))
    ∧ (∀ b, b < 16 → (areaAt s b).job.state = jRunning → (areaAt s b).job.nextK = 0 → (areaAt s b).job.committed = none → areaSus s b = [] →
      let g := toPick (areaAt s b).job.p s
      let w := (areaAt g b).word
      ∃ t, exec (.jobStartPick b) s = .next t ∧ t.now = g.now
        ∧ (∀ n ∈ serviceSus g b, (suAt t n).seq.running = true ∧ (suAt t n).seq.bank = 0 ∧ (suAt t n).seq.pc = 0 ∧ (suAt t n).seq.next = g.now ∧ (suAt t n).seq.loops = []
            ∧ (suAt t n).tOff = 0 ∧ (suAt t n).tAc = 0 ∧ (suAt t n).timers = [] ∧ (suAt t n).join = none ∧ (suAt t n).prog = (suAt g n).prog)
        ∧ (∀ n, n ∉ serviceSus g b → suAt t n = suAt g n)
        ∧ (∀ n q, q < 5 → wHasSite w n = true → (look default (swAt t n).outp q).page = 0 ∧ (mmAt t n).page = 0)
        ∧ (storesWf g → ∀ n, wHasSite w n = false → swAt t n = swAt g n ∧ mmAt t n = mmAt g n)
        ∧ t = { g with su := t.su, sw := t.sw, mm := t.mm })

/-- R31, R38, R57, R125, R213, R236: the next step starts at its agreed pick, one of at most two uncommitted, never under the clamp: its units save what a
failed run restores. At the end pick each SU that has joined selects its barrier page, and commit creels record TAIL. Where the manual leaves a choice
or a reading, the model’s is that of log 38. -/
def Obligations.StepsStartAndEnd : Prop :=
  ∀ (a : Nat) (s : State), a < 16 →
    let j := (areaAt s a).job
    (∀ S, knownStart s a = some S →
      (¬ (j.state = jRunning ∧ j.steps.length < 2 ∧ s.pwr.clamp = none) → exec (.stepStart a) s = .next s)
      ∧ (let r := toPick S s
        let k := j.nextK
        let w := (areaAt r a).word
        j.state = jRunning → j.steps.length < 2 → s.pwr.clamp = none → jobRuns r a = true →
        ∃ t, exec (.stepStart a) s = .next t ∧ t.now = r.now ∧ (areaAt t a).job.nextK = k + 1 ∧ (areaAt t a).job.state = jRunning ∧ (areaAt t a).job.ras = 1
          ∧ (areaAt t a).job.steps = (areaAt r a).job.steps ++ [{ (default : Step) with k := k, s := S, len := joinLen r a k, v := (draftOf t a).commitV, bank := (areaAt t a).bank }]
          ∧ (∀ n, wHasSite w n = true → (suAt t n).status = 0 ∧ (swAt t n).exc = [] ∧ (mmAt t n).sp.acc = [] ∧ (mxAt t n).busy = [])
          ∧ (∀ n i, wHasSite w n = true → creelAt (mmAt r n) i ≠ default → ∃ l, creelAt (mmAt t n) i =
              { creelAt (mmAt r n) i with saved := l ++ [(k, (creelAt (mmAt r n) i).desc, (creelAt (mmAt r n) i).head, (creelAt (mmAt r n) i).tail)] })))
    ∧ (∀ st, curStep s a = some st → st.ended = false → st.len ≠ 0 → j.state = jRunning →
      let r := toPick (st.s + st.len) s
      jobRuns r a = true → storesWf r → ∃ t, exec (.stepEndPick a) s = .next t ∧ t.now = r.now
        ∧ (∃ st', curStep t a = some st' ∧ st'.ended = true ∧ st'.k = st.k ∧ st'.s = st.s ∧ st'.len = st.len ∧ st'.v = st.v)
        ∧ (∀ n ∈ areaSus r a, (suAt t n).goMask = 0 ∧ ∀ q, (suAt r n).join = some q → (suAt t n).barrier = some q.bpg)
        ∧ ((areaAt r a).swapOpen = false → ∀ n i, wHasSite (areaAt r a).word n = true → crMode (creelAt (mmAt r n) i).desc = 3 →
            (creelAt (mmAt t n) i).eTail.find? (fun x => x.1 == st.k) = some (st.k, (creelAt (mmAt r n) i).tail)))
    ∧ (curStep s a = none → exec (.stepEndPick a) s = .next s)

/-- R34-R37, R126, R434, R436-R439, R442: at its commit pick the oldest step commits, where every SU holds a decision without a status bit; a first
failure runs it again, a second takes the area to remapping, a fourth such cycle and stored sour data end the job, and a step the clamp broke runs
again without being counted. Where the manual leaves a choice or a reading, the model’s is that of log 36, 38. -/
def Obligations.StepsCommitOrFail : Prop :=
  ∀ (a : Nat) (s : State) (st0 : Step), a < 16 → (areaAt s a).job.state = jRunning → (areaAt s a).job.steps.head? = some st0 → st0.len ≠ 0 → st0.ended = true →
    let r := toPick (st0.s + st0.len + st0.v) s
    let x := areaAt r a
    let w := x.word
    ∀ st rest, x.job.steps = st :: rest → jobRuns r a = true →
      (stepOk r a st = true → ∃ t, exec (.stepCommit a) s = .next t ∧ t.now = r.now ∧ (areaAt t a).job.committed = some st.k
        ∧ (let d := look default x.drafts st.bank
          if st.k + 1 = d.first + d.steps ∧ x.swapOpen = false then (areaAt t a).job.state = jEnded ∧ (areaAt t a).job.steps = []
          else (areaAt t a).job.state = jRunning ∧ (areaAt t a).job.steps = rest ∧ (areaAt t a).job.run = (if rest = [] then 0 else 1) ∧ (areaAt t a).job.cycle = 0)
        ∧ (storesWf r → ∀ n i tl, wHasSite w n = true → TabWf default (mmAt r n).creels = true →
            (creelAt (mmAt r n) i).eTail.find? (fun y => y.1 == st.k) = some (st.k, tl) → (creelAt (mmAt t n) i).ctail = tl))
      ∧ (stepOk r a st = false →
        let sour := (st.status / 2) % 2 = 1 ∧ st.origin = false
        (sour → ∃ t, exec (.stepCommit a) s = .next t ∧ (areaAt t a).job.state = jEnded ∧ (areaAt t a).job.committed = x.job.committed)
        ∧ (¬ sour → (st.clamp = true ∧ st.second = false) ∨ (st.clamp = false ∧ st.second = false ∧ x.job.run < 2) →
          ∃ t, exec (.stepCommit a) s = .next t ∧ (areaAt t a).job.nextK = st.k ∧ (areaAt t a).job.state = jRunning ∧ (areaAt t a).job.committed = x.job.committed
            ∧ (areaAt t a).job.steps = x.job.steps.filter (fun y => decide (y.k < st.k)) ∧ (areaAt t a).bank = st.bank
            ∧ (areaAt t a).replays = (if st.clamp = true then x.replays else satAdd 0xFFFF x.replays 1)
            ∧ (areaAt t a).job.run = (if st.clamp = true then x.job.run else 2)
            ∧ (∀ n pc loops bank jw, wHasSite w n = true → (suAt r n).seq.running = true → (suAt r n).savedJoin.find? (fun y => y.1 == st.k) = some (st.k, pc, loops, bank, jw) →
                (suAt t n).seq.pc = pc ∧ (suAt t n).seq.bank = bank ∧ (suAt t n).seq.loops = loops ∧ (suAt t n).inStep = st.k
                ∧ (suAt t n).join = some (joinOf jw r.pick st.k (some r.pick))))
        ∧ (¬ sour → (st.second = true ∨ (2 ≤ x.job.run ∧ st.clamp = false)) →
          (x.job.cycle < 3 → ∃ t, exec (.stepCommit a) s = .next t ∧ (areaAt t a).job.ras = 2 ∧ (areaAt t a).job.nextK = st.k ∧ (areaAt t a).job.run = 0
            ∧ (areaAt t a).job.cycle = x.job.cycle + 1 ∧ (areaAt t a).remaps = satAdd 0xFFFF x.remaps 1 ∧ (areaAt t a).job.remapAt = r.up
            ∧ (∀ n, wHasSite w n = true → (suAt t n).join = none
                ∧ (∀ pc loops bank jw, (suAt r n).savedJoin.find? (fun y => y.1 == st.k) = some (st.k, pc, loops, bank, jw) →
                    (suAt t n).timers = [(8 * (r.pick + 1), .barrier (joinOf jw r.pick st.k none).bpg)])
                ∧ ((suAt r n).savedJoin.find? (fun y => y.1 == st.k) = none → (suAt t n).timers = [])))
          ∧ (3 ≤ x.job.cycle → ∃ t, exec (.stepCommit a) s = .next t ∧ (areaAt t a).job.state = jEnded)))

/-- R214, R215, R428, R437-R439: after E_k an SU folds its heddle's counts, and in exact mode a digest other than EXPECT's halts the area, with a record
of every count that differs; remapping returns an area to service, or ends its job where no spare covers a unit; at the resume pick every SU rejoins
the barrier of the failed step. Where the manual leaves a choice or a reading, the model’s is that of log 16, 38, 69. -/
def Obligations.DigestsRemapsAndResumes : Prop :=
  ∀ (s : State), storesWf s →
    (∀ n a st, sitePresent s.member n = true → kindOf n = .su → areaOfSite s n = some a → curStep s a = some st → st.ended = true →
      let h := heddleOf n
      let d := exactDigest h (heddleCounts s h)
      let g := modSu n (fun u => { u with digest := d }) s
      let counts := Config.expectOf ((reportSection (draftOf s a).recs 3).getD []) h ((stepClass s a st.k).getD 0)
      let want := exactDigest h counts
      let l := differing counts (heddleCounts s h)
      ((areaAt s a).job.exact = false ∨ want = d → exec (.exactDigest n) s = .next g)
      ∧ ((areaAt s a).job.exact = true → want ≠ d → (areaAt s a).job.state = jRunning →
        ∃ t, exec (.exactDigest n) s = .next t ∧ (suAt t n).digest = d ∧ (areaAt t a).job.state = jHalted 
          ∧ (∀ i want got, (i, want, got) ∈ l ↔ i < (heddleCounts s h).length ∧ want = counts.getD i 0 ∧ got = (heddleCounts s h).getD i 0 ∧ want ≠ got)
          ∧ ∀ x r, l = x :: r → t = each r (fun x => writeRecord 0x4C11 (exactReport g n ((stepClass s a st.k).getD 0) x))
              (report 0x4C11 (exactReport g n ((stepClass s a st.k).getD 0) x) g)))
    ∧ (∀ a o, a < 16 → (areaAt s a).job.state = jRunning → (areaAt s a).job.ras = 2 →
      let j := (areaAt s a).job
      let named := mergeUnits j.named1 j.named2
      let back := fun (t : State) (p : Nat) => if spansDevices s a j.nextK = true then (areaAt t a).job.ras = 3 ∧ (areaAt t a).job.resumeP = none
        else (areaAt t a).job.ras = 1 ∧ (areaAt t a).job.resumeP = some (p + 1000)
      ((∀ u ∈ named, o.failed.contains u = false ∧ (j.named1.contains u && j.named2.contains u) = false) →
        s.ras.watch.length + named.length ≤ 1024 → ∃ t, exec (.remap a o) s = .next t ∧ back t s.pick ∧ t.fence = s.fence ∧ (areaAt t a).job.named1 = [] ∧ (areaAt t a).job.named2 = []
          ∧ t.now = s.now ∧ ∀ u ∈ named, ∃ e ∈ t.ras.watch, e.u = u)
      ∧ (∀ n, named = [.site n] → sitePresent s.member n = true → o.failed = [.site n] → ((draftOf s a).recs.find? fun r => r.type == 0x11) = none → ∃ t, exec (.remap a o) s = .next t ∧ (areaAt t a).job.state = jEnded
          ∧ counted t 0x8C05 hubIdx = counted s 0x8C05 hubIdx + 1 ∧ bit (look 0 t.fence.sites n) 15 = true ∧ look 0 t.fence.sites n % 256 = 0x21)
      ∧ (j.remapAt + 90 * second = s.up → ∃ t, exec (.remapTimeout a) s = .next t ∧ back t s.pick ∧ t.fence = s.fence))
    ∧ (∀ a P, a < 16 → (areaAt s a).job.state = jRunning → (areaAt s a).job.resumeP = some P →
      let k := (areaAt s a).job.nextK
      ∃ t, exec (.jobResume a) s = .next t ∧ (areaAt t a).job.resumeP = none ∧ (areaAt t a).job.ras = 1 ∧ t.now = max s.now (8 * P)
        ∧ ∀ n pc loops bank jw, areaOfSite s n = some a → wHasSite (areaAt s a).word n = true → siteFenced s n = false → (suAt s n).seq.running = true →
          (suAt s n).savedJoin.find? (fun y => y.1 == k) = some (k, pc, loops, bank, jw) →
          let q := joinOf jw P k (some P)
          (suAt t n).join = some q ∧ (suAt t n).barrier = some q.bpg ∧ (suAt t n).seq.pc = pc ∧ (suAt t n).seq.bank = bank ∧ (suAt t n).timers = [])

/-- R383, R389, R396, R402: a regulator sample fills the readings, adds its energy and moves the estimate by E + P - E/64; a 10 µs mean beyond the limit
enters the clamp. R384: ten comparisons out of band raise PWR_SENSE_MISMATCH, ten in band end it. R397: the clamp ends at a 1 ms boundary below the
cap, each holdoff then at least 256. Where the manual leaves a choice or a reading, the model’s is that of log 48, 60, 62. -/
def Obligations.PowerIsMeasuredAndClamped : Prop :=
  ∀ (s : State),
    (∀ o : PowerSample, ∃ t, exec (.regulatorSample o) s = .next t ∧ t.now = s.now
      ∧ t.pwr = { s.pwr with volta := o.voltA, voltb := o.voltB, inSeen := true, power := o.mean1ms, mean1us := o.mean1us, mean10us := o.mean10us, mean100us := o.mean100us
                             mean1ms := o.mean1ms, idle := t.pwr.idle, clamp := t.pwr.clamp }
      ∧ (let due := (feedsPresent s = 1 ∧ 12000 < o.mean10us) ∨ (feedsPresent s = 2 ∧ 50 * s.pwr.pmax.val + 1000 < o.mean10us)
        (s.pwr.clamp = none → due → t.pwr.clamp = some s.up ∧ t.mod.faultN = false) ∧ (¬ due → t.pwr.clamp = s.pwr.clamp))
      ∧ ∀ q v i w, o.regions = [(q, v, i, w)] → q < numRegions s.member →
        (regionAt t q).vout = v ∧ (regionAt t q).iout = i ∧ (regionAt t q).power = w ∧ (∀ k, k ≠ q → regionAt t k = regionAt s k)
        ∧ (∀ k, phaseOf s q = some k → look 0 (regionAt t q).est k = look 0 (regionAt s q).est k + w - look 0 (regionAt s q).est k / 64)
        ∧ (∀ b, areaOfRegion s q = some b → (aregAt t b).energy = ((aregAt s b).energy + w) % (10 * 2 ^ 64))
        ∧ (areaOfRegion s q = none → t.pwr.idle = (s.pwr.idle + w) % (10 * 2 ^ 64)))
    ∧ (s.pwr.clamp = none → exec .clampEnd s = .next s)
    ∧ (∀ t0, s.pwr.clamp = some t0 →
      (50 * effInForce s < s.pwr.mean100us → exec .clampEnd s = .next s)
      ∧ (let r := runTo (msBoundary (s.now + (t0 + milli - s.up))) s
        s.pwr.mean100us ≤ 50 * effInForce s → ∃ t, exec .clampEnd s = .next t ∧ t.now = r.now ∧ t.pwr = { s.pwr with clamp := none }
          ∧ ∀ a ∈ areaList r, jobRuns r a = true → (aregAt t a).hold = max 256 (aregAt r a).hold))
    ∧ (∀ shared, let p := s.pwr.mean1ms
      let sum := railSum s shared
      let out := 6 * p + 20000 < 100 * (max p sum - min p sum)
      (out → 9 ≤ s.pwr.outBand → s.pwr.mismatch = false → ∃ t, exec (.senseCompare shared) s = .next t ∧ t.pwr.mismatch = true ∧ t.pwr.outBand = 10 ∧ t.pwr.inBand = 0
        ∧ counted t 0x1A07 hubIdx = counted s 0x1A07 hubIdx + 1)
      ∧ (¬ out → 9 ≤ s.pwr.inBand → exec (.senseCompare shared) s = .next { s with pwr := { s.pwr with shared := shared, outBand := 0, inBand := 10, mismatch := false } })
      ∧ (out → s.pwr.outBand < 9 → exec (.senseCompare shared) s = .next { s with pwr := { s.pwr with shared := shared, outBand := s.pwr.outBand + 1, inBand := 0 } })
      ∧ (¬ out → s.pwr.inBand < 9 → exec (.senseCompare shared) s = .next { s with pwr := { s.pwr with shared := shared, outBand := 0, inBand := s.pwr.inBand + 1 } }))

/-- R381, R385, R396-R398, R410: a lost feed takes its presence and lowers an XW8's effective cap to 11,000 W until 1 s after both are back; PWR_SET_CAP
puts a cap within the limits into the shadow; RACK_BUDGET joins a power group at FLOOR, or leaves it; PWR_STATUS answers the readings. Where the
manual leaves a choice or a reading, the model’s is that of log 56, 63. -/
def Obligations.FeedsCapsAndBudgets : Prop :=
  (∀ (f : Nat) (s : State), f < 2 →
    (feedPresent s f = true → ∃ t, exec (.feedLoss f) s = .next t ∧ feedPresent t f = false ∧ feedPresent t (1 - f) = feedPresent s (1 - f) ∧ t.pwr.oneFeed = true ∧ t.pwr.backAt = none
      ∧ t.pwr.effDue = some (s.pick + 1, effCap t) ∧ effInForce t = effInForce s ∧ (s.member = 8 → effCap t ≤ 220)
      ∧ (∀ u : State, u.pwr = t.pwr → s.pick < u.pick → effInForce u = effCap t) ∧ counted t 0x1A04 hubIdx = counted s 0x1A04 hubIdx + 1
      ∧ (feedPresent s (1 - f) = true → 50 * effCap t < s.pwr.mean1us → t.pwr.clamp.isSome = true))
    ∧ (feedPresent s f = false → exec (.feedLoss f) s = .next s ∧ ∃ t, exec (.feedReturn f) s = .next t ∧ feedPresent t f = true ∧ feedPresent t (1 - f) = feedPresent s (1 - f)
      ∧ t.pwr.backAt = (if feedPresent s (1 - f) = true then some s.up else none) ∧ t.pwr.oneFeed = s.pwr.oneFeed ∧ counted t 0x1A05 hubIdx = counted s 0x1A05 hubIdx + 1)
    ∧ (∀ t0, s.pwr.backAt = some t0 → s.pwr.oneFeed = true →
      let r := runTo (s.now + (t0 + second - s.up)) s
      ∃ t, exec .oneFeedLimitLift s = .next t ∧ t = { r with pwr := t.pwr } ∧ t.pwr = { s.pwr with oneFeed := false, backAt := none, eff := effInForce r, effDue := some (r.pick + 1, effCap t) }))
  ∧ (∀ (p m : Nat) (s : State),
    let r := mbxTaken p m s
    let c := (mbxAt s p m).cmd
    (mbxGood s p m 0x0400 8 .device → par c 2 6 = 0 → par c 0 2 ≤ 511 →
      let v := par c 0 2
      let b := shadowDue 4 r
      (b.pwr.pmin.val ≤ v ∧ v ≤ b.pwr.pmax.val → exec (.pwrSetCap p m) s = .next (mbxComplete p m mOk 0 (leBytes 2 b.pwr.cap.val ++ leBytes 2 v ++ leBytes 4 0)
        { b with pwr := { b.pwr with shadowCap := some v }, mod := { b.mod with shadowAt := put 0 b.mod.shadowAt 4 b.pick } }))
      ∧ (v < b.pwr.pmin.val ∨ b.pwr.pmax.val < v → exec (.pwrSetCap p m) s = .next (mbxComplete p m mBadParam 0 [] b)))
    ∧ (mbxGood s p m 0x0401 0 .device → ∃ t, exec (.pwrStatus p m) s = .next t ∧ (mbxAt t p m).state = 3 ∧ (mbxAt t p m).status = mOk ∧ leNat (bytesAt (mbxAt t p m).rsp 6 2) = 408
      ∧ bytesAt (mbxAt t p m).rsp 32 12 = leBytes 8 (pwrIn s) ++ leBytes 4 (pwrEff s) ∧ onlyPort p r t
      ∧ (∀ q, q < 64 → bytesAt (mbxAt t p m).rsp (48 + 2 * q) 2 = leBytes 2 (min 0xFFFF (regionAt s q).power1ms) ∧ bytesAt (mbxAt t p m).rsp (176 + 2 * q) 2 = leBytes 2 (field 16 (regionAt s q).tmax))
      ∧ (∀ a, a < 16 → bytesAt (mbxAt t p m).rsp (304 + 8 * a) 8 = leBytes 8 ((aregAt s a).energy / 10)) ∧ bytesAt (mbxAt t p m).rsp 432 8 = leBytes 8 (s.pwr.idle / 10))
    ∧ (let n := par c 4 1
      let i := par c 5 1
      let floor := par c 2 2
      mbxGood s p m 0x0402 (8 + 2 * n) .device → par c 6 2 = 0 →
      (par c 0 2 = 0 → n ≤ 32 → ∃ t, exec (.rackBudget p m) s = .next t ∧ t.pwr.grp = none ∧ t.pwr.effDue = some (s.pick + 1, effCap t) ∧ (mbxAt t p m).state = 3 ∧ (mbxAt t p m).status = mOk)
      ∧ (par c 0 2 ≠ 0 → 1 ≤ n → n ≤ 32 → n * floor ≤ par c 0 2 → s.pwr.pmin.val ≤ floor → i < n → par c (8 + 2 * i) 2 = s.mod.rackPos →
        ∃ t g, exec (.rackBudget p m) s = .next t ∧ t.pwr.grp = some g ∧ g.budget = par c 0 2 ∧ g.floor = floor ∧ g.n = n ∧ g.index = i ∧ g.assign = floor
          ∧ (∀ k, k < n → g.list.getD k 0 = par c (8 + 2 * k) 2) ∧ t.pwr.effDue = some (s.pick + 1, effCap t) ∧ (mbxAt t p m).state = 3 ∧ (mbxAt t p m).status = mOk)))

/-- R387-R393, R402: budgets rise while the predicted power exceeds the cap and fall when it lies 400 W below it; the holdoff is doubled, halved or kept;
a rail's energy is divided by traffic; a droop stops its region's arrays, and its MACs are charged the ACLKs they lost. Where the manual leaves a
choice or a reading, the model’s is that of log 61, 62. -/
def Obligations.BudgetsHoldoffAndDroops : Prop :=
  ∀ (s : State), storesWf s →
    (let q := predicted s
      let cap := 640 * (50 * effInForce s)
      (cap < q → ∃ t, exec .budgetAdjust s = .next t ∧ t = { s with regions := t.regions, freeCtr := t.freeCtr }
        ∧ ∀ r, regionAt t r = { regionAt s r with st := (regionAt t r).st } ∧ ((regionAt t r).st = (regionAt s r).st
            ∨ ((regionAt s r).st < 2 * slkMin s r ∧ (regionAt t r).st = min 30 ((regionAt s r).st + 2)))
          ∧ ∀ l, byEstimate s = r :: l → (regionAt s r).st < 2 * slkMin s r → (regionAt t r).st = min 30 ((regionAt s r).st + 2))
      ∧ (q + 640 * 400 < cap → ∃ t, exec .budgetAdjust s = .next t ∧ t = { s with regions := t.regions }
        ∧ ∀ r, regionAt t r = if r < numRegions s.member then { regionAt s r with st := (regionAt s r).st - 2 } else regionAt s r)
      ∧ (q ≤ cap → cap ≤ q + 640 * 400 → exec .budgetAdjust s = .next s))
    ∧ (let r := runTo (msBoundary s.now) s
      storesWf r → ∃ t, exec .holdoffUpdate s = .next t ∧ t.now = r.now ∧ ∀ a,
        let h := (aregAt r a).hold
        let tooHigh := (50 * effInForce r < enforced1ms r ∧ ∀ q ∈ phasedRegions r, (regionAt r q).st = 2 * slkMin r q) ∨ areaHot r a = true
        if a ∈ areaList r ∧ jobRuns r a = true then
          (tooHigh → (aregAt t a).hold = min 65535 (max 16 (2 * h)))
          ∧ (¬ tooHigh → enforced1ms r + 200 < 50 * effInForce r → (aregAt t a).hold = h / 2)
          ∧ (¬ tooHigh → 50 * effInForce r ≤ enforced1ms r + 200 → (aregAt t a).hold = h)
        else (aregAt t a).hold = h)
    ∧ (∀ o : SharedEnergy,
      let sum := fun (l : List Nat) => (l.take 16).foldl (· + ·) 0
      let part := fun (e : Nat) (l : List Nat) (a : Nat) => if sum l = 0 then 0 else 10 * e * (l.take 16).getD a 0 / sum l
      let rest := fun (e : Nat) (l : List Nat) => 10 * e - (List.range 16).foldl (fun n a => n + part e l a) 0
      ∃ t, exec (.energyShare o) s = .next t ∧ t = { s with aregs := t.aregs, pwr := { s.pwr with idle := t.pwr.idle } }
        ∧ (∀ a, a < 16 → (aregAt s a).energy < 10 * 2 ^ 64 →
            (aregAt t a).energy = ((aregAt s a).energy + part o.stks o.stackBeats a + part o.optics o.opticUnits a + part o.hub o.hubBytes a) % (10 * 2 ^ 64))
        ∧ t.pwr.idle = (s.pwr.idle + rest o.stks o.stackBeats + rest o.optics o.opticUnits + rest o.hub o.hubBytes) % (10 * 2 ^ 64))
    ∧ (∀ r, r < numRegions s.member →
      (∃ t, exec (.droopAlarm r) s = .next t ∧ (regionAt t r).droop = min 0xFF ((regionAt s r).droop + 1)
        ∧ (regionAt t r).drooping = some ((regionAt s r).drooping.getD s.now) ∧ counted t 0x1A01 (regionIdx r) = counted s 0x1A01 (regionIdx r) + 1
        ∧ (∀ k, k ≠ r → regionAt t k = regionAt s k) ∧ t.mx = s.mx ∧ t.areas = s.areas)
      ∧ ((regionAt s r).drooping = none → exec (.droopClear r) s = .next s)
      ∧ (∀ t0, (regionAt s r).drooping = some t0 → ∃ t, exec (.droopClear r) s = .next t ∧ (regionAt t r).drooping = none ∧ t.now = s.now
        ∧ (∀ n, powerRegion n ≠ r → mxAt t n = mxAt s n)
        ∧ (∀ n o l, powerRegion n = r → (mxAt s n).macs = o :: l →
            let lost := if o.n * o.kb ≤ o.next then 0 else s.now + 8 - max t0 (o.t + 2)
            mxAt t n = { mxAt s n with macs := { o with stalls := o.stalls + lost } :: l, busy := (mxAt t n).busy }
            ∧ (0 < lost → 8 + 2 * o.slk < o.st + o.stalls + lost → counted s 0x3A02 (regionIdx r) < counted t 0x3A02 (regionIdx r)))))

/-- R398-R401: a member reports once a millisecond; the coordinator is the lowest index present and moves at most 250 W from the member with the most
slack to the one with the least, the giver first; an ASSIGN takes effect at a pick boundary; 50 ms without one leave FLOOR, 10 ms without the
coordinator pass its role on. Where the manual leaves a choice or a reading, the model’s is that of log 63. -/
def Obligations.PowerGroupShares : Prop :=
  ∀ (s : State) (g : Group2), s.pwr.grp = some g →
    (let b : Report := { power := min 0xFFFF (s.pwr.mean1ms / 10), slack := meanSlack g, lim := ownLimit s, applied := g.assign, at_ := s.up }
      ∃ t g', exec .groupReportSend s = .next t ∧ t = { s with sent := t.sent, pwr := { s.pwr with grp := some g' } } ∧ look default g'.reports g.index = b ∧ g'.slackSum = 0 ∧ g'.slackN = 0
        ∧ g'.assign = g.assign ∧ t.sent = s.sent ++ [.smbus 0xA1 (leBytes 1 1 ++ leBytes 2 s.mod.rackPos ++ leBytes 2 b.power ++ leBytes 2 b.slack ++ leBytes 2 b.lim ++ leBytes 2 b.applied ++ leBytes 5 0)])
    ∧ (∀ (block : List Byte), exec (.groupReportReceive block false) s = .next (count 0x1D08 hubIdx 1 s) ∧ exec (.groupAssignReceive block false) s = .next (count 0x1D08 hubIdx 1 s)
      ∧ (∀ i, g.list.findIdx? (fun x => x == fld block 1 2) = some i → i ≠ g.index → block.length = 16 → fld block 0 1 = 1 →
        ∃ g', exec (.groupReportReceive block true) s = .next { s with pwr := { s.pwr with grp := some g' } }
          ∧ look default g'.reports i = { power := fld block 3 2, slack := fld block 5 2, lim := fld block 7 2, applied := fld block 9 2, at_ := s.up }
          ∧ (∀ k, k ≠ i → look default g'.reports k = look default g.reports k) ∧ g'.assign = g.assign
          ∧ (g'.coord = true → g.coord = true ∧ (List.range g.index).any (groupPresent s g') = false))
      ∧ (block.length = 8 → fld block 0 1 = 2 → fld block 1 2 = s.mod.rackPos →
        let r := toPick ((s.now + 7) / 8) s
        ∃ t, exec (.groupAssignReceive block true) s = .next t ∧ t = { r with pwr := t.pwr }
          ∧ t.pwr = { s.pwr with eff := effInForce r, effDue := some (r.pick + 1, effCap t), grp := some { g with assign := fld block 3 2, lastAssign := r.up, lost := false } }))
    ∧ (g.coord = false → exec .groupAssignSend s = .next s)
    ∧ (∀ d v c w, g.coord = true → g.move = some (d, v, c, w) → d ≠ g.index → (look default g.reports d).applied = v →
      (c ≠ g.index → ∃ t, exec .groupAssignSend s = .next t ∧ t = { s with sent := t.sent, pwr := t.pwr }
        ∧ t.sent = s.sent ++ [.smbus 0xA2 (leBytes 1 2 ++ leBytes 2 (g.list.getD c 0) ++ leBytes 2 w ++ leBytes 3 g.seqno)]
        ∧ t.pwr = { s.pwr with grp := some { g with move := none, given := put 0 g.given c w, seqno := (g.seqno + 1) % 2 ^ 24 } })
      ∧ (c = g.index → ∃ t g', exec .groupAssignSend s = .next t ∧ t.pwr.grp = some g' ∧ g'.assign = w ∧ g'.move = none ∧ t.pwr.effDue = some (s.pick + 1, effCap t) ∧ t.sent = s.sent))
    ∧ (∀ c d, g.coord = true → g.move = none → g.sentAt = none → leastSlack g ((List.range g.n).filter (groupPresent s g)) = some c →
      mostSlack g (((List.range g.n).filter (groupPresent s g)).filter (· != c)) = some d → d ≠ g.index →
      let rc := look default g.reports c
      let ac := look 0 g.given c
      let ad := look 0 g.given d
      let x := min 5 (min (ad - g.floor) (rc.lim - ac))
      if (look default g.reports d).slack ≤ rc.slack + 8 ∨ 10 * rc.power + 250 < 50 * ac ∨ x = 0 then exec .groupAssignSend s = .next s
      else ∃ t, exec .groupAssignSend s = .next t
        ∧ t.sent = s.sent ++ [.smbus 0xA2 (leBytes 1 2 ++ leBytes 2 (g.list.getD d 0) ++ leBytes 2 (ad - x) ++ leBytes 3 g.seqno)]
        ∧ t.pwr = { s.pwr with grp := some { g with move := some (d, ad - x, c, ac + x), sentAt := some s.up, given := put 0 g.given d (ad - x), seqno := (g.seqno + 1) % 2 ^ 24 } })
    ∧ (g.lost = false → let r := runTo (s.now + (g.lastAssign + 50 * milli - s.up)) s
      ∃ t, exec .groupAssignTimeout s = .next t ∧ t.now = r.now ∧ t.pwr = { s.pwr with eff := effInForce r, effDue := some (r.pick + 1, effCap t), grp := some { g with assign := g.floor, lost := true } }
        ∧ counted t 0x1A09 hubIdx = counted r 0x1A09 hubIdx + 1)
    ∧ (g.coord = false → groupPresent s g g.index = true → (List.range g.index).any (groupPresent s g) = false →
      exec .coordinatorTakeover s = .next { s with pwr := { s.pwr with grp := some { g with coord := true, move := none, given := appliedLedger g.reports } } })

/-- R403-R408, R432, R449-R451: a diode reading outside -40 to 150 °C marks its diode bad; at 110 °C its region trips and is fenced, at THROT it is
throttled; a tripped region cools, and returns after its retest; coolant beyond its bounds is an excursion and lowers the limit; a short isolates its
region, ends its area's job and loses its sites. Where the manual leaves a choice or a reading, the model’s is that of log 48, 57. -/
def Obligations.HeatCoolantAndShorts : Prop :=
  ∀ (s : State), storesWf s →
    (∀ heddle reading, sitePresent s.member (suOf heddle) = true →
      let n := suOf heddle
      let r := powerRegion n
      let v := reading + calEff s (68 + clockRegion n)
      let old := look default s.pwr.diodes heddle
      (old.bad = false → (v < -640 ∨ 2400 < v) → ∃ t, exec (.diodeRead heddle reading) s = .next t ∧ (look default t.pwr.diodes heddle).bad = true
        ∧ (look default t.pwr.diodes heddle).last = v ∧ counted s 0x1B04 n < counted t 0x1B04 n)
      ∧ (old.bad = false → -640 ≤ v → v ≤ 2400 → old.last ≠ v →
        (1760 ≤ v → (regionAt s r).tstate < 2 → ∃ t, exec (.diodeRead heddle reading) s = .next t ∧ look 0 t.fence.regions r = 1 ∧ (regionAt t r).tstate = 2
          ∧ (look default t.pwr.diodes heddle).bad = false ∧ (∀ a, areaOfRegion s r = some a → hasJob s a = true → (areaAt t a).job.state = jEnded))
        ∧ (v < 1760 → 16 * (s.pwr.throt : Int) ≤ v → (regionAt s r).tstate = 0 → envelopeOf s r = [] → ∃ t, exec (.diodeRead heddle reading) s = .next t ∧ (regionAt t r).tstate = 1
          ∧ (regionAt t r).st = 2 * slkMin s r ∧ counted t 0x1B01 (regionIdx r) = counted s 0x1B01 (regionIdx r) + 1 ∧ t.fence = s.fence ∧ t.areas = s.areas)
        ∧ (2 ≤ (regionAt s r).tstate → ∃ t, exec (.diodeRead heddle reading) s = .next t ∧ t = { s with regions := t.regions, pwr := { s.pwr with diodes := t.pwr.diodes } }
          ∧ (if (goodDiodes t r).all (fun kv => decide (kv.2.last < 1360)) = true then (regionAt t r).tstate = 3 ∧ (regionAt t r).coolAt = some ((regionAt s r).coolAt.getD s.up)
            else (regionAt t r).tstate = 2 ∧ (regionAt t r).coolAt = none))))
    ∧ (∀ r, r < numRegions s.member →
      (∀ t0, (regionAt s r).throtAt = some t0 → exec (.throttleHoldoff r) s = .next (modRegion r (fun x => { x with hot10 := true }) (runTo (s.now + (t0 + 10 * milli - s.up)) s)))
      ∧ (∀ t0, (regionAt s r).coolAt = some t0 → (regionAt s r).tstate = 3 → look 0 s.fence.regions r = 1 →
        (∃ t, exec (.regionReturn r { regulatorOk := true, sitesFailed := [] }) s = .next t ∧ look 0 t.fence.regions r = 0 ∧ (regionAt t r).tstate = 0 ∧ (regionAt t r).on = true
          ∧ (regionAt t r).coolAt = none ∧ s.up ≤ t.up ∧ t0 + 10 * second ≤ t.up ∧ ∀ k, k ≠ r → look 0 t.fence.regions k = look 0 s.fence.regions k)
        ∧ (∀ l, ∃ t, exec (.regionReturn r { regulatorOk := false, sitesFailed := l }) s = .next t ∧ look 0 t.fence.regions r = 3 ∧ (regionAt t r).tstate = 2 ∧ (regionAt t r).coolAt = none))
      ∧ ((regionAt s r).vstate = 2 → exec (.shortDetect r) s = .next s)
      ∧ ((regionAt s r).vstate ≠ 2 → ∃ t, exec (.shortDetect r) s = .next t ∧ look 0 t.fence.regions r = 2 ∧ (regionAt t r).vstate = 2 ∧ (regionAt t r).on = false
        ∧ (∀ a, areaOfRegion s r = some a → hasJob s a = true → (areaAt t a).job.state = jEnded)
        ∧ ∀ n, powerRegion n = r → mxAt t n = default ∧ sfAt t n = default ∧ suAt t n = default ∧ swAt t n = default ∧ (mmAt t n).mem = [] ∧ (mmAt t n).remap = (mmAt s n).remap))
    ∧ (∀ c : CoolantSample,
      let req := requiredFlow s.member
      let out := 640 < c.inlet ∨ 100 * c.flow < 80 * req
      let pmax := s.pwr.pmax.val
      let lim := min ((pmax * c.meanFlow / req : Nat) : Int) ((16 * (pmax : Int) - 10 * (c.meanInlet - 560)) / 16)
      ∃ t, exec (.coolantSample c) s = .next t ∧ t.pwr.flow = c.flow ∧ t.pwr.inlet = c.inlet ∧ t.pwr.outlet = c.outlet ∧ (t.pwr.excursion = true ↔ out)
        ∧ t.pwr.coolLimit = (if lim < pmax then some (max s.pwr.pmin.val lim.toNat) else none) ∧ t.pwr.effDue = some (s.pick + 1, effCap t) ∧ (out → t.mod.faultN = false)
        ∧ counted t 0x1B06 hubIdx = counted s 0x1B06 hubIdx + (if out ∧ s.pwr.excursion = false then 1 else 0) ∧ t.now = s.now)

/-- R334, R335, R470: POWER_ON_RESET keeps what flash and fuses hold and resets the rest; DRST keeps POR fields, links, the pick count and the fabric id;
a port reset clears that port's mailboxes, ring and transfers, and takes its link down unless it is an FLR. Where the manual leaves a choice or a
reading, the model’s is that of log 2, 5, 53. -/
def Obligations.ResetsClearAndKeep : Prop :=
  ∀ (s : State), storesWf s →
    (∀ feedId rackPos, ∃ t, exec (.powerOnReset feedId rackPos) s = .next t
      ∧ t.now = 0 ∧ t.areas = [] ∧ t.aregs = [] ∧ t.sw = [] ∧ t.mx = [] ∧ t.sf = [] ∧ t.su = [] ∧ t.att = [] ∧ t.sht = [] ∧ t.wins = [] ∧ t.counts = [] ∧ t.bulk = [] ∧ t.remote = []
      ∧ t.bru.stage = 0 ∧ t.bru.ready = false ∧ t.bru.fatal = false ∧ t.time = Time.reset ∧ t.pwr = Power.reset s.member
      ∧ t.mod.member = s.mod.member ∧ t.mod.serial = s.mod.serial ∧ t.mod.feedId = feedId % 256 ∧ t.mod.rackPos = rackPos % 65536 ∧ t.mod.refDraft = s.mod.refDraft
      ∧ (∀ n, mmAt t n = { (default : Mm) with remap := (mmAt s n).remap }) ∧ t.ras.adjust = s.ras.adjust ∧ t.ras.watch = []
      ∧ t.sec.slots = s.sec.slots ∧ t.sec.pref = s.sec.pref ∧ t.sec.rollback = s.sec.rollback ∧ t.sec.topFuse = s.sec.topFuse ∧ t.sec.lock = Tri.of 0 ∧ t.sec.challenge = none
      ∧ t.sec.bottom = s.sec.bottomQ ∧ t.sec.top = max s.sec.topQ (16384 * s.sec.topFuse)
      ∧ (∀ p k, (mbxAt t p k).state = 0 ∧ (portAt t p).mem = (portAt s p).mem))
    ∧ (∀ feedId rackPos, (s.bru.drst = false → exec (.deviceResetDrst feedId rackPos) s = .next s)
      ∧ (s.bru.drst = true → ∃ t, exec (.deviceResetDrst feedId rackPos) s = .next t
        ∧ t.now = s.now ∧ t.up = s.up ∧ t.time = s.time ∧ t.fab = { Fabric.reset with id := s.fab.id } ∧ t.counts = s.counts ∧ t.fence = s.fence
        ∧ t.areas = [] ∧ t.aregs = [] ∧ t.sw = [] ∧ t.mx = [] ∧ t.sf = [] ∧ t.su = [] ∧ t.att = [] ∧ t.sht = [] ∧ t.wins = [] ∧ t.bulk = [] ∧ t.remote = []
        ∧ t.pwr.pmax = s.pwr.pmax ∧ t.pwr.pmin = s.pwr.pmin ∧ t.pwr.cap = s.pwr.cap ∧ t.pwr.clamp = none ∧ t.pwr.grp = none
        ∧ t.bru.stage = 2 ∧ t.bru.ready = false ∧ t.sec = { s.sec with lock := Tri.of 0, dbgEn := Tri.of 0, challenge := none }
        ∧ (∀ n, mmAt t n = { (default : Mm) with remap := (mmAt s n).remap })
        ∧ ∀ p k, (mbxAt t p k).state = 0 ∧ (portAt t p).up = (portAt s p).up ∧ (portAt t p).mem = (portAt s p).mem))
    ∧ (∀ p kind, p < 2 → ∃ t, exec (.portReset p kind) s = .next t ∧ (∀ k, (mbxAt t p k).state = 0) ∧ (portAt t p).evq.count = 0 ∧ (portAt t p).abortReq = 0
      ∧ (∀ q, q ≠ p → portAt t q = portAt s q) ∧ t.bulk = s.bulk.filter (fun j => j.port != p) ∧ t.remote = s.remote ∧ t.areas = s.areas ∧ t.now = s.now
      ∧ (if kind = .flr ∨ (portAt s p).up = false then (portAt t p).up = (portAt s p).up ∧ t.counts = s.counts
        else (portAt t p).up = false ∧ (portAt t p).downAt = s.up ∧ counted t 0x1901 p = counted s 0x1901 p + 1))
    ∧ (∀ p, p < 2 → exec (.hostLinkUp p) s = .next (modPort p (fun x => { x with up := true, upAt := s.up }) s))

/-- R412-R421, R463, R464: after power-on the ROM boots the preferred valid image, the other one, or enters recovery; bring-up loads the newer fence map,
trains the stacks, enables the engines and sets READY; without a valid copy, or when a stage exceeds its bound, it fails and the device is quiesced.
Where the manual leaves a choice or a reading, the model’s is that of log 13. -/
def Obligations.BringUpReadiesTheDevice : Prop :=
  ∀ (o : BringUpOutcome) (s : State),
    (bringUpDue s = false → exec (.bringUp o) s = .next s)
    ∧ (let completes := fun (t : State) => t.bru.ready = true ∧ t.bru.stage = 9 ∧ t.bru.fatal = false ∧ t.bru.drst = false ∧ t.bru.everUp = true ∧ t.bru.elapsed = min o.elapsed 0xFFFF
          ∧ t.now = s.now + o.elapsed * (10 * milli) ∧ (∀ k, stackPresent s.member k = true → (stackAt t k).trained = true)
          ∧ ∀ p, portPresent s.member p = true → (shtAt t p).engineOff = o.enginesFailed.contains (p / 2)
      let fails := fun (t : State) => t.bru.ready = s.bru.ready ∧ t.bru.stage = 3 ∧ t.bru.fail = true ∧ t.bru.fatal = true ∧ t.mod.faultN = false ∧ counted s 0x7D30 hubIdx < counted t 0x7D30 hubIdx
      (bringUpDue s = true → s.bru.stage = 1 ∨ s.bru.stage = 2 → ∃ t, exec (.bringUp o) s = .next t ∧ (match flashNewer s with | some _ => completes t | none => fails t))
      ∧ (bringUpDue s = true → s.bru.stage = 0 → ∃ t, exec (.bringUp o) s = .next t ∧ (match bootSlot s with
          | none => t.sec.recovery = true ∧ t.bru.ready = s.bru.ready ∧ t.mod.faultN = false
          | some i => t.sec.slot = i ∧ t.sec.fallback = decide (i ≠ s.sec.pref) ∧ t.sec.recovery = false ∧ t.mod.fwver = fwVersion (slotImage s i)
            ∧ (match flashNewer s with | some _ => completes t | none => fails t))))
    ∧ (∀ k, (bringUpDue s = true → s.bru.stage < k → k ≤ 9 → ∃ t, exec (.bringupStageTimeout k) s = .next t ∧ t.bru.fail = true ∧ t.bru.stage = k - 1 ∧ t.bru.ready = s.bru.ready
        ∧ t.bru.fatal = true ∧ counted t 0x7D30 hubIdx = counted s 0x7D30 hubIdx + 1)
      ∧ (bringUpDue s = false → exec (.bringupStageTimeout k) s = .next s))

/-- R371, R425, R430-R432: SELFTEST tests the sites of its set and adds the failing ones to the map, or installs the reference draft; FENCE_READ answers
entries of the map, and NO_UNIT where FIRST names an absent unit (R4); REPAIR_SITE fences a site, or returns it to service after its tests;
REPAIR_CHANNEL records what training reached. Each change is in flash before its command completes. R142, R143, R266, R430, R431: REPAIR_ROW gives a
row its first free spare, which from then on reads as the row did; with every spare in use it is refused and counted. Where the manual leaves a choice
or a reading, the model’s is that of log 13, 57. -/
def Obligations.FenceAndRepairCommands : Prop :=
  (∀ (p m : Nat) (s : State),
       let r := mbxTaken p m s
       let c := (mbxAt s p m).cmd
       (∀ o, mbxGood s p m 0x0500 16 .both → par c 0 1 = 0 → par c 1 7 = 0 → par c 8 8 = 0 → fenceLocked s = false →
         let dev := decide (hdrFlags c % 4 = 2)
         let inSet := fun q => dev || wCovers (hdrArea c) q
         (dev = true ∨ areaNamed s c = true) → jobTouches s inSet = false →
         ∃ t, exec (.selftestTest p m o) s = .next t ∧ (mbxAt t p m).state = 3 ∧ (mbxAt t p m).status = mOk ∧ bytesAt (mbxAt t p m).rsp 36 4 = leBytes 4 o.elapsedMs
           ∧ t.now = s.now + o.elapsedMs * milli ∧ t.fence.seqno = (s.fence.seqno + 1) % 2 ^ 32 ∧ (t.mod.flash0 = t.fence ∨ t.mod.flash1 = t.fence)
           ∧ ∀ f ∈ o.sitesFailed, sitePresent s.member f.site = true → inSet (powerRegion f.site) = true → (regionAt s (powerRegion f.site)).on = true →
             look 0 s.fence.regions (powerRegion f.site) ≠ 2 → (f.swOff = true ∨ f.links = 0) → bit (look 0 t.fence.sites f.site) 15 = true)
       ∧ (∀ g, mbxGood s p m 0x0500 16 .device → par c 0 1 = 1 → par c 1 7 = 0 → anyJob s = false →
         let d := par c 8 8
         d < 2 ^ 41 → stackPresent s.member (dpaStack d) = true → dpaOff d + 256 ≤ userEnd → elasticRead d 256 false r = (g.take 256, 0, r) → headerOk (g.take 256) = true →
         dpaOk s.member d (dLen (g.take 256)) = true → g.length = dLen (g.take 256) → elasticRead (d + 256) (dLen (g.take 256) - 256) false r = (g.drop 256, 0, r) →
         match checkImage r (deviceWord s.member (dArea g % 16)) g with
         | .inl e => exec (.selftestInstall p m) s = .next (mbxComplete p m e.1 e.2 (leBytes 8 (dId g)) r)
         | .inr _ => exec (.selftestInstall p m) s = .next (mbxComplete p m mOk 0 (leBytes 8 (dId g)) { r with mod := { r.mod with refDraft := g } }))
       ∧ (let k := par c 0 1
         let first := par c 4 4
         let n := par c 8 4
         p < 2 → m < 8 → (mbxAt s p m).state = 1 → hdrOpcode c = 0x0501 → 1 ≤ s.bru.stage → mbxGoodHeader s p m 12 .device → mbxWaits s .device c = false → par c 1 3 = 0 →
         (k = 0 → n ≤ 2032 → first + n ≤ 229376 → n = 0 ∨ sitePresent s.member first = true →
           exec (.fenceRead p m) s = .next (mbxComplete p m mOk 0 ((List.range n).flatMap fun i => leBytes 2 (look 0 s.fence.sites (first + i))) r))
         ∧ (k = 1 → n ≤ 64 → first + n ≤ 64 → n = 0 ∨ first < numRegions s.member →
           exec (.fenceRead p m) s = .next (mbxComplete p m mOk 0 ((List.range n).flatMap fun i => leBytes 1 (look 0 s.fence.regions (first + i))) r))
         ∧ (k = 2 → n ≤ 1024 → first + n ≤ 1024 → n = 0 ∨ stackPresent s.member (first / 32) = true →
           exec (.fenceRead p m) s = .next (mbxComplete p m mOk 0 ((List.range n).flatMap fun i => leBytes 1 (look 0 s.fence.chans (first + i))) r))
         ∧ (0 < n → (k = 0 ∧ n ≤ 2032 ∧ first + n ≤ 229376 ∧ sitePresent s.member first = false) ∨ (k = 1 ∧ n ≤ 64 ∧ first + n ≤ 64 ∧ numRegions s.member ≤ first)
             ∨ (k = 2 ∧ n ≤ 1024 ∧ first + n ≤ 1024 ∧ stackPresent s.member (first / 32) = false) →
           exec (.fenceRead p m) s = .next (mbxComplete p m mNoUnit 0 [] r))
         ∧ (k = 3 → ∃ t, exec (.fenceRead p m) s = .next t ∧ (mbxAt t p m).status = mOk ∧ onlyPort p r t
             ∧ bytesAt (mbxAt t p m).rsp 32 16 = leBytes 8 (fncSum s) ++ leBytes 4 s.fence.seqno ++ leBytes 4 (bruStat s))
         ∧ (3 < k → exec (.fenceRead p m) s = .next (mbxComplete p m mBadParam 0 [] r)))
       ∧ (let n := par c 4 4
         mbxGood s p m 0x0503 8 .device → par c 1 1 ≤ 1 → par c 2 2 = 0 → sitePresent s.member n = true →
         (∀ x, (x = Instr.repairSiteFence p m ∧ par c 0 1 = 0) ∨ (∃ pass, x = .repairSiteRetest p m pass ∧ par c 0 1 = 1) →
           (fenceLocked s = true → exec x s = .next (mbxComplete p m mAccessLocked 0 [] r))
           ∧ (fenceLocked s = false → siteLive s n = true → exec x s = .next (mbxComplete p m mAreaBusy 0 [] r)))
         ∧ (fenceLocked s = false → siteLive s n = false →
           (par c 0 1 = 0 → ∃ t, exec (.repairSiteFence p m) s = .next t ∧ bit (look 0 t.fence.sites n) 15 = true ∧ look 0 t.fence.sites n % 256 = 0x20
             ∧ (par c 1 1 = 1 → bit (look 0 t.fence.sites n) 14 = true) ∧ (∀ k, k ≠ n → look 0 t.fence.sites k = look 0 s.fence.sites k)
             ∧ t.fence.seqno = (s.fence.seqno + 1) % 2 ^ 32 ∧ (t.mod.flash0 = t.fence ∨ t.mod.flash1 = t.fence) ∧ (mbxAt t p m).status = mOk ∧ bytesAt (mbxAt t p m).rsp 32 2 = leBytes 2 (look 0 t.fence.sites n))
           ∧ (par c 0 1 = 1 → look 0 s.fence.sites n % 256 ≠ 0x01 → ∃ t, exec (.repairSiteRetest p m true) s = .next t ∧ look 0 t.fence.sites n = 0
             ∧ (∀ k, k ≠ n → look 0 t.fence.sites k = look 0 s.fence.sites k) ∧ t.fence.seqno = (s.fence.seqno + 1) % 2 ^ 32 ∧ (mbxAt t p m).status = mOk)
           ∧ (par c 0 1 = 1 → exec (.repairSiteRetest p m false) s = .next (mbxComplete p m 0x8D32 0 [] r))))
       ∧ (let k := par c 2 1
         let ch := par c 3 1
         mbxGood s p m 0x0504 8 .device → par c 1 1 ≤ 2 → par c 4 4 = 0 → ch < 32 → stackPresent s.member k = true → fenceLocked s = false → optJob s (areaOfAtt s k) = false →
         let done := fun (t : State) (rate fail : Nat) => (chanAt (stackAt t k) ch).rate = Tri.of rate ∧ (chanAt (stackAt t k) ch).fail = Tri.of fail ∧ look 0 t.fence.chans (32 * k + ch) = rate + 4 * fail
             ∧ (chanAt (stackAt t k) ch).misses = 0 ∧ (∀ q, q ≠ k → stackAt t q = stackAt s q) ∧ (∀ i, i ≠ ch → chanAt (stackAt t k) i = chanAt (stackAt s k) i)
             ∧ t.fence.seqno = (s.fence.seqno + 1) % 2 ^ 32 ∧ (mbxAt t p m).state = 3 ∧ (mbxAt t p m).status = mOk
         (par c 0 1 = 0 → (∃ t, exec (.repairChannelRetrain p m true) s = .next t ∧ done t (chanAt (stackAt s k) ch).rate.val 0)
           ∧ exec (.repairChannelRetrain p m false) s = .next (mbxComplete p m 0x8D32 0 [] r))
         ∧ (par c 0 1 = 1 → (∃ t, exec (.repairChannelSetRate p m true) s = .next t ∧ done t (par c 1 1) (b2n (chanFailed (stackAt s k) ch)))
           ∧ exec (.repairChannelSetRate p m false) s = .next (mbxComplete p m 0x8D32 0 [] r))))
  ∧ (∀ (p m : Nat) (ppr : Bool) (s : State), mbxGood s p m 0x0502 16 .device →
       let r := mbxTaken p m s
       let c := (mbxAt s p m).cmd
       let u := par c 4 4
       let b := par c 8 1
       let row := par c 12 4
       let done := fun (t : State) (x : List Byte) => (mbxAt t p m).state = 3 ∧ (mbxAt t p m).status = mOk ∧ bytesAt (mbxAt t p m).rsp 32 1 = x
       par c 2 2 = 0 → par c 10 2 = 0 →
       (par c 0 1 = 0 → par c 1 1 = 0 → siteReach s u = true → kindOf u = .mm → b ≤ 3 → par c 9 1 = 0 → row ≤ 6143 →
         (siteLive s u = true → exec (.repairRow p m ppr) s = .next (mbxComplete p m mAreaBusy 0 [] r))
         ∧ (siteLive s u = false → (∀ e, e < 32 → 8192 ≤ remapVal (mmAt s u) b e → remapVal (mmAt s u) b e % 8192 ≠ row) →
           ((∀ e, e < 32 → 8192 ≤ remapVal (mmAt s u) b e) → exec (.repairRow p m ppr) s = .next (mbxComplete p m 0x8D31 0 [] (count 0x1221 u 1 r)))
           ∧ (∀ e, e < 32 → remapVal (mmAt s u) b e < 8192 → (∀ k, k < e → 8192 ≤ remapVal (mmAt s u) b k) →
             ∃ t, exec (.repairRow p m ppr) s = .next t ∧ done t (leBytes 1 e) ∧ t = { s with ports := t.ports, mm := t.mm } ∧ (∀ n, n ≠ u → mmAt t n = mmAt s n)
               ∧ remapVal (mmAt t u) b e = 8192 + row ∧ physRow (mmAt t u) b row = 6144 + e ∧ mmRow (mmAt t u) b row = mmRow (mmAt s u) b row
               ∧ ∀ q, q < 6144 → q ≠ row → mmRow (mmAt t u) b q = mmRow (mmAt s u) b q)))
       ∧ (par c 0 1 = 1 → stackPresent s.member u = true → b ≤ 31 → par c 9 1 ≤ 63 → row ≤ 15258 → optJob s (areaOfAtt s u) = false →
         let v := fun (t : State) (e : Nat) => (look default (stackAt t u).remap (64 * b + e)).v.val
         (∀ e, e < 64 → bit (v s e) 20 = true → v s e % 2 ^ 20 ≠ par c 9 1 * 2 ^ 14 + row) →
         (par c 1 1 = 1 → (ppr = true → exec (.repairRow p m ppr) s = .next (mbxComplete p m mOk 0 (leBytes 1 0xFF) r))
           ∧ (ppr = false → exec (.repairRow p m ppr) s = .next (mbxComplete p m 0x8D31 0 [] r)))
         ∧ (par c 1 1 = 0 → ((∀ e, e < 64 → bit (v s e) 20 = true) → exec (.repairRow p m ppr) s = .next (mbxComplete p m 0x8D31 0 [] (count 0x160A (stackIdx u) 1 r)))
           ∧ (∀ e, e < 64 → bit (v s e) 20 = false → (∀ k, k < e → bit (v s k) 20 = true) →
             ∃ t, exec (.repairRow p m ppr) s = .next t ∧ done t (leBytes 1 e) ∧ t = { s with ports := t.ports, stks := t.stks } ∧ (∀ k, k ≠ u → stackAt t k = stackAt s k)
               ∧ v t e = 2 ^ 20 + par c 9 1 * 2 ^ 14 + row))))

/-- R444-R448, R460: SCALD tests the sites of an idle area, fencing what fails in MODE 0 and watching it in MODE 1; WATCH_READ lists the watch list; a
watched site is tested and fenced if it fails, a watched channel or lane takes one adjustment step for each recurrence; an entry goes after 7 days
without a trigger. R452, R453: the risk level of an area with a job is its estimate, min(7, score / 4), raised to FLOOR and lowered to CEIL; a rise is
reported. Where the manual leaves a choice or a reading, the model’s is that of log 13, 58. -/
def Obligations.WatchListScaldAndRisk : Prop :=
  ((∀ (p m : Nat) (s : State),
       let r := mbxTaken p m s
       let c := (mbxAt s p m).cmd
       (∀ o : ScaldOutcome, areaGood s p m 0x0600 8 → par c 0 1 ≤ 7 → par c 1 1 ≤ 1 → par c 2 2 = 0 → 1 ≤ par c 4 4 → par c 4 4 ≤ 3600 →
         let a := wArea (hdrArea c)
         (hasJob s a = true → exec (.scald p m o) s = .next (mbxComplete p m mAreaBusy 0 [] r))
         ∧ (hasJob s a = false → par c 1 1 = 0 → fenceLocked s = true → exec (.scald p m o) s = .next (mbxComplete p m mAccessLocked 0 [] r))
         ∧ (hasJob s a = false → (par c 1 1 = 1 ∨ fenceLocked s = false) → ∃ t, exec (.scald p m o) s = .next t ∧ t.now = s.now + o.elapsedMs * milli
           ∧ (mbxAt t p m).state = 3 ∧ (mbxAt t p m).status = mOk ∧ bytesAt (mbxAt t p m).rsp 48 4 = leBytes 4 o.elapsedMs
           ∧ bytesAt (mbxAt t p m).rsp 32 4 = leBytes 4 ((scaldSites s (areaAt s a).word o).filter siteItself).length
           ∧ (par c 1 1 = 0 → ∀ f ∈ scaldSites s (areaAt s a).word o, f.links < 16 → siteItself f = true → bit (look 0 t.fence.sites f.site) 15 = true)
           ∧ (par c 1 1 = 1 → t.fence = s.fence ∧ (s.ras.watch.length + 5 * o.sitesFailed.length ≤ 1024 →
               ∀ f ∈ scaldSites s (areaAt s a).word o, siteItself f = true → ∃ w ∈ t.ras.watch, w.u = .site f.site))))
       ∧ (mbxGood s p m 0x0601 8 .device → 1 ≤ par c 2 2 → par c 2 2 ≤ 253 → par c 4 4 = 0 →
         let l := (s.ras.watch.drop (par c 0 2)).take (par c 2 2)
         exec (.watchRead p m) s = .next (mbxComplete p m mOk 0 (leBytes 2 s.ras.watch.length ++ leBytes 2 l.length ++ leBytes 12 0
           ++ l.flatMap fun w => leBytes 1 (watchKind w.u) ++ leBytes 1 w.steps ++ leBytes 2 w.code ++ leBytes 4 (watchUnitWord w.u) ++ leBytes 8 w.added) r)))
     ∧ (∀ (u : WatchUnit) (w : Watch) (s : State), watchOf s u = some w →
       (watchPresent s u = true →
         (∀ n, u = .site n → testAllowed s u = true →
           let r := runTo (s.now + (w.lastTest + 10 * minute - s.up)) s
           (exec (.watchTest u true) s = .next (modWatch u (fun x => { x with lastTest := r.up, testedOk := x.testedOk && true }) r))
           ∧ ∃ t, exec (.watchTest u false) s = .next t ∧ t.now = r.now ∧ bit (look 0 t.fence.sites n) 15 = true ∧ look 0 t.fence.sites n % 256 = 0x10 ∧ (∃ x ∈ t.ras.watch, x.u = u ∧ x.testedOk = false))
         ∧ (∀ n b, u = .site n → testAllowed s u = false → exec (.watchTest u b) s = .next s)
         ∧ (∀ n q, u = .link n q → testAllowed s u = true → ∃ t, exec (.watchTest u false) s = .next t ∧ bit (look 0 t.fence.sites n) (8 + q) = true)
         ∧ (∀ k c b, u = .channel k c → testAllowed s u = true → 0 < w.recur → ∃ t, exec (.watchTest u b) s = .next t ∧ adjustSteps t u = adjustSteps s u + 1
           ∧ counted t 0x1D42 hubIdx = counted s 0x1D42 hubIdx + 1
           ∧ (adjustSteps s u < 2 → (chanAt (stackAt t k) c).raise = (chanAt (stackAt s k) c).raise + 1 ∧ t.fence = s.fence)
           ∧ (2 ≤ adjustSteps s u → (chanAt (stackAt t k) c).rate = Tri.of (min 2 ((chanAt (stackAt s k) c).rate.val + 1))
               ∧ (t.mod.flash0 = t.fence ∨ t.mod.flash1 = t.fence)))
         ∧ (∀ q l b, u = .lane q l → 0 < w.recur → ((look default (shtAt s q).lanes l).role = 15 ∨ 4 ≤ adjustSteps s u) → ∃ t, exec (.watchTest u b) s = .next t
           ∧ adjustSteps t u = adjustSteps s u + 1 ∧ (adjustSteps s u < 4 → (look default (shtAt t q).lanes l).steps = (look default (shtAt s q).lanes l).steps + 1)
           ∧ (4 ≤ adjustSteps s u → (look default (shtAt t q).lanes l).failed = true)))
       ∧ (w.testedOk = true → let r := runTo (s.now + (w.lastTrig + 7 * 24 * hour - s.up)) s
         ∃ t, exec (.watchClear u) s = .next t ∧ t.now = r.now ∧ t.ras.watch = s.ras.watch.filter (fun x => x.u != u) ∧ counted t 0x1D41 hubIdx = counted r 0x1D41 hubIdx + 1)
       ∧ (w.testedOk = false → exec (.watchClear u) s = .next s)))
  ∧ (∀ (s : State), storesWf s → ∃ t, exec .riskEval s = .next t ∧ t.now = s.now ∧ t.areas = s.areas ∧ ∀ a,
       if a ∈ areaList s ∧ hasJob s a = true then
         (aregAt t a).score = min 255 (riskScore s a) ∧ (aregAt t a).est = min 7 (riskScore s a / 4)
         ∧ (aregAt t a).level = min (aregAt s a).ceil (max (aregAt s a).floor (min 7 (riskScore s a / 4)))
       else aregAt t a = aregAt s a)

/-- R454-R460: SKIM_PARTNER sets or clears an area's partner, SKIM_OVERRIDE its flag, RESTORE asks the partner for the seal records; the engine zeroes the
buffer's MAGIC, writes the stages in order and, once every write is answered, the seal; an answer that refuses, or none for 10 s, fails the skim, and
the last seal answer completes it. Where the manual leaves a choice or a reading, the model’s is that of log 42, 59. -/
def Obligations.SkimsCopyAndSeal : Prop :=
  (∀ (p m : Nat) (s : State),
    let r := mbxTaken p m s
    let c := (mbxAt s p m).cmd
    let a := wArea (hdrArea c)
    (let q := par c 1 1
      let n := par c 4 4
      let x := (shtAt s q).peer
      areaGood s p m 0x0602 (24 + 24 * n) → par c 0 1 = 0 → 1 ≤ n → n ≤ 160 →
      (portPresent s.member q = false → exec (.skimPartnerSet p m) s = .next (mbxComplete p m mNoUnit 0 [] r))
      ∧ (par c 2 2 ≤ 0xFFF → areaOfAtt s (32 + q) = some a → portPresent s.member q = true →
      rangesOk s a (partnerRanges c n) = true → par c 8 8 < 2 ^ 41 → par c 16 8 < 2 ^ 41 → skimBusy s a = false →
      (x.hello = false ∨ x.devid ≠ par c 2 2 → exec (.skimPartnerSet p m) s = .next (mbxComplete p m mNoRoute 0 [] r))
      ∧ (x.hello = true → x.devid = par c 2 2 → feedShared s x.feed = true → (aregAt s a).ovr = false → exec (.skimPartnerSet p m) s = .next (mbxComplete p m 0x8D53 0 [] r))
      ∧ (x.hello = true → x.devid = par c 2 2 → (feedShared s x.feed = false ∨ (aregAt s a).ovr = true) → exec (.skimPartnerSet p m) s = .next (mbxComplete p m mOk 0 []
          (modArea a (fun y => { y with skim := { Skim.reset with state := 1, port := q, partner := par c 2 2, bufs := (par c 8 8, par c 16 8), ranges := partnerRanges c n } }) r)))))
    ∧ (∀ n, areaGood s p m 0x0602 (24 + 24 * n) → 24 + 24 * n ≤ 4064 → par c 0 1 = 1 →
      (skimBusy s a = false → exec (.skimPartnerClear p m) s = .next (mbxComplete p m mOk 0 [] (modArea a (fun y => { y with skim := Skim.reset }) r)))
      ∧ (skimBusy s a = true → exec (.skimPartnerClear p m) s = .next (mbxComplete p m mAreaBusy 0 [] r)))
    ∧ (areaGood s p m 0x0603 8 → par c 1 7 = 0 →
      (par c 0 1 = 1 → exec (.skimOverrideSet p m) s = .next (mbxComplete p m mOk 0 [] (modAreg a (fun g => { g with ovr := true }) r)))
      ∧ (par c 0 1 = 0 → exec (.skimOverrideClear p m) s = .next (mbxComplete p m mOk 0 [] (modAreg a (fun g => { g with ovr := false }) r))))
    ∧ (let dev := par c 2 2
      areaGood s p m 0x0604 24 → par c 0 1 = 0 → par c 1 1 = 0 → dev ≤ 4094 → par c 4 4 = 0 → par c 8 8 % 4096 = 0 → par c 8 8 < 2 ^ 41 → par c 16 8 < 2 ^ 41 → s.fab.rmas = [] →
      s.remote = [] → s.fab.nextTag < 32768 →
      (hasJob s a = true → exec (.restore p m) s = .next (mbxComplete p m mAreaBusy 0 [] r))
      ∧ (hasJob s a = false → rtValid (rtAt s dev) = false → ∃ t, exec (.restore p m) s = .next t ∧ (mbxAt t p m).state = 3 ∧ (mbxAt t p m).status = mNoRoute)
      ∧ (hasJob s a = false → rtValid (rtAt s dev) = true → 2 ≤ (shtAt s (rtPort (rtAt s dev))).state → ∃ t q, exec (.restore p m) s = .next t ∧ (mbxAt t p m).state = 2
          ∧ t.fab.rmas = [q] ∧ q.dev = dev ∧ q.dpa = par c 8 8 ∧ q.len = 4096 ∧ q.write = false ∧ t.remote.length = 1
          ∧ (shtAt t (rtPort (rtAt s dev))).txq = (shtAt s (rtPort (rtAt s dev))).txq ++
              [mkFrame 0x20 1 dev (ownSrc s) 31 (leBytes 8 (par c 8 8) ++ leBytes 4 4096 ++ leBytes 4 s.fab.nextTag)])))
  ∧ (∀ (a : Nat) (s : State), a < 16 →
    let k := (areaAt s a).skim
    let tag := 2 ^ 15 + s.fab.nextTag % 2 ^ 15
    let base := if k.buf = 0 then k.bufs.1 else k.bufs.2
    let sends := fun (t : State) (d : Nat) (b : List Byte) => (shtAt t k.port).txq = (shtAt s k.port).txq ++
      [mkFrame 0x21 1 k.partner (ownSrc s) 31 (leBytes 8 d ++ leBytes 4 b.length ++ leBytes 4 tag ++ b)] ∧ (areaAt t a).skim.outstanding = k.outstanding + 1
    let failed := fun (t : State) => (areaAt t a).skim.state = 1 ∧ (areaAt t a).skim.outstanding = 0 ∧ (areaAt t a).skim.seals = k.seals
    let idle := fun (c : Instr) => exec c s = .next s
    (k.state ≠ 3 → idle (.skimSend a) ∧ (∀ st, idle (.skimWriteAnswer a st)) ∧ idle (.skimStall a))
    ∧ (k.state = 3 → k.sealing = false → k.outstanding < 64 → 2 ≤ (shtAt s k.port).state →
      (k.began = false → ∃ t, exec (.skimSend a) s = .next t ∧ sends t base [0, 0, 0, 0] ∧ (areaAt t a).skim.began = true
        ∧ (areaAt t a).skim.seals = (if k.buf = 0 then (2 ^ 64 - 1, k.seals.2) else (k.seals.1, 2 ^ 64 - 1)))
      ∧ (∀ x l, k.began = true → k.ranges = x :: l → k.sent < x.len → base % 4096 = 0 →
        let n := min (x.len - k.sent) (4096 - (base + 4096 + k.sent) % 4096)
        ∀ b, elasticRead (x.stage + k.sent) n false s = (b, 0, s) → ∃ t, exec (.skimSend a) s = .next t ∧ sends t (base + 4096 + k.sent) b ∧ (areaAt t a).skim.sent = k.sent + n)
      ∧ (k.began = true → rangeCursor k.ranges k.sent = none → base % 4096 = 0 → k.outstanding = 0 → ∃ t, exec (.skimSend a) s = .next t ∧ sends t base (sealRecord s k)
        ∧ (areaAt t a).skim.sealing = true))
    ∧ (k.state = 3 → 0 < k.outstanding →
      (∀ st, st = 1 ∨ st = 3 ∨ st = 5 → ∃ t, exec (.skimWriteAnswer a st) s = .next t ∧ failed t ∧ counted t 0x1D52 a = counted s 0x1D52 a + 1)
      ∧ (∃ t, exec (.skimWriteAnswer a 0) s = .next t ∧ (if k.sealing = true ∧ k.outstanding = 1 then (areaAt t a).skim.state = 1 ∧ counted t 0x1D50 a = counted s 0x1D50 a + 1
            ∧ (areaAt t a).skim.seals = (if k.buf = 0 then (k.step, k.seals.2) else (k.seals.1, k.step))
          else (areaAt t a).skim = { k with outstanding := k.outstanding - 1, lastAt := s.up } ∧ t.counts = s.counts)))
    ∧ (k.state = 3 → let r := runTo (s.now + (k.lastAt + 10 * second - s.up)) s
      ∃ t, exec (.skimStall a) s = .next t ∧ t.now = r.now ∧ failed t ∧ counted t 0x1D52 a = counted r 0x1D52 a + 1))

/-- R465-R475: DRASAL_CERT answers the certificate; DRASAL_ATTEST writes a report and its signature and uses one index; OWNER_ENROL, the debug unlock and
FW_UPDATE act under their locks and checks. R185, R362, R379, R472, R475, R486: an SMBus read answers the device's state, and the status read clears
SMB_ALERT_N; a broken transaction is counted; an SU's samples go, in order, to every window that selects its heddle; the next bottom tree is ready
once three quarters of the tree are used; a debug challenge is stale after 60 s. Where the manual leaves a choice or a reading, the model’s is that of
log 15, 65, 66, 67, 68, 69. -/
def Obligations.SecurityAndSideband : Prop :=
  (∀ (p m : Nat) (s : State),
       let r := mbxTaken p m s
       let c := (mbxAt s p m).cmd
       let refused := fun (x : Instr) => (bit s.sec.lock.val 1 = true → exec x s = .next (mbxComplete p m mAccessLocked 0 [] r))
         ∧ (bit s.sec.lock.val 1 = false → anyJob s = true → exec x s = .next (mbxComplete p m mAreaBusy 0 [] r))
       (mbxGood s p m 0x0700 0 .device → ∃ t, exec (.drasalCert p m) s = .next t ∧ onlyPort p r t ∧ (mbxAt t p m).state = 3 ∧ (mbxAt t p m).status = mOk
         ∧ bytesAt (mbxAt t p m).rsp 32 16 = leBytes 4 0x54435844 ++ leBytes 2 1 ++ leBytes 1 s.member ++ leBytes 1 0 ++ leBytes 8 s.mod.serial)
       ∧ (let n := par c 32 4
         let l := scatterList s p (par c 40 8) n
         mbxGood s p m 0x0701 48 .device → 4564 ≤ n → par c 36 4 = 0 → l.2 = true →
         (canSign s.sec = false → exec (.drasalAttest p m) s = .next (mbxComplete p m 0x8C22 0 [] r))
         ∧ (canSign s.sec = true → ∃ t, exec (.drasalAttest p m) s = .next t ∧ t.now = (s.now + 7) / 8 * 8 ∧ (mbxAt t p m).state = 3 ∧ (mbxAt t p m).status = mOk
           ∧ bytesAt (mbxAt t p m).rsp 32 8 = leBytes 4 960 ++ leBytes 4 3604 ∧ t.sec.slots = s.sec.slots ∧ t.sec.rollback = s.sec.rollback
           ∧ (s.sec.bottom < 2 ^ 20 → t.sec = { s.sec with bottom := s.sec.bottom + 1, bottomQ := if s.sec.bottomQ ≤ s.sec.bottom then s.sec.bottom + 1024 else s.sec.bottomQ })
           ∧ (2 ^ 20 ≤ s.sec.bottom → t.sec.bottom = 1 ∧ t.sec.top = s.sec.top + 1 ∧ t.sec.nextRdy = false)))
       ∧ (mbxGood s p m 0x0702 32 .device →
         (bit s.sec.lock.val 2 = true → exec (.ownerEnrol p m) s = .next (mbxComplete p m mAccessLocked 0 [] r))
         ∧ (bit s.sec.lock.val 2 = false → exec (.ownerEnrol p m) s = .next (mbxComplete p m mOk 0 []
             { r with sec := { s.sec with owner := (List.range 8).map fun w => Tri.of (par c (4 * w) 4) } })))
       ∧ (∀ n, mbxGood s p m 0x0703 n .device → 1 ≤ n →
         (∀ random, par c 0 1 = 0 → refused (.debugUnlockChallenge p m random) ∧ (bit s.sec.lock.val 1 = false → anyJob s = false →
           exec (.debugUnlockChallenge p m random) s = .next (mbxComplete p m mOk 0 (leBytes 32 random.toNat) { r with sec := { s.sec with challenge := some (random, s.up) } })))
         ∧ (par c 0 1 = 1 → refused (.debugUnlockResponse p m) ∧ (bit s.sec.lock.val 1 = false → anyJob s = false →
           (s.sec.challenge = none → exec (.debugUnlockResponse p m) s = .next (mbxComplete p m 0x8C23 0 [] r))
           ∧ (∀ x t0, s.sec.challenge = some (x, t0) →
             (t0 + 60 * second < s.up → exec (.debugUnlockResponse p m) s = .next (mbxComplete p m 0x8C23 0 [] r))
             ∧ (s.up ≤ t0 + 60 * second → ∃ t, exec (.debugUnlockResponse p m) s = .next t ∧ (mbxAt t p m).state = 3
               ∧ (if debugSigOk s x (parBytes c 8 60) (parBytes c 68 (n - 68)) = true then (mbxAt t p m).status = mOk ∧ t.sec = { s.sec with dbgEn := Tri.of 1 }
                 ∧ counted t 0x1C32 hubIdx = counted s 0x1C32 hubIdx + 1
                 else (mbxAt t p m).status = 0x8C23 ∧ t.sec = s.sec)))))
         ∧ (par c 0 1 = 2 → exec (.debugUnlockDisable p m) s = .next (mbxComplete p m mOk 0 [] { r with sec := { s.sec with dbgEn := Tri.of 0 } })))
       ∧ (mbxGood s p m 0x0704 16 .device → par c 4 4 = 0 → (scatterList s p (par c 8 8) (par c 0 4)).2 = true →
         let g := gatherHost (portAt s p).mem (scatterList s p (par c 8 8) (par c 0 4)).1
         let i := 1 - s.sec.slot
         if fwOk s g = false then exec (.fwUpdate p m) s = .next (mbxComplete p m 0x8C20 0 [] r)
         else if fwSvn g < s.sec.rollback then exec (.fwUpdate p m) s = .next (mbxComplete p m 0x8C21 0 [] r)
         else exec (.fwUpdate p m) s = .next (mbxComplete p m mOk 0 [] { r with sec := { s.sec with slots := put default s.sec.slots i ⟨g⟩, pref := i, pendingFw := true } })))
  ∧ (∀ (s : State),
       (∃ t, exec .smbReadStatus s = .next t ∧ t = { s with sent := t.sent, mod := { s.mod with alertN := true } } ∧ t.sent = s.sent ++ [.smbus 0x01
         (leBytes 2 (min 0xFFFF (s.pwr.mean1ms / 10)) ++ leBytes 2 (effInForce s) ++ leBytes 2 (field 16 (maxTemp s)) ++ leBytes 1 (smbFlags s) ++ leBytes 9 0)])
       ∧ exec .smbReadIdentity s = .next { s with sent := s.sent ++ [.smbus 0x02 (leBytes 8 s.mod.serial ++ leBytes 1 s.member ++ leBytes 1 1 ++ leBytes 1 s.mod.feedId ++ leBytes 1 0
           ++ leBytes 2 s.mod.rackPos ++ leBytes 2 0)] }
       ∧ (∃ t, exec .smbusTimeout s = .next t ∧ t = { s with counts := t.counts } ∧ ∀ k, look 0 t.counts k = look 0 s.counts k + (if k = countKey 0x1D08 hubIdx then 1 else 0))
       ∧ (∀ n, siteReach s n = true → kindOf n = .su → TabWf default s.mod.pmon = true →
         ∃ t, exec (.sampleDrain n) s = .next t ∧ t = { s with su := t.su, mod := { s.mod with pmon := t.mod.pmon } } ∧ suAt t n = { suAt s n with samples := [] } ∧ (∀ k, k ≠ n → suAt t k = suAt s k)
           ∧ ∀ w, let x := look default s.mod.pmon w
             let y := look default t.mod.pmon w
             if bit x.sel 31 = true ∧ bits x.sel 13 0 = heddleOf n then y.sel = x.sel ∧ (x.next < 64 → y.next = (x.next + (suAt s n).samples.length) % 64)
               ∧ (x.next < 64 → (suAt s n).samples.length ≤ 64 → ∀ i, i < (suAt s n).samples.length → look 0 y.recs ((x.next + i) % 64) = (suAt s n).samples.getD i 0)
             else y = x)
       ∧ exec .bottomTreeReady s = .next (if 786432 ≤ s.sec.bottom then { s with sec := { s.sec with nextRdy := true } } else s)
       ∧ (s.sec.challenge = none → exec .debugChallengeExpiry s = .next s)
       ∧ (∀ x t0, s.sec.challenge = some (x, t0) → let r := runTo (s.now + (t0 + 60 * second - s.up)) s
         exec .debugChallengeExpiry s = .next { r with sec := { s.sec with challenge := none } }))

/-- The values the register tables of 02, 09, 10, 13 and 15 give for reset; no area is defined, no unit runs, and no mailbox holds a command. After reset
the stores and memories are canonical and the areas valid and apart. Where the manual leaves a choice or a reading, the model’s is that of log 3, 5,
6. -/
def Obligations.ResetHoldsTheSpecsValues : Prop :=
  (
     let s := State.reset
     s.pending = [] ∧ s.now = 0 ∧ (∀ a, areaDefined s a = false ∧ (areaAt s a).skim.seals = (2 ^ 64 - 1, 2 ^ 64 - 1) ∧ (aregAt s a).ceil = 7 ∧ (aregAt s a).floor = 0 ∧ (aregAt s a).level = 0)
     ∧ (∀ n, (mxAt s n).seq.running = false ∧ (sfAt s n).seq.running = false ∧ (suAt s n).seq.running = false ∧ (mmAt s n).page = 0 ∧ (swAt s n).inp = [])
     ∧ (∀ p m, (mbxAt s p m).state = 0 ∧ (portAt s p).evq.count = 0 ∧ (portAt s p).irqMask = 0) ∧ (∀ p, (shtAt s p).state = 0) ∧ (∀ k c, (stackAt s k).trained = false ∧ (chanAt (stackAt s k) c).rate.val = 0)
     ∧ s.time.hold = 2 ∧ s.time.master = true ∧ s.time.tmid = 0xFFF ∧ s.time.period = 100000 ∧ s.time.theta = 0 ∧ s.fab.id.val = 0xFFF ∧ s.fab.rmard = false ∧ s.fab.rmawr = false
     ∧ s.pwr.pmax.val = 400 ∧ s.pwr.pmin.val = 120 ∧ s.pwr.cap.val = 360 ∧ s.pwr.clamp = none ∧ s.bru.ready = false ∧ s.bru.stage = 0 ∧ s.sec.lock.val = 0 ∧ s.sec.dbgEn.val = 0)
  ∧ (storesWf State.reset ∧ memoriesWf State.reset ∧ areasApart State.reset)

/-- R13-R15: a command that names a site, stack, port or region the member does not have faults, and a site's command sent to a site of another type is
refused. The stops are the model's (Fault.absentUnit, Refusal.wrongUnit). -/
def Obligations.AbsentUnitsStop : Prop :=
  (∀ (n : Nat) (w : W64) (s : State),
    (∀ c ∈ [Instr.mac n w, .lds n w, .out n w, .setm n w, .spmac n w], (sitePresent s.member n = false → exec c s = .fault .absentUnit)
      ∧ (sitePresent s.member n = true → kindOf n ≠ .mx → exec c s = .refused .wrongUnit))
    ∧ (∀ c ∈ [Instr.fadd n w, .fcmp n w, .iadd n w, .sel n w], (sitePresent s.member n = false → exec c s = .fault .absentUnit)
      ∧ (sitePresent s.member n = true → kindOf n ≠ .sf → exec c s = .refused .wrongUnit))
    ∧ (∀ c ∈ [Instr.go n w, .page n w, .join n w, .exactDigest n, .sampleDrain n], (sitePresent s.member n = false → exec c s = .fault .absentUnit)
      ∧ (sitePresent s.member n = true → kindOf n ≠ .su → exec c s = .refused .wrongUnit)))
  ∧ ∀ (k : Nat) (s : State),
    (stackPresent s.member k = false → exec (.hbmRequest k) s = .fault .absentUnit) ∧ (portPresent s.member k = false → exec (.helloSend k) s = .fault .absentUnit)
    ∧ (numRegions s.member ≤ k → exec (.droopAlarm k) s = .fault .absentUnit) ∧ (16 ≤ k → exec (.stepCommit k) s = .fault .absentUnit)
    ∧ (2 ≤ k → exec (.hostLinkUp k) s = .fault .absentUnit)

/-- Every step keeps every store of units in its canonical form. Every step keeps every memory of bytes in its canonical form. Where the manual leaves a
choice or a reading, the model’s is that of log 2. -/
def Obligations.StepsKeepStoresCanonical : Prop :=
  (∀ (s t : State), storesWf s → step s = .next t → storesWf t)
  ∧ (∀ (s t : State), storesWf s → memoriesWf s → step s = .next t → memoriesWf t)

/-- R24, R25: every step keeps the defined areas valid on the member and apart from each other. -/
def Obligations.StepsKeepAreasApart : Prop :=
  ∀ (s t : State), areasApart s → step s = .next t → areasApart t
end

