-- ==== Sys2Proof/Laws/Tab.lean ====
section
/-! SUPPORT. What the sparse stores do: a read after a write, other keys left alone, the canonical form kept. -/
namespace Sys2Proof.Machine

variable {α : Type}

/-! ## Reading after writing -/

theorem look_insertAt_self (d : α) (t : Tab α) (k : Nat) (v : α) : look d (insertAt t k v) k = v := by
  induction t with
  | nil => simp [insertAt, look]
  | cons x r ih =>
    obtain ⟨a, w⟩ := x
    unfold insertAt
    split
    · simp [look]
    · split
      · simp [look]
      · rename_i h1 h2
        simp [look, h2, ih]

theorem look_insertAt_ne (d : α) (t : Tab α) (k j : Nat) (v : α) (h : j ≠ k) : look d (insertAt t k v) j = look d t j := by
  induction t with
  | nil => simp [insertAt, look, h]
  | cons x r ih =>
    obtain ⟨a, w⟩ := x
    unfold insertAt
    split
    · simp [look, h]
    · split
      · rename_i h1 h2
        subst h2
        simp [look, h]
      · simp [look, ih]

theorem look_filter_self (d : α) (t : Tab α) (k : Nat) : look d (t.filter fun kv => decide (kv.1 ≠ k)) k = d := by
  induction t with
  | nil => simp [look]
  | cons x r ih =>
    obtain ⟨a, w⟩ := x
    by_cases h : a = k
    · simpa [h] using ih
    · have h' : ¬ k = a := fun e => h e.symm
      simpa [h, h', look] using ih

theorem look_filter_ne (d : α) (t : Tab α) (k j : Nat) (h : j ≠ k) :
    look d (t.filter fun kv => decide (kv.1 ≠ k)) j = look d t j := by
  induction t with
  | nil => simp
  | cons x r ih =>
    obtain ⟨a, w⟩ := x
    by_cases e : a = k
    · subst e
      simpa [look, h] using ih
    · by_cases f : j = a
      · simp [e, f, look]
      · simpa [e, f, look] using ih

@[simp] theorem look_put_self [DecidableEq α] (d : α) (t : Tab α) (k : Nat) (v : α) : look d (put d t k v) k = v := by
  unfold put
  split
  · rename_i h
    rw [look_filter_self, h]
  · exact look_insertAt_self d t k v

theorem look_put_ne [DecidableEq α] (d : α) (t : Tab α) (k j : Nat) (v : α) (h : j ≠ k) : look d (put d t k v) j = look d t j := by
  unfold put
  split
  · exact look_filter_ne d t k j h
  · exact look_insertAt_ne d t k j v h

theorem look_put [DecidableEq α] (d : α) (t : Tab α) (k j : Nat) (v : α) :
    look d (put d t k v) j = if j = k then v else look d t j := by
  split
  · rename_i h; subst h; simp
  · rename_i h; exact look_put_ne d t k j v h

@[simp] theorem look_alter_self [DecidableEq α] (d : α) (t : Tab α) (k : Nat) (f : α → α) :
    look d (alter d t k f) k = f (look d t k) := by simp [alter]

theorem look_alter_ne [DecidableEq α] (d : α) (t : Tab α) (k j : Nat) (f : α → α) (h : j ≠ k) :
    look d (alter d t k f) j = look d t j := look_put_ne d t k j _ h

@[simp] theorem look_nil (d : α) (k : Nat) : look d ([] : Tab α) k = d := rfl

/-! ## The canonical form -/

theorem tabWf_iff [DecidableEq α] (d : α) (t : Tab α) :
    TabWf d t = true ↔ (∀ x ∈ t, x.2 ≠ d) ∧ t.Pairwise (fun x y => x.1 < y.1) := by
  induction t with
  | nil => simp [TabWf]
  | cons x r ih =>
    obtain ⟨a, v⟩ := x
    simp only [TabWf, Bool.and_eq_true, decide_eq_true_eq, List.all_eq_true, ih, List.mem_cons, forall_eq_or_imp,
      List.pairwise_cons]
    tauto

theorem mem_insertAt (t : Tab α) (k : Nat) (v : α) (x : Nat × α) (h : x ∈ insertAt t k v) : x = (k, v) ∨ x ∈ t := by
  induction t with
  | nil => simpa [insertAt] using h
  | cons y r ih =>
    obtain ⟨a, w⟩ := y
    unfold insertAt at h
    split at h
    · simpa using h
    · split at h
      · rcases List.mem_cons.1 h with e | e
        · exact .inl e
        · exact .inr (List.mem_cons_of_mem _ e)
      · rcases List.mem_cons.1 h with e | e
        · exact .inr (e ▸ List.mem_cons_self)
        · exact (ih e).imp id (List.mem_cons_of_mem _)

theorem tabWf_insertAt [DecidableEq α] (d : α) (t : Tab α) (k : Nat) (v : α) (hv : v ≠ d) (h : TabWf d t = true) :
    TabWf d (insertAt t k v) = true := by
  induction t with
  | nil => simp [insertAt, TabWf, hv]
  | cons x r ih =>
    obtain ⟨a, w⟩ := x
    have h0 := (tabWf_iff d _).1 h
    have hr : TabWf d r = true := (tabWf_iff d r).2 ⟨fun y hy => h0.1 y (List.mem_cons_of_mem _ hy), (List.pairwise_cons.1 h0.2).2⟩
    have hp := (List.pairwise_cons.1 h0.2).1
    unfold insertAt
    split
    · rename_i hk
      refine (tabWf_iff d _).2 ⟨?_, List.pairwise_cons.2 ⟨?_, h0.2⟩⟩
      · intro y hy
        rcases List.mem_cons.1 hy with e | e
        · subst e; exact hv
        · exact h0.1 y e
      · intro y hy
        rcases List.mem_cons.1 hy with e | e
        · subst e; exact hk
        · exact lt_trans hk (hp y e)
    · split
      · rename_i h1 h2
        subst h2
        refine (tabWf_iff d _).2 ⟨?_, List.pairwise_cons.2 ⟨hp, (List.pairwise_cons.1 h0.2).2⟩⟩
        intro y hy
        rcases List.mem_cons.1 hy with e | e
        · subst e; exact hv
        · exact h0.1 y (List.mem_cons_of_mem _ e)
      · rename_i h1 h2
        have hi := (tabWf_iff d _).1 (ih hr)
        refine (tabWf_iff d _).2 ⟨?_, List.pairwise_cons.2 ⟨?_, hi.2⟩⟩
        · intro y hy
          rcases List.mem_cons.1 hy with e | e
          · subst e; exact h0.1 _ List.mem_cons_self
          · exact hi.1 y e
        · intro y hy
          rcases mem_insertAt r k v y hy with e | e
          · subst e; simp only; omega
          · exact hp y e

theorem tabWf_filter [DecidableEq α] (d : α) (t : Tab α) (p : Nat × α → Bool) (h : TabWf d t = true) :
    TabWf d (t.filter p) = true := by
  have h0 := (tabWf_iff d t).1 h
  exact (tabWf_iff d _).2 ⟨fun y hy => h0.1 y (List.mem_of_mem_filter hy), h0.2.filter p⟩

theorem tabWf_put [DecidableEq α] (d : α) (t : Tab α) (k : Nat) (v : α) (h : TabWf d t = true) : TabWf d (put d t k v) = true := by
  unfold put
  split
  · exact tabWf_filter d t _ h
  · rename_i hv
    exact tabWf_insertAt d t k v hv h

theorem tabWf_alter [DecidableEq α] (d : α) (t : Tab α) (k : Nat) (f : α → α) (h : TabWf d t = true) :
    TabWf d (alter d t k f) = true := tabWf_put d t k _ h

theorem tabWf_keepTab [DecidableEq α] (d : α) (t : Tab α) (p : Nat → Bool) (h : TabWf d t = true) :
    TabWf d (keepTab p t) = true := tabWf_filter d t _ h

theorem tabWf_mapTab [DecidableEq α] (d : α) (t : Tab α) (f : Nat → α → α) (h : TabWf d t = true) :
    TabWf d (mapTab d f t) = true := by
  have h0 := (tabWf_iff d t).1 h
  refine (tabWf_iff d _).2 ⟨?_, ?_⟩
  · intro y hy
    obtain ⟨x, _, hx⟩ := List.mem_filterMap.1 hy
    split at hx
    · cases hx
    · rename_i hne
      cases hx
      exact hne
  · refine List.Pairwise.filterMap _ ?_ h0.2
    intro a b hab x hx y hy
    split at hx
    · cases hx
    · split at hy
      · cases hy
      · cases hx
        cases hy
        exact hab

theorem tabWf_whereTab_aux [DecidableEq α] (d : α) (t : Tab α) (p : Nat → Bool) (f : α → α) (h : TabWf d t = true) :
    TabWf d (mapTab d (fun k v => if p k then f v else v) t) = true := tabWf_mapTab d t _ h

theorem tabWf_fillTab [DecidableEq α] (d : α) (lo n : Nat) (v : α) (t : Tab α) (hv : v ≠ d) (h : TabWf d t = true) :
    TabWf d (fillTab lo n v t) = true := by
  have h0 := (tabWf_iff d t).1 h
  refine (tabWf_iff d _).2 ⟨?_, ?_⟩
  · intro y hy
    simp only [fillTab, List.append_assoc, List.mem_append, List.mem_map] at hy
    rcases hy with e | ⟨i, _, rfl⟩ | e
    · exact h0.1 y (List.mem_of_mem_filter e)
    · exact hv
    · exact h0.1 y (List.mem_of_mem_filter e)
  · unfold fillTab
    refine List.pairwise_append.2 ⟨List.pairwise_append.2 ⟨h0.2.filter _, ?_, ?_⟩, h0.2.filter _, ?_⟩
    · refine List.Pairwise.map _ (R := (· < ·)) ?_ List.pairwise_lt_range
      intro a b hab
      simp only
      omega
    · intro x hx y hy
      have := (List.mem_filter.1 hx).2
      obtain ⟨i, _, rfl⟩ := List.mem_map.1 hy
      simp only [decide_eq_true_eq] at this
      simp only
      omega
    · intro x hx y hy
      have h2 := (List.mem_filter.1 hy).2
      simp only [decide_eq_true_eq] at h2
      rcases List.mem_append.1 hx with e | e
      · have h1 := (List.mem_filter.1 e).2
        simp only [decide_eq_true_eq] at h1
        omega
      · obtain ⟨i, hi, rfl⟩ := List.mem_map.1 e
        have := List.mem_range.1 hi
        simp only
        omega

theorem tabWf_putBytes (m : Tab Byte) (a : Nat) (l : List Byte) (h : TabWf 0 m = true) : TabWf 0 (putBytes m a l) = true := by
  induction l generalizing m a with
  | nil => exact h
  | cons b r ih => exact ih _ _ (tabWf_put 0 m a b h)

/-! ## Stores of bytes -/

theorem look_putBytes (m : Tab Byte) (a j : Nat) (l : List Byte) :
    look 0 (putBytes m a l) j = if a ≤ j ∧ j < a + l.length then l.getD (j - a) 0 else look 0 m j := by
  induction l generalizing m a with
  | nil =>
    have : ¬ (a ≤ j ∧ j < a) := by omega
    simp [putBytes, this]
  | cons b r ih =>
    simp only [putBytes, ih, look_put, List.length_cons]
    by_cases h1 : a + 1 ≤ j ∧ j < a + 1 + r.length
    · have h2 : a ≤ j ∧ j < a + (r.length + 1) := by omega
      obtain ⟨k, hk⟩ : ∃ k, j - a = k + 1 := ⟨j - a - 1, by omega⟩
      have : j - (a + 1) = k := by omega
      simp [h1, h2, hk, this]
    · rw [if_neg h1]
      by_cases h3 : j = a
      · subst h3
        simp
      · have h4 : ¬ (a ≤ j ∧ j < a + (r.length + 1)) := by omega
        rw [if_neg h3, if_neg h4]

/-- A write of a list of bytes, read back. -/
theorem bytesAt_putBytes_self (m : Tab Byte) (a : Nat) (l : List Byte) : bytesAt (putBytes m a l) a l.length = l := by
  have key : ∀ (m : Tab Byte) (a n : Nat), bytesAt m a n = (List.range n).map fun i => look 0 m (a + i) := by
    intro m a n
    induction n generalizing a with
    | zero => simp [bytesAt]
    | succ n ih =>
      rw [bytesAt, ih, List.range_succ_eq_map]
      simp [Function.comp_def, Nat.add_assoc, Nat.add_comm 1]
  rw [key]
  apply List.ext_getElem
  · simp
  · intro i h1 h2
    have : a ≤ a + i ∧ a + i < a + l.length := by constructor <;> simp at h1 <;> omega
    simp only [List.getElem_map, List.getElem_range, look_putBytes, this, and_self, if_true]
    simp at h1
    simp [List.getD_eq_getElem?_getD, h1]

end Sys2Proof.Machine
end

