-- ==== Sys2Proof/Laws/State.lean ====
section
/-! SUPPORT. One lemma a field an update: what the updates of one unit, a count and the output list leave, and what they change. -/
namespace Sys2Proof.Machine


/-! ## modPort -/

@[simp] theorem modPort_pending (i : Nat) (g : Port → Port) (s : State) : (modPort i g s).pending = s.pending := rfl
@[simp] theorem modPort_now (i : Nat) (g : Port → Port) (s : State) : (modPort i g s).now = s.now := rfl
@[simp] theorem modPort_up (i : Nat) (g : Port → Port) (s : State) : (modPort i g s).up = s.up := rfl
@[simp] theorem modPort_freeCtr (i : Nat) (g : Port → Port) (s : State) : (modPort i g s).freeCtr = s.freeCtr := rfl
@[simp] theorem modPort_counts (i : Nat) (g : Port → Port) (s : State) : (modPort i g s).counts = s.counts := rfl
@[simp] theorem modPort_sent (i : Nat) (g : Port → Port) (s : State) : (modPort i g s).sent = s.sent := rfl
@[simp] theorem modPort_wins (i : Nat) (g : Port → Port) (s : State) : (modPort i g s).wins = s.wins := rfl
@[simp] theorem modPort_areas (i : Nat) (g : Port → Port) (s : State) : (modPort i g s).areas = s.areas := rfl
@[simp] theorem modPort_aregs (i : Nat) (g : Port → Port) (s : State) : (modPort i g s).aregs = s.aregs := rfl
@[simp] theorem modPort_sw (i : Nat) (g : Port → Port) (s : State) : (modPort i g s).sw = s.sw := rfl
@[simp] theorem modPort_mm (i : Nat) (g : Port → Port) (s : State) : (modPort i g s).mm = s.mm := rfl
@[simp] theorem modPort_mx (i : Nat) (g : Port → Port) (s : State) : (modPort i g s).mx = s.mx := rfl
@[simp] theorem modPort_sf (i : Nat) (g : Port → Port) (s : State) : (modPort i g s).sf = s.sf := rfl
@[simp] theorem modPort_su (i : Nat) (g : Port → Port) (s : State) : (modPort i g s).su = s.su := rfl
@[simp] theorem modPort_att (i : Nat) (g : Port → Port) (s : State) : (modPort i g s).att = s.att := rfl
@[simp] theorem modPort_stks (i : Nat) (g : Port → Port) (s : State) : (modPort i g s).stks = s.stks := rfl
@[simp] theorem modPort_sht (i : Nat) (g : Port → Port) (s : State) : (modPort i g s).sht = s.sht := rfl
@[simp] theorem modPort_time (i : Nat) (g : Port → Port) (s : State) : (modPort i g s).time = s.time := rfl
@[simp] theorem modPort_fab (i : Nat) (g : Port → Port) (s : State) : (modPort i g s).fab = s.fab := rfl
@[simp] theorem modPort_bulk (i : Nat) (g : Port → Port) (s : State) : (modPort i g s).bulk = s.bulk := rfl
@[simp] theorem modPort_remote (i : Nat) (g : Port → Port) (s : State) : (modPort i g s).remote = s.remote := rfl
@[simp] theorem modPort_nextJob (i : Nat) (g : Port → Port) (s : State) : (modPort i g s).nextJob = s.nextJob := rfl
@[simp] theorem modPort_regions (i : Nat) (g : Port → Port) (s : State) : (modPort i g s).regions = s.regions := rfl
@[simp] theorem modPort_pwr (i : Nat) (g : Port → Port) (s : State) : (modPort i g s).pwr = s.pwr := rfl
@[simp] theorem modPort_fence (i : Nat) (g : Port → Port) (s : State) : (modPort i g s).fence = s.fence := rfl
@[simp] theorem modPort_bru (i : Nat) (g : Port → Port) (s : State) : (modPort i g s).bru = s.bru := rfl
@[simp] theorem modPort_ras (i : Nat) (g : Port → Port) (s : State) : (modPort i g s).ras = s.ras := rfl
@[simp] theorem modPort_sec (i : Nat) (g : Port → Port) (s : State) : (modPort i g s).sec = s.sec := rfl
@[simp] theorem modPort_mod (i : Nat) (g : Port → Port) (s : State) : (modPort i g s).mod = s.mod := rfl
@[simp] theorem modPort_ports (i : Nat) (g : Port → Port) (s : State) : (modPort i g s).ports = alter default s.ports i g := rfl
@[simp] theorem portAt_modPort_self (i : Nat) (g : Port → Port) (s : State) : portAt (modPort i g s) i = g (portAt s i) := by simp [portAt, modPort]
theorem portAt_modPort_ne (i j : Nat) (g : Port → Port) (s : State) (h : j ≠ i) : portAt (modPort i g s) j = portAt s j := by
  simp only [portAt, modPort]
  exact look_alter_ne _ _ _ _ _ h
@[simp] theorem winAt_modPort (i j : Nat) (g : Port → Port) (s : State) : winAt (modPort i g s) j = winAt s j := rfl
@[simp] theorem areaAt_modPort (i j : Nat) (g : Port → Port) (s : State) : areaAt (modPort i g s) j = areaAt s j := rfl
@[simp] theorem aregAt_modPort (i j : Nat) (g : Port → Port) (s : State) : aregAt (modPort i g s) j = aregAt s j := rfl
@[simp] theorem swAt_modPort (i j : Nat) (g : Port → Port) (s : State) : swAt (modPort i g s) j = swAt s j := rfl
@[simp] theorem mmAt_modPort (i j : Nat) (g : Port → Port) (s : State) : mmAt (modPort i g s) j = mmAt s j := rfl
@[simp] theorem mxAt_modPort (i j : Nat) (g : Port → Port) (s : State) : mxAt (modPort i g s) j = mxAt s j := rfl
@[simp] theorem sfAt_modPort (i j : Nat) (g : Port → Port) (s : State) : sfAt (modPort i g s) j = sfAt s j := rfl
@[simp] theorem suAt_modPort (i j : Nat) (g : Port → Port) (s : State) : suAt (modPort i g s) j = suAt s j := rfl
@[simp] theorem attAt_modPort (i j : Nat) (g : Port → Port) (s : State) : attAt (modPort i g s) j = attAt s j := rfl
@[simp] theorem stackAt_modPort (i j : Nat) (g : Port → Port) (s : State) : stackAt (modPort i g s) j = stackAt s j := rfl
@[simp] theorem shtAt_modPort (i j : Nat) (g : Port → Port) (s : State) : shtAt (modPort i g s) j = shtAt s j := rfl
@[simp] theorem regionAt_modPort (i j : Nat) (g : Port → Port) (s : State) : regionAt (modPort i g s) j = regionAt s j := rfl

/-! ## modWin -/

@[simp] theorem modWin_pending (i : Nat) (g : Window → Window) (s : State) : (modWin i g s).pending = s.pending := rfl
@[simp] theorem modWin_now (i : Nat) (g : Window → Window) (s : State) : (modWin i g s).now = s.now := rfl
@[simp] theorem modWin_up (i : Nat) (g : Window → Window) (s : State) : (modWin i g s).up = s.up := rfl
@[simp] theorem modWin_freeCtr (i : Nat) (g : Window → Window) (s : State) : (modWin i g s).freeCtr = s.freeCtr := rfl
@[simp] theorem modWin_counts (i : Nat) (g : Window → Window) (s : State) : (modWin i g s).counts = s.counts := rfl
@[simp] theorem modWin_sent (i : Nat) (g : Window → Window) (s : State) : (modWin i g s).sent = s.sent := rfl
@[simp] theorem modWin_ports (i : Nat) (g : Window → Window) (s : State) : (modWin i g s).ports = s.ports := rfl
@[simp] theorem modWin_areas (i : Nat) (g : Window → Window) (s : State) : (modWin i g s).areas = s.areas := rfl
@[simp] theorem modWin_aregs (i : Nat) (g : Window → Window) (s : State) : (modWin i g s).aregs = s.aregs := rfl
@[simp] theorem modWin_sw (i : Nat) (g : Window → Window) (s : State) : (modWin i g s).sw = s.sw := rfl
@[simp] theorem modWin_mm (i : Nat) (g : Window → Window) (s : State) : (modWin i g s).mm = s.mm := rfl
@[simp] theorem modWin_mx (i : Nat) (g : Window → Window) (s : State) : (modWin i g s).mx = s.mx := rfl
@[simp] theorem modWin_sf (i : Nat) (g : Window → Window) (s : State) : (modWin i g s).sf = s.sf := rfl
@[simp] theorem modWin_su (i : Nat) (g : Window → Window) (s : State) : (modWin i g s).su = s.su := rfl
@[simp] theorem modWin_att (i : Nat) (g : Window → Window) (s : State) : (modWin i g s).att = s.att := rfl
@[simp] theorem modWin_stks (i : Nat) (g : Window → Window) (s : State) : (modWin i g s).stks = s.stks := rfl
@[simp] theorem modWin_sht (i : Nat) (g : Window → Window) (s : State) : (modWin i g s).sht = s.sht := rfl
@[simp] theorem modWin_time (i : Nat) (g : Window → Window) (s : State) : (modWin i g s).time = s.time := rfl
@[simp] theorem modWin_fab (i : Nat) (g : Window → Window) (s : State) : (modWin i g s).fab = s.fab := rfl
@[simp] theorem modWin_bulk (i : Nat) (g : Window → Window) (s : State) : (modWin i g s).bulk = s.bulk := rfl
@[simp] theorem modWin_remote (i : Nat) (g : Window → Window) (s : State) : (modWin i g s).remote = s.remote := rfl
@[simp] theorem modWin_nextJob (i : Nat) (g : Window → Window) (s : State) : (modWin i g s).nextJob = s.nextJob := rfl
@[simp] theorem modWin_regions (i : Nat) (g : Window → Window) (s : State) : (modWin i g s).regions = s.regions := rfl
@[simp] theorem modWin_pwr (i : Nat) (g : Window → Window) (s : State) : (modWin i g s).pwr = s.pwr := rfl
@[simp] theorem modWin_fence (i : Nat) (g : Window → Window) (s : State) : (modWin i g s).fence = s.fence := rfl
@[simp] theorem modWin_bru (i : Nat) (g : Window → Window) (s : State) : (modWin i g s).bru = s.bru := rfl
@[simp] theorem modWin_ras (i : Nat) (g : Window → Window) (s : State) : (modWin i g s).ras = s.ras := rfl
@[simp] theorem modWin_sec (i : Nat) (g : Window → Window) (s : State) : (modWin i g s).sec = s.sec := rfl
@[simp] theorem modWin_mod (i : Nat) (g : Window → Window) (s : State) : (modWin i g s).mod = s.mod := rfl
@[simp] theorem modWin_wins (i : Nat) (g : Window → Window) (s : State) : (modWin i g s).wins = alter default s.wins i g := rfl
@[simp] theorem winAt_modWin_self (i : Nat) (g : Window → Window) (s : State) : winAt (modWin i g s) i = g (winAt s i) := by simp [winAt, modWin]
theorem winAt_modWin_ne (i j : Nat) (g : Window → Window) (s : State) (h : j ≠ i) : winAt (modWin i g s) j = winAt s j := by
  simp only [winAt, modWin]
  exact look_alter_ne _ _ _ _ _ h
@[simp] theorem portAt_modWin (i j : Nat) (g : Window → Window) (s : State) : portAt (modWin i g s) j = portAt s j := rfl
@[simp] theorem areaAt_modWin (i j : Nat) (g : Window → Window) (s : State) : areaAt (modWin i g s) j = areaAt s j := rfl
@[simp] theorem aregAt_modWin (i j : Nat) (g : Window → Window) (s : State) : aregAt (modWin i g s) j = aregAt s j := rfl
@[simp] theorem swAt_modWin (i j : Nat) (g : Window → Window) (s : State) : swAt (modWin i g s) j = swAt s j := rfl
@[simp] theorem mmAt_modWin (i j : Nat) (g : Window → Window) (s : State) : mmAt (modWin i g s) j = mmAt s j := rfl
@[simp] theorem mxAt_modWin (i j : Nat) (g : Window → Window) (s : State) : mxAt (modWin i g s) j = mxAt s j := rfl
@[simp] theorem sfAt_modWin (i j : Nat) (g : Window → Window) (s : State) : sfAt (modWin i g s) j = sfAt s j := rfl
@[simp] theorem suAt_modWin (i j : Nat) (g : Window → Window) (s : State) : suAt (modWin i g s) j = suAt s j := rfl
@[simp] theorem attAt_modWin (i j : Nat) (g : Window → Window) (s : State) : attAt (modWin i g s) j = attAt s j := rfl
@[simp] theorem stackAt_modWin (i j : Nat) (g : Window → Window) (s : State) : stackAt (modWin i g s) j = stackAt s j := rfl
@[simp] theorem shtAt_modWin (i j : Nat) (g : Window → Window) (s : State) : shtAt (modWin i g s) j = shtAt s j := rfl
@[simp] theorem regionAt_modWin (i j : Nat) (g : Window → Window) (s : State) : regionAt (modWin i g s) j = regionAt s j := rfl

/-! ## modArea -/

@[simp] theorem modArea_pending (i : Nat) (g : Area → Area) (s : State) : (modArea i g s).pending = s.pending := rfl
@[simp] theorem modArea_now (i : Nat) (g : Area → Area) (s : State) : (modArea i g s).now = s.now := rfl
@[simp] theorem modArea_up (i : Nat) (g : Area → Area) (s : State) : (modArea i g s).up = s.up := rfl
@[simp] theorem modArea_freeCtr (i : Nat) (g : Area → Area) (s : State) : (modArea i g s).freeCtr = s.freeCtr := rfl
@[simp] theorem modArea_counts (i : Nat) (g : Area → Area) (s : State) : (modArea i g s).counts = s.counts := rfl
@[simp] theorem modArea_sent (i : Nat) (g : Area → Area) (s : State) : (modArea i g s).sent = s.sent := rfl
@[simp] theorem modArea_ports (i : Nat) (g : Area → Area) (s : State) : (modArea i g s).ports = s.ports := rfl
@[simp] theorem modArea_wins (i : Nat) (g : Area → Area) (s : State) : (modArea i g s).wins = s.wins := rfl
@[simp] theorem modArea_aregs (i : Nat) (g : Area → Area) (s : State) : (modArea i g s).aregs = s.aregs := rfl
@[simp] theorem modArea_sw (i : Nat) (g : Area → Area) (s : State) : (modArea i g s).sw = s.sw := rfl
@[simp] theorem modArea_mm (i : Nat) (g : Area → Area) (s : State) : (modArea i g s).mm = s.mm := rfl
@[simp] theorem modArea_mx (i : Nat) (g : Area → Area) (s : State) : (modArea i g s).mx = s.mx := rfl
@[simp] theorem modArea_sf (i : Nat) (g : Area → Area) (s : State) : (modArea i g s).sf = s.sf := rfl
@[simp] theorem modArea_su (i : Nat) (g : Area → Area) (s : State) : (modArea i g s).su = s.su := rfl
@[simp] theorem modArea_att (i : Nat) (g : Area → Area) (s : State) : (modArea i g s).att = s.att := rfl
@[simp] theorem modArea_stks (i : Nat) (g : Area → Area) (s : State) : (modArea i g s).stks = s.stks := rfl
@[simp] theorem modArea_sht (i : Nat) (g : Area → Area) (s : State) : (modArea i g s).sht = s.sht := rfl
@[simp] theorem modArea_time (i : Nat) (g : Area → Area) (s : State) : (modArea i g s).time = s.time := rfl
@[simp] theorem modArea_fab (i : Nat) (g : Area → Area) (s : State) : (modArea i g s).fab = s.fab := rfl
@[simp] theorem modArea_bulk (i : Nat) (g : Area → Area) (s : State) : (modArea i g s).bulk = s.bulk := rfl
@[simp] theorem modArea_remote (i : Nat) (g : Area → Area) (s : State) : (modArea i g s).remote = s.remote := rfl
@[simp] theorem modArea_nextJob (i : Nat) (g : Area → Area) (s : State) : (modArea i g s).nextJob = s.nextJob := rfl
@[simp] theorem modArea_regions (i : Nat) (g : Area → Area) (s : State) : (modArea i g s).regions = s.regions := rfl
@[simp] theorem modArea_pwr (i : Nat) (g : Area → Area) (s : State) : (modArea i g s).pwr = s.pwr := rfl
@[simp] theorem modArea_fence (i : Nat) (g : Area → Area) (s : State) : (modArea i g s).fence = s.fence := rfl
@[simp] theorem modArea_bru (i : Nat) (g : Area → Area) (s : State) : (modArea i g s).bru = s.bru := rfl
@[simp] theorem modArea_ras (i : Nat) (g : Area → Area) (s : State) : (modArea i g s).ras = s.ras := rfl
@[simp] theorem modArea_sec (i : Nat) (g : Area → Area) (s : State) : (modArea i g s).sec = s.sec := rfl
@[simp] theorem modArea_mod (i : Nat) (g : Area → Area) (s : State) : (modArea i g s).mod = s.mod := rfl
@[simp] theorem modArea_areas (i : Nat) (g : Area → Area) (s : State) : (modArea i g s).areas = alter Area.reset s.areas i g := rfl
@[simp] theorem areaAt_modArea_self (i : Nat) (g : Area → Area) (s : State) : areaAt (modArea i g s) i = g (areaAt s i) := by simp [areaAt, modArea]
theorem areaAt_modArea_ne (i j : Nat) (g : Area → Area) (s : State) (h : j ≠ i) : areaAt (modArea i g s) j = areaAt s j := by
  simp only [areaAt, modArea]
  exact look_alter_ne _ _ _ _ _ h
@[simp] theorem portAt_modArea (i j : Nat) (g : Area → Area) (s : State) : portAt (modArea i g s) j = portAt s j := rfl
@[simp] theorem winAt_modArea (i j : Nat) (g : Area → Area) (s : State) : winAt (modArea i g s) j = winAt s j := rfl
@[simp] theorem aregAt_modArea (i j : Nat) (g : Area → Area) (s : State) : aregAt (modArea i g s) j = aregAt s j := rfl
@[simp] theorem swAt_modArea (i j : Nat) (g : Area → Area) (s : State) : swAt (modArea i g s) j = swAt s j := rfl
@[simp] theorem mmAt_modArea (i j : Nat) (g : Area → Area) (s : State) : mmAt (modArea i g s) j = mmAt s j := rfl
@[simp] theorem mxAt_modArea (i j : Nat) (g : Area → Area) (s : State) : mxAt (modArea i g s) j = mxAt s j := rfl
@[simp] theorem sfAt_modArea (i j : Nat) (g : Area → Area) (s : State) : sfAt (modArea i g s) j = sfAt s j := rfl
@[simp] theorem suAt_modArea (i j : Nat) (g : Area → Area) (s : State) : suAt (modArea i g s) j = suAt s j := rfl
@[simp] theorem attAt_modArea (i j : Nat) (g : Area → Area) (s : State) : attAt (modArea i g s) j = attAt s j := rfl
@[simp] theorem stackAt_modArea (i j : Nat) (g : Area → Area) (s : State) : stackAt (modArea i g s) j = stackAt s j := rfl
@[simp] theorem shtAt_modArea (i j : Nat) (g : Area → Area) (s : State) : shtAt (modArea i g s) j = shtAt s j := rfl
@[simp] theorem regionAt_modArea (i j : Nat) (g : Area → Area) (s : State) : regionAt (modArea i g s) j = regionAt s j := rfl

/-! ## modAreg -/

@[simp] theorem modAreg_pending (i : Nat) (g : AreaRegs → AreaRegs) (s : State) : (modAreg i g s).pending = s.pending := rfl
@[simp] theorem modAreg_now (i : Nat) (g : AreaRegs → AreaRegs) (s : State) : (modAreg i g s).now = s.now := rfl
@[simp] theorem modAreg_up (i : Nat) (g : AreaRegs → AreaRegs) (s : State) : (modAreg i g s).up = s.up := rfl
@[simp] theorem modAreg_freeCtr (i : Nat) (g : AreaRegs → AreaRegs) (s : State) : (modAreg i g s).freeCtr = s.freeCtr := rfl
@[simp] theorem modAreg_counts (i : Nat) (g : AreaRegs → AreaRegs) (s : State) : (modAreg i g s).counts = s.counts := rfl
@[simp] theorem modAreg_sent (i : Nat) (g : AreaRegs → AreaRegs) (s : State) : (modAreg i g s).sent = s.sent := rfl
@[simp] theorem modAreg_ports (i : Nat) (g : AreaRegs → AreaRegs) (s : State) : (modAreg i g s).ports = s.ports := rfl
@[simp] theorem modAreg_wins (i : Nat) (g : AreaRegs → AreaRegs) (s : State) : (modAreg i g s).wins = s.wins := rfl
@[simp] theorem modAreg_areas (i : Nat) (g : AreaRegs → AreaRegs) (s : State) : (modAreg i g s).areas = s.areas := rfl
@[simp] theorem modAreg_sw (i : Nat) (g : AreaRegs → AreaRegs) (s : State) : (modAreg i g s).sw = s.sw := rfl
@[simp] theorem modAreg_mm (i : Nat) (g : AreaRegs → AreaRegs) (s : State) : (modAreg i g s).mm = s.mm := rfl
@[simp] theorem modAreg_mx (i : Nat) (g : AreaRegs → AreaRegs) (s : State) : (modAreg i g s).mx = s.mx := rfl
@[simp] theorem modAreg_sf (i : Nat) (g : AreaRegs → AreaRegs) (s : State) : (modAreg i g s).sf = s.sf := rfl
@[simp] theorem modAreg_su (i : Nat) (g : AreaRegs → AreaRegs) (s : State) : (modAreg i g s).su = s.su := rfl
@[simp] theorem modAreg_att (i : Nat) (g : AreaRegs → AreaRegs) (s : State) : (modAreg i g s).att = s.att := rfl
@[simp] theorem modAreg_stks (i : Nat) (g : AreaRegs → AreaRegs) (s : State) : (modAreg i g s).stks = s.stks := rfl
@[simp] theorem modAreg_sht (i : Nat) (g : AreaRegs → AreaRegs) (s : State) : (modAreg i g s).sht = s.sht := rfl
@[simp] theorem modAreg_time (i : Nat) (g : AreaRegs → AreaRegs) (s : State) : (modAreg i g s).time = s.time := rfl
@[simp] theorem modAreg_fab (i : Nat) (g : AreaRegs → AreaRegs) (s : State) : (modAreg i g s).fab = s.fab := rfl
@[simp] theorem modAreg_bulk (i : Nat) (g : AreaRegs → AreaRegs) (s : State) : (modAreg i g s).bulk = s.bulk := rfl
@[simp] theorem modAreg_remote (i : Nat) (g : AreaRegs → AreaRegs) (s : State) : (modAreg i g s).remote = s.remote := rfl
@[simp] theorem modAreg_nextJob (i : Nat) (g : AreaRegs → AreaRegs) (s : State) : (modAreg i g s).nextJob = s.nextJob := rfl
@[simp] theorem modAreg_regions (i : Nat) (g : AreaRegs → AreaRegs) (s : State) : (modAreg i g s).regions = s.regions := rfl
@[simp] theorem modAreg_pwr (i : Nat) (g : AreaRegs → AreaRegs) (s : State) : (modAreg i g s).pwr = s.pwr := rfl
@[simp] theorem modAreg_fence (i : Nat) (g : AreaRegs → AreaRegs) (s : State) : (modAreg i g s).fence = s.fence := rfl
@[simp] theorem modAreg_bru (i : Nat) (g : AreaRegs → AreaRegs) (s : State) : (modAreg i g s).bru = s.bru := rfl
@[simp] theorem modAreg_ras (i : Nat) (g : AreaRegs → AreaRegs) (s : State) : (modAreg i g s).ras = s.ras := rfl
@[simp] theorem modAreg_sec (i : Nat) (g : AreaRegs → AreaRegs) (s : State) : (modAreg i g s).sec = s.sec := rfl
@[simp] theorem modAreg_mod (i : Nat) (g : AreaRegs → AreaRegs) (s : State) : (modAreg i g s).mod = s.mod := rfl
@[simp] theorem modAreg_aregs (i : Nat) (g : AreaRegs → AreaRegs) (s : State) : (modAreg i g s).aregs = alter AreaRegs.reset s.aregs i g := rfl
@[simp] theorem aregAt_modAreg_self (i : Nat) (g : AreaRegs → AreaRegs) (s : State) : aregAt (modAreg i g s) i = g (aregAt s i) := by simp [aregAt, modAreg]
theorem aregAt_modAreg_ne (i j : Nat) (g : AreaRegs → AreaRegs) (s : State) (h : j ≠ i) : aregAt (modAreg i g s) j = aregAt s j := by
  simp only [aregAt, modAreg]
  exact look_alter_ne _ _ _ _ _ h
@[simp] theorem portAt_modAreg (i j : Nat) (g : AreaRegs → AreaRegs) (s : State) : portAt (modAreg i g s) j = portAt s j := rfl
@[simp] theorem winAt_modAreg (i j : Nat) (g : AreaRegs → AreaRegs) (s : State) : winAt (modAreg i g s) j = winAt s j := rfl
@[simp] theorem areaAt_modAreg (i j : Nat) (g : AreaRegs → AreaRegs) (s : State) : areaAt (modAreg i g s) j = areaAt s j := rfl
@[simp] theorem swAt_modAreg (i j : Nat) (g : AreaRegs → AreaRegs) (s : State) : swAt (modAreg i g s) j = swAt s j := rfl
@[simp] theorem mmAt_modAreg (i j : Nat) (g : AreaRegs → AreaRegs) (s : State) : mmAt (modAreg i g s) j = mmAt s j := rfl
@[simp] theorem mxAt_modAreg (i j : Nat) (g : AreaRegs → AreaRegs) (s : State) : mxAt (modAreg i g s) j = mxAt s j := rfl
@[simp] theorem sfAt_modAreg (i j : Nat) (g : AreaRegs → AreaRegs) (s : State) : sfAt (modAreg i g s) j = sfAt s j := rfl
@[simp] theorem suAt_modAreg (i j : Nat) (g : AreaRegs → AreaRegs) (s : State) : suAt (modAreg i g s) j = suAt s j := rfl
@[simp] theorem attAt_modAreg (i j : Nat) (g : AreaRegs → AreaRegs) (s : State) : attAt (modAreg i g s) j = attAt s j := rfl
@[simp] theorem stackAt_modAreg (i j : Nat) (g : AreaRegs → AreaRegs) (s : State) : stackAt (modAreg i g s) j = stackAt s j := rfl
@[simp] theorem shtAt_modAreg (i j : Nat) (g : AreaRegs → AreaRegs) (s : State) : shtAt (modAreg i g s) j = shtAt s j := rfl
@[simp] theorem regionAt_modAreg (i j : Nat) (g : AreaRegs → AreaRegs) (s : State) : regionAt (modAreg i g s) j = regionAt s j := rfl

/-! ## modSw -/

@[simp] theorem modSw_pending (i : Nat) (g : Switch → Switch) (s : State) : (modSw i g s).pending = s.pending := rfl
@[simp] theorem modSw_now (i : Nat) (g : Switch → Switch) (s : State) : (modSw i g s).now = s.now := rfl
@[simp] theorem modSw_up (i : Nat) (g : Switch → Switch) (s : State) : (modSw i g s).up = s.up := rfl
@[simp] theorem modSw_freeCtr (i : Nat) (g : Switch → Switch) (s : State) : (modSw i g s).freeCtr = s.freeCtr := rfl
@[simp] theorem modSw_counts (i : Nat) (g : Switch → Switch) (s : State) : (modSw i g s).counts = s.counts := rfl
@[simp] theorem modSw_sent (i : Nat) (g : Switch → Switch) (s : State) : (modSw i g s).sent = s.sent := rfl
@[simp] theorem modSw_ports (i : Nat) (g : Switch → Switch) (s : State) : (modSw i g s).ports = s.ports := rfl
@[simp] theorem modSw_wins (i : Nat) (g : Switch → Switch) (s : State) : (modSw i g s).wins = s.wins := rfl
@[simp] theorem modSw_areas (i : Nat) (g : Switch → Switch) (s : State) : (modSw i g s).areas = s.areas := rfl
@[simp] theorem modSw_aregs (i : Nat) (g : Switch → Switch) (s : State) : (modSw i g s).aregs = s.aregs := rfl
@[simp] theorem modSw_mm (i : Nat) (g : Switch → Switch) (s : State) : (modSw i g s).mm = s.mm := rfl
@[simp] theorem modSw_mx (i : Nat) (g : Switch → Switch) (s : State) : (modSw i g s).mx = s.mx := rfl
@[simp] theorem modSw_sf (i : Nat) (g : Switch → Switch) (s : State) : (modSw i g s).sf = s.sf := rfl
@[simp] theorem modSw_su (i : Nat) (g : Switch → Switch) (s : State) : (modSw i g s).su = s.su := rfl
@[simp] theorem modSw_att (i : Nat) (g : Switch → Switch) (s : State) : (modSw i g s).att = s.att := rfl
@[simp] theorem modSw_stks (i : Nat) (g : Switch → Switch) (s : State) : (modSw i g s).stks = s.stks := rfl
@[simp] theorem modSw_sht (i : Nat) (g : Switch → Switch) (s : State) : (modSw i g s).sht = s.sht := rfl
@[simp] theorem modSw_time (i : Nat) (g : Switch → Switch) (s : State) : (modSw i g s).time = s.time := rfl
@[simp] theorem modSw_fab (i : Nat) (g : Switch → Switch) (s : State) : (modSw i g s).fab = s.fab := rfl
@[simp] theorem modSw_bulk (i : Nat) (g : Switch → Switch) (s : State) : (modSw i g s).bulk = s.bulk := rfl
@[simp] theorem modSw_remote (i : Nat) (g : Switch → Switch) (s : State) : (modSw i g s).remote = s.remote := rfl
@[simp] theorem modSw_nextJob (i : Nat) (g : Switch → Switch) (s : State) : (modSw i g s).nextJob = s.nextJob := rfl
@[simp] theorem modSw_regions (i : Nat) (g : Switch → Switch) (s : State) : (modSw i g s).regions = s.regions := rfl
@[simp] theorem modSw_pwr (i : Nat) (g : Switch → Switch) (s : State) : (modSw i g s).pwr = s.pwr := rfl
@[simp] theorem modSw_fence (i : Nat) (g : Switch → Switch) (s : State) : (modSw i g s).fence = s.fence := rfl
@[simp] theorem modSw_bru (i : Nat) (g : Switch → Switch) (s : State) : (modSw i g s).bru = s.bru := rfl
@[simp] theorem modSw_ras (i : Nat) (g : Switch → Switch) (s : State) : (modSw i g s).ras = s.ras := rfl
@[simp] theorem modSw_sec (i : Nat) (g : Switch → Switch) (s : State) : (modSw i g s).sec = s.sec := rfl
@[simp] theorem modSw_mod (i : Nat) (g : Switch → Switch) (s : State) : (modSw i g s).mod = s.mod := rfl
@[simp] theorem modSw_sw (i : Nat) (g : Switch → Switch) (s : State) : (modSw i g s).sw = alter default s.sw i g := rfl
@[simp] theorem swAt_modSw_self (i : Nat) (g : Switch → Switch) (s : State) : swAt (modSw i g s) i = g (swAt s i) := by simp [swAt, modSw]
theorem swAt_modSw_ne (i j : Nat) (g : Switch → Switch) (s : State) (h : j ≠ i) : swAt (modSw i g s) j = swAt s j := by
  simp only [swAt, modSw]
  exact look_alter_ne _ _ _ _ _ h
@[simp] theorem portAt_modSw (i j : Nat) (g : Switch → Switch) (s : State) : portAt (modSw i g s) j = portAt s j := rfl
@[simp] theorem winAt_modSw (i j : Nat) (g : Switch → Switch) (s : State) : winAt (modSw i g s) j = winAt s j := rfl
@[simp] theorem areaAt_modSw (i j : Nat) (g : Switch → Switch) (s : State) : areaAt (modSw i g s) j = areaAt s j := rfl
@[simp] theorem aregAt_modSw (i j : Nat) (g : Switch → Switch) (s : State) : aregAt (modSw i g s) j = aregAt s j := rfl
@[simp] theorem mmAt_modSw (i j : Nat) (g : Switch → Switch) (s : State) : mmAt (modSw i g s) j = mmAt s j := rfl
@[simp] theorem mxAt_modSw (i j : Nat) (g : Switch → Switch) (s : State) : mxAt (modSw i g s) j = mxAt s j := rfl
@[simp] theorem sfAt_modSw (i j : Nat) (g : Switch → Switch) (s : State) : sfAt (modSw i g s) j = sfAt s j := rfl
@[simp] theorem suAt_modSw (i j : Nat) (g : Switch → Switch) (s : State) : suAt (modSw i g s) j = suAt s j := rfl
@[simp] theorem attAt_modSw (i j : Nat) (g : Switch → Switch) (s : State) : attAt (modSw i g s) j = attAt s j := rfl
@[simp] theorem stackAt_modSw (i j : Nat) (g : Switch → Switch) (s : State) : stackAt (modSw i g s) j = stackAt s j := rfl
@[simp] theorem shtAt_modSw (i j : Nat) (g : Switch → Switch) (s : State) : shtAt (modSw i g s) j = shtAt s j := rfl
@[simp] theorem regionAt_modSw (i j : Nat) (g : Switch → Switch) (s : State) : regionAt (modSw i g s) j = regionAt s j := rfl

/-! ## modMm -/

@[simp] theorem modMm_pending (i : Nat) (g : Mm → Mm) (s : State) : (modMm i g s).pending = s.pending := rfl
@[simp] theorem modMm_now (i : Nat) (g : Mm → Mm) (s : State) : (modMm i g s).now = s.now := rfl
@[simp] theorem modMm_up (i : Nat) (g : Mm → Mm) (s : State) : (modMm i g s).up = s.up := rfl
@[simp] theorem modMm_freeCtr (i : Nat) (g : Mm → Mm) (s : State) : (modMm i g s).freeCtr = s.freeCtr := rfl
@[simp] theorem modMm_counts (i : Nat) (g : Mm → Mm) (s : State) : (modMm i g s).counts = s.counts := rfl
@[simp] theorem modMm_sent (i : Nat) (g : Mm → Mm) (s : State) : (modMm i g s).sent = s.sent := rfl
@[simp] theorem modMm_ports (i : Nat) (g : Mm → Mm) (s : State) : (modMm i g s).ports = s.ports := rfl
@[simp] theorem modMm_wins (i : Nat) (g : Mm → Mm) (s : State) : (modMm i g s).wins = s.wins := rfl
@[simp] theorem modMm_areas (i : Nat) (g : Mm → Mm) (s : State) : (modMm i g s).areas = s.areas := rfl
@[simp] theorem modMm_aregs (i : Nat) (g : Mm → Mm) (s : State) : (modMm i g s).aregs = s.aregs := rfl
@[simp] theorem modMm_sw (i : Nat) (g : Mm → Mm) (s : State) : (modMm i g s).sw = s.sw := rfl
@[simp] theorem modMm_mx (i : Nat) (g : Mm → Mm) (s : State) : (modMm i g s).mx = s.mx := rfl
@[simp] theorem modMm_sf (i : Nat) (g : Mm → Mm) (s : State) : (modMm i g s).sf = s.sf := rfl
@[simp] theorem modMm_su (i : Nat) (g : Mm → Mm) (s : State) : (modMm i g s).su = s.su := rfl
@[simp] theorem modMm_att (i : Nat) (g : Mm → Mm) (s : State) : (modMm i g s).att = s.att := rfl
@[simp] theorem modMm_stks (i : Nat) (g : Mm → Mm) (s : State) : (modMm i g s).stks = s.stks := rfl
@[simp] theorem modMm_sht (i : Nat) (g : Mm → Mm) (s : State) : (modMm i g s).sht = s.sht := rfl
@[simp] theorem modMm_time (i : Nat) (g : Mm → Mm) (s : State) : (modMm i g s).time = s.time := rfl
@[simp] theorem modMm_fab (i : Nat) (g : Mm → Mm) (s : State) : (modMm i g s).fab = s.fab := rfl
@[simp] theorem modMm_bulk (i : Nat) (g : Mm → Mm) (s : State) : (modMm i g s).bulk = s.bulk := rfl
@[simp] theorem modMm_remote (i : Nat) (g : Mm → Mm) (s : State) : (modMm i g s).remote = s.remote := rfl
@[simp] theorem modMm_nextJob (i : Nat) (g : Mm → Mm) (s : State) : (modMm i g s).nextJob = s.nextJob := rfl
@[simp] theorem modMm_regions (i : Nat) (g : Mm → Mm) (s : State) : (modMm i g s).regions = s.regions := rfl
@[simp] theorem modMm_pwr (i : Nat) (g : Mm → Mm) (s : State) : (modMm i g s).pwr = s.pwr := rfl
@[simp] theorem modMm_fence (i : Nat) (g : Mm → Mm) (s : State) : (modMm i g s).fence = s.fence := rfl
@[simp] theorem modMm_bru (i : Nat) (g : Mm → Mm) (s : State) : (modMm i g s).bru = s.bru := rfl
@[simp] theorem modMm_ras (i : Nat) (g : Mm → Mm) (s : State) : (modMm i g s).ras = s.ras := rfl
@[simp] theorem modMm_sec (i : Nat) (g : Mm → Mm) (s : State) : (modMm i g s).sec = s.sec := rfl
@[simp] theorem modMm_mod (i : Nat) (g : Mm → Mm) (s : State) : (modMm i g s).mod = s.mod := rfl
@[simp] theorem modMm_mm (i : Nat) (g : Mm → Mm) (s : State) : (modMm i g s).mm = alter default s.mm i g := rfl
@[simp] theorem mmAt_modMm_self (i : Nat) (g : Mm → Mm) (s : State) : mmAt (modMm i g s) i = g (mmAt s i) := by simp [mmAt, modMm]
theorem mmAt_modMm_ne (i j : Nat) (g : Mm → Mm) (s : State) (h : j ≠ i) : mmAt (modMm i g s) j = mmAt s j := by
  simp only [mmAt, modMm]
  exact look_alter_ne _ _ _ _ _ h
@[simp] theorem portAt_modMm (i j : Nat) (g : Mm → Mm) (s : State) : portAt (modMm i g s) j = portAt s j := rfl
@[simp] theorem winAt_modMm (i j : Nat) (g : Mm → Mm) (s : State) : winAt (modMm i g s) j = winAt s j := rfl
@[simp] theorem areaAt_modMm (i j : Nat) (g : Mm → Mm) (s : State) : areaAt (modMm i g s) j = areaAt s j := rfl
@[simp] theorem aregAt_modMm (i j : Nat) (g : Mm → Mm) (s : State) : aregAt (modMm i g s) j = aregAt s j := rfl
@[simp] theorem swAt_modMm (i j : Nat) (g : Mm → Mm) (s : State) : swAt (modMm i g s) j = swAt s j := rfl
@[simp] theorem mxAt_modMm (i j : Nat) (g : Mm → Mm) (s : State) : mxAt (modMm i g s) j = mxAt s j := rfl
@[simp] theorem sfAt_modMm (i j : Nat) (g : Mm → Mm) (s : State) : sfAt (modMm i g s) j = sfAt s j := rfl
@[simp] theorem suAt_modMm (i j : Nat) (g : Mm → Mm) (s : State) : suAt (modMm i g s) j = suAt s j := rfl
@[simp] theorem attAt_modMm (i j : Nat) (g : Mm → Mm) (s : State) : attAt (modMm i g s) j = attAt s j := rfl
@[simp] theorem stackAt_modMm (i j : Nat) (g : Mm → Mm) (s : State) : stackAt (modMm i g s) j = stackAt s j := rfl
@[simp] theorem shtAt_modMm (i j : Nat) (g : Mm → Mm) (s : State) : shtAt (modMm i g s) j = shtAt s j := rfl
@[simp] theorem regionAt_modMm (i j : Nat) (g : Mm → Mm) (s : State) : regionAt (modMm i g s) j = regionAt s j := rfl

/-! ## modMx -/

@[simp] theorem modMx_pending (i : Nat) (g : Mx → Mx) (s : State) : (modMx i g s).pending = s.pending := rfl
@[simp] theorem modMx_now (i : Nat) (g : Mx → Mx) (s : State) : (modMx i g s).now = s.now := rfl
@[simp] theorem modMx_up (i : Nat) (g : Mx → Mx) (s : State) : (modMx i g s).up = s.up := rfl
@[simp] theorem modMx_freeCtr (i : Nat) (g : Mx → Mx) (s : State) : (modMx i g s).freeCtr = s.freeCtr := rfl
@[simp] theorem modMx_counts (i : Nat) (g : Mx → Mx) (s : State) : (modMx i g s).counts = s.counts := rfl
@[simp] theorem modMx_sent (i : Nat) (g : Mx → Mx) (s : State) : (modMx i g s).sent = s.sent := rfl
@[simp] theorem modMx_ports (i : Nat) (g : Mx → Mx) (s : State) : (modMx i g s).ports = s.ports := rfl
@[simp] theorem modMx_wins (i : Nat) (g : Mx → Mx) (s : State) : (modMx i g s).wins = s.wins := rfl
@[simp] theorem modMx_areas (i : Nat) (g : Mx → Mx) (s : State) : (modMx i g s).areas = s.areas := rfl
@[simp] theorem modMx_aregs (i : Nat) (g : Mx → Mx) (s : State) : (modMx i g s).aregs = s.aregs := rfl
@[simp] theorem modMx_sw (i : Nat) (g : Mx → Mx) (s : State) : (modMx i g s).sw = s.sw := rfl
@[simp] theorem modMx_mm (i : Nat) (g : Mx → Mx) (s : State) : (modMx i g s).mm = s.mm := rfl
@[simp] theorem modMx_sf (i : Nat) (g : Mx → Mx) (s : State) : (modMx i g s).sf = s.sf := rfl
@[simp] theorem modMx_su (i : Nat) (g : Mx → Mx) (s : State) : (modMx i g s).su = s.su := rfl
@[simp] theorem modMx_att (i : Nat) (g : Mx → Mx) (s : State) : (modMx i g s).att = s.att := rfl
@[simp] theorem modMx_stks (i : Nat) (g : Mx → Mx) (s : State) : (modMx i g s).stks = s.stks := rfl
@[simp] theorem modMx_sht (i : Nat) (g : Mx → Mx) (s : State) : (modMx i g s).sht = s.sht := rfl
@[simp] theorem modMx_time (i : Nat) (g : Mx → Mx) (s : State) : (modMx i g s).time = s.time := rfl
@[simp] theorem modMx_fab (i : Nat) (g : Mx → Mx) (s : State) : (modMx i g s).fab = s.fab := rfl
@[simp] theorem modMx_bulk (i : Nat) (g : Mx → Mx) (s : State) : (modMx i g s).bulk = s.bulk := rfl
@[simp] theorem modMx_remote (i : Nat) (g : Mx → Mx) (s : State) : (modMx i g s).remote = s.remote := rfl
@[simp] theorem modMx_nextJob (i : Nat) (g : Mx → Mx) (s : State) : (modMx i g s).nextJob = s.nextJob := rfl
@[simp] theorem modMx_regions (i : Nat) (g : Mx → Mx) (s : State) : (modMx i g s).regions = s.regions := rfl
@[simp] theorem modMx_pwr (i : Nat) (g : Mx → Mx) (s : State) : (modMx i g s).pwr = s.pwr := rfl
@[simp] theorem modMx_fence (i : Nat) (g : Mx → Mx) (s : State) : (modMx i g s).fence = s.fence := rfl
@[simp] theorem modMx_bru (i : Nat) (g : Mx → Mx) (s : State) : (modMx i g s).bru = s.bru := rfl
@[simp] theorem modMx_ras (i : Nat) (g : Mx → Mx) (s : State) : (modMx i g s).ras = s.ras := rfl
@[simp] theorem modMx_sec (i : Nat) (g : Mx → Mx) (s : State) : (modMx i g s).sec = s.sec := rfl
@[simp] theorem modMx_mod (i : Nat) (g : Mx → Mx) (s : State) : (modMx i g s).mod = s.mod := rfl
@[simp] theorem modMx_mx (i : Nat) (g : Mx → Mx) (s : State) : (modMx i g s).mx = alter default s.mx i g := rfl
@[simp] theorem mxAt_modMx_self (i : Nat) (g : Mx → Mx) (s : State) : mxAt (modMx i g s) i = g (mxAt s i) := by simp [mxAt, modMx]
theorem mxAt_modMx_ne (i j : Nat) (g : Mx → Mx) (s : State) (h : j ≠ i) : mxAt (modMx i g s) j = mxAt s j := by
  simp only [mxAt, modMx]
  exact look_alter_ne _ _ _ _ _ h
@[simp] theorem portAt_modMx (i j : Nat) (g : Mx → Mx) (s : State) : portAt (modMx i g s) j = portAt s j := rfl
@[simp] theorem winAt_modMx (i j : Nat) (g : Mx → Mx) (s : State) : winAt (modMx i g s) j = winAt s j := rfl
@[simp] theorem areaAt_modMx (i j : Nat) (g : Mx → Mx) (s : State) : areaAt (modMx i g s) j = areaAt s j := rfl
@[simp] theorem aregAt_modMx (i j : Nat) (g : Mx → Mx) (s : State) : aregAt (modMx i g s) j = aregAt s j := rfl
@[simp] theorem swAt_modMx (i j : Nat) (g : Mx → Mx) (s : State) : swAt (modMx i g s) j = swAt s j := rfl
@[simp] theorem mmAt_modMx (i j : Nat) (g : Mx → Mx) (s : State) : mmAt (modMx i g s) j = mmAt s j := rfl
@[simp] theorem sfAt_modMx (i j : Nat) (g : Mx → Mx) (s : State) : sfAt (modMx i g s) j = sfAt s j := rfl
@[simp] theorem suAt_modMx (i j : Nat) (g : Mx → Mx) (s : State) : suAt (modMx i g s) j = suAt s j := rfl
@[simp] theorem attAt_modMx (i j : Nat) (g : Mx → Mx) (s : State) : attAt (modMx i g s) j = attAt s j := rfl
@[simp] theorem stackAt_modMx (i j : Nat) (g : Mx → Mx) (s : State) : stackAt (modMx i g s) j = stackAt s j := rfl
@[simp] theorem shtAt_modMx (i j : Nat) (g : Mx → Mx) (s : State) : shtAt (modMx i g s) j = shtAt s j := rfl
@[simp] theorem regionAt_modMx (i j : Nat) (g : Mx → Mx) (s : State) : regionAt (modMx i g s) j = regionAt s j := rfl

/-! ## modSf -/

@[simp] theorem modSf_pending (i : Nat) (g : Sf → Sf) (s : State) : (modSf i g s).pending = s.pending := rfl
@[simp] theorem modSf_now (i : Nat) (g : Sf → Sf) (s : State) : (modSf i g s).now = s.now := rfl
@[simp] theorem modSf_up (i : Nat) (g : Sf → Sf) (s : State) : (modSf i g s).up = s.up := rfl
@[simp] theorem modSf_freeCtr (i : Nat) (g : Sf → Sf) (s : State) : (modSf i g s).freeCtr = s.freeCtr := rfl
@[simp] theorem modSf_counts (i : Nat) (g : Sf → Sf) (s : State) : (modSf i g s).counts = s.counts := rfl
@[simp] theorem modSf_sent (i : Nat) (g : Sf → Sf) (s : State) : (modSf i g s).sent = s.sent := rfl
@[simp] theorem modSf_ports (i : Nat) (g : Sf → Sf) (s : State) : (modSf i g s).ports = s.ports := rfl
@[simp] theorem modSf_wins (i : Nat) (g : Sf → Sf) (s : State) : (modSf i g s).wins = s.wins := rfl
@[simp] theorem modSf_areas (i : Nat) (g : Sf → Sf) (s : State) : (modSf i g s).areas = s.areas := rfl
@[simp] theorem modSf_aregs (i : Nat) (g : Sf → Sf) (s : State) : (modSf i g s).aregs = s.aregs := rfl
@[simp] theorem modSf_sw (i : Nat) (g : Sf → Sf) (s : State) : (modSf i g s).sw = s.sw := rfl
@[simp] theorem modSf_mm (i : Nat) (g : Sf → Sf) (s : State) : (modSf i g s).mm = s.mm := rfl
@[simp] theorem modSf_mx (i : Nat) (g : Sf → Sf) (s : State) : (modSf i g s).mx = s.mx := rfl
@[simp] theorem modSf_su (i : Nat) (g : Sf → Sf) (s : State) : (modSf i g s).su = s.su := rfl
@[simp] theorem modSf_att (i : Nat) (g : Sf → Sf) (s : State) : (modSf i g s).att = s.att := rfl
@[simp] theorem modSf_stks (i : Nat) (g : Sf → Sf) (s : State) : (modSf i g s).stks = s.stks := rfl
@[simp] theorem modSf_sht (i : Nat) (g : Sf → Sf) (s : State) : (modSf i g s).sht = s.sht := rfl
@[simp] theorem modSf_time (i : Nat) (g : Sf → Sf) (s : State) : (modSf i g s).time = s.time := rfl
@[simp] theorem modSf_fab (i : Nat) (g : Sf → Sf) (s : State) : (modSf i g s).fab = s.fab := rfl
@[simp] theorem modSf_bulk (i : Nat) (g : Sf → Sf) (s : State) : (modSf i g s).bulk = s.bulk := rfl
@[simp] theorem modSf_remote (i : Nat) (g : Sf → Sf) (s : State) : (modSf i g s).remote = s.remote := rfl
@[simp] theorem modSf_nextJob (i : Nat) (g : Sf → Sf) (s : State) : (modSf i g s).nextJob = s.nextJob := rfl
@[simp] theorem modSf_regions (i : Nat) (g : Sf → Sf) (s : State) : (modSf i g s).regions = s.regions := rfl
@[simp] theorem modSf_pwr (i : Nat) (g : Sf → Sf) (s : State) : (modSf i g s).pwr = s.pwr := rfl
@[simp] theorem modSf_fence (i : Nat) (g : Sf → Sf) (s : State) : (modSf i g s).fence = s.fence := rfl
@[simp] theorem modSf_bru (i : Nat) (g : Sf → Sf) (s : State) : (modSf i g s).bru = s.bru := rfl
@[simp] theorem modSf_ras (i : Nat) (g : Sf → Sf) (s : State) : (modSf i g s).ras = s.ras := rfl
@[simp] theorem modSf_sec (i : Nat) (g : Sf → Sf) (s : State) : (modSf i g s).sec = s.sec := rfl
@[simp] theorem modSf_mod (i : Nat) (g : Sf → Sf) (s : State) : (modSf i g s).mod = s.mod := rfl
@[simp] theorem modSf_sf (i : Nat) (g : Sf → Sf) (s : State) : (modSf i g s).sf = alter default s.sf i g := rfl
@[simp] theorem sfAt_modSf_self (i : Nat) (g : Sf → Sf) (s : State) : sfAt (modSf i g s) i = g (sfAt s i) := by simp [sfAt, modSf]
theorem sfAt_modSf_ne (i j : Nat) (g : Sf → Sf) (s : State) (h : j ≠ i) : sfAt (modSf i g s) j = sfAt s j := by
  simp only [sfAt, modSf]
  exact look_alter_ne _ _ _ _ _ h
@[simp] theorem portAt_modSf (i j : Nat) (g : Sf → Sf) (s : State) : portAt (modSf i g s) j = portAt s j := rfl
@[simp] theorem winAt_modSf (i j : Nat) (g : Sf → Sf) (s : State) : winAt (modSf i g s) j = winAt s j := rfl
@[simp] theorem areaAt_modSf (i j : Nat) (g : Sf → Sf) (s : State) : areaAt (modSf i g s) j = areaAt s j := rfl
@[simp] theorem aregAt_modSf (i j : Nat) (g : Sf → Sf) (s : State) : aregAt (modSf i g s) j = aregAt s j := rfl
@[simp] theorem swAt_modSf (i j : Nat) (g : Sf → Sf) (s : State) : swAt (modSf i g s) j = swAt s j := rfl
@[simp] theorem mmAt_modSf (i j : Nat) (g : Sf → Sf) (s : State) : mmAt (modSf i g s) j = mmAt s j := rfl
@[simp] theorem mxAt_modSf (i j : Nat) (g : Sf → Sf) (s : State) : mxAt (modSf i g s) j = mxAt s j := rfl
@[simp] theorem suAt_modSf (i j : Nat) (g : Sf → Sf) (s : State) : suAt (modSf i g s) j = suAt s j := rfl
@[simp] theorem attAt_modSf (i j : Nat) (g : Sf → Sf) (s : State) : attAt (modSf i g s) j = attAt s j := rfl
@[simp] theorem stackAt_modSf (i j : Nat) (g : Sf → Sf) (s : State) : stackAt (modSf i g s) j = stackAt s j := rfl
@[simp] theorem shtAt_modSf (i j : Nat) (g : Sf → Sf) (s : State) : shtAt (modSf i g s) j = shtAt s j := rfl
@[simp] theorem regionAt_modSf (i j : Nat) (g : Sf → Sf) (s : State) : regionAt (modSf i g s) j = regionAt s j := rfl

/-! ## modSu -/

@[simp] theorem modSu_pending (i : Nat) (g : Su → Su) (s : State) : (modSu i g s).pending = s.pending := rfl
@[simp] theorem modSu_now (i : Nat) (g : Su → Su) (s : State) : (modSu i g s).now = s.now := rfl
@[simp] theorem modSu_up (i : Nat) (g : Su → Su) (s : State) : (modSu i g s).up = s.up := rfl
@[simp] theorem modSu_freeCtr (i : Nat) (g : Su → Su) (s : State) : (modSu i g s).freeCtr = s.freeCtr := rfl
@[simp] theorem modSu_counts (i : Nat) (g : Su → Su) (s : State) : (modSu i g s).counts = s.counts := rfl
@[simp] theorem modSu_sent (i : Nat) (g : Su → Su) (s : State) : (modSu i g s).sent = s.sent := rfl
@[simp] theorem modSu_ports (i : Nat) (g : Su → Su) (s : State) : (modSu i g s).ports = s.ports := rfl
@[simp] theorem modSu_wins (i : Nat) (g : Su → Su) (s : State) : (modSu i g s).wins = s.wins := rfl
@[simp] theorem modSu_areas (i : Nat) (g : Su → Su) (s : State) : (modSu i g s).areas = s.areas := rfl
@[simp] theorem modSu_aregs (i : Nat) (g : Su → Su) (s : State) : (modSu i g s).aregs = s.aregs := rfl
@[simp] theorem modSu_sw (i : Nat) (g : Su → Su) (s : State) : (modSu i g s).sw = s.sw := rfl
@[simp] theorem modSu_mm (i : Nat) (g : Su → Su) (s : State) : (modSu i g s).mm = s.mm := rfl
@[simp] theorem modSu_mx (i : Nat) (g : Su → Su) (s : State) : (modSu i g s).mx = s.mx := rfl
@[simp] theorem modSu_sf (i : Nat) (g : Su → Su) (s : State) : (modSu i g s).sf = s.sf := rfl
@[simp] theorem modSu_att (i : Nat) (g : Su → Su) (s : State) : (modSu i g s).att = s.att := rfl
@[simp] theorem modSu_stks (i : Nat) (g : Su → Su) (s : State) : (modSu i g s).stks = s.stks := rfl
@[simp] theorem modSu_sht (i : Nat) (g : Su → Su) (s : State) : (modSu i g s).sht = s.sht := rfl
@[simp] theorem modSu_time (i : Nat) (g : Su → Su) (s : State) : (modSu i g s).time = s.time := rfl
@[simp] theorem modSu_fab (i : Nat) (g : Su → Su) (s : State) : (modSu i g s).fab = s.fab := rfl
@[simp] theorem modSu_bulk (i : Nat) (g : Su → Su) (s : State) : (modSu i g s).bulk = s.bulk := rfl
@[simp] theorem modSu_remote (i : Nat) (g : Su → Su) (s : State) : (modSu i g s).remote = s.remote := rfl
@[simp] theorem modSu_nextJob (i : Nat) (g : Su → Su) (s : State) : (modSu i g s).nextJob = s.nextJob := rfl
@[simp] theorem modSu_regions (i : Nat) (g : Su → Su) (s : State) : (modSu i g s).regions = s.regions := rfl
@[simp] theorem modSu_pwr (i : Nat) (g : Su → Su) (s : State) : (modSu i g s).pwr = s.pwr := rfl
@[simp] theorem modSu_fence (i : Nat) (g : Su → Su) (s : State) : (modSu i g s).fence = s.fence := rfl
@[simp] theorem modSu_bru (i : Nat) (g : Su → Su) (s : State) : (modSu i g s).bru = s.bru := rfl
@[simp] theorem modSu_ras (i : Nat) (g : Su → Su) (s : State) : (modSu i g s).ras = s.ras := rfl
@[simp] theorem modSu_sec (i : Nat) (g : Su → Su) (s : State) : (modSu i g s).sec = s.sec := rfl
@[simp] theorem modSu_mod (i : Nat) (g : Su → Su) (s : State) : (modSu i g s).mod = s.mod := rfl
@[simp] theorem modSu_su (i : Nat) (g : Su → Su) (s : State) : (modSu i g s).su = alter default s.su i g := rfl
@[simp] theorem suAt_modSu_self (i : Nat) (g : Su → Su) (s : State) : suAt (modSu i g s) i = g (suAt s i) := by simp [suAt, modSu]
theorem suAt_modSu_ne (i j : Nat) (g : Su → Su) (s : State) (h : j ≠ i) : suAt (modSu i g s) j = suAt s j := by
  simp only [suAt, modSu]
  exact look_alter_ne _ _ _ _ _ h
@[simp] theorem portAt_modSu (i j : Nat) (g : Su → Su) (s : State) : portAt (modSu i g s) j = portAt s j := rfl
@[simp] theorem winAt_modSu (i j : Nat) (g : Su → Su) (s : State) : winAt (modSu i g s) j = winAt s j := rfl
@[simp] theorem areaAt_modSu (i j : Nat) (g : Su → Su) (s : State) : areaAt (modSu i g s) j = areaAt s j := rfl
@[simp] theorem aregAt_modSu (i j : Nat) (g : Su → Su) (s : State) : aregAt (modSu i g s) j = aregAt s j := rfl
@[simp] theorem swAt_modSu (i j : Nat) (g : Su → Su) (s : State) : swAt (modSu i g s) j = swAt s j := rfl
@[simp] theorem mmAt_modSu (i j : Nat) (g : Su → Su) (s : State) : mmAt (modSu i g s) j = mmAt s j := rfl
@[simp] theorem mxAt_modSu (i j : Nat) (g : Su → Su) (s : State) : mxAt (modSu i g s) j = mxAt s j := rfl
@[simp] theorem sfAt_modSu (i j : Nat) (g : Su → Su) (s : State) : sfAt (modSu i g s) j = sfAt s j := rfl
@[simp] theorem attAt_modSu (i j : Nat) (g : Su → Su) (s : State) : attAt (modSu i g s) j = attAt s j := rfl
@[simp] theorem stackAt_modSu (i j : Nat) (g : Su → Su) (s : State) : stackAt (modSu i g s) j = stackAt s j := rfl
@[simp] theorem shtAt_modSu (i j : Nat) (g : Su → Su) (s : State) : shtAt (modSu i g s) j = shtAt s j := rfl
@[simp] theorem regionAt_modSu (i j : Nat) (g : Su → Su) (s : State) : regionAt (modSu i g s) j = regionAt s j := rfl

/-! ## modAtt -/

@[simp] theorem modAtt_pending (i : Nat) (g : Attach → Attach) (s : State) : (modAtt i g s).pending = s.pending := rfl
@[simp] theorem modAtt_now (i : Nat) (g : Attach → Attach) (s : State) : (modAtt i g s).now = s.now := rfl
@[simp] theorem modAtt_up (i : Nat) (g : Attach → Attach) (s : State) : (modAtt i g s).up = s.up := rfl
@[simp] theorem modAtt_freeCtr (i : Nat) (g : Attach → Attach) (s : State) : (modAtt i g s).freeCtr = s.freeCtr := rfl
@[simp] theorem modAtt_counts (i : Nat) (g : Attach → Attach) (s : State) : (modAtt i g s).counts = s.counts := rfl
@[simp] theorem modAtt_sent (i : Nat) (g : Attach → Attach) (s : State) : (modAtt i g s).sent = s.sent := rfl
@[simp] theorem modAtt_ports (i : Nat) (g : Attach → Attach) (s : State) : (modAtt i g s).ports = s.ports := rfl
@[simp] theorem modAtt_wins (i : Nat) (g : Attach → Attach) (s : State) : (modAtt i g s).wins = s.wins := rfl
@[simp] theorem modAtt_areas (i : Nat) (g : Attach → Attach) (s : State) : (modAtt i g s).areas = s.areas := rfl
@[simp] theorem modAtt_aregs (i : Nat) (g : Attach → Attach) (s : State) : (modAtt i g s).aregs = s.aregs := rfl
@[simp] theorem modAtt_sw (i : Nat) (g : Attach → Attach) (s : State) : (modAtt i g s).sw = s.sw := rfl
@[simp] theorem modAtt_mm (i : Nat) (g : Attach → Attach) (s : State) : (modAtt i g s).mm = s.mm := rfl
@[simp] theorem modAtt_mx (i : Nat) (g : Attach → Attach) (s : State) : (modAtt i g s).mx = s.mx := rfl
@[simp] theorem modAtt_sf (i : Nat) (g : Attach → Attach) (s : State) : (modAtt i g s).sf = s.sf := rfl
@[simp] theorem modAtt_su (i : Nat) (g : Attach → Attach) (s : State) : (modAtt i g s).su = s.su := rfl
@[simp] theorem modAtt_stks (i : Nat) (g : Attach → Attach) (s : State) : (modAtt i g s).stks = s.stks := rfl
@[simp] theorem modAtt_sht (i : Nat) (g : Attach → Attach) (s : State) : (modAtt i g s).sht = s.sht := rfl
@[simp] theorem modAtt_time (i : Nat) (g : Attach → Attach) (s : State) : (modAtt i g s).time = s.time := rfl
@[simp] theorem modAtt_fab (i : Nat) (g : Attach → Attach) (s : State) : (modAtt i g s).fab = s.fab := rfl
@[simp] theorem modAtt_bulk (i : Nat) (g : Attach → Attach) (s : State) : (modAtt i g s).bulk = s.bulk := rfl
@[simp] theorem modAtt_remote (i : Nat) (g : Attach → Attach) (s : State) : (modAtt i g s).remote = s.remote := rfl
@[simp] theorem modAtt_nextJob (i : Nat) (g : Attach → Attach) (s : State) : (modAtt i g s).nextJob = s.nextJob := rfl
@[simp] theorem modAtt_regions (i : Nat) (g : Attach → Attach) (s : State) : (modAtt i g s).regions = s.regions := rfl
@[simp] theorem modAtt_pwr (i : Nat) (g : Attach → Attach) (s : State) : (modAtt i g s).pwr = s.pwr := rfl
@[simp] theorem modAtt_fence (i : Nat) (g : Attach → Attach) (s : State) : (modAtt i g s).fence = s.fence := rfl
@[simp] theorem modAtt_bru (i : Nat) (g : Attach → Attach) (s : State) : (modAtt i g s).bru = s.bru := rfl
@[simp] theorem modAtt_ras (i : Nat) (g : Attach → Attach) (s : State) : (modAtt i g s).ras = s.ras := rfl
@[simp] theorem modAtt_sec (i : Nat) (g : Attach → Attach) (s : State) : (modAtt i g s).sec = s.sec := rfl
@[simp] theorem modAtt_mod (i : Nat) (g : Attach → Attach) (s : State) : (modAtt i g s).mod = s.mod := rfl
@[simp] theorem modAtt_att (i : Nat) (g : Attach → Attach) (s : State) : (modAtt i g s).att = alter default s.att i g := rfl
@[simp] theorem attAt_modAtt_self (i : Nat) (g : Attach → Attach) (s : State) : attAt (modAtt i g s) i = g (attAt s i) := by simp [attAt, modAtt]
theorem attAt_modAtt_ne (i j : Nat) (g : Attach → Attach) (s : State) (h : j ≠ i) : attAt (modAtt i g s) j = attAt s j := by
  simp only [attAt, modAtt]
  exact look_alter_ne _ _ _ _ _ h
@[simp] theorem portAt_modAtt (i j : Nat) (g : Attach → Attach) (s : State) : portAt (modAtt i g s) j = portAt s j := rfl
@[simp] theorem winAt_modAtt (i j : Nat) (g : Attach → Attach) (s : State) : winAt (modAtt i g s) j = winAt s j := rfl
@[simp] theorem areaAt_modAtt (i j : Nat) (g : Attach → Attach) (s : State) : areaAt (modAtt i g s) j = areaAt s j := rfl
@[simp] theorem aregAt_modAtt (i j : Nat) (g : Attach → Attach) (s : State) : aregAt (modAtt i g s) j = aregAt s j := rfl
@[simp] theorem swAt_modAtt (i j : Nat) (g : Attach → Attach) (s : State) : swAt (modAtt i g s) j = swAt s j := rfl
@[simp] theorem mmAt_modAtt (i j : Nat) (g : Attach → Attach) (s : State) : mmAt (modAtt i g s) j = mmAt s j := rfl
@[simp] theorem mxAt_modAtt (i j : Nat) (g : Attach → Attach) (s : State) : mxAt (modAtt i g s) j = mxAt s j := rfl
@[simp] theorem sfAt_modAtt (i j : Nat) (g : Attach → Attach) (s : State) : sfAt (modAtt i g s) j = sfAt s j := rfl
@[simp] theorem suAt_modAtt (i j : Nat) (g : Attach → Attach) (s : State) : suAt (modAtt i g s) j = suAt s j := rfl
@[simp] theorem stackAt_modAtt (i j : Nat) (g : Attach → Attach) (s : State) : stackAt (modAtt i g s) j = stackAt s j := rfl
@[simp] theorem shtAt_modAtt (i j : Nat) (g : Attach → Attach) (s : State) : shtAt (modAtt i g s) j = shtAt s j := rfl
@[simp] theorem regionAt_modAtt (i j : Nat) (g : Attach → Attach) (s : State) : regionAt (modAtt i g s) j = regionAt s j := rfl

/-! ## modStack -/

@[simp] theorem modStack_pending (i : Nat) (g : Stack → Stack) (s : State) : (modStack i g s).pending = s.pending := rfl
@[simp] theorem modStack_now (i : Nat) (g : Stack → Stack) (s : State) : (modStack i g s).now = s.now := rfl
@[simp] theorem modStack_up (i : Nat) (g : Stack → Stack) (s : State) : (modStack i g s).up = s.up := rfl
@[simp] theorem modStack_freeCtr (i : Nat) (g : Stack → Stack) (s : State) : (modStack i g s).freeCtr = s.freeCtr := rfl
@[simp] theorem modStack_counts (i : Nat) (g : Stack → Stack) (s : State) : (modStack i g s).counts = s.counts := rfl
@[simp] theorem modStack_sent (i : Nat) (g : Stack → Stack) (s : State) : (modStack i g s).sent = s.sent := rfl
@[simp] theorem modStack_ports (i : Nat) (g : Stack → Stack) (s : State) : (modStack i g s).ports = s.ports := rfl
@[simp] theorem modStack_wins (i : Nat) (g : Stack → Stack) (s : State) : (modStack i g s).wins = s.wins := rfl
@[simp] theorem modStack_areas (i : Nat) (g : Stack → Stack) (s : State) : (modStack i g s).areas = s.areas := rfl
@[simp] theorem modStack_aregs (i : Nat) (g : Stack → Stack) (s : State) : (modStack i g s).aregs = s.aregs := rfl
@[simp] theorem modStack_sw (i : Nat) (g : Stack → Stack) (s : State) : (modStack i g s).sw = s.sw := rfl
@[simp] theorem modStack_mm (i : Nat) (g : Stack → Stack) (s : State) : (modStack i g s).mm = s.mm := rfl
@[simp] theorem modStack_mx (i : Nat) (g : Stack → Stack) (s : State) : (modStack i g s).mx = s.mx := rfl
@[simp] theorem modStack_sf (i : Nat) (g : Stack → Stack) (s : State) : (modStack i g s).sf = s.sf := rfl
@[simp] theorem modStack_su (i : Nat) (g : Stack → Stack) (s : State) : (modStack i g s).su = s.su := rfl
@[simp] theorem modStack_att (i : Nat) (g : Stack → Stack) (s : State) : (modStack i g s).att = s.att := rfl
@[simp] theorem modStack_sht (i : Nat) (g : Stack → Stack) (s : State) : (modStack i g s).sht = s.sht := rfl
@[simp] theorem modStack_time (i : Nat) (g : Stack → Stack) (s : State) : (modStack i g s).time = s.time := rfl
@[simp] theorem modStack_fab (i : Nat) (g : Stack → Stack) (s : State) : (modStack i g s).fab = s.fab := rfl
@[simp] theorem modStack_bulk (i : Nat) (g : Stack → Stack) (s : State) : (modStack i g s).bulk = s.bulk := rfl
@[simp] theorem modStack_remote (i : Nat) (g : Stack → Stack) (s : State) : (modStack i g s).remote = s.remote := rfl
@[simp] theorem modStack_nextJob (i : Nat) (g : Stack → Stack) (s : State) : (modStack i g s).nextJob = s.nextJob := rfl
@[simp] theorem modStack_regions (i : Nat) (g : Stack → Stack) (s : State) : (modStack i g s).regions = s.regions := rfl
@[simp] theorem modStack_pwr (i : Nat) (g : Stack → Stack) (s : State) : (modStack i g s).pwr = s.pwr := rfl
@[simp] theorem modStack_fence (i : Nat) (g : Stack → Stack) (s : State) : (modStack i g s).fence = s.fence := rfl
@[simp] theorem modStack_bru (i : Nat) (g : Stack → Stack) (s : State) : (modStack i g s).bru = s.bru := rfl
@[simp] theorem modStack_ras (i : Nat) (g : Stack → Stack) (s : State) : (modStack i g s).ras = s.ras := rfl
@[simp] theorem modStack_sec (i : Nat) (g : Stack → Stack) (s : State) : (modStack i g s).sec = s.sec := rfl
@[simp] theorem modStack_mod (i : Nat) (g : Stack → Stack) (s : State) : (modStack i g s).mod = s.mod := rfl
@[simp] theorem modStack_stks (i : Nat) (g : Stack → Stack) (s : State) : (modStack i g s).stks = alter default s.stks i g := rfl
@[simp] theorem stackAt_modStack_self (i : Nat) (g : Stack → Stack) (s : State) : stackAt (modStack i g s) i = g (stackAt s i) := by simp [stackAt, modStack]
theorem stackAt_modStack_ne (i j : Nat) (g : Stack → Stack) (s : State) (h : j ≠ i) : stackAt (modStack i g s) j = stackAt s j := by
  simp only [stackAt, modStack]
  exact look_alter_ne _ _ _ _ _ h
@[simp] theorem portAt_modStack (i j : Nat) (g : Stack → Stack) (s : State) : portAt (modStack i g s) j = portAt s j := rfl
@[simp] theorem winAt_modStack (i j : Nat) (g : Stack → Stack) (s : State) : winAt (modStack i g s) j = winAt s j := rfl
@[simp] theorem areaAt_modStack (i j : Nat) (g : Stack → Stack) (s : State) : areaAt (modStack i g s) j = areaAt s j := rfl
@[simp] theorem aregAt_modStack (i j : Nat) (g : Stack → Stack) (s : State) : aregAt (modStack i g s) j = aregAt s j := rfl
@[simp] theorem swAt_modStack (i j : Nat) (g : Stack → Stack) (s : State) : swAt (modStack i g s) j = swAt s j := rfl
@[simp] theorem mmAt_modStack (i j : Nat) (g : Stack → Stack) (s : State) : mmAt (modStack i g s) j = mmAt s j := rfl
@[simp] theorem mxAt_modStack (i j : Nat) (g : Stack → Stack) (s : State) : mxAt (modStack i g s) j = mxAt s j := rfl
@[simp] theorem sfAt_modStack (i j : Nat) (g : Stack → Stack) (s : State) : sfAt (modStack i g s) j = sfAt s j := rfl
@[simp] theorem suAt_modStack (i j : Nat) (g : Stack → Stack) (s : State) : suAt (modStack i g s) j = suAt s j := rfl
@[simp] theorem attAt_modStack (i j : Nat) (g : Stack → Stack) (s : State) : attAt (modStack i g s) j = attAt s j := rfl
@[simp] theorem shtAt_modStack (i j : Nat) (g : Stack → Stack) (s : State) : shtAt (modStack i g s) j = shtAt s j := rfl
@[simp] theorem regionAt_modStack (i j : Nat) (g : Stack → Stack) (s : State) : regionAt (modStack i g s) j = regionAt s j := rfl

/-! ## modSht -/

@[simp] theorem modSht_pending (i : Nat) (g : Shuttle → Shuttle) (s : State) : (modSht i g s).pending = s.pending := rfl
@[simp] theorem modSht_now (i : Nat) (g : Shuttle → Shuttle) (s : State) : (modSht i g s).now = s.now := rfl
@[simp] theorem modSht_up (i : Nat) (g : Shuttle → Shuttle) (s : State) : (modSht i g s).up = s.up := rfl
@[simp] theorem modSht_freeCtr (i : Nat) (g : Shuttle → Shuttle) (s : State) : (modSht i g s).freeCtr = s.freeCtr := rfl
@[simp] theorem modSht_counts (i : Nat) (g : Shuttle → Shuttle) (s : State) : (modSht i g s).counts = s.counts := rfl
@[simp] theorem modSht_sent (i : Nat) (g : Shuttle → Shuttle) (s : State) : (modSht i g s).sent = s.sent := rfl
@[simp] theorem modSht_ports (i : Nat) (g : Shuttle → Shuttle) (s : State) : (modSht i g s).ports = s.ports := rfl
@[simp] theorem modSht_wins (i : Nat) (g : Shuttle → Shuttle) (s : State) : (modSht i g s).wins = s.wins := rfl
@[simp] theorem modSht_areas (i : Nat) (g : Shuttle → Shuttle) (s : State) : (modSht i g s).areas = s.areas := rfl
@[simp] theorem modSht_aregs (i : Nat) (g : Shuttle → Shuttle) (s : State) : (modSht i g s).aregs = s.aregs := rfl
@[simp] theorem modSht_sw (i : Nat) (g : Shuttle → Shuttle) (s : State) : (modSht i g s).sw = s.sw := rfl
@[simp] theorem modSht_mm (i : Nat) (g : Shuttle → Shuttle) (s : State) : (modSht i g s).mm = s.mm := rfl
@[simp] theorem modSht_mx (i : Nat) (g : Shuttle → Shuttle) (s : State) : (modSht i g s).mx = s.mx := rfl
@[simp] theorem modSht_sf (i : Nat) (g : Shuttle → Shuttle) (s : State) : (modSht i g s).sf = s.sf := rfl
@[simp] theorem modSht_su (i : Nat) (g : Shuttle → Shuttle) (s : State) : (modSht i g s).su = s.su := rfl
@[simp] theorem modSht_att (i : Nat) (g : Shuttle → Shuttle) (s : State) : (modSht i g s).att = s.att := rfl
@[simp] theorem modSht_stks (i : Nat) (g : Shuttle → Shuttle) (s : State) : (modSht i g s).stks = s.stks := rfl
@[simp] theorem modSht_time (i : Nat) (g : Shuttle → Shuttle) (s : State) : (modSht i g s).time = s.time := rfl
@[simp] theorem modSht_fab (i : Nat) (g : Shuttle → Shuttle) (s : State) : (modSht i g s).fab = s.fab := rfl
@[simp] theorem modSht_bulk (i : Nat) (g : Shuttle → Shuttle) (s : State) : (modSht i g s).bulk = s.bulk := rfl
@[simp] theorem modSht_remote (i : Nat) (g : Shuttle → Shuttle) (s : State) : (modSht i g s).remote = s.remote := rfl
@[simp] theorem modSht_nextJob (i : Nat) (g : Shuttle → Shuttle) (s : State) : (modSht i g s).nextJob = s.nextJob := rfl
@[simp] theorem modSht_regions (i : Nat) (g : Shuttle → Shuttle) (s : State) : (modSht i g s).regions = s.regions := rfl
@[simp] theorem modSht_pwr (i : Nat) (g : Shuttle → Shuttle) (s : State) : (modSht i g s).pwr = s.pwr := rfl
@[simp] theorem modSht_fence (i : Nat) (g : Shuttle → Shuttle) (s : State) : (modSht i g s).fence = s.fence := rfl
@[simp] theorem modSht_bru (i : Nat) (g : Shuttle → Shuttle) (s : State) : (modSht i g s).bru = s.bru := rfl
@[simp] theorem modSht_ras (i : Nat) (g : Shuttle → Shuttle) (s : State) : (modSht i g s).ras = s.ras := rfl
@[simp] theorem modSht_sec (i : Nat) (g : Shuttle → Shuttle) (s : State) : (modSht i g s).sec = s.sec := rfl
@[simp] theorem modSht_mod (i : Nat) (g : Shuttle → Shuttle) (s : State) : (modSht i g s).mod = s.mod := rfl
@[simp] theorem modSht_sht (i : Nat) (g : Shuttle → Shuttle) (s : State) : (modSht i g s).sht = alter default s.sht i g := rfl
@[simp] theorem shtAt_modSht_self (i : Nat) (g : Shuttle → Shuttle) (s : State) : shtAt (modSht i g s) i = g (shtAt s i) := by simp [shtAt, modSht]
theorem shtAt_modSht_ne (i j : Nat) (g : Shuttle → Shuttle) (s : State) (h : j ≠ i) : shtAt (modSht i g s) j = shtAt s j := by
  simp only [shtAt, modSht]
  exact look_alter_ne _ _ _ _ _ h
@[simp] theorem portAt_modSht (i j : Nat) (g : Shuttle → Shuttle) (s : State) : portAt (modSht i g s) j = portAt s j := rfl
@[simp] theorem winAt_modSht (i j : Nat) (g : Shuttle → Shuttle) (s : State) : winAt (modSht i g s) j = winAt s j := rfl
@[simp] theorem areaAt_modSht (i j : Nat) (g : Shuttle → Shuttle) (s : State) : areaAt (modSht i g s) j = areaAt s j := rfl
@[simp] theorem aregAt_modSht (i j : Nat) (g : Shuttle → Shuttle) (s : State) : aregAt (modSht i g s) j = aregAt s j := rfl
@[simp] theorem swAt_modSht (i j : Nat) (g : Shuttle → Shuttle) (s : State) : swAt (modSht i g s) j = swAt s j := rfl
@[simp] theorem mmAt_modSht (i j : Nat) (g : Shuttle → Shuttle) (s : State) : mmAt (modSht i g s) j = mmAt s j := rfl
@[simp] theorem mxAt_modSht (i j : Nat) (g : Shuttle → Shuttle) (s : State) : mxAt (modSht i g s) j = mxAt s j := rfl
@[simp] theorem sfAt_modSht (i j : Nat) (g : Shuttle → Shuttle) (s : State) : sfAt (modSht i g s) j = sfAt s j := rfl
@[simp] theorem suAt_modSht (i j : Nat) (g : Shuttle → Shuttle) (s : State) : suAt (modSht i g s) j = suAt s j := rfl
@[simp] theorem attAt_modSht (i j : Nat) (g : Shuttle → Shuttle) (s : State) : attAt (modSht i g s) j = attAt s j := rfl
@[simp] theorem stackAt_modSht (i j : Nat) (g : Shuttle → Shuttle) (s : State) : stackAt (modSht i g s) j = stackAt s j := rfl
@[simp] theorem regionAt_modSht (i j : Nat) (g : Shuttle → Shuttle) (s : State) : regionAt (modSht i g s) j = regionAt s j := rfl

/-! ## modRegion -/

@[simp] theorem modRegion_pending (i : Nat) (g : Region → Region) (s : State) : (modRegion i g s).pending = s.pending := rfl
@[simp] theorem modRegion_now (i : Nat) (g : Region → Region) (s : State) : (modRegion i g s).now = s.now := rfl
@[simp] theorem modRegion_up (i : Nat) (g : Region → Region) (s : State) : (modRegion i g s).up = s.up := rfl
@[simp] theorem modRegion_freeCtr (i : Nat) (g : Region → Region) (s : State) : (modRegion i g s).freeCtr = s.freeCtr := rfl
@[simp] theorem modRegion_counts (i : Nat) (g : Region → Region) (s : State) : (modRegion i g s).counts = s.counts := rfl
@[simp] theorem modRegion_sent (i : Nat) (g : Region → Region) (s : State) : (modRegion i g s).sent = s.sent := rfl
@[simp] theorem modRegion_ports (i : Nat) (g : Region → Region) (s : State) : (modRegion i g s).ports = s.ports := rfl
@[simp] theorem modRegion_wins (i : Nat) (g : Region → Region) (s : State) : (modRegion i g s).wins = s.wins := rfl
@[simp] theorem modRegion_areas (i : Nat) (g : Region → Region) (s : State) : (modRegion i g s).areas = s.areas := rfl
@[simp] theorem modRegion_aregs (i : Nat) (g : Region → Region) (s : State) : (modRegion i g s).aregs = s.aregs := rfl
@[simp] theorem modRegion_sw (i : Nat) (g : Region → Region) (s : State) : (modRegion i g s).sw = s.sw := rfl
@[simp] theorem modRegion_mm (i : Nat) (g : Region → Region) (s : State) : (modRegion i g s).mm = s.mm := rfl
@[simp] theorem modRegion_mx (i : Nat) (g : Region → Region) (s : State) : (modRegion i g s).mx = s.mx := rfl
@[simp] theorem modRegion_sf (i : Nat) (g : Region → Region) (s : State) : (modRegion i g s).sf = s.sf := rfl
@[simp] theorem modRegion_su (i : Nat) (g : Region → Region) (s : State) : (modRegion i g s).su = s.su := rfl
@[simp] theorem modRegion_att (i : Nat) (g : Region → Region) (s : State) : (modRegion i g s).att = s.att := rfl
@[simp] theorem modRegion_stks (i : Nat) (g : Region → Region) (s : State) : (modRegion i g s).stks = s.stks := rfl
@[simp] theorem modRegion_sht (i : Nat) (g : Region → Region) (s : State) : (modRegion i g s).sht = s.sht := rfl
@[simp] theorem modRegion_time (i : Nat) (g : Region → Region) (s : State) : (modRegion i g s).time = s.time := rfl
@[simp] theorem modRegion_fab (i : Nat) (g : Region → Region) (s : State) : (modRegion i g s).fab = s.fab := rfl
@[simp] theorem modRegion_bulk (i : Nat) (g : Region → Region) (s : State) : (modRegion i g s).bulk = s.bulk := rfl
@[simp] theorem modRegion_remote (i : Nat) (g : Region → Region) (s : State) : (modRegion i g s).remote = s.remote := rfl
@[simp] theorem modRegion_nextJob (i : Nat) (g : Region → Region) (s : State) : (modRegion i g s).nextJob = s.nextJob := rfl
@[simp] theorem modRegion_pwr (i : Nat) (g : Region → Region) (s : State) : (modRegion i g s).pwr = s.pwr := rfl
@[simp] theorem modRegion_fence (i : Nat) (g : Region → Region) (s : State) : (modRegion i g s).fence = s.fence := rfl
@[simp] theorem modRegion_bru (i : Nat) (g : Region → Region) (s : State) : (modRegion i g s).bru = s.bru := rfl
@[simp] theorem modRegion_ras (i : Nat) (g : Region → Region) (s : State) : (modRegion i g s).ras = s.ras := rfl
@[simp] theorem modRegion_sec (i : Nat) (g : Region → Region) (s : State) : (modRegion i g s).sec = s.sec := rfl
@[simp] theorem modRegion_mod (i : Nat) (g : Region → Region) (s : State) : (modRegion i g s).mod = s.mod := rfl
@[simp] theorem modRegion_regions (i : Nat) (g : Region → Region) (s : State) : (modRegion i g s).regions = alter Region.reset s.regions i g := rfl
@[simp] theorem regionAt_modRegion_self (i : Nat) (g : Region → Region) (s : State) : regionAt (modRegion i g s) i = g (regionAt s i) := by simp [regionAt, modRegion]
theorem regionAt_modRegion_ne (i j : Nat) (g : Region → Region) (s : State) (h : j ≠ i) : regionAt (modRegion i g s) j = regionAt s j := by
  simp only [regionAt, modRegion]
  exact look_alter_ne _ _ _ _ _ h
@[simp] theorem portAt_modRegion (i j : Nat) (g : Region → Region) (s : State) : portAt (modRegion i g s) j = portAt s j := rfl
@[simp] theorem winAt_modRegion (i j : Nat) (g : Region → Region) (s : State) : winAt (modRegion i g s) j = winAt s j := rfl
@[simp] theorem areaAt_modRegion (i j : Nat) (g : Region → Region) (s : State) : areaAt (modRegion i g s) j = areaAt s j := rfl
@[simp] theorem aregAt_modRegion (i j : Nat) (g : Region → Region) (s : State) : aregAt (modRegion i g s) j = aregAt s j := rfl
@[simp] theorem swAt_modRegion (i j : Nat) (g : Region → Region) (s : State) : swAt (modRegion i g s) j = swAt s j := rfl
@[simp] theorem mmAt_modRegion (i j : Nat) (g : Region → Region) (s : State) : mmAt (modRegion i g s) j = mmAt s j := rfl
@[simp] theorem mxAt_modRegion (i j : Nat) (g : Region → Region) (s : State) : mxAt (modRegion i g s) j = mxAt s j := rfl
@[simp] theorem sfAt_modRegion (i j : Nat) (g : Region → Region) (s : State) : sfAt (modRegion i g s) j = sfAt s j := rfl
@[simp] theorem suAt_modRegion (i j : Nat) (g : Region → Region) (s : State) : suAt (modRegion i g s) j = suAt s j := rfl
@[simp] theorem attAt_modRegion (i j : Nat) (g : Region → Region) (s : State) : attAt (modRegion i g s) j = attAt s j := rfl
@[simp] theorem stackAt_modRegion (i j : Nat) (g : Region → Region) (s : State) : stackAt (modRegion i g s) j = stackAt s j := rfl
@[simp] theorem shtAt_modRegion (i j : Nat) (g : Region → Region) (s : State) : shtAt (modRegion i g s) j = shtAt s j := rfl

/-! ## Counting and output -/

@[simp] theorem count_pending (c u n : Nat) (s : State) : (count c u n s).pending = s.pending := rfl
@[simp] theorem count_now (c u n : Nat) (s : State) : (count c u n s).now = s.now := rfl
@[simp] theorem count_up (c u n : Nat) (s : State) : (count c u n s).up = s.up := rfl
@[simp] theorem count_freeCtr (c u n : Nat) (s : State) : (count c u n s).freeCtr = s.freeCtr := rfl
@[simp] theorem count_sent (c u n : Nat) (s : State) : (count c u n s).sent = s.sent := rfl
@[simp] theorem count_ports (c u n : Nat) (s : State) : (count c u n s).ports = s.ports := rfl
@[simp] theorem count_wins (c u n : Nat) (s : State) : (count c u n s).wins = s.wins := rfl
@[simp] theorem count_areas (c u n : Nat) (s : State) : (count c u n s).areas = s.areas := rfl
@[simp] theorem count_aregs (c u n : Nat) (s : State) : (count c u n s).aregs = s.aregs := rfl
@[simp] theorem count_sw (c u n : Nat) (s : State) : (count c u n s).sw = s.sw := rfl
@[simp] theorem count_mm (c u n : Nat) (s : State) : (count c u n s).mm = s.mm := rfl
@[simp] theorem count_mx (c u n : Nat) (s : State) : (count c u n s).mx = s.mx := rfl
@[simp] theorem count_sf (c u n : Nat) (s : State) : (count c u n s).sf = s.sf := rfl
@[simp] theorem count_su (c u n : Nat) (s : State) : (count c u n s).su = s.su := rfl
@[simp] theorem count_att (c u n : Nat) (s : State) : (count c u n s).att = s.att := rfl
@[simp] theorem count_stks (c u n : Nat) (s : State) : (count c u n s).stks = s.stks := rfl
@[simp] theorem count_sht (c u n : Nat) (s : State) : (count c u n s).sht = s.sht := rfl
@[simp] theorem count_time (c u n : Nat) (s : State) : (count c u n s).time = s.time := rfl
@[simp] theorem count_fab (c u n : Nat) (s : State) : (count c u n s).fab = s.fab := rfl
@[simp] theorem count_bulk (c u n : Nat) (s : State) : (count c u n s).bulk = s.bulk := rfl
@[simp] theorem count_remote (c u n : Nat) (s : State) : (count c u n s).remote = s.remote := rfl
@[simp] theorem count_nextJob (c u n : Nat) (s : State) : (count c u n s).nextJob = s.nextJob := rfl
@[simp] theorem count_regions (c u n : Nat) (s : State) : (count c u n s).regions = s.regions := rfl
@[simp] theorem count_pwr (c u n : Nat) (s : State) : (count c u n s).pwr = s.pwr := rfl
@[simp] theorem count_fence (c u n : Nat) (s : State) : (count c u n s).fence = s.fence := rfl
@[simp] theorem count_bru (c u n : Nat) (s : State) : (count c u n s).bru = s.bru := rfl
@[simp] theorem count_ras (c u n : Nat) (s : State) : (count c u n s).ras = s.ras := rfl
@[simp] theorem count_sec (c u n : Nat) (s : State) : (count c u n s).sec = s.sec := rfl
@[simp] theorem count_mod (c u n : Nat) (s : State) : (count c u n s).mod = s.mod := rfl
@[simp] theorem portAt_count (c u n j : Nat) (s : State) : portAt (count c u n s) j = portAt s j := rfl
@[simp] theorem winAt_count (c u n j : Nat) (s : State) : winAt (count c u n s) j = winAt s j := rfl
@[simp] theorem areaAt_count (c u n j : Nat) (s : State) : areaAt (count c u n s) j = areaAt s j := rfl
@[simp] theorem aregAt_count (c u n j : Nat) (s : State) : aregAt (count c u n s) j = aregAt s j := rfl
@[simp] theorem swAt_count (c u n j : Nat) (s : State) : swAt (count c u n s) j = swAt s j := rfl
@[simp] theorem mmAt_count (c u n j : Nat) (s : State) : mmAt (count c u n s) j = mmAt s j := rfl
@[simp] theorem mxAt_count (c u n j : Nat) (s : State) : mxAt (count c u n s) j = mxAt s j := rfl
@[simp] theorem sfAt_count (c u n j : Nat) (s : State) : sfAt (count c u n s) j = sfAt s j := rfl
@[simp] theorem suAt_count (c u n j : Nat) (s : State) : suAt (count c u n s) j = suAt s j := rfl
@[simp] theorem attAt_count (c u n j : Nat) (s : State) : attAt (count c u n s) j = attAt s j := rfl
@[simp] theorem stackAt_count (c u n j : Nat) (s : State) : stackAt (count c u n s) j = stackAt s j := rfl
@[simp] theorem shtAt_count (c u n j : Nat) (s : State) : shtAt (count c u n s) j = shtAt s j := rfl
@[simp] theorem regionAt_count (c u n j : Nat) (s : State) : regionAt (count c u n s) j = regionAt s j := rfl
/-- A code's count at a unit rises by what was counted. -/
@[simp] theorem counted_count_self (c u n : Nat) (s : State) : counted (count c u n s) c u = counted s c u + n := by
  simp [counted, count]

@[simp] theorem emitSent_pending (x : Sent) (s : State) : (emitSent x s).pending = s.pending := rfl
@[simp] theorem emitSent_now (x : Sent) (s : State) : (emitSent x s).now = s.now := rfl
@[simp] theorem emitSent_up (x : Sent) (s : State) : (emitSent x s).up = s.up := rfl
@[simp] theorem emitSent_freeCtr (x : Sent) (s : State) : (emitSent x s).freeCtr = s.freeCtr := rfl
@[simp] theorem emitSent_counts (x : Sent) (s : State) : (emitSent x s).counts = s.counts := rfl
@[simp] theorem emitSent_ports (x : Sent) (s : State) : (emitSent x s).ports = s.ports := rfl
@[simp] theorem emitSent_wins (x : Sent) (s : State) : (emitSent x s).wins = s.wins := rfl
@[simp] theorem emitSent_areas (x : Sent) (s : State) : (emitSent x s).areas = s.areas := rfl
@[simp] theorem emitSent_aregs (x : Sent) (s : State) : (emitSent x s).aregs = s.aregs := rfl
@[simp] theorem emitSent_sw (x : Sent) (s : State) : (emitSent x s).sw = s.sw := rfl
@[simp] theorem emitSent_mm (x : Sent) (s : State) : (emitSent x s).mm = s.mm := rfl
@[simp] theorem emitSent_mx (x : Sent) (s : State) : (emitSent x s).mx = s.mx := rfl
@[simp] theorem emitSent_sf (x : Sent) (s : State) : (emitSent x s).sf = s.sf := rfl
@[simp] theorem emitSent_su (x : Sent) (s : State) : (emitSent x s).su = s.su := rfl
@[simp] theorem emitSent_att (x : Sent) (s : State) : (emitSent x s).att = s.att := rfl
@[simp] theorem emitSent_stks (x : Sent) (s : State) : (emitSent x s).stks = s.stks := rfl
@[simp] theorem emitSent_sht (x : Sent) (s : State) : (emitSent x s).sht = s.sht := rfl
@[simp] theorem emitSent_time (x : Sent) (s : State) : (emitSent x s).time = s.time := rfl
@[simp] theorem emitSent_fab (x : Sent) (s : State) : (emitSent x s).fab = s.fab := rfl
@[simp] theorem emitSent_bulk (x : Sent) (s : State) : (emitSent x s).bulk = s.bulk := rfl
@[simp] theorem emitSent_remote (x : Sent) (s : State) : (emitSent x s).remote = s.remote := rfl
@[simp] theorem emitSent_nextJob (x : Sent) (s : State) : (emitSent x s).nextJob = s.nextJob := rfl
@[simp] theorem emitSent_regions (x : Sent) (s : State) : (emitSent x s).regions = s.regions := rfl
@[simp] theorem emitSent_pwr (x : Sent) (s : State) : (emitSent x s).pwr = s.pwr := rfl
@[simp] theorem emitSent_fence (x : Sent) (s : State) : (emitSent x s).fence = s.fence := rfl
@[simp] theorem emitSent_bru (x : Sent) (s : State) : (emitSent x s).bru = s.bru := rfl
@[simp] theorem emitSent_ras (x : Sent) (s : State) : (emitSent x s).ras = s.ras := rfl
@[simp] theorem emitSent_sec (x : Sent) (s : State) : (emitSent x s).sec = s.sec := rfl
@[simp] theorem emitSent_mod (x : Sent) (s : State) : (emitSent x s).mod = s.mod := rfl
@[simp] theorem emitSent_sent (x : Sent) (s : State) : (emitSent x s).sent = s.sent ++ [x] := rfl

end Sys2Proof.Machine
end

