-- ==== Sys2Proof/Laws/Ops.lean ====
section
/-! SUPPORT. What the shared operations do, said once: whether a unit answers, the issue of a program word, the taking of a mailbox
command, the advance of time, reports, and which updates keep the stores canonical. -/
namespace Sys2Proof.Machine

/-! ## Units (R13-R15) -/

@[simp] theorem guardUnit_true (f : State → State) (s : State) : guardUnit true f s = .next (f s) := rfl
@[simp] theorem guardUnit_false (f : State → State) (s : State) : guardUnit false f s = .fault .absentUnit := rfl

theorem onSite_of_kind {k : SiteKind} {n : Nat} {f : State → State} {s : State} (h : sitePresent s.member n = true) (hk : kindOf n = k) :
    onSite k n f s = .next (f s) := by simp [onSite, h, hk]

/-- A command that is guarded by its unit answers next only as its state function does. -/
theorem guardUnit_next {c : Bool} {f : State → State} {s t : State} (h : guardUnit c f s = .next t) : c = true ∧ t = f s := by
  cases c with
  | true => simpa [eq_comm] using h
  | false => simp at h

theorem onSite_next {k : SiteKind} {n : Nat} {f : State → State} {s t : State} (h : onSite k n f s = .next t) :
    sitePresent s.member n = true ∧ kindOf n = k ∧ t = f s := by
  by_cases h1 : sitePresent s.member n = true
  · by_cases h2 : kindOf n = k
    · rw [onSite_of_kind h1 h2] at h; exact ⟨h1, h2, by simpa [eq_comm] using h⟩
    · simp [onSite, h1, h2] at h
  · simp [onSite, h1] at h

/-! ## Reports (R434) -/

/-- Writing a record changes host ports and counts. -/
theorem pushRecord_frame (code step draft : Nat) (r : Report349) (p : Nat) (s : State) :
    pushRecord code step draft r p s = { s with ports := (pushRecord code step draft r p s).ports, counts := (pushRecord code step draft r p s).counts } := by
  simp only [pushRecord]
  repeat' split
  all_goals rfl

theorem each_frame {α : Type} (l : List α) (f : α → State → State)
    (h : ∀ x s, f x s = { s with ports := (f x s).ports, counts := (f x s).counts }) (s : State) :
    each l f s = { s with ports := (each l f s).ports, counts := (each l f s).counts } := by
  induction l generalizing s with
  | nil => rfl
  | cons x l ih =>
    have e : each (x :: l) f s = each l f (f x s) := rfl
    rw [e, ih (f x s), h x s]

theorem writeRecord_frame (code : Nat) (r : Report349) (s : State) :
    writeRecord code r s = { s with ports := (writeRecord code r s).ports, counts := (writeRecord code r s).counts } :=
  each_frame _ _ (fun p s => pushRecord_frame code _ _ r p s) s

/-- A code of a class that fails, halts, ends and quiesces nothing is counted and recorded; nothing else changes. -/
theorem report_frame {code : Nat} (r : Report349) (s : State) (h : ∀ c, 3 ≤ c → c ≤ 7 → codeClass code ≠ c) :
    report code r s = { s with ports := (report code r s).ports, counts := (report code r s).counts } := by
  have h3 := h 3 (by decide) (by decide)
  have h4 := h 4 (by decide) (by decide)
  have h5 := h 5 (by decide) (by decide)
  have h6 := h 6 (by decide) (by decide)
  have h7 := h 7 (by decide) (by decide)
  simp only [report, h3, h4, h5, h6, h7, if_false, or_self]
  split
  · rw [writeRecord_frame]; rfl
  · rfl

/-- A schedule defect's report changes host ports, counts and areas. -/
theorem report_defect_frame {code : Nat} (r : Report349) (s : State) (h : codeClass code = 4) :
    report code r s = { s with ports := (report code r s).ports, counts := (report code r s).counts, areas := (report code r s).areas } := by
  have e : ∀ q : State, haltArea r q = { q with areas := (haltArea r q).areas } := by
    intro q
    simp only [haltArea]
    split
    · rfl
    · split <;> rfl
  have w : ∀ q : State, (if recorded code = true then writeRecord code r q else q) = { q with
      ports := (if recorded code = true then writeRecord code r q else q).ports, counts := (if recorded code = true then writeRecord code r q else q).counts } := by
    intro q
    split
    · exact writeRecord_frame code r q
    · rfl
  simp only [report, h, if_true, show ¬ (4 = 3) by decide, if_false]
  rw [e, w]
  rfl

/-! ## Time (R29) -/

/-- Of the top-level fields only those of sites, switches, attachments, areas, host ports, the watch list, the counts and the clock differ. -/
def sitesOnly (s t : State) : Prop :=
  t = { s with now := t.now, mx := t.mx, sf := t.sf, su := t.su, sw := t.sw, mm := t.mm, att := t.att, ports := t.ports, counts := t.counts,
               areas := t.areas, ras := t.ras }

theorem sitesOnly_refl (s : State) : sitesOnly s s := rfl

theorem sitesOnly_trans {s t u : State} (h1 : sitesOnly s t) (h2 : sitesOnly t u) : sitesOnly s u := by
  unfold sitesOnly at *
  rw [h1] at h2
  exact h2

theorem sitesOnly_dated {n : Nat} {f : State → State} {s : State} (h : ∀ q, sitesOnly q (f q)) : sitesOnly s (dated n f s) :=
  sitesOnly_trans (t := { s with now := n }) rfl (sitesOnly_trans (h _) rfl)
@[simp] theorem dated_now (n : Nat) (f : State → State) (s : State) : (dated n f s).now = s.now := rfl

theorem sitesOnly_each {α : Type} (l : List α) (f : α → State → State) (h : ∀ x s, sitesOnly s (f x s)) (s : State) : sitesOnly s (each l f s) := by
  induction l generalizing s with
  | nil => rfl
  | cons x l ih => exact sitesOnly_trans (h x s) (ih (f x s))

theorem sitesOnly_writeRecord (code : Nat) (r : Report349) (s : State) : sitesOnly s (writeRecord code r s) := by
  rw [writeRecord_frame]; rfl

theorem sitesOnly_failStep (code : Nat) (r : Report349) (s : State) : sitesOnly s (failStep code r s) := by
  simp only [failStep]
  split
  · rfl
  · split
    · rfl
    · split <;> rfl

theorem sitesOnly_haltArea (r : Report349) (s : State) : sitesOnly s (haltArea r s) := by
  simp only [haltArea]
  split
  · rfl
  · split <;> rfl

/-- A code that ends no job and quiesces nothing changes counts, records, steps and areas. -/
theorem sitesOnly_report {code : Nat} (r : Report349) (s : State) (h : codeClass code < 5) : sitesOnly s (report code r s) := by
  have h5 : ¬ (codeClass code = 5 ∨ codeClass code = 6) := by omega
  have h7 : ¬ codeClass code = 7 := by omega
  have h0 : sitesOnly s (if recorded code = true then writeRecord code r (count code r.unit 1 s) else count code r.unit 1 s) := by
    split
    · exact sitesOnly_trans (t := count code r.unit 1 s) rfl (sitesOnly_writeRecord _ _ _)
    · rfl
  simp only [report, h5, h7, if_false]
  split
  · exact sitesOnly_trans h0 (sitesOnly_failStep _ _ _)
  · split
    · exact sitesOnly_trans h0 (sitesOnly_haltArea _ _)
    · exact h0

theorem sitesOnly_noteSour (a h : Option Nat) (s : State) : sitesOnly s (noteSour a h s) := by
  simp only [noteSour]
  split
  · rfl
  · split <;> rfl

theorem sitesOnly_watchTrigger (code n : Nat) (u : WatchUnit) (s : State) : sitesOnly s (watchTrigger code n u s) := by
  simp only [watchTrigger, watchAdd]
  repeat' split
  all_goals rfl

/-- The ramp's check reports and marks the running step; the clock stands. -/
theorem sitesOnly_rampCheck (t h : Nat) (s : State) : sitesOnly s (rampCheck t h s) := by
  simp only [rampCheck]
  split
  · rfl
  · split
    · rfl
    · split
      · rfl
      · exact sitesOnly_trans (t := modCurStep _ _ s) rfl (sitesOnly_dated fun q => sitesOnly_report _ _ (by decide))

theorem rampCheck_now (t h : Nat) (s : State) : (rampCheck t h s).now = s.now := by
  simp only [rampCheck]
  split
  · rfl
  · split
    · rfl
    · split <;> rfl

theorem sitesOnly_onlyIf {c : Bool} {f : State → State} {s : State} (h : ∀ q, sitesOnly q (f q)) : sitesOnly s (onlyIf c f s) := by
  cases c with
  | false => rfl
  | true => exact h s

theorem sitesOnly_reportProg {code : Nat} (n a : Nat) (s : State) (h : codeClass code < 5) : sitesOnly s (reportProg code n a s) := sitesOnly_report _ _ h

theorem sitesOnly_spEmit (u n : Nat) (o : SpOp) (s : State) : sitesOnly s (spEmit u n o s) := by
  simp only [spEmit]
  split
  · refine sitesOnly_trans ?_ (rfl : sitesOnly _ (inject n _ _ _))
    refine sitesOnly_trans ?_ (sitesOnly_onlyIf fun _ => rfl)
    exact sitesOnly_onlyIf fun q => sitesOnly_reportProg _ _ _ (by decide)
  · rfl

theorem sitesOnly_spClock (u n : Nat) (s : State) : sitesOnly s (spClock u n s) := by
  simp only [spClock]
  split
  · rfl
  · split
    · rfl
    · refine sitesOnly_trans (sitesOnly_spEmit _ _ _ _) (sitesOnly_onlyIf fun q => ?_)
      exact sitesOnly_trans (t := modMx n _ q) rfl (sitesOnly_reportProg _ _ _ (by decide))

theorem sitesOnly_mxRaise (n : Nat) (d : MxDue) (s : State) : sitesOnly s (mxRaise n d s) := by
  simp only [mxRaise]
  split
  · split
    · rfl
    · exact sitesOnly_noteSour _ _ _
  · exact sitesOnly_trans (sitesOnly_reportProg _ _ _ (by decide)) (sitesOnly_watchTrigger _ _ _ _)
  · rfl

/-- ACLK u at an MX site. -/
theorem sitesOnly_mxClock (u n : Nat) (s : State) : sitesOnly s (mxClock u n s) := by
  simp only [mxClock]
  split
  · rfl
  · refine sitesOnly_trans ?_ (rfl : sitesOnly _ (modMx n _ _))
    refine sitesOnly_trans ?_ (sitesOnly_each _ _ (fun d q => ?_) _)
    · refine sitesOnly_trans ?_ (sitesOnly_each _ _ (fun b q => sitesOnly_reportProg _ _ _ (by decide)) _)
      exact sitesOnly_trans (t := modMx n _ s) rfl (sitesOnly_spClock _ _ _)
    · exact sitesOnly_trans (t := modMx n _ q) rfl (sitesOnly_mxRaise _ _ _)

/-- ACLK u at an SF site. -/
theorem sitesOnly_sfClock (u n : Nat) (s : State) : sitesOnly s (sfClock u n s) := by
  simp only [sfClock]
  split
  · rfl
  · refine sitesOnly_trans ?_ (sitesOnly_each _ _ (fun d q => ?_) _)
    · exact sitesOnly_trans (t := modSf n _ s) rfl (sitesOnly_each _ _ (fun b q => sitesOnly_reportProg _ _ _ (by decide)) _)
    · split
      · rfl
      · refine sitesOnly_trans (t := excUp n 4 1 (modSf n d.act.perform q)) rfl ?_
        split
        · split
          · rfl
          · exact sitesOnly_noteSour _ _ _
        · rfl

/-- What falls due at sites changes sites; the clock stands. -/
theorem sitesOnly_siteClock (k t : Nat) (s : State) : sitesOnly s (siteClock k t s) ∧ (siteClock k t s).now = s.now := by
  induction k generalizing s with
  | zero => exact ⟨rfl, rfl⟩
  | succ k ih =>
    unfold siteClock
    split
    · exact ⟨rfl, rfl⟩
    · rename_i u _
      refine ⟨sitesOnly_trans (sitesOnly_dated fun q => ?_) (ih _).1, (ih _).2⟩
      exact sitesOnly_trans (sitesOnly_each _ _ (fun n q => sitesOnly_mxClock u n q) _) (sitesOnly_each _ _ (fun n q => sitesOnly_sfClock u n q) _)

theorem sitesOnly_suClock (t n : Nat) (s : State) : sitesOnly s (suClock t n s) := by
  simp only [suClock]
  split <;> rfl

theorem each_now {α : Type} (l : List α) (f : α → State → State) (h : ∀ x s, (f x s).now = s.now) (s : State) : (each l f s).now = s.now := by
  induction l generalizing s with
  | nil => rfl
  | cons x l ih => exact (ih (f x s)).trans (h x s)

/-- A schedule defect's report leaves the clock. -/
theorem report_now {code : Nat} (r : Report349) (s : State) (h : codeClass code = 4) : (report code r s).now = s.now := by
  rw [report_defect_frame _ _ h]

theorem suClock_now (t n : Nat) (s : State) : (suClock t n s).now = s.now := by
  simp only [suClock]
  split <;> rfl

/-- What falls due changes sites, switches, attachments, areas and what reports change; the clock stands. -/
theorem settle_frame (t : Nat) (s : State) : sitesOnly s (settle t s) ∧ (settle t s).now = s.now := by
  have h1 := sitesOnly_each (busyHeddles s) (rampCheck t) (fun h q => sitesOnly_rampCheck t h q) s
  have n1 := each_now (busyHeddles s) (rampCheck t) (fun h q => rampCheck_now t h q) s
  have h2 := sitesOnly_siteClock t t (each (busyHeddles s) (rampCheck t) s)
  have h3 := sitesOnly_each (s.su.map Prod.fst) (suClock t) (fun n q => sitesOnly_suClock t n q) (siteClock t t (each (busyHeddles s) (rampCheck t) s))
  have n3 := each_now (s.su.map Prod.fst) (suClock t) (fun n q => suClock_now t n q) (siteClock t t (each (busyHeddles s) (rampCheck t) s))
  simp only [settle]
  refine ⟨sitesOnly_trans ?_ (sitesOnly_each _ _ (fun x q => sitesOnly_report _ _ (by decide)) _), ?_⟩
  · exact sitesOnly_trans (sitesOnly_trans (sitesOnly_trans h1 h2.1) h3) rfl
  · rw [each_now _ _ (fun x q => report_now (code := 0x4510) _ q (by decide))]
    exact n3.trans (h2.2.trans n1)

/-- The advance of time changes the clocks beside what falls due. -/
theorem runTo_frame (t : Nat) (s : State) : sitesOnly { s with up := (runTo t s).up } (runTo t s) := by
  have h := (settle_frame t s).1
  unfold runTo
  split
  · rfl
  · unfold sitesOnly at *
    simp only []
    rw [h]

theorem runTo_now (t : Nat) (s : State) : (runTo t s).now = max s.now t := by
  unfold runTo
  split
  · omega
  · simp only []; omega

theorem runTo_up (t : Nat) (s : State) : (runTo t s).up = s.up + (t - s.now) := by
  unfold runTo
  split
  · omega
  · have h := (settle_frame t s).1
    have n := (settle_frame t s).2
    unfold sitesOnly at h
    have : (settle t s).up = s.up := by rw [h]
    simp [this, n]

/-! ## Issue of a program word (R153, R154) -/

theorem mxIssue_run {op n : Nat} {w : W64} {f : State → State} {s : State} (h : mxCanIssue n w s) (ho : wOp w = op) :
    mxIssue op n w f s = .next (f (excUp n 5 1 (mxAtIssue n s))) := by
  obtain ⟨h1, h2, h3, h4, h5, h6⟩ := h
  have : ¬ 256 ≤ (mxAt s n).seq.pc := by omega
  simp [mxIssue, onSite, h1, h2, h3, h4, h6, ho, this, mxAtIssue]

theorem sfIssue_run {op n : Nat} {w : W64} {f : State → State} {s : State} (h : sfCanIssue n w s) (ho : wOp w = op) :
    sfIssue op n w f s = .next (f (excUp n 3 1 (sfAtIssue n s))) := by
  obtain ⟨h1, h2, h3, h4, h5, h6⟩ := h
  have : ¬ 1024 ≤ (sfAt s n).seq.pc := by omega
  simp [sfIssue, onSite, h1, h2, h3, h4, h6, ho, this, sfAtIssue]

theorem suIssue_run {op n : Nat} {w : W64} {f : State → State} {s : State} (h : suCanIssue n w s) (ho : wOp w = op) :
    suIssue op n w f s = .next (f (excUp n 5 1 (suAtIssue n s))) := by
  obtain ⟨h1, h2, h3, h4, hj, hd, h5, h6⟩ := h
  have : ¬ 512 ≤ (suAt s n).seq.pc := by omega
  simp [suIssue, onSite, h1, h2, h3, h4, hj, hd, h6, ho, this, suAtIssue]

/-- An exact-mode count changes no switch but its count (R213). -/
theorem sameSwitches_excUp (n i k : Nat) (r : State) : sameSwitches r (excUp n i k r) := by
  intro m
  by_cases e : m = n
  · subst e; simp [excUp]
  · simp [excUp, swAt_modSw_ne _ _ _ _ e]

theorem mxEnds_mod {n : Nat} {r : State} (g : Mx → Mx) (x : Mx) (hx : g (mxAt r n) = x) :
    mxEnds (.next (modMx n g (excUp n 5 1 r))) n r x :=
  ⟨_, rfl, ⟨rfl, fun m hm => by rw [mxAt_modMx_ne _ _ _ _ hm]; rfl, sameSwitches_excUp n 5 1 r⟩, by rw [mxAt_modMx_self]; exact hx⟩

theorem sfEnds_mod {code n : Nat} {r : State} (g : Sf → Sf) (x : Sf) (hx : g (sfAt r n) = x) :
    sfEnds code (.next (modSf n g (excUp n 3 1 r))) n r x :=
  ⟨_, rfl, ⟨rfl, fun m hm => by rw [sfAt_modSf_ne _ _ _ _ hm]; rfl, sameSwitches_excUp n 3 1 r, fun _ _ => rfl⟩, by rw [sfAt_modSf_self]; exact hx⟩

theorem suEnds_mod {n : Nat} {r : State} (g : Su → Su) (x : Su) (hx : g (suAt r n) = x) :
    suEnds (.next (modSu n g (excUp n 5 1 r))) n r x :=
  ⟨_, rfl, ⟨rfl, fun m hm => by rw [suAt_modSu_ne _ _ _ _ hm]; rfl, sameSwitches_excUp n 5 1 r⟩, by rw [suAt_modSu_self]; exact hx⟩

/-! ## Mailbox commands (R337-R342) -/

/-- After stage 1 the boot ROM does nothing more. -/
theorem stage1_done {s : State} (h : 1 ≤ s.bru.stage) : stage1 s = s := by
  have h' : ¬ s.bru.stage = 0 := by omega
  simp [stage1, h']

/-- A command that stands posted as mbxGood says is performed in the state in which its mailbox is running. -/
theorem mbxRun_good {s : State} {p m opc plen : Nat} {sc : Scope} {ok : Nat → Bool} {free early : Bool} {f : Nat → Nat → Tab Byte → State → State}
    (h : mbxGood s p m opc plen sc) (hp : ok plen = true) :
    mbxRun opc ok sc free early f p m s = .next (f p m (mbxAt s p m).cmd (mbxTaken p m s)) := by
  obtain ⟨h1, h2, h3, h4, h5, h6, h7, h8, h9, h10, h11, h12, h13, h14⟩ := h
  have e1 : ¬ 4064 < hdrPlen (mbxAt s p m).cmd := by omega
  have e2 : postsTaken s = true := by simp [postsTaken, h11]
  subst h6
  simp [mbxRun, h1, h2, h3, h4, h5, e1, e2, stage1_done h11, hp, h8, h9, h10, h12, h13, h14, mbxTaken, modMbx, modPort]

/-- A free early command needs no completed bring-up. -/
theorem mbxRun_early {s : State} {p m opc plen : Nat} {ok : Nat → Bool} {f : Nat → Nat → Tab Byte → State → State}
    (h : mbxEarly s p m opc plen) (hp : ok plen = true) :
    mbxRun opc ok .none true true f p m s = .next (f p m (mbxAt s p m).cmd (mbxTaken p m s)) := by
  obtain ⟨h1, h2, h3, h4, h11, h5, h6, h7, h8, h9, h14⟩ := h
  have e1 : ¬ 4064 < hdrPlen (mbxAt s p m).cmd := by omega
  have e2 : postsTaken s = true := by simp [postsTaken, h11]
  subst h6
  simp [mbxRun, h1, h2, h3, h4, h5, e1, e2, stage1_done h11, hp, h8, h9, h14, mbxTaken, modMbx, modPort]

/-! ## Which updates keep the stores canonical -/

theorem storesWf_modPort {s : State} (h : storesWf s) (i : Nat) (g : Port → Port) : storesWf (modPort i g s) := by
  simp only [storesWf, modPort] at *; simp only [h, tabWf_alter, and_self]
theorem storesWf_modArea {s : State} (h : storesWf s) (i : Nat) (g : Area → Area) : storesWf (modArea i g s) := by
  simp only [storesWf, modArea] at *; simp only [h, tabWf_alter, and_self]
theorem storesWf_modSw {s : State} (h : storesWf s) (i : Nat) (g : Switch → Switch) : storesWf (modSw i g s) := by
  simp only [storesWf, modSw] at *; simp only [h, tabWf_alter, and_self]
theorem storesWf_modMm {s : State} (h : storesWf s) (i : Nat) (g : Mm → Mm) : storesWf (modMm i g s) := by
  simp only [storesWf, modMm] at *; simp only [h, tabWf_alter, and_self]
theorem storesWf_modMx {s : State} (h : storesWf s) (i : Nat) (g : Mx → Mx) : storesWf (modMx i g s) := by
  simp only [storesWf, modMx] at *; simp only [h, tabWf_alter, and_self]
theorem storesWf_modSf {s : State} (h : storesWf s) (i : Nat) (g : Sf → Sf) : storesWf (modSf i g s) := by
  simp only [storesWf, modSf] at *; simp only [h, tabWf_alter, and_self]
theorem storesWf_modSu {s : State} (h : storesWf s) (i : Nat) (g : Su → Su) : storesWf (modSu i g s) := by
  simp only [storesWf, modSu] at *; simp only [h, tabWf_alter, and_self]
theorem storesWf_modStack {s : State} (h : storesWf s) (i : Nat) (g : Stack → Stack) : storesWf (modStack i g s) := by
  simp only [storesWf, modStack] at *; simp only [h, tabWf_alter, and_self]
theorem storesWf_modSht {s : State} (h : storesWf s) (i : Nat) (g : Shuttle → Shuttle) : storesWf (modSht i g s) := by
  simp only [storesWf, modSht] at *; simp only [h, tabWf_alter, and_self]
theorem storesWf_count {s : State} (h : storesWf s) (code unit n : Nat) : storesWf (count code unit n s) := by
  simp only [storesWf, count] at *; simp only [h, tabWf_alter, and_self]

theorem storesWf_each {α : Type} (l : List α) (f : α → State → State) (hf : ∀ x s, storesWf s → storesWf (f x s)) {s : State} (h : storesWf s) :
    storesWf (each l f s) := by
  induction l generalizing s with
  | nil => exact h
  | cons x l ih => exact ih (hf x s h)

/-- An update of fields other than the stores keeps them. -/
theorem storesWf_of_eq {s t : State} (h : storesWf s) (e : t = { t with
    counts := s.counts, ports := s.ports, wins := s.wins, areas := s.areas, aregs := s.aregs, sw := s.sw, mm := s.mm, mx := s.mx, sf := s.sf, su := s.su,
    att := s.att, stks := s.stks, sht := s.sht, regions := s.regions }) : storesWf t := by
  rw [e]; exact h

theorem storesWf_msix {s : State} (h : storesWf s) (p v : Nat) : storesWf (msix p v s) := storesWf_modPort h p _

theorem storesWf_pushRecord {s : State} (h : storesWf s) (code step draft : Nat) (r : Report349) (p : Nat) : storesWf (pushRecord code step draft r p s) := by
  simp only [pushRecord]
  repeat' split
  all_goals first
    | exact h
    | exact storesWf_count (storesWf_modPort h _ _) _ _ _
    | exact storesWf_msix (storesWf_modPort h _ _) _ _
    | exact storesWf_modPort h _ _

theorem storesWf_writeRecord {s : State} (h : storesWf s) (code : Nat) (r : Report349) : storesWf (writeRecord code r s) :=
  storesWf_each _ _ (fun _ _ hx => storesWf_pushRecord hx _ _ _ _ _) h

theorem storesWf_failStep {s : State} (h : storesWf s) (code : Nat) (r : Report349) : storesWf (failStep code r s) := by
  simp only [failStep, modCurStep, heddleStatus]
  split
  · exact h
  · split
    · exact h
    · split
      · exact storesWf_modSu (storesWf_modArea h _ _) _ _
      · exact storesWf_modArea h _ _

theorem storesWf_haltArea {s : State} (h : storesWf s) (r : Report349) : storesWf (haltArea r s) := by
  simp only [haltArea]
  split
  · exact h
  · split
    · exact storesWf_modArea h _ _
    · exact h

theorem storesWf_mbxComplete {s : State} (h : storesWf s) (p m st detail : Nat) (rsp : List Byte) : storesWf (mbxComplete p m st detail rsp s) := by
  simp only [mbxComplete]
  split
  · exact h
  · exact storesWf_msix (storesWf_modPort h _ _) _ _

theorem storesWf_clearArea {s : State} (h : storesWf s) (a : Nat) : storesWf (clearArea a s) := by
  simp only [storesWf, clearArea, whereTab] at *
  simp only [h, tabWf_mapTab, and_self]

theorem storesWf_endJob {s : State} (h : storesWf s) (a : Nat) : storesWf (endJob a s) := by
  simp only [endJob]
  split
  · exact storesWf_writeRecord (storesWf_count (storesWf_modArea (storesWf_clearArea (by split; exacts [storesWf_mbxComplete h _ _ _ _ _, h]) a) a _) _ _ _) _ _
  · exact storesWf_modArea (storesWf_clearArea (by split; exacts [storesWf_mbxComplete h _ _ _ _ _, h]) a) a _

theorem storesWf_endJobOf {s : State} (h : storesWf s) (a : Option Nat) : storesWf (endJobOf a s) := by
  cases a with
  | none => exact h
  | some a =>
    simp only [endJobOf]
    split
    · exact storesWf_endJob h a
    · exact h

theorem storesWf_report {s : State} (h : storesWf s) (code : Nat) (r : Report349) : storesWf (report code r s) := by
  have h1 : ∀ q, storesWf q → storesWf (
      if codeClass code = 3 then failStep code r q else if codeClass code = 4 then haltArea r q
      else if codeClass code = 5 ∨ codeClass code = 6 then endJobOf r.area q else if codeClass code = 7 then quiesce q else q) := by
    intro q hq
    split
    · exact storesWf_failStep hq _ _
    split
    · exact storesWf_haltArea hq _
    split
    · exact storesWf_endJobOf hq _
    split <;> exact hq
  refine h1 _ ?_
  split
  · exact storesWf_writeRecord (storesWf_count h _ _ _) _ _
  · exact storesWf_count h _ _ _

theorem storesWf_dated {s : State} (h : storesWf s) {f : State → State} (hf : ∀ q, storesWf q → storesWf (f q)) (n : Nat) : storesWf (dated n f s) := hf _ h

theorem storesWf_onlyIf {s : State} (h : storesWf s) {f : State → State} (hf : ∀ q, storesWf q → storesWf (f q)) (c : Bool) : storesWf (onlyIf c f s) := by
  cases c with
  | false => exact h
  | true => exact hf _ h

/-- The ramp's check keeps the stores canonical. -/
theorem storesWf_rampCheck {s : State} (h : storesWf s) (t k : Nat) : storesWf (rampCheck t k s) := by
  simp only [rampCheck]
  split
  · exact h
  · split
    · exact h
    · split
      · exact h
      · exact storesWf_dated (storesWf_modArea h _ _) (fun q hq => storesWf_report hq _ _) _

theorem storesWf_excUp {s : State} (h : storesWf s) (n i k : Nat) : storesWf (excUp n i k s) := storesWf_modSw h _ _

theorem storesWf_noteSour {s : State} (h : storesWf s) (a k : Option Nat) : storesWf (noteSour a k s) := by
  simp only [noteSour]
  split
  · exact h
  · split
    · exact storesWf_modSu (storesWf_modArea h _ _) _ _
    · exact storesWf_modArea h _ _

theorem storesWf_watchTrigger {s : State} (h : storesWf s) (code n : Nat) (u : WatchUnit) : storesWf (watchTrigger code n u s) := by
  simp only [watchTrigger, watchAdd]
  repeat' split
  all_goals first
    | exact h
    | exact storesWf_count (s := { s with ras := _ }) h _ _ _

theorem storesWf_spClock {s : State} (h : storesWf s) (u n : Nat) : storesWf (spClock u n s) := by
  have he : ∀ o, storesWf (spEmit u n o s) := by
    intro o
    simp only [spEmit]
    split
    · exact storesWf_modSw (storesWf_onlyIf (storesWf_onlyIf h (fun q hq => storesWf_report hq _ _) _) (fun q hq => storesWf_modMx hq _ _) _) _ _
    · exact h
  simp only [spClock]
  split
  · exact h
  · split
    · exact h
    · exact storesWf_onlyIf (he _) (fun q hq => storesWf_report (storesWf_modMx hq _ _) _ _) _

theorem storesWf_mxRaise {s : State} (h : storesWf s) (n : Nat) (d : MxDue) : storesWf (mxRaise n d s) := by
  simp only [mxRaise]
  split
  · split
    · exact h
    · exact storesWf_noteSour h _ _
  · exact storesWf_watchTrigger (storesWf_report h _ _) _ _ _
  · exact h

/-- ACLK u at an MX site keeps the stores canonical. -/
theorem storesWf_mxClock {s : State} (h : storesWf s) (u n : Nat) : storesWf (mxClock u n s) := by
  simp only [mxClock]
  split
  · exact h
  · exact storesWf_modMx (storesWf_each _ _ (fun d q hq => storesWf_mxRaise (storesWf_modMx hq _ _) _ _)
      (storesWf_each _ _ (fun b q hq => storesWf_report hq _ _) (storesWf_spClock (storesWf_modMx h _ _) _ _))) _ _

/-- ACLK u at an SF site keeps the stores canonical. -/
theorem storesWf_sfClock {s : State} (h : storesWf s) (u n : Nat) : storesWf (sfClock u n s) := by
  simp only [sfClock]
  split
  · exact h
  · refine storesWf_each _ _ (fun d q hq => ?_) (storesWf_each _ _ (fun b q hq => storesWf_report hq _ _) (storesWf_modSf h _ _))
    split
    · exact storesWf_modSf hq _ _
    · have h1 := storesWf_excUp (storesWf_modSf hq n d.act.perform) n 4 1
      split
      · split
        · exact h1
        · exact storesWf_noteSour h1 _ _
      · exact h1

theorem storesWf_siteClock {s : State} (h : storesWf s) (k t : Nat) : storesWf (siteClock k t s) := by
  induction k generalizing s with
  | zero => exact h
  | succ k ih =>
    unfold siteClock
    split
    · exact h
    · exact ih (storesWf_dated h (fun q hq => storesWf_each _ _ (fun n r hr => storesWf_sfClock hr _ n) (storesWf_each _ _ (fun n r hr => storesWf_mxClock hr _ n) hq)) _)

theorem storesWf_suClock {s : State} (h : storesWf s) (t n : Nat) : storesWf (suClock t n s) := by
  simp only [suClock]
  split
  · exact h
  · exact storesWf_excUp (storesWf_modSu h _ _) _ _ _

/-- The advance of time keeps the stores canonical. -/
theorem storesWf_runTo {s : State} (h : storesWf s) (t : Nat) : storesWf (runTo t s) := by
  have h1 : storesWf (settle t s) := by
    simp only [settle]
    refine storesWf_each _ _ (fun x q hq => storesWf_report hq _ _) ?_
    have h := storesWf_each (busyHeddles s) (rampCheck t) (fun x q hq => storesWf_rampCheck hq t x) h
    have h := storesWf_each (s.su.map Prod.fst) (suClock t) (fun x q hq => storesWf_suClock hq t x) (storesWf_siteClock h t t)
    simp only [storesWf] at *
    simp only [h, tabWf_mapTab, and_self]
  unfold runTo
  split
  · exact h
  · exact h1

/-! ## Sites with nothing due -/

/-- An MX site with no act due in ACLK u and no SPMAC is left alone. -/
theorem mxClock_idle (u n : Nat) (s : State) (h : ∀ d ∈ (mxAt s n).acts, d.at_ ≠ u) (hs : (mxAt s n).spmac = none) : mxClock u n s = s := by
  have : ((mxAt s n).acts.filter fun d => decide (d.at_ = u) && !mxHeld s n d) = [] :=
    List.filter_eq_nil_iff.mpr fun d hd => by simp [h d hd]
  simp [mxClock, this, hs]

/-- An SF site with no act due in ACLK u is left alone. -/
theorem sfClock_idle (u n : Nat) (s : State) (h : ∀ d ∈ (sfAt s n).acts, d.at_ ≠ u) : sfClock u n s = s := by
  have : ((sfAt s n).acts.filter fun d => decide (d.at_ = u)) = [] := List.filter_eq_nil_iff.mpr fun d hd => by simp [h d hd]
  simp [sfClock, this]

/-- Sites with nothing due before ACLK t are left alone. -/
theorem siteClock_idle (k t : Nat) (s : State) (h : siteDue t s = none) : siteClock k t s = s := by
  cases k with
  | zero => rfl
  | succ k => simp [siteClock, h]

/-! ## The effective cap (R385) -/

/-- A change of a limit leaves the effective cap until the next pick boundary. -/
@[simp] theorem effInForce_recap (s : State) : effInForce (recap s) = effInForce s := by
  simp [effInForce, recap, State.pick]

/-- From the next pick boundary on it is the least of the limits as they then stood. -/
theorem effInForce_after_recap {s u : State} (h : u.pwr = (recap s).pwr) (hp : s.pick < u.pick) : effInForce u = effCap s := by
  simp [effInForce, recap, h, Nat.succ_le_of_lt hp]

end Sys2Proof.Machine
end

