-- ==== Sys2Proof/Laws/PerInstr.lean ====
section
/-! SUPPORT. For every command: the site it names, if any, is one of the 512 columns and 448 rows of site numbers (R13, R14). -/
namespace Sys2Proof.Laws.NamedSite

/-- The site a command names: its site or SU operand. -/
def named : Instr → Option Nat
  | .powerOnReset _ _ => none
  | .bringUp _ => none
  | .bringupStageTimeout _ => none
  | .deviceResetDrst _ _ => none
  | .portReset _ _ => none
  | .nop _ _ => none
  | .identify _ _ => none
  | .evqSetup _ _ => none
  | .abort _ _ => none
  | .deviceReset _ _ => none
  | .areaCreate _ _ => none
  | .areaChange _ _ => none
  | .areaRemove _ _ => none
  | .areaClear _ _ => none
  | .areaTake _ _ => none
  | .draftLoad _ _ => none
  | .loadFlit n => some n
  | .warmLoadComplete _ => none
  | .jobStart _ _ => none
  | .jobStartPick _ => none
  | .jobStatus _ _ => none
  | .bulkWrite _ _ _ => none
  | .bulkRead _ _ _ => none
  | .remoteRead _ _ => none
  | .remoteWrite _ _ => none
  | .setFabricId _ _ => none
  | .pwrSetCap _ _ => none
  | .pwrStatus _ _ => none
  | .rackBudget _ _ => none
  | .selftestTest _ _ _ => none
  | .selftestInstall _ _ => none
  | .fenceRead _ _ => none
  | .repairRow _ _ _ => none
  | .repairSiteFence _ _ => none
  | .repairSiteRetest _ _ _ => none
  | .repairChannelRetrain _ _ _ => none
  | .repairChannelSetRate _ _ _ => none
  | .scald _ _ _ => none
  | .watchRead _ _ => none
  | .skimPartnerSet _ _ => none
  | .skimPartnerClear _ _ => none
  | .skimOverrideSet _ _ => none
  | .skimOverrideClear _ _ => none
  | .restore _ _ => none
  | .restoreResume _ _ => none
  | .drasalCert _ _ => none
  | .drasalAttest _ _ => none
  | .ownerEnrol _ _ => none
  | .debugUnlockChallenge _ _ _ => none
  | .debugUnlockResponse _ _ => none
  | .debugUnlockDisable _ _ => none
  | .debugChallengeExpiry => none
  | .fwUpdate _ _ => none
  | .bottomTreeReady => none
  | .hpcAbortWrite _ _ => none
  | .abortHwTimeout => none
  | .hpcDrstWrite _ _ => none
  | .registerWrite _ _ _ _ _ => none
  | .timPickLoRead _ _ => none
  | .idxDataRead _ _ => none
  | .idxDataWrite _ _ _ => none
  | .idxAccessTimeout _ _ => none
  | .secLockWrite _ _ => none
  | .tripleVoteSweep => none
  | .mmStageApply _ n _ => some n
  | .xsStageApply _ n _ => some n
  | .pwrStageApply _ _ => none
  | .shadowApply => none
  | .calUserWrite _ _ _ => none
  | .mmInjWrite _ n _ => some n
  | .mmRdataRead _ n => some n
  | .mmRdataWrite _ n _ => some n
  | .mmPwrRequest _ n _ => some n
  | .mmPwrForce _ n _ => some n
  | .subbankStateChange n _ => some n
  | .subbankForceTimeout n _ => some n
  | .subbankReturnOn n _ => some n
  | .shtCtlWrite _ _ _ => none
  | .fabRouteWrite _ _ _ => none
  | .stepStart _ => none
  | .stepEndPick _ => none
  | .exactDigest n => some n
  | .stepCommit _ => none
  | .remap _ _ => none
  | .remapTimeout _ => none
  | .jobResume _ => none
  | .haltReach n => some n
  | .weaveEntryExec n _ => some n
  | .flitArrival n _ _ => some n
  | .controlTokenArrival n _ => some n
  | .tokenWindowExpiry n _ => some n
  | .fellBankSwitch n _ => some n
  | .pageTakeEffect n => some n
  | .creditReturn _ _ => none
  | .wrpCreditHang _ _ => none
  | .tokenTableEmit n _ => some n
  | .mmDelivery n => some n
  | .pullEntryExec n => some n
  | .eccWriteBack n => some n
  | .dmaOpArrival n => some n
  | .dmaQueueService n _ => some n
  | .edgeDmaSlot _ n => some n
  | .fillSlot _ _ => none
  | .mmScrub n _ => some n
  | .ringDelivery n => some n
  | .siteStart n => some n
  | .mxNop n _ => some n
  | .mxEnd n _ => some n
  | .mxWait n _ => some n
  | .mxWpk n _ => some n
  | .mxLoop n _ => some n
  | .setm n _ => some n
  | .seta n _ => some n
  | .adda n _ => some n
  | .setf n _ => some n
  | .rel n _ => some n
  | .lds n _ => some n
  | .ldss n _ => some n
  | .ldc n _ => some n
  | .genc n _ => some n
  | .mac n _ => some n
  | .macBlockEntry n _ => some n
  | .out n _ => some n
  | .outs n _ => some n
  | .acc n _ => some n
  | .spmac n _ => some n
  | .ldk n _ => some n
  | .setau n _ => some n
  | .sfNop n _ => some n
  | .sfEnd n _ => some n
  | .sfWait n _ => some n
  | .sfWpk n _ => some n
  | .sfLoop n _ => some n
  | .sfBr n _ => some n
  | .bz n _ => some n
  | .bnz n _ => some n
  | .sli n _ => some n
  | .sadd n _ => some n
  | .smovv n _ => some n
  | .getpk n _ => some n
  | .fadd n _ => some n
  | .fsub n _ => some n
  | .fmul n _ => some n
  | .ffma n _ => some n
  | .fmin n _ => some n
  | .fmax n _ => some n
  | .fcmp n _ => some n
  | .iadd n _ => some n
  | .isub n _ => some n
  | .imul n _ => some n
  | .imulh n _ => some n
  | .iand n _ => some n
  | .ior n _ => some n
  | .ixor n _ => some n
  | .ishl n _ => some n
  | .ishr n _ => some n
  | .isra n _ => some n
  | .icmp n _ => some n
  | .sel n _ => some n
  | .cvt n _ => some n
  | .cvtmx n _ => some n
  | .fexp n _ => some n
  | .fexp2 n _ => some n
  | .fexpsub n _ => some n
  | .flog n _ => some n
  | .flog2 n _ => some n
  | .frcp n _ => some n
  | .frsq n _ => some n
  | .fsqrt n _ => some n
  | .ftanh n _ => some n
  | .fsig n _ => some n
  | .ferf n _ => some n
  | .fgelu n _ => some n
  | .rsum n _ => some n
  | .rmax n _ => some n
  | .rmin n _ => some n
  | .rrsum n _ => some n
  | .perm n _ => some n
  | .bcast n _ => some n
  | .ldv n _ => some n
  | .stv n _ => some n
  | .send n _ => some n
  | .hash n _ => some n
  | .rng n _ => some n
  | .sortcx n _ => some n
  | .topki n _ => some n
  | .topk n _ => some n
  | .suNop n _ => some n
  | .suWait n _ => some n
  | .wt n _ => some n
  | .suLoop n _ => some n
  | .suBr n _ => some n
  | .sett n _ => some n
  | .addt n _ => some n
  | .go n _ => some n
  | .page n _ => some n
  | .fell n _ => some n
  | .cwait n _ => some n
  | .qwait n _ => some n
  | .join n _ => some n
  | .joinReady n => some n
  | .barrierFlit n => some n
  | .barrierFlitSend n _ => some n
  | .barrierWindowEnd n => some n
  | .samp n _ => some n
  | .descriptorFlit n => some n
  | .readerEmit n => some n
  | .updateFlit n => some n
  | .accQueueServe n _ => some n
  | .flushEmit n => some n
  | .skipAlarmEval => none
  | .hbmRequest _ => none
  | .hbmGrainAccess _ _ => none
  | .hbmWriteBack _ _ => none
  | .hbmReturnRelease _ => none
  | .hbmFrameStart _ => none
  | .gatherWindowStart _ => none
  | .hbmScrub _ => none
  | .hbmTrainStep _ _ _ _ => none
  | .hbmCaPar _ _ => none
  | .hbmOdecc _ _ => none
  | .elasticStackAccess _ _ _ => none
  | .pickFrameSend _ => none
  | .slotTake _ => none
  | .codewordDecode _ _ => none
  | .laneFail _ _ => none
  | .pickHeaderReceive _ _ => none
  | .slotPush _ => none
  | .elasticFrameReceive _ _ _ => none
  | .elasticFrameSend _ => none
  | .linkFrameSend _ => none
  | .linkFrame _ _ _ => none
  | .signalDetect _ => none
  | .portTrained _ _ => none
  | .trainingTimeout _ => none
  | .lossOfSignal _ => none
  | .rotationPoint _ => none
  | .pickSteer => none
  | .upstreamLoss => none
  | .holdoverExpiry => none
  | .betterOffer _ => none
  | .masterProposal => none
  | .epochInEdge _ => none
  | .epochOutPulse => none
  | .refclkLoss => none
  | .helloSend _ => none
  | .helloReceive _ _ => none
  | .helloTimeout _ => none
  | .routeSend _ => none
  | .routeReceive _ _ => none
  | .routedFrame _ => none
  | .rmaRequest _ => none
  | .rmaResponse _ => none
  | .rmaTimeout _ => none
  | .tallyBuild _ => none
  | .tallyReceive _ _ => none
  | .fbPageSend _ _ => none
  | .fbPageReceive _ => none
  | .fbgrantSend _ _ => none
  | .fbgrantReceive _ => none
  | .fbResendTimeout _ _ => none
  | .regulatorSample _ => none
  | .clampEnd => none
  | .senseCompare _ => none
  | .budgetAdjust => none
  | .holdoffUpdate => none
  | .energyShare _ => none
  | .droopAlarm _ => none
  | .droopClear _ => none
  | .feedLoss _ => none
  | .feedReturn _ => none
  | .oneFeedLimitLift => none
  | .groupReportSend => none
  | .groupReportReceive _ _ => none
  | .groupAssignSend => none
  | .groupAssignReceive _ _ => none
  | .groupAssignTimeout => none
  | .coordinatorTakeover => none
  | .diodeRead _ _ => none
  | .throttleHoldoff _ => none
  | .regionReturn _ _ => none
  | .coolantSample _ => none
  | .shortDetect _ => none
  | .watchTest _ _ => none
  | .watchClear _ => none
  | .riskEval => none
  | .skimSend _ => none
  | .skimWriteAnswer _ _ => none
  | .skimStall _ => none
  | .smbReadStatus => none
  | .smbReadIdentity => none
  | .smbusTimeout => none
  | .sampleDrain n => some n
  | .dmaReturnArrival n _ => some n
  | .triplicatedRead _ => none
  | .hostLinkUp _ => none

/-- The parts of a conjunction, and the bound a site number has. -/
theorem left {a b : Bool} (h : (a && b) = true) : a = true := (Bool.and_eq_true_iff.1 h).1
theorem right {a b : Bool} (h : (a && b) = true) : b = true := (Bool.and_eq_true_iff.1 h).2
theorem bound {m n : Nat} (h : isSite m = true) (e : some m = some n) : n < 512 * 448 := by
  cases e
  simp only [isSite, decide_eq_true_eq] at h
  omega
theorem absurdNone {n : Nat} (e : (none : Option Nat) = some n) : n < 512 * 448 := by cases e

/-- A well-formed command names no site beyond the site numbers. -/
def Statement (i : Instr) : Prop := i.wf = true → ∀ n, named i = some n → n < 512 * 448

theorem powerOnReset (feedId_ : Nat) (rackPos_ : Nat) : Statement (.powerOnReset feedId_ rackPos_) := fun _ _ hn => absurdNone hn
theorem bringUp (o_ : BringUpOutcome) : Statement (.bringUp o_) := fun _ _ hn => absurdNone hn
theorem bringupStageTimeout (stage_ : Nat) : Statement (.bringupStageTimeout stage_) := fun _ _ hn => absurdNone hn
theorem deviceResetDrst (feedId_ : Nat) (rackPos_ : Nat) : Statement (.deviceResetDrst feedId_ rackPos_) := fun _ _ hn => absurdNone hn
theorem portReset (port_ : Nat) (kind_ : PortResetKind) : Statement (.portReset port_ kind_) := fun _ _ hn => absurdNone hn
theorem nop (port_ : Nat) (m_ : Nat) : Statement (.nop port_ m_) := fun _ _ hn => absurdNone hn
theorem identify (port_ : Nat) (m_ : Nat) : Statement (.identify port_ m_) := fun _ _ hn => absurdNone hn
theorem evqSetup (port_ : Nat) (m_ : Nat) : Statement (.evqSetup port_ m_) := fun _ _ hn => absurdNone hn
theorem abort (port_ : Nat) (m_ : Nat) : Statement (.abort port_ m_) := fun _ _ hn => absurdNone hn
theorem deviceReset (port_ : Nat) (m_ : Nat) : Statement (.deviceReset port_ m_) := fun _ _ hn => absurdNone hn
theorem areaCreate (port_ : Nat) (m_ : Nat) : Statement (.areaCreate port_ m_) := fun _ _ hn => absurdNone hn
theorem areaChange (port_ : Nat) (m_ : Nat) : Statement (.areaChange port_ m_) := fun _ _ hn => absurdNone hn
theorem areaRemove (port_ : Nat) (m_ : Nat) : Statement (.areaRemove port_ m_) := fun _ _ hn => absurdNone hn
theorem areaClear (port_ : Nat) (m_ : Nat) : Statement (.areaClear port_ m_) := fun _ _ hn => absurdNone hn
theorem areaTake (port_ : Nat) (m_ : Nat) : Statement (.areaTake port_ m_) := fun _ _ hn => absurdNone hn
theorem draftLoad (port_ : Nat) (m_ : Nat) : Statement (.draftLoad port_ m_) := fun _ _ hn => absurdNone hn
theorem loadFlit (su_ : Nat) : Statement (.loadFlit su_) := fun h _ hn => bound h hn
theorem warmLoadComplete (area_ : Nat) : Statement (.warmLoadComplete area_) := fun _ _ hn => absurdNone hn
theorem jobStart (port_ : Nat) (m_ : Nat) : Statement (.jobStart port_ m_) := fun _ _ hn => absurdNone hn
theorem jobStartPick (area_ : Nat) : Statement (.jobStartPick area_) := fun _ _ hn => absurdNone hn
theorem jobStatus (port_ : Nat) (m_ : Nat) : Statement (.jobStatus port_ m_) := fun _ _ hn => absurdNone hn
theorem bulkWrite (port_ : Nat) (m_ : Nat) (hostErr_ : Option Nat) : Statement (.bulkWrite port_ m_ hostErr_) := fun _ _ hn => absurdNone hn
theorem bulkRead (port_ : Nat) (m_ : Nat) (hostErr_ : Option Nat) : Statement (.bulkRead port_ m_ hostErr_) := fun _ _ hn => absurdNone hn
theorem remoteRead (port_ : Nat) (m_ : Nat) : Statement (.remoteRead port_ m_) := fun _ _ hn => absurdNone hn
theorem remoteWrite (port_ : Nat) (m_ : Nat) : Statement (.remoteWrite port_ m_) := fun _ _ hn => absurdNone hn
theorem setFabricId (port_ : Nat) (m_ : Nat) : Statement (.setFabricId port_ m_) := fun _ _ hn => absurdNone hn
theorem pwrSetCap (port_ : Nat) (m_ : Nat) : Statement (.pwrSetCap port_ m_) := fun _ _ hn => absurdNone hn
theorem pwrStatus (port_ : Nat) (m_ : Nat) : Statement (.pwrStatus port_ m_) := fun _ _ hn => absurdNone hn
theorem rackBudget (port_ : Nat) (m_ : Nat) : Statement (.rackBudget port_ m_) := fun _ _ hn => absurdNone hn
theorem selftestTest (port_ : Nat) (m_ : Nat) (o_ : TestOutcome) : Statement (.selftestTest port_ m_ o_) := fun _ _ hn => absurdNone hn
theorem selftestInstall (port_ : Nat) (m_ : Nat) : Statement (.selftestInstall port_ m_) := fun _ _ hn => absurdNone hn
theorem fenceRead (port_ : Nat) (m_ : Nat) : Statement (.fenceRead port_ m_) := fun _ _ hn => absurdNone hn
theorem repairRow (port_ : Nat) (m_ : Nat) (pprOk_ : Bool) : Statement (.repairRow port_ m_ pprOk_) := fun _ _ hn => absurdNone hn
theorem repairSiteFence (port_ : Nat) (m_ : Nat) : Statement (.repairSiteFence port_ m_) := fun _ _ hn => absurdNone hn
theorem repairSiteRetest (port_ : Nat) (m_ : Nat) (pass_ : Bool) : Statement (.repairSiteRetest port_ m_ pass_) := fun _ _ hn => absurdNone hn
theorem repairChannelRetrain (port_ : Nat) (m_ : Nat) (pass_ : Bool) : Statement (.repairChannelRetrain port_ m_ pass_) := fun _ _ hn => absurdNone hn
theorem repairChannelSetRate (port_ : Nat) (m_ : Nat) (pass_ : Bool) : Statement (.repairChannelSetRate port_ m_ pass_) := fun _ _ hn => absurdNone hn
theorem scald (port_ : Nat) (m_ : Nat) (o_ : ScaldOutcome) : Statement (.scald port_ m_ o_) := fun _ _ hn => absurdNone hn
theorem watchRead (port_ : Nat) (m_ : Nat) : Statement (.watchRead port_ m_) := fun _ _ hn => absurdNone hn
theorem skimPartnerSet (port_ : Nat) (m_ : Nat) : Statement (.skimPartnerSet port_ m_) := fun _ _ hn => absurdNone hn
theorem skimPartnerClear (port_ : Nat) (m_ : Nat) : Statement (.skimPartnerClear port_ m_) := fun _ _ hn => absurdNone hn
theorem skimOverrideSet (port_ : Nat) (m_ : Nat) : Statement (.skimOverrideSet port_ m_) := fun _ _ hn => absurdNone hn
theorem skimOverrideClear (port_ : Nat) (m_ : Nat) : Statement (.skimOverrideClear port_ m_) := fun _ _ hn => absurdNone hn
theorem restore (port_ : Nat) (m_ : Nat) : Statement (.restore port_ m_) := fun _ _ hn => absurdNone hn
theorem restoreResume (port_ : Nat) (m_ : Nat) : Statement (.restoreResume port_ m_) := fun _ _ hn => absurdNone hn
theorem drasalCert (port_ : Nat) (m_ : Nat) : Statement (.drasalCert port_ m_) := fun _ _ hn => absurdNone hn
theorem drasalAttest (port_ : Nat) (m_ : Nat) : Statement (.drasalAttest port_ m_) := fun _ _ hn => absurdNone hn
theorem ownerEnrol (port_ : Nat) (m_ : Nat) : Statement (.ownerEnrol port_ m_) := fun _ _ hn => absurdNone hn
theorem debugUnlockChallenge (port_ : Nat) (m_ : Nat) (random_ : BitVec 256) : Statement (.debugUnlockChallenge port_ m_ random_) := fun _ _ hn => absurdNone hn
theorem debugUnlockResponse (port_ : Nat) (m_ : Nat) : Statement (.debugUnlockResponse port_ m_) := fun _ _ hn => absurdNone hn
theorem debugUnlockDisable (port_ : Nat) (m_ : Nat) : Statement (.debugUnlockDisable port_ m_) := fun _ _ hn => absurdNone hn
theorem debugChallengeExpiry : Statement .debugChallengeExpiry := fun _ _ hn => absurdNone hn
theorem fwUpdate (port_ : Nat) (m_ : Nat) : Statement (.fwUpdate port_ m_) := fun _ _ hn => absurdNone hn
theorem bottomTreeReady : Statement .bottomTreeReady := fun _ _ hn => absurdNone hn
theorem hpcAbortWrite (port_ : Nat) (value_ : Nat) : Statement (.hpcAbortWrite port_ value_) := fun _ _ hn => absurdNone hn
theorem abortHwTimeout : Statement .abortHwTimeout := fun _ _ hn => absurdNone hn
theorem hpcDrstWrite (port_ : Nat) (value_ : Nat) : Statement (.hpcDrstWrite port_ value_) := fun _ _ hn => absurdNone hn
theorem registerWrite (port_ : Nat) (bar_ : Nat) (offset_ : Nat) (size_ : Nat) (value_ : Nat) : Statement (.registerWrite port_ bar_ offset_ size_ value_) := fun _ _ hn => absurdNone hn
theorem timPickLoRead (port_ : Nat) (size_ : Nat) : Statement (.timPickLoRead port_ size_) := fun _ _ hn => absurdNone hn
theorem idxDataRead (port_ : Nat) (window_ : Nat) : Statement (.idxDataRead port_ window_) := fun _ _ hn => absurdNone hn
theorem idxDataWrite (port_ : Nat) (window_ : Nat) (value_ : Nat) : Statement (.idxDataWrite port_ window_ value_) := fun _ _ hn => absurdNone hn
theorem idxAccessTimeout (window_ : Nat) (write_ : Option Nat) : Statement (.idxAccessTimeout window_ write_) := fun _ _ hn => absurdNone hn
theorem secLockWrite (port_ : Nat) (value_ : Nat) : Statement (.secLockWrite port_ value_) := fun _ _ hn => absurdNone hn
theorem tripleVoteSweep : Statement .tripleVoteSweep := fun _ _ hn => absurdNone hn
theorem mmStageApply (window_ : Nat) (site_ : Nat) (value_ : Nat) : Statement (.mmStageApply window_ site_ value_) := fun h _ hn => bound (right (left h)) hn
theorem xsStageApply (window_ : Nat) (site_ : Nat) (value_ : Nat) : Statement (.xsStageApply window_ site_ value_) := fun h _ hn => bound (right (left h)) hn
theorem pwrStageApply (port_ : Nat) (value_ : Nat) : Statement (.pwrStageApply port_ value_) := fun _ _ hn => absurdNone hn
theorem shadowApply : Statement .shadowApply := fun _ _ hn => absurdNone hn
theorem calUserWrite (port_ : Nat) (i_ : Nat) (value_ : Nat) : Statement (.calUserWrite port_ i_ value_) := fun _ _ hn => absurdNone hn
theorem mmInjWrite (window_ : Nat) (site_ : Nat) (value_ : Nat) : Statement (.mmInjWrite window_ site_ value_) := fun h _ hn => bound (right (left h)) hn
theorem mmRdataRead (window_ : Nat) (site_ : Nat) : Statement (.mmRdataRead window_ site_) := fun h _ hn => bound (right h) hn
theorem mmRdataWrite (window_ : Nat) (site_ : Nat) (value_ : Nat) : Statement (.mmRdataWrite window_ site_ value_) := fun h _ hn => bound (right (left h)) hn
theorem mmPwrRequest (window_ : Option Nat) (site_ : Nat) (value_ : Nat) : Statement (.mmPwrRequest window_ site_ value_) := fun h _ hn => bound (right (left h)) hn
theorem mmPwrForce (window_ : Nat) (site_ : Nat) (value_ : Nat) : Statement (.mmPwrForce window_ site_ value_) := fun h _ hn => bound (right (left h)) hn
theorem subbankStateChange (site_ : Nat) (sub_ : Nat) : Statement (.subbankStateChange site_ sub_) := fun h _ hn => bound (left h) hn
theorem subbankForceTimeout (site_ : Nat) (sub_ : Nat) : Statement (.subbankForceTimeout site_ sub_) := fun h _ hn => bound (left h) hn
theorem subbankReturnOn (site_ : Nat) (sub_ : Nat) : Statement (.subbankReturnOn site_ sub_) := fun h _ hn => bound (left h) hn
theorem shtCtlWrite (window_ : Nat) (p_ : Nat) (value_ : Nat) : Statement (.shtCtlWrite window_ p_ value_) := fun _ _ hn => absurdNone hn
theorem fabRouteWrite (window_ : Nat) (d_ : Nat) (value_ : Nat) : Statement (.fabRouteWrite window_ d_ value_) := fun _ _ hn => absurdNone hn
theorem stepStart (area_ : Nat) : Statement (.stepStart area_) := fun _ _ hn => absurdNone hn
theorem stepEndPick (area_ : Nat) : Statement (.stepEndPick area_) := fun _ _ hn => absurdNone hn
theorem exactDigest (su_ : Nat) : Statement (.exactDigest su_) := fun h _ hn => bound h hn
theorem stepCommit (area_ : Nat) : Statement (.stepCommit area_) := fun _ _ hn => absurdNone hn
theorem remap (area_ : Nat) (o_ : RemapOutcome) : Statement (.remap area_ o_) := fun _ _ hn => absurdNone hn
theorem remapTimeout (area_ : Nat) : Statement (.remapTimeout area_) := fun _ _ hn => absurdNone hn
theorem jobResume (area_ : Nat) : Statement (.jobResume area_) := fun _ _ hn => absurdNone hn
theorem haltReach (site_ : Nat) : Statement (.haltReach site_) := fun h _ hn => bound h hn
theorem weaveEntryExec (site_ : Nat) (out_ : Nat) : Statement (.weaveEntryExec site_ out_) := fun h _ hn => bound (left h) hn
theorem flitArrival (site_ : Nat) (inp_ : Nat) (u_ : LinkUpset) : Statement (.flitArrival site_ inp_ u_) := fun h _ hn => bound (left (left h)) hn
theorem controlTokenArrival (su_ : Nat) (flip_ : BitVec 24) : Statement (.controlTokenArrival su_ flip_) := fun h _ hn => bound h hn
theorem tokenWindowExpiry (site_ : Nat) (out_ : Nat) : Statement (.tokenWindowExpiry site_ out_) := fun h _ hn => bound (left h) hn
theorem fellBankSwitch (site_ : Nat) (out_ : Nat) : Statement (.fellBankSwitch site_ out_) := fun h _ hn => bound (left h) hn
theorem pageTakeEffect (su_ : Nat) : Statement (.pageTakeEffect su_) := fun h _ hn => bound h hn
theorem creditReturn (att_ : Nat) (loop_ : Nat) : Statement (.creditReturn att_ loop_) := fun _ _ hn => absurdNone hn
theorem wrpCreditHang (att_ : Nat) (loop_ : Nat) : Statement (.wrpCreditHang att_ loop_) := fun _ _ hn => absurdNone hn
theorem tokenTableEmit (su_ : Nat) (pos_ : Nat) : Statement (.tokenTableEmit su_ pos_) := fun h _ hn => bound (left h) hn
theorem mmDelivery (site_ : Nat) : Statement (.mmDelivery site_) := fun h _ hn => bound h hn
theorem pullEntryExec (site_ : Nat) : Statement (.pullEntryExec site_) := fun h _ hn => bound h hn
theorem eccWriteBack (site_ : Nat) : Statement (.eccWriteBack site_) := fun h _ hn => bound h hn
theorem dmaOpArrival (site_ : Nat) : Statement (.dmaOpArrival site_) := fun h _ hn => bound h hn
theorem dmaQueueService (site_ : Nat) (sub_ : Nat) : Statement (.dmaQueueService site_ sub_) := fun h _ hn => bound (left h) hn
theorem edgeDmaSlot (att_ : Nat) (site_ : Nat) : Statement (.edgeDmaSlot att_ site_) := fun h _ hn => bound (right h) hn
theorem fillSlot (att_ : Nat) (heddle_ : Nat) : Statement (.fillSlot att_ heddle_) := fun _ _ hn => absurdNone hn
theorem mmScrub (site_ : Nat) (sub_ : Nat) : Statement (.mmScrub site_ sub_) := fun h _ hn => bound (left h) hn
theorem ringDelivery (site_ : Nat) : Statement (.ringDelivery site_) := fun h _ hn => bound h hn
theorem siteStart (site_ : Nat) : Statement (.siteStart site_) := fun h _ hn => bound h hn
theorem mxNop (site_ : Nat) (w_ : W64) : Statement (.mxNop site_ w_) := fun h _ hn => bound h hn
theorem mxEnd (site_ : Nat) (w_ : W64) : Statement (.mxEnd site_ w_) := fun h _ hn => bound h hn
theorem mxWait (site_ : Nat) (w_ : W64) : Statement (.mxWait site_ w_) := fun h _ hn => bound h hn
theorem mxWpk (site_ : Nat) (w_ : W64) : Statement (.mxWpk site_ w_) := fun h _ hn => bound h hn
theorem mxLoop (site_ : Nat) (w_ : W64) : Statement (.mxLoop site_ w_) := fun h _ hn => bound h hn
theorem setm (site_ : Nat) (w_ : W64) : Statement (.setm site_ w_) := fun h _ hn => bound h hn
theorem seta (site_ : Nat) (w_ : W64) : Statement (.seta site_ w_) := fun h _ hn => bound h hn
theorem adda (site_ : Nat) (w_ : W64) : Statement (.adda site_ w_) := fun h _ hn => bound h hn
theorem setf (site_ : Nat) (w_ : W64) : Statement (.setf site_ w_) := fun h _ hn => bound h hn
theorem rel (site_ : Nat) (w_ : W64) : Statement (.rel site_ w_) := fun h _ hn => bound h hn
theorem lds (site_ : Nat) (w_ : W64) : Statement (.lds site_ w_) := fun h _ hn => bound h hn
theorem ldss (site_ : Nat) (w_ : W64) : Statement (.ldss site_ w_) := fun h _ hn => bound h hn
theorem ldc (site_ : Nat) (w_ : W64) : Statement (.ldc site_ w_) := fun h _ hn => bound h hn
theorem genc (site_ : Nat) (w_ : W64) : Statement (.genc site_ w_) := fun h _ hn => bound h hn
theorem mac (site_ : Nat) (w_ : W64) : Statement (.mac site_ w_) := fun h _ hn => bound h hn
theorem macBlockEntry (site_ : Nat) (upset_ : List Int) : Statement (.macBlockEntry site_ upset_) := fun h _ hn => bound (left h) hn
theorem out (site_ : Nat) (w_ : W64) : Statement (.out site_ w_) := fun h _ hn => bound h hn
theorem outs (site_ : Nat) (w_ : W64) : Statement (.outs site_ w_) := fun h _ hn => bound h hn
theorem acc (site_ : Nat) (w_ : W64) : Statement (.acc site_ w_) := fun h _ hn => bound h hn
theorem spmac (site_ : Nat) (w_ : W64) : Statement (.spmac site_ w_) := fun h _ hn => bound h hn
theorem ldk (site_ : Nat) (w_ : W64) : Statement (.ldk site_ w_) := fun h _ hn => bound h hn
theorem setau (site_ : Nat) (w_ : W64) : Statement (.setau site_ w_) := fun h _ hn => bound h hn
theorem sfNop (site_ : Nat) (w_ : W64) : Statement (.sfNop site_ w_) := fun h _ hn => bound h hn
theorem sfEnd (site_ : Nat) (w_ : W64) : Statement (.sfEnd site_ w_) := fun h _ hn => bound h hn
theorem sfWait (site_ : Nat) (w_ : W64) : Statement (.sfWait site_ w_) := fun h _ hn => bound h hn
theorem sfWpk (site_ : Nat) (w_ : W64) : Statement (.sfWpk site_ w_) := fun h _ hn => bound h hn
theorem sfLoop (site_ : Nat) (w_ : W64) : Statement (.sfLoop site_ w_) := fun h _ hn => bound h hn
theorem sfBr (site_ : Nat) (w_ : W64) : Statement (.sfBr site_ w_) := fun h _ hn => bound h hn
theorem bz (site_ : Nat) (w_ : W64) : Statement (.bz site_ w_) := fun h _ hn => bound h hn
theorem bnz (site_ : Nat) (w_ : W64) : Statement (.bnz site_ w_) := fun h _ hn => bound h hn
theorem sli (site_ : Nat) (w_ : W64) : Statement (.sli site_ w_) := fun h _ hn => bound h hn
theorem sadd (site_ : Nat) (w_ : W64) : Statement (.sadd site_ w_) := fun h _ hn => bound h hn
theorem smovv (site_ : Nat) (w_ : W64) : Statement (.smovv site_ w_) := fun h _ hn => bound h hn
theorem getpk (site_ : Nat) (w_ : W64) : Statement (.getpk site_ w_) := fun h _ hn => bound h hn
theorem fadd (site_ : Nat) (w_ : W64) : Statement (.fadd site_ w_) := fun h _ hn => bound h hn
theorem fsub (site_ : Nat) (w_ : W64) : Statement (.fsub site_ w_) := fun h _ hn => bound h hn
theorem fmul (site_ : Nat) (w_ : W64) : Statement (.fmul site_ w_) := fun h _ hn => bound h hn
theorem ffma (site_ : Nat) (w_ : W64) : Statement (.ffma site_ w_) := fun h _ hn => bound h hn
theorem fmin (site_ : Nat) (w_ : W64) : Statement (.fmin site_ w_) := fun h _ hn => bound h hn
theorem fmax (site_ : Nat) (w_ : W64) : Statement (.fmax site_ w_) := fun h _ hn => bound h hn
theorem fcmp (site_ : Nat) (w_ : W64) : Statement (.fcmp site_ w_) := fun h _ hn => bound h hn
theorem iadd (site_ : Nat) (w_ : W64) : Statement (.iadd site_ w_) := fun h _ hn => bound h hn
theorem isub (site_ : Nat) (w_ : W64) : Statement (.isub site_ w_) := fun h _ hn => bound h hn
theorem imul (site_ : Nat) (w_ : W64) : Statement (.imul site_ w_) := fun h _ hn => bound h hn
theorem imulh (site_ : Nat) (w_ : W64) : Statement (.imulh site_ w_) := fun h _ hn => bound h hn
theorem iand (site_ : Nat) (w_ : W64) : Statement (.iand site_ w_) := fun h _ hn => bound h hn
theorem ior (site_ : Nat) (w_ : W64) : Statement (.ior site_ w_) := fun h _ hn => bound h hn
theorem ixor (site_ : Nat) (w_ : W64) : Statement (.ixor site_ w_) := fun h _ hn => bound h hn
theorem ishl (site_ : Nat) (w_ : W64) : Statement (.ishl site_ w_) := fun h _ hn => bound h hn
theorem ishr (site_ : Nat) (w_ : W64) : Statement (.ishr site_ w_) := fun h _ hn => bound h hn
theorem isra (site_ : Nat) (w_ : W64) : Statement (.isra site_ w_) := fun h _ hn => bound h hn
theorem icmp (site_ : Nat) (w_ : W64) : Statement (.icmp site_ w_) := fun h _ hn => bound h hn
theorem sel (site_ : Nat) (w_ : W64) : Statement (.sel site_ w_) := fun h _ hn => bound h hn
theorem cvt (site_ : Nat) (w_ : W64) : Statement (.cvt site_ w_) := fun h _ hn => bound h hn
theorem cvtmx (site_ : Nat) (w_ : W64) : Statement (.cvtmx site_ w_) := fun h _ hn => bound h hn
theorem fexp (site_ : Nat) (w_ : W64) : Statement (.fexp site_ w_) := fun h _ hn => bound h hn
theorem fexp2 (site_ : Nat) (w_ : W64) : Statement (.fexp2 site_ w_) := fun h _ hn => bound h hn
theorem fexpsub (site_ : Nat) (w_ : W64) : Statement (.fexpsub site_ w_) := fun h _ hn => bound h hn
theorem flog (site_ : Nat) (w_ : W64) : Statement (.flog site_ w_) := fun h _ hn => bound h hn
theorem flog2 (site_ : Nat) (w_ : W64) : Statement (.flog2 site_ w_) := fun h _ hn => bound h hn
theorem frcp (site_ : Nat) (w_ : W64) : Statement (.frcp site_ w_) := fun h _ hn => bound h hn
theorem frsq (site_ : Nat) (w_ : W64) : Statement (.frsq site_ w_) := fun h _ hn => bound h hn
theorem fsqrt (site_ : Nat) (w_ : W64) : Statement (.fsqrt site_ w_) := fun h _ hn => bound h hn
theorem ftanh (site_ : Nat) (w_ : W64) : Statement (.ftanh site_ w_) := fun h _ hn => bound h hn
theorem fsig (site_ : Nat) (w_ : W64) : Statement (.fsig site_ w_) := fun h _ hn => bound h hn
theorem ferf (site_ : Nat) (w_ : W64) : Statement (.ferf site_ w_) := fun h _ hn => bound h hn
theorem fgelu (site_ : Nat) (w_ : W64) : Statement (.fgelu site_ w_) := fun h _ hn => bound h hn
theorem rsum (site_ : Nat) (w_ : W64) : Statement (.rsum site_ w_) := fun h _ hn => bound h hn
theorem rmax (site_ : Nat) (w_ : W64) : Statement (.rmax site_ w_) := fun h _ hn => bound h hn
theorem rmin (site_ : Nat) (w_ : W64) : Statement (.rmin site_ w_) := fun h _ hn => bound h hn
theorem rrsum (site_ : Nat) (w_ : W64) : Statement (.rrsum site_ w_) := fun h _ hn => bound h hn
theorem perm (site_ : Nat) (w_ : W64) : Statement (.perm site_ w_) := fun h _ hn => bound h hn
theorem bcast (site_ : Nat) (w_ : W64) : Statement (.bcast site_ w_) := fun h _ hn => bound h hn
theorem ldv (site_ : Nat) (w_ : W64) : Statement (.ldv site_ w_) := fun h _ hn => bound h hn
theorem stv (site_ : Nat) (w_ : W64) : Statement (.stv site_ w_) := fun h _ hn => bound h hn
theorem send (site_ : Nat) (w_ : W64) : Statement (.send site_ w_) := fun h _ hn => bound h hn
theorem hash (site_ : Nat) (w_ : W64) : Statement (.hash site_ w_) := fun h _ hn => bound h hn
theorem rng (site_ : Nat) (w_ : W64) : Statement (.rng site_ w_) := fun h _ hn => bound h hn
theorem sortcx (site_ : Nat) (w_ : W64) : Statement (.sortcx site_ w_) := fun h _ hn => bound h hn
theorem topki (site_ : Nat) (w_ : W64) : Statement (.topki site_ w_) := fun h _ hn => bound h hn
theorem topk (site_ : Nat) (w_ : W64) : Statement (.topk site_ w_) := fun h _ hn => bound h hn
theorem suNop (site_ : Nat) (w_ : W64) : Statement (.suNop site_ w_) := fun h _ hn => bound h hn
theorem suWait (site_ : Nat) (w_ : W64) : Statement (.suWait site_ w_) := fun h _ hn => bound h hn
theorem wt (site_ : Nat) (w_ : W64) : Statement (.wt site_ w_) := fun h _ hn => bound h hn
theorem suLoop (site_ : Nat) (w_ : W64) : Statement (.suLoop site_ w_) := fun h _ hn => bound h hn
theorem suBr (site_ : Nat) (w_ : W64) : Statement (.suBr site_ w_) := fun h _ hn => bound h hn
theorem sett (site_ : Nat) (w_ : W64) : Statement (.sett site_ w_) := fun h _ hn => bound h hn
theorem addt (site_ : Nat) (w_ : W64) : Statement (.addt site_ w_) := fun h _ hn => bound h hn
theorem go (site_ : Nat) (w_ : W64) : Statement (.go site_ w_) := fun h _ hn => bound h hn
theorem page (site_ : Nat) (w_ : W64) : Statement (.page site_ w_) := fun h _ hn => bound h hn
theorem fell (site_ : Nat) (w_ : W64) : Statement (.fell site_ w_) := fun h _ hn => bound h hn
theorem cwait (site_ : Nat) (w_ : W64) : Statement (.cwait site_ w_) := fun h _ hn => bound h hn
theorem qwait (site_ : Nat) (w_ : W64) : Statement (.qwait site_ w_) := fun h _ hn => bound h hn
theorem join (site_ : Nat) (w_ : W64) : Statement (.join site_ w_) := fun h _ hn => bound h hn
theorem joinReady (su_ : Nat) : Statement (.joinReady su_) := fun h _ hn => bound h hn
theorem barrierFlit (su_ : Nat) : Statement (.barrierFlit su_) := fun h _ hn => bound h hn
theorem barrierFlitSend (su_ : Nat) (down_ : Bool) : Statement (.barrierFlitSend su_ down_) := fun h _ hn => bound h hn
theorem barrierWindowEnd (su_ : Nat) : Statement (.barrierWindowEnd su_) := fun h _ hn => bound h hn
theorem samp (site_ : Nat) (w_ : W64) : Statement (.samp site_ w_) := fun h _ hn => bound h hn
theorem descriptorFlit (site_ : Nat) : Statement (.descriptorFlit site_) := fun h _ hn => bound h hn
theorem readerEmit (site_ : Nat) : Statement (.readerEmit site_) := fun h _ hn => bound h hn
theorem updateFlit (site_ : Nat) : Statement (.updateFlit site_) := fun h _ hn => bound h hn
theorem accQueueServe (site_ : Nat) (bank_ : Nat) : Statement (.accQueueServe site_ bank_) := fun h _ hn => bound (left h) hn
theorem flushEmit (site_ : Nat) : Statement (.flushEmit site_) := fun h _ hn => bound h hn
theorem skipAlarmEval : Statement .skipAlarmEval := fun _ _ hn => absurdNone hn
theorem hbmRequest (stack_ : Nat) : Statement (.hbmRequest stack_) := fun _ _ hn => absurdNone hn
theorem hbmGrainAccess (stack_ : Nat) (ch_ : Nat) : Statement (.hbmGrainAccess stack_ ch_) := fun _ _ hn => absurdNone hn
theorem hbmWriteBack (stack_ : Nat) (ch_ : Nat) : Statement (.hbmWriteBack stack_ ch_) := fun _ _ hn => absurdNone hn
theorem hbmReturnRelease (stack_ : Nat) : Statement (.hbmReturnRelease stack_) := fun _ _ hn => absurdNone hn
theorem hbmFrameStart (stack_ : Nat) : Statement (.hbmFrameStart stack_) := fun _ _ hn => absurdNone hn
theorem gatherWindowStart (stack_ : Nat) : Statement (.gatherWindowStart stack_) := fun _ _ hn => absurdNone hn
theorem hbmScrub (stack_ : Nat) : Statement (.hbmScrub stack_) := fun _ _ hn => absurdNone hn
theorem hbmTrainStep (stack_ : Nat) (margin_ : Nat) (temp_ : Nat) (converged_ : Bool) : Statement (.hbmTrainStep stack_ margin_ temp_ converged_) := fun _ _ hn => absurdNone hn
theorem hbmCaPar (stack_ : Nat) (ch_ : Nat) : Statement (.hbmCaPar stack_ ch_) := fun _ _ hn => absurdNone hn
theorem hbmOdecc (stack_ : Nat) (ch_ : Nat) : Statement (.hbmOdecc stack_ ch_) := fun _ _ hn => absurdNone hn
theorem elasticStackAccess (dpa_ : Nat) (len_ : Nat) (data_ : Option (List Byte)) : Statement (.elasticStackAccess dpa_ len_ data_) := fun _ _ hn => absurdNone hn
theorem pickFrameSend (p_ : Nat) : Statement (.pickFrameSend p_) := fun _ _ hn => absurdNone hn
theorem slotTake (p_ : Nat) : Statement (.slotTake p_) := fun _ _ hn => absurdNone hn
theorem codewordDecode (p_ : Nat) (o_ : CodewordOutcome) : Statement (.codewordDecode p_ o_) := fun _ _ hn => absurdNone hn
theorem laneFail (p_ : Nat) (lane_ : Nat) : Statement (.laneFail p_ lane_) := fun _ _ hn => absurdNone hn
theorem pickHeaderReceive (p_ : Nat) (f_ : RxFrame) : Statement (.pickHeaderReceive p_ f_) := fun _ _ hn => absurdNone hn
theorem slotPush (p_ : Nat) : Statement (.slotPush p_) := fun _ _ hn => absurdNone hn
theorem elasticFrameReceive (p_ : Nat) (frame_ : List Byte) (bad_ : Bool) : Statement (.elasticFrameReceive p_ frame_ bad_) := fun _ _ hn => absurdNone hn
theorem elasticFrameSend (p_ : Nat) : Statement (.elasticFrameSend p_) := fun _ _ hn => absurdNone hn
theorem linkFrameSend (p_ : Nat) : Statement (.linkFrameSend p_) := fun _ _ hn => absurdNone hn
theorem linkFrame (p_ : Nat) (ownDelta_ : Int) (payload_ : List Byte) : Statement (.linkFrame p_ ownDelta_ payload_) := fun _ _ hn => absurdNone hn
theorem signalDetect (p_ : Nat) : Statement (.signalDetect p_) := fun _ _ hn => absurdNone hn
theorem portTrained (p_ : Nat) (o_ : TrainOutcome) : Statement (.portTrained p_ o_) := fun _ _ hn => absurdNone hn
theorem trainingTimeout (p_ : Nat) : Statement (.trainingTimeout p_) := fun _ _ hn => absurdNone hn
theorem lossOfSignal (p_ : Nat) : Statement (.lossOfSignal p_) := fun _ _ hn => absurdNone hn
theorem rotationPoint (p_ : Nat) : Statement (.rotationPoint p_) := fun _ _ hn => absurdNone hn
theorem pickSteer : Statement .pickSteer := fun _ _ hn => absurdNone hn
theorem upstreamLoss : Statement .upstreamLoss := fun _ _ hn => absurdNone hn
theorem holdoverExpiry : Statement .holdoverExpiry := fun _ _ hn => absurdNone hn
theorem betterOffer (p_ : Nat) : Statement (.betterOffer p_) := fun _ _ hn => absurdNone hn
theorem masterProposal : Statement .masterProposal := fun _ _ hn => absurdNone hn
theorem epochInEdge (width_ : Nat) : Statement (.epochInEdge width_) := fun _ _ hn => absurdNone hn
theorem epochOutPulse : Statement .epochOutPulse := fun _ _ hn => absurdNone hn
theorem refclkLoss : Statement .refclkLoss := fun _ _ hn => absurdNone hn
theorem helloSend (p_ : Nat) : Statement (.helloSend p_) := fun _ _ hn => absurdNone hn
theorem helloReceive (p_ : Nat) (payload_ : List Byte) : Statement (.helloReceive p_ payload_) := fun _ _ hn => absurdNone hn
theorem helloTimeout (p_ : Nat) : Statement (.helloTimeout p_) := fun _ _ hn => absurdNone hn
theorem routeSend (p_ : Nat) : Statement (.routeSend p_) := fun _ _ hn => absurdNone hn
theorem routeReceive (p_ : Nat) (payload_ : List Byte) : Statement (.routeReceive p_ payload_) := fun _ _ hn => absurdNone hn
theorem routedFrame (frame_ : List Byte) : Statement (.routedFrame frame_) := fun _ _ hn => absurdNone hn
theorem rmaRequest (frame_ : List Byte) : Statement (.rmaRequest frame_) := fun _ _ hn => absurdNone hn
theorem rmaResponse (frame_ : List Byte) : Statement (.rmaResponse frame_) := fun _ _ hn => absurdNone hn
theorem rmaTimeout (tag_ : Nat) : Statement (.rmaTimeout tag_) := fun _ _ hn => absurdNone hn
theorem tallyBuild (p_ : Nat) : Statement (.tallyBuild p_) := fun _ _ hn => absurdNone hn
theorem tallyReceive (p_ : Nat) (payload_ : List Byte) : Statement (.tallyReceive p_ payload_) := fun _ _ hn => absurdNone hn
theorem fbPageSend (exch_ : Nat) (peer_ : Nat) : Statement (.fbPageSend exch_ peer_) := fun _ _ hn => absurdNone hn
theorem fbPageReceive (frame_ : List Byte) : Statement (.fbPageReceive frame_) := fun _ _ hn => absurdNone hn
theorem fbgrantSend (exch_ : Nat) (peer_ : Nat) : Statement (.fbgrantSend exch_ peer_) := fun _ _ hn => absurdNone hn
theorem fbgrantReceive (frame_ : List Byte) : Statement (.fbgrantReceive frame_) := fun _ _ hn => absurdNone hn
theorem fbResendTimeout (exch_ : Nat) (peer_ : Nat) : Statement (.fbResendTimeout exch_ peer_) := fun _ _ hn => absurdNone hn
theorem regulatorSample (r_ : PowerSample) : Statement (.regulatorSample r_) := fun _ _ hn => absurdNone hn
theorem clampEnd : Statement .clampEnd := fun _ _ hn => absurdNone hn
theorem senseCompare (shared_ : Nat) : Statement (.senseCompare shared_) := fun _ _ hn => absurdNone hn
theorem budgetAdjust : Statement .budgetAdjust := fun _ _ hn => absurdNone hn
theorem holdoffUpdate : Statement .holdoffUpdate := fun _ _ hn => absurdNone hn
theorem energyShare (r_ : SharedEnergy) : Statement (.energyShare r_) := fun _ _ hn => absurdNone hn
theorem droopAlarm (region_ : Nat) : Statement (.droopAlarm region_) := fun _ _ hn => absurdNone hn
theorem droopClear (region_ : Nat) : Statement (.droopClear region_) := fun _ _ hn => absurdNone hn
theorem feedLoss (feed_ : Nat) : Statement (.feedLoss feed_) := fun _ _ hn => absurdNone hn
theorem feedReturn (feed_ : Nat) : Statement (.feedReturn feed_) := fun _ _ hn => absurdNone hn
theorem oneFeedLimitLift : Statement .oneFeedLimitLift := fun _ _ hn => absurdNone hn
theorem groupReportSend : Statement .groupReportSend := fun _ _ hn => absurdNone hn
theorem groupReportReceive (block_ : List Byte) (pecOk_ : Bool) : Statement (.groupReportReceive block_ pecOk_) := fun _ _ hn => absurdNone hn
theorem groupAssignSend : Statement .groupAssignSend := fun _ _ hn => absurdNone hn
theorem groupAssignReceive (block_ : List Byte) (pecOk_ : Bool) : Statement (.groupAssignReceive block_ pecOk_) := fun _ _ hn => absurdNone hn
theorem groupAssignTimeout : Statement .groupAssignTimeout := fun _ _ hn => absurdNone hn
theorem coordinatorTakeover : Statement .coordinatorTakeover := fun _ _ hn => absurdNone hn
theorem diodeRead (heddle_ : Nat) (reading_ : Int) : Statement (.diodeRead heddle_ reading_) := fun _ _ hn => absurdNone hn
theorem throttleHoldoff (region_ : Nat) : Statement (.throttleHoldoff region_) := fun _ _ hn => absurdNone hn
theorem regionReturn (region_ : Nat) (o_ : RetestOutcome) : Statement (.regionReturn region_ o_) := fun _ _ hn => absurdNone hn
theorem coolantSample (c_ : CoolantSample) : Statement (.coolantSample c_) := fun _ _ hn => absurdNone hn
theorem shortDetect (region_ : Nat) : Statement (.shortDetect region_) := fun _ _ hn => absurdNone hn
theorem watchTest (u_ : WatchUnit) (pass_ : Bool) : Statement (.watchTest u_ pass_) := fun _ _ hn => absurdNone hn
theorem watchClear (u_ : WatchUnit) : Statement (.watchClear u_) := fun _ _ hn => absurdNone hn
theorem riskEval : Statement .riskEval := fun _ _ hn => absurdNone hn
theorem skimSend (area_ : Nat) : Statement (.skimSend area_) := fun _ _ hn => absurdNone hn
theorem skimWriteAnswer (area_ : Nat) (status_ : Nat) : Statement (.skimWriteAnswer area_ status_) := fun _ _ hn => absurdNone hn
theorem skimStall (area_ : Nat) : Statement (.skimStall area_) := fun _ _ hn => absurdNone hn
theorem smbReadStatus : Statement .smbReadStatus := fun _ _ hn => absurdNone hn
theorem smbReadIdentity : Statement .smbReadIdentity := fun _ _ hn => absurdNone hn
theorem smbusTimeout : Statement .smbusTimeout := fun _ _ hn => absurdNone hn
theorem sampleDrain (su_ : Nat) : Statement (.sampleDrain su_) := fun h _ hn => bound h hn
theorem dmaReturnArrival (site_ : Nat) (flit_ : Flit) : Statement (.dmaReturnArrival site_ flit_) := fun h _ hn => bound h hn
theorem triplicatedRead (f_ : TriField) : Statement (.triplicatedRead f_) := fun _ _ hn => absurdNone hn
theorem hostLinkUp (port_ : Nat) : Statement (.hostLinkUp port_) := fun _ _ hn => absurdNone hn

end Sys2Proof.Laws.NamedSite
end

