-- ==== Sys2Proof/Tests/Slice0.lean ====
section
/-! SUPPORT. The model's own tests: an ill-formed command for each check, one small run per family, and a state and operands that meet the
hypotheses of each statement. -/
namespace Sys2Proof.Tests
open Sys2Proof Sys2Proof.Machine

set_option Elab.async false

/-! ## Small states -/

/-- Area 0: the whole device, owned by port 0, its job running step 0. -/
def area0 : Area :=
  { Area.reset with
    defined := true, word := 0xF0C0, owner := Tri.of 0
    job := { (default : Job) with state := jRunning, steps := [{ (default : Step) with len := 0, v := 1 }], nextK := 1 } }

/-- After reset, with area 0. -/
def withArea (f : Area → Area) : State := { State.reset with areas := [(0, f area0)] }

/-- An MX site 0 whose word at address 0 is w. -/
def mxS (w : W64) (f : Mx → Mx) : State :=
  { withArea id with mx := [(0, f { (default : Mx) with seq := { (default : Seq) with running := true }, prog := [(0, w)] })] }

/-- An SF site (position 5) of heddle 0. -/
def sfN : Nat := 513

/-- The SF site whose word at address 0 is w. -/
def sfS (w : W64) (f : Sf → Sf) : State :=
  { withArea id with sf := [(513, f { (default : Sf) with seq := { (default : Seq) with running := true }, prog := [(0, w)] })] }

/-- The SU (position 10) of heddle 0. -/
def suN : Nat := 1026

/-- The SU whose word at address 0 is w. -/
def suS (w : W64) (f : Su → Su) : State :=
  { withArea id with su := [(1026, f { (default : Su) with seq := { (default : Seq) with running := true }, prog := [(0, w)] })] }

/-- Does the command end in a next state with a property? -/
def ends (o : Out) (p : State → Bool) : Bool :=
  match o with
  | .next t => p t
  | _ => false

/-! ## MX -/

/-- Meets the hypotheses of Obligations.StepRunsTheFrontCommandOrIdles. -/
theorem witness_StepRunsTheFrontCommandOrIdles : State.reset.pending = [] := by decide
/-- Meets the hypotheses of Obligations.MxSequencerAndRegisterWords. -/
theorem witness_MxSequencerWords :
    mxCanIssue 0 0x0000000000000000 (mxS 0x0000000000000000 id) ∧ mxCanIssue 0 0x0100000000000000 (mxS 0x0100000000000000 id)
    ∧ mxCanIssue 0 0x02000000FFFFFFFF (mxS 0x02000000FFFFFFFF id)
    ∧ (mxCanIssue 0 0x0300000000000001 (mxS 0x0300000000000001 id) ∧ (mxAtIssue 0 (mxS 0x0300000000000001 id)).now + 1 ≤ 8)
    ∧ mxCanIssue 0 0x0400000000FFFFFF (mxS 0x0400000000FFFFFF fun x => { x with seq := { x.seq with loops := [⟨0, 9, 1⟩, ⟨0, 9, 1⟩, ⟨0, 9, 1⟩] } }) := by
  unfold mxCanIssue; decide +kernel
/-- Meets the hypotheses of Obligations.MxSequencerAndRegisterWords. -/
theorem witness_MxRegisterWords :
    (mxCanIssue 0 0x050000000000080A (mxS 0x050000000000080A id) ∧ modeCodesOk 0x80A = true) ∧ mxCanIssue 0 0x060007000003FFFF (mxS 0x060007000003FFFF id)
    ∧ mxCanIssue 0 0x070007000003FFFF (mxS 0x070007000003FFFF id) ∧ mxCanIssue 0 0x08000000FFFFFFFF (mxS 0x08000000FFFFFFFF id)
    ∧ mxCanIssue 0 0x0A00000000000000 (mxS 0x0A00000000000000 id)
    ∧ (
      let s := mxS 0x0900000000000002 fun x => { x with rings := [(0, { (default : Ring) with desc := 0x80000E0000000000, wptr := 2 })] }
      mxCanIssue 0 0x0900000000000002 s ∧ 2 ≤ ringOcc (look default (mxAt (mxAtIssue 0 s) 0).rings 0)) := by
  unfold mxCanIssue; decide +kernel
/-- Meets the hypotheses of Obligations.ScheduleDefectsHaltTheArea. -/
theorem witness_ScheduleDefects_mx :
    (
      let s := mxS 0x0300000000000000 id
      mxCanIssue 0 0x0300000000000000 s ∧ areaOfSite (mxAtIssue 0 s) 0 = some 0 ∧ jobRuns (mxAtIssue 0 s) 0 = true ∧ 8 * (mxAt s 0).seq.step < (mxAtIssue 0 s).now + 1)
    ∧ (
      let s := mxS 0x0400000000000102 fun x => { x with seq := { x.seq with loops := [⟨0, 9, 1⟩, ⟨0, 9, 1⟩, ⟨0, 9, 1⟩, ⟨0, 9, 1⟩] } }
      mxCanIssue 0 0x0400000000000102 s ∧ areaOfSite (mxAtIssue 0 s) 0 = some 0 ∧ jobRuns (mxAtIssue 0 s) 0 = true) := by
  unfold mxCanIssue; decide +kernel
/-- Meets the hypotheses of Obligations.MxLoadsFillTheLanes. -/
theorem witness_Lds :
    let s := mxS 0x100000000000F077 id
    let x := mxAt (mxAtIssue 0 s) 0
    mxCanIssue 0 0x100000000000F077 s ∧ wOp 0x100000000000F077 = 0x10 ∧ x.loadTill ≤ s.now ∧ x.genTill ≤ s.now ∧ rowsOk (aReg x 0) 8 = true
    ∧ hazLanes x (mxAtIssue 0 s).now 896 128 = false := by
  unfold mxCanIssue; decide +kernel

/-- An act due at an ACLK: a row of ones written at an address. -/
def rowDue (t a : Nat) : MxDue := { at_ := t, pc := some 0, act := .row a { data := 0x77, sour := 0 } }

/-- Meets the hypotheses of Obligations.MxLoadsFillTheLanes. -/
theorem witness_MxLoads :
    (mxCanIssue 0 0x1100000000000070 (mxS 0x1100000000000070 id) ∧ mxCanIssue 0 0x1200000000007F00 (mxS 0x1200000000007F00 id)
      ∧ mxCanIssue 0 0x1400000000000000 (mxS 0x1400000000000000 id) ∧ mxCanIssue 0 0x1300000000003F00 (mxS 0x1300000000003F00 id)
      ∧ rowsOk 0 128 = true ∧ hazScales (mxAt (mxS 0x1100000000000070 id) 0) 0 = false)
    ∧ (
      let s := mxS 0 fun x => { x with acts := [rowDue 9 0, rowDue 9 128, rowDue 10 0] }
      let x := mxAt s 0
      x.spmac = none ∧ (x.acts.filter fun e => decide (e.at_ = 9)) = [rowDue 9 0, rowDue 9 128] ∧ (x.acts.filter fun e => decide (e.at_ = 10)) = [rowDue 10 0]
      ∧ (∀ e ∈ x.acts, mxHeld s 0 e = false) ∧ (rowDue 10 0).act ≠ .rowchk ∧ (rowDue 9 128).act.addr = some 128 ∧ 128 / 65536 = 0 / 65536) := by
  unfold mxCanIssue; decide +kernel

/-- A MAC word: M0 255, N 1, B0 0, KB 1. -/
def macW : W64 := 0x20000000FF000000

/-- Meets the hypotheses of Obligations.MacRunsItsBlocks. -/
theorem witness_MacStarts :
    (
      let s := mxS macW fun x => { x with mode := 0x43A33, valid := 1 }
      let x := mxAt (mxAtIssue 0 s) 0
      mxCanIssue 0 macW s ∧ wOp macW = 0x20 ∧ macChecks x (macOf x macW (mxAtIssue 0 s).now 0 [false] [false]) = true ∧ x.arrTill ≤ s.now ∧ x.outs = [] ∧ mCHK x.mode = true ∧ bit x.valid.toNat 0 = true)
    ∧ (
      let s := mxS macW fun x => { x with mode := 0x99 }
      mxCanIssue 0 macW s ∧ macChecks (mxAt s 0) (macOf (mxAt s 0) macW 0 0 [false] [false]) = true ∧ mCHK 0x99 = false) := by
  unfold mxCanIssue; decide +kernel

/-- A MAC in progress that has read a row of elements and one of scales, all zero. -/
def macO : MacOp :=
  { t := 0, pc := 0, mode := 0x99, slk := 0, ae := 0, sa := 0, m0 := 255, n := 1, b0 := 0, kb := 1, st := 0, stalls := 0
    skips := [false], audit := [false], next := 0, auditAcc := []
    rows := [{ scale := false, addr := 0, data := 0, lo := false, hi := false }, { scale := true, addr := 0, data := 0, lo := false, hi := false }] }

/-- Meets the hypotheses of Obligations.MacRunsItsBlocks. -/
theorem witness_MacBlockEnters :
    (
      let s := mxS 0 fun x => { x with macs := [macO] }
      let r := runTo (macO.entryAt macO.next) s
      sitePresent s.member 0 = true ∧ kindOf 0 = .mx ∧ siteRuns s 0 = true ∧ s.pwr.clamp = none ∧ (mxAt s 0).macs = [macO] ∧ droopHolds s 0 macO = false
      ∧ (mxAt r 0).macs = [macO] ∧ arrayHeld r 0 (macO.lastUse macO.next) = false)
    ∧ 0 < macO.kb ∧ macO.m0 + macO.n ≤ 256 ∧ macO.next < macO.n * macO.kb ∧ macO.audit.getD 0 false = false := by
  decide +kernel
/-- Meets the hypotheses of Obligations.AccAndSpmacComplete. -/
theorem witness_AccAndSpmac :
    (mxCanIssue 0 0x23000000FF000000 (mxS 0x23000000FF000000 id) ∧ mxCanIssue 0 0x23000000FF000100 (mxS 0x23000000FF000100 id)
      ∧ rowsOk 0 1 = true ∧ hazAcc (mxAt (mxS 0x23000000FF000000 id) 0) 0 255 1 = false)
    ∧ (
      let s := mxS 0x2400000400000000 fun x => { x with mode := 0x99 }
      mxCanIssue 0 0x2400000400000000 s ∧ spModeOk (mxAt s 0).mode = true ∧ ringOcc (look default (mxAt s 0).rings 0) = 0) := by
  unfold mxCanIssue; decide +kernel
/-- Meets the hypotheses of Obligations.OutAndOutsSendOrStore. -/
theorem witness_OutAndOuts :
    mxCanIssue 0 0x21000000F8000200 (mxS 0x21000000F8000200 id) ∧ mxCanIssue 0 0x2200000000000000 (mxS 0x2200000000000000 id)
    ∧ mxCanIssue 0 0x21000000F8000300 (mxS 0x21000000F8000300 id) ∧ mxCanIssue 0 0x2200000000000100 (mxS 0x2200000000000100 id)
    ∧ hazAcc (mxAt (mxS 0x21000000F8000200 id) 0) 0 248 (outK 0) = false ∧ 248 + outK 0 ≤ 256 ∧ rowsOk 0 1 = true := by
  unfold mxCanIssue; decide +kernel
/-- Meets the hypotheses of Obligations.RowCheckFindsEverySingleLaneError. -/
theorem witness_RowCheck :
    let x : Mx := default
    let o : MacOp := { macO with mode := 0x43A33 }
    modeOk o.mode = true ∧ mCHK o.mode = true ∧ fmtWidth (mFS o.mode) ≤ 8 ∧ fmtWidth (mFA o.mode) ≤ 8
    ∧ (((List.range 32).all fun j => decide (look 0 x.check j = checkWeight (blockLanes x o.mode 0) j)) = true)
    ∧ (((List.range 16).all fun l => decide (laneSpecial (streamBlock o 0) (streamScale o 0) (laneScale x o.mode l 0) (stationary x o.mode l 0) = false)
        && decide (laneScale x o.mode l 0 - minScale x o.mode 0 ≤ 16)) = true)
    ∧ streamSour o 0 = false ∧ (((List.range 16).all fun l => !laneSour x l 0 (blockBytes o.mode) && !look false x.ssour l) = true) := by
  decide +kernel
/-- R160: of two writes to one bank in one ACLK neither is performed; to two banks both are. -/
theorem test_bank_clash :
    (
      let t := runTo 10 (mxS 0 fun x => { x with acts := [rowDue 9 0, rowDue 9 128] })
      let u := runTo 10 (mxS 0 fun x => { x with acts := [rowDue 9 0, rowDue 9 65536] })
      look 0 (mxAt t 0).mem 0 = 0 ∧ look 0 (mxAt t 0).mem 128 = 0 ∧ counted t 0x4111 0 = 1
        ∧ look 0 (mxAt u 0).mem 0 = 0x77 ∧ look 0 (mxAt u 0).mem 65536 = 0x77 ∧ counted u 0x4111 0 = 0) := by
  decide +kernel
/-- R160, R169: the same at an SF site, whose banks are of 32,768 bytes. -/
theorem test_sf_bank_clash :
    (
      let d := fun a => ({ at_ := 9, pc := none, act := .row a { data := 0x77, sour := 0 } } : SfDue)
      let t := runTo 10 (sfS 0 fun x => { x with acts := [d 0, d 128] })
      let u := runTo 10 (sfS 0 fun x => { x with acts := [d 0, d 32768] })
      look 0 (sfAt t sfN).mem 0 = 0 ∧ look 0 (sfAt t sfN).mem 128 = 0 ∧ counted t 0x4311 sfN = 1
        ∧ look 0 (sfAt u sfN).mem 0 = 0x77 ∧ look 0 (sfAt u sfN).mem 32768 = 0x77) := by
  decide +kernel
/-- The GEMM tile of 05: element rows are read at 110 + 8q, scale rows at 109 + 256q. -/
theorem test_mac_rows :
    (
      let o : MacOp := { macO with t := 109, mode := 0x43033, ae := 0x10000, sa := 0x18000, n := 64, kb := 16 }
      let l := (macReads o).map fun d => (d.at_, d.act.addr.getD 0)
      l.take 2 = [(110, 65536), (118, 65664)] ∧ l.drop 256 = (List.range 8).map fun q => (109 + 256 * q, 98304 + 128 * q)) := by
  and_intros <;> decide +kernel

/-! ## SF -/

/-- The SF word of an opcode with low bits. -/
def sfW (op lo : Nat) : W64 := BitVec.ofNat 64 (op * 2 ^ 56 + lo)

/-- A word with this opcode can issue on the small SF site, on free units. -/
def sfReady (op lo : Nat) : Bool :=
  let s := sfS (sfW op lo) id
  decide (sfCanIssue sfN (sfW op lo) s ∧ wOp (sfW op lo) = op ∧ (sfAt (sfAtIssue sfN s) sfN).wb = []
    ∧ (sfAt (sfAtIssue sfN s) sfN).vecTill = 0 ∧ (sfAt (sfAtIssue sfN s) sfN).trTill = 0 ∧ (sfAt (sfAtIssue sfN s) sfN).memTill = 0
    ∧ (sfAt (sfAtIssue sfN s) sfN).hashTill = 0 ∧ (sfAt (sfAtIssue sfN s) sfN).topTill = 0)

/-- Meets the hypotheses of Obligations.SfSequencerAndScalarWords. -/
theorem witness_SfSequencerWords :
    (([0x00, 0x01, 0x02, 0x04, 0x05, 0x06, 0x07].all fun op => sfReady op 1) && sfReady 0x03 1) = true
    ∧ (sfAtIssue sfN (sfS (sfW 3 1) id)).now + 1 ≤ 8 := by
  decide +kernel
/-- Meets the hypotheses of Obligations.SfSequencerAndScalarWords. -/
theorem witness_SfScalarWords : ([0x08, 0x09, 0x0A, 0x0B].all fun op => sfReady op 0xFFFFFFFF) = true := by decide +kernel
/-- Meets the hypotheses of Obligations.SfLaneWordsComplete. -/
theorem witness_SfLaneWords :
    (laneWords.all fun l => sfReady l.op 0 && decide ((sfAt (sfAtIssue sfN (sfS (sfW l.op 0) id)) sfN).till l.unit ≤ 0)) = true := by decide +kernel
/-- Meets the hypotheses of Obligations.SfComparesAndConversions. -/
theorem witness_SfComparesAndSelect : (sfReady 0x16 4 && sfReady 0x22 3 && sfReady 0x23 0) = true := by decide +kernel
/-- Meets the hypotheses of Obligations.SfComparesAndConversions. -/
theorem witness_SfConversions : (sfReady 0x28 0x2BB && sfReady 0x29 8) = true ∧ isMxOut 8 = true := by decide +kernel
/-- Meets the hypotheses of Obligations.SfReductionsHashAndSort. -/
theorem witness_SfReductionsAndPermutes : ([0x40, 0x41, 0x42, 0x43, 0x48, 0x49].all fun op => sfReady op 0) = true := by decide +kernel
/-- Meets the hypotheses of Obligations.SfMemoryResultsAndRings. -/
theorem witness_SfMemoryWords :
    (sfReady 0x50 65408 && sfReady 0x51 65408 && sfReady 0x52 0) = true
    ∧ sfRowOk (sfAddr (sfAt (sfS (sfW 0x50 65408) id) sfN) (sfW 0x50 65408)) = true
    ∧ (
      let d := fun t a => ({ at_ := t, pc := none, act := .row a default } : SfDue)
      let f := sfAt (sfS 0 fun f => { f with acts := [d 9 0, d 9 128, d 10 65408] }) sfN
      (f.acts.filter fun e => decide (e.at_ = 10)) = [d 10 65408] ∧ (f.acts.filter fun e => decide (e.at_ = 9)) = [d 9 0, d 9 128]
      ∧ (d 9 0).act.addr / 32768 = (d 9 128).act.addr / 32768 ∧ (d 9 0).act.addr < 65536) := by decide +kernel
/-- Meets the hypotheses of Obligations.SfReductionsHashAndSort. -/
theorem witness_SfHashSortAndTopk :
    (sfReady 0x58 0x100000000 && sfBS (sfW 0x58 0x100000000) && sfReady 0x59 0 && sfReady 0x5A 0xB0 && sfReady 0x5B 0 && sfReady 0x5C 64) = true := by decide +kernel
/-- Meets the hypotheses of Obligations.SfMemoryResultsAndRings. -/
theorem witness_SfResultsAreWritten :
    (let x : SfWb := { due := 0, dst := .s 0, mask := 0, val := default }
     let s := sfS 0 fun f => { f with wb := [x] }
     s.sw = [] ∧ s.sf = [(sfN, { sfAt s sfN with wb := [x] })] ∧ x.due = s.now ∧ (sfAt s sfN).acts = [])
    ∧ (let x : SfWb := { due := 0, dst := .p 7, mask := 0, val := default }
       let s := sfS 0 fun f => { f with wb := [x] }
       s.sw = [] ∧ s.sf = [(sfN, { sfAt s sfN with wb := [x] })])
    ∧ (let x : SfWb := { due := 0, dst := .v 31, mask := 1, val := default }
       let s := sfS 0 fun f => { f with wb := [x] }
       s.sw = [] ∧ s.sf = [(sfN, { sfAt s sfN with wb := [x] })]) := by decide +kernel

/-- One ring of two rows, empty. -/
def ring2 : Ring := { (default : Ring) with desc := 0x8000020000000000 }

/-- One delivery due now for ring 0. -/
def deliv0 : Deliv := { due := 0, te := 0, tok := false, tag := some 0, flit := default }

/-- Meets the hypotheses of Obligations.SfMemoryResultsAndRings. -/
theorem witness_RingDelivery :
    (let s := { mxS 0 (fun x => { x with rings := [(0, ring2)] }) with sw := [(0, { (default : Switch) with deliv := [deliv0] })] }
     sitePresent s.member 0 = true ∧ siteRuns s 0 = true ∧ (swAt s 0).deliv = [deliv0] ∧ kindOf 0 = .mx ∧ deliv0.tag.bind (ringTag 16) = some 0
     ∧ rgEn ring2.desc = true ∧ ringOcc ring2 ≠ rgLenM1 ring2.desc + 1 ∧ s.now = deliv0.due)
    ∧ (let s := { sfS 0 (fun x => { x with rings := [(0, ring2)] }) with sw := [(sfN, { (default : Switch) with deliv := [deliv0] })] }
       sitePresent s.member sfN = true ∧ siteRuns s sfN = true ∧ (swAt s sfN).deliv = [deliv0] ∧ kindOf sfN = .sf
       ∧ deliv0.tag.bind (ringTag 8) = some 0 ∧ look default (sfAt s sfN).rings 0 = ring2) := by decide +kernel

/-! ## SU -/

/-- The small SU with T at pick offset 10. -/
def suT (w : W64) (f : Su → Su) : State := suS w fun u => f { u with tOff := 10 }

/-- A word with this opcode can issue on the small SU. -/
def suReady (op lo : Nat) : Bool :=
  let s := suT (sfW op lo) id
  decide (suCanIssue suN (sfW op lo) s ∧ wOp (sfW op lo) = op ∧ (suAt (suAtIssue suN s) suN).timers = [] ∧ (suAt (suAtIssue suN s) suN).conds = []
    ∧ (suAt (suAtIssue suN s) suN).seq.loops = [] ∧ (suAtIssue suN s).now + 2 ≤ suEffective (suAt (suAtIssue suN s) suN) (sfW op lo) / 8 * 8)

/-- Meets the hypotheses of Obligations.SuWordsComplete. -/
theorem witness_SuSequencerWords : ([0x00, 0x02, 0x03, 0x04, 0x05, 0x06, 0x07].all fun op => suReady op 0) = true := by decide +kernel
/-- Meets the hypotheses of Obligations.SuWordsComplete. -/
theorem witness_SuTimedWords : ([0x10, 0x11, 0x12].all fun op => suReady op 0x4F) = true := by decide +kernel
/-- Meets the hypotheses of Obligations.SuWordsComplete. -/
theorem witness_SuConditionsAndSamples :
    (suReady 0x18 1 && suReady 0x19 64 && suReady 0x28 1 && decide (kindOfPos 1 = .mm)) = true ∧ (suAt (suT (sfW 0x28 1) id) suN).samples = [] := by
  decide +kernel

/-- A JOIN that opens step 0, not ready. -/
def join0 : Join := { len := 2, d := 1, bpg := 3, nch := 0, root := true, dev := false, endPick := 0, opens := 0, ready := none, start := none, startSeen := 0 }

/-- An SU that waits at a JOIN. -/
def joinS (j : Join) (f : Su → Su) : State := suS 0 fun u => f { u with join := some j }

/-- One delivery of a barrier flit due now. -/
def bfS (j : Join) (f : Flit) : State := { joinS j id with sw := [(1026, { (default : Switch) with deliv := [{ deliv0 with tag := none, flit := f }] })] }

/-- Meets the hypotheses of Obligations.JoinsAgreeOnAStart. -/
theorem witness_Join :
    suReady 0x20 0 = true ∧ areaOfSite (suAtIssue suN (suT (sfW 0x20 0) id)) suN = some 0 ∧ (suAt (suT (sfW 0x20 0) id) suN).lastJoin = none
    ∧ (let s := suS (sfW 0x20 0x100000000) fun u => { u with lastJoin := some join0 }
       suCanIssue suN (sfW 0x20 0x100000000) s ∧ s.now + 2 ≤ 8 * (suBase (suAt s suN) + 1)) := by decide +kernel
/-- Meets the hypotheses of Obligations.JoinsAgreeOnAStart. -/
theorem witness_JoinReady :
    let s := joinS join0 id
    let r := toPick (max ((s.now + 7) / 8) (join0.endPick + (aregAt s 0).hold)) s
    sitePresent s.member suN = true ∧ kindOf suN = .su ∧ siteRuns s suN = true ∧ areaOfSite s suN = some 0 ∧ (suAt s suN).join = some join0
    ∧ ((suAt r suN).conds.all (condHolds r (heddleOf suN))) = true ∧ commitReady r 0 0 = true
    ∧ kidsReady (heard join0 (suAt r suN)) join0 r.pick = true ∧ r.pwr.clamp = none ∧ areaOfSite r suN = some 0 ∧ joinSwaps r 0 0 (suAt r suN).seq.bank = false := by
  decide +kernel
/-- Meets the hypotheses of Obligations.BarrierFlitsPassUpAndDown. -/
theorem witness_BarrierFlits :
    (let f := barrierFlitOf 5 0 0 0 1 1
     let s := bfS join0 f
     siteRuns s suN = true ∧ areaOfSite s suN = some 0 ∧ (swAt s suN).deliv.length = 1 ∧ awaitsTag (swAt s suN) { deliv0 with tag := none, flit := f } = false ∧ f.sour = 0 ∧ servedJoin (s.now / 8) (suAt s suN) = some join0
     ∧ bfStep f = join0.opens ∧ bfKind f = 1)
    ∧ (let f := barrierFlitOf 0 0 0 9 2 0
       let j : Join := { join0 with root := false }
       let s := bfS j f
       siteRuns s suN = true ∧ servedJoin (s.now / 8) (suAt s suN) = some j ∧ bfStep f = j.opens ∧ bfKind f = 2 ∧ bfStart f = 9 ∧ (s.now + 1) / 8 < 9
       ∧ joinSwaps s 0 j.opens (suAt s suN).seq.bank = false)
    ∧ (let f := { barrierFlitOf 5 7 0 0 1 1 with port := some 3 }
       let s := bfS join0 f
       bfStep f ≠ join0.opens ∧ bfKind f = 1 ∧ f.port ≠ none ∧ hasJob s 0 = true)
    ∧ (let f := barrierFlitOf 0 0 0 1 2 0
       let s : State := { bfS { join0 with root := false } f with now := 7 }
       bfStart f ≠ 0 ∧ bfStart f ≤ (s.now + 1) / 8) := by decide +kernel
/-- Meets the hypotheses of Obligations.BarrierFlitsPassUpAndDown. -/
theorem witness_BarrierFlitSends :
    (let j : Join := { join0 with root := false, ready := some 0 }
     let s := joinS j fun u => { u with barrier := some 3 }
     siteRuns s suN = true ∧ (suAt s suN).barrier ≠ none ∧ servedJoin (s.now / 8) (suAt s suN) = some j ∧ rootStart suN s = s ∧ s.now % 8 = 0 ∧ 0 ≤ s.now / 8)
    ∧ (let j : Join := { join0 with root := false, nch := 1 }
       let s : State := { joinS j (fun u => { u with barrier := some 3, downOut := some [0, 0, 9] }) with now := 12 }
       siteRuns s suN = true ∧ servedJoin (s.now / 8) (suAt s suN) = some j ∧ rootStart suN s = s ∧ s.now % 8 = 4 ∧ j.nch ≠ 0 ∧ j.startSeen < s.now / 8) := by
  decide +kernel

/-- The step last started as the slot plans know it, without a plan of its own. -/
def plan0 : PlanStep := { k := 0, s := 0, cls := 0, len := 0, plans := [], dead := false }

/-- Meets the hypotheses of Obligations.BarrierFlitsPassUpAndDown. -/
theorem witness_BarrierWindowEnd :
    let j : Join := { join0 with dev := true }
    let s := fun (x : Area → Area) => { joinS j (fun u => { u with farPort := some 0 }) with areas := [(0, x { area0 with job := { area0.job with plan := [plan0] } })] }
    let a := s id
    let b := s fun x => { x with job := { x.job with steps := [], ras := 1 } }
    let st : Step := { (default : Step) with len := 0, v := 1 }
    (suAt a suN).join = some j ∧ areaOfSite a suN = some 0 ∧ jobRuns a 0 = true ∧ (areaAt a 0).job.plan.getLast? = some plan0 ∧ edgePort a 0 suN plan0 = some 0
    ∧ plan0.s + planLen plan0.plans 0 plan0.cls ≤ a.now / 8 ∧ curStep a 0 = some st ∧ st.k = plan0.k
    ∧ jobRuns b 0 = true ∧ edgePort b 0 suN plan0 = some 0 ∧ (areaAt b 0).job.steps = [] ∧ (areaAt b 0).job.ras = 1 ∧ (areaAt b 0).job.cycle < 3 := by decide +kernel
/-- Meets the hypotheses of Obligations.SitesStartAndStop. -/
theorem witness_SiteStart :
    (let s := { mxS 0 (fun x => { x with seq := default }) with su := [(1026, { (default : Su) with starts := [(0, 0, 7, 1)] })] }
     siteRuns s 0 = true ∧ firstStart 0 (suAt s (suOf (heddleOf 0))).starts = some (0, 0, 7, 1) ∧ s.now = 0 ∧ suStartDue suN 0 s = s
     ∧ kindOf 0 = .mx ∧ (mxAt s 0).seq.running = false ∧ (mxAt s 0).seq.next ≤ 0)
    ∧ (let s := { sfS 0 (fun x => { x with seq := default }) with su := [(1026, { (default : Su) with starts := [(0, 513, 7, 1)] })] }
       siteRuns s sfN = true ∧ firstStart sfN (suAt s (suOf (heddleOf sfN))).starts = some (0, 513, 7, 1) ∧ suStartDue suN 0 s = s
       ∧ kindOf sfN = .sf ∧ (sfAt s sfN).seq.running = false ∧ (sfAt s sfN).seq.next ≤ 0) := by decide +kernel

/-! ## Warp -/

/-- A flit of ones. -/
def flit1 : Flit := { data := 1, sour := 0 }

/-- Site 513's switch, output port 4 at the one entry e of page 0, a flit in the join slack of inputs 0 and 1. -/
def warpS (e : BitVec 16) (f : Switch → Switch) : State :=
  { sfS 0 id with sw := [(513, f { (default : Switch) with
      weave := [(4096, e)], pages := [(256, 0x100000)], inp := [(0, { q := [flit1], pop := false }), (1, { q := [flit1], pop := false })] })] }

/-- The MX site 0, at the edge link 0 of stack 0, that forwards a flit from it. -/
def edgeS (f : Attach → Attach) : State :=
  { mxS 0 id with sw := [(0, { (default : Switch) with weave := [(4096, 0x4000)], pages := [(256, 0x100000)] })]
                  att := [(0, f { (default : Attach) with outS := [{ flit := flit1, link := 0, arr := 0 }] })] }

/-- Meets the hypotheses of Obligations.WeaveForwardsAndReduces. -/
theorem witness_WeaveForward :
    (
      let s := { edgeS id with now := 9 }
      let w := swAt s 0
      let e := portEntry w 4 s.now
      sitePresent s.member 0 = true ∧ switchRuns s 0 = true ∧ resultLeaves w 4 s.now = false ∧ weKind e = 1 ∧ weTok e = false
      ∧ attOf s.member 0 (weSrcA e) = some (0, 0) ∧ edgeHead s (edgeAtt s 0 0 s.now) 0 = some flit1)
    ∧
    let s := warpS 0x4000 id
    let w := swAt s 513
    let e := portEntry w 4 s.now
    sitePresent s.member 513 = true ∧ switchRuns s 513 = true ∧ resultLeaves w 4 s.now = false ∧ weKind e = 1 ∧ weTok e = false
    ∧ attOf s.member 513 (weSrcA e) = none ∧ (look default w.inp (weSrcA e)).q = [flit1] ∧ heldIdle s 513 4 = false := by decide +kernel
/-- Meets the hypotheses of Obligations.WeaveForwardsAndReduces. -/
theorem witness_WeaveReduce :
    let s := warpS 0x8100 id
    let w := swAt s 513
    let e := portEntry w 4 s.now
    switchRuns s 513 = true ∧ resultLeaves w 4 s.now = false ∧ weKind e = 2 ∧ weTok e = false ∧ attOf s.member 513 (weSrcA e) = none
    ∧ attOf s.member 513 (weSrcB e) = none ∧ (look default w.inp (weSrcA e)).q.head? = some flit1 ∧ (look default w.inp (weSrcB e)).q.head? = some flit1
    ∧ heldIdle s 513 4 = false := by decide +kernel
/-- Meets the hypotheses of Obligations.FlitsAndTokensArrive. -/
theorem witness_FlitArrival :
    let f : Fly := { due := 0, inp := 0, flit := flit1 }
    let s := warpS 0 fun w => { w with fly := [f] }
    switchRuns s 513 = true ∧ foreignInput s 513 0 = false ∧ attOf s.member 513 0 = none ∧ earliest 0 (swAt s 513).fly = some f ∧ f.due = s.now
    ∧ foreignInput s 513 1 = false ∧ attOf s.member 513 1 = none ∧ earliest 1 (swAt s 513).fly = none
    ∧ switchRuns (edgeS id) 0 = true ∧ attOf (edgeS id).member 0 0 = some (0, 0) ∧ (attAt (edgeS id) (edgeAtt (edgeS id) 0 0 0)).taken = [] := by decide +kernel
/-- Meets the hypotheses of Obligations.ScheduleDefectsHaltTheArea. -/
theorem witness_JoinSlack : TabWf default (warpS 0 id).sw = true ∧ TabWf default (swAt (warpS 0 id) 513).inp = true := by decide +kernel
/-- Meets the hypotheses of Obligations.FlitsAndTokensArrive. -/
theorem witness_Tokens :
    (let s := { warpS 0 id with su := [(1026, { (default : Su) with tokOut := [(0, tokenWord 5 4 1 3)] })] }
     let w := (tokenWord 5 4 1 3).toNat
     siteOf (heddleOf suN) (tkSite w) = 513 ∧ tkType w = 1 ∧ tkPort w = 4 ∧ switchRuns s 513 = true ∧ tokenBad (swAt s 513) w = false
     ∧ (look default (swAt s 513).outp 4).latch = [] ∧ (look default (swAt s 513).outp 4).waits = [])
    ∧ (let s := { warpS 0x4010 id with su := [(1026, { (default : Su) with seq := { (default : Seq) with running := true } })] }
       let x := pageAt s 513 suN (s.now + 2)
       let d := pageDesc (swAt s 513) x.2.2 4 x.1
       let e := (look 0 (swAt s 513).weave ((5 * x.2.2 + 4) * 1024 + entryIndex d x.2.1 (s.now + 2))).toNat
       siteRuns s suN = true ∧ siteOf (heddleOf suN) 5 = 513 ∧ switchRuns s 513 = true ∧ pdValid d = true ∧ x.2.1 ≤ s.now + 2 ∧ weTok e = true ∧ weKind e ≠ 0) := by
  decide +kernel
/-- Meets the hypotheses of Obligations.ScheduleDefectsHaltTheArea. -/
theorem witness_TokenWindowExpiry :
    let k : Tok := { word := tokenWord 5 4 1 3, arr := 0 }
    let s : State := { warpS 0 (fun w => { w with outp := [(4, { (default : OutPort) with latch := [k] })] }) with now := 2 }
    let o := look default (swAt s 513).outp 4
    sitePresent s.member 513 = true ∧ o.waits = [] ∧ o.latch = [k] ∧ k.arr + 2 ≤ s.now ∧ areaOfSite s 513 = some 0 ∧ jobRuns s 0 = true := by decide +kernel
/-- Meets the hypotheses of Obligations.PagesTakeEffectAndCreditsReturn. -/
theorem witness_Pages :
    nextPage (suAt (suS 0 fun u => { u with timers := [(0, .page 63)] }) suN) = some ((suS 0 id).now, 63, false) ∧ (swAt (suS 0 id) suN).stopped = false
    ∧ (let s := warpS 0 fun w => { w with outp := [(3, { (default : OutPort) with fell := some (0, 1) }), (4, { (default : OutPort) with fell := some (0, 1) })] }
       sitePresent s.member 513 = true ∧ (look default (swAt s 513).outp 3).redAt = none ∧ (look default (swAt s 513).outp 3).fell = some (s.now, 1) ∧ (look default (swAt s 513).outp 4).fell = some (s.now, 1)) := by
  decide +kernel
/-- Meets the hypotheses of Obligations.PagesTakeEffectAndCreditsReturn. -/
theorem witness_Credits :
    let s : State := { State.reset with now := 80000, att := [(0, { (default : Attach) with flying := [(0, [(0, 3)])] })] }
    attPresent s.member 0 = true ∧ look [] (attAt s 0).flying 0 = [(0, 3)] ∧ look 0 (attAt s 0).hung 0 = 0 ∧ 0 + 80000 ≤ s.now := by decide +kernel
/-- Meets the hypotheses of Obligations.SitesStartAndStop. -/
theorem witness_HaltReach :
    let s := { sfS 0 id with areas := [(0, { area0 with halted := true })] }
    sitePresent s.member sfN = true ∧ areaOfSite s sfN = some 0 ∧ (areaAt s 0).halted = true ∧ s.now % 8 = 0 := by decide +kernel

/-! ## MM -/

/-- The MM site 1 (position 1 of heddle 0). -/
def mmS (f : Mm → Mm) : State := { withArea id with mm := [(1, f default)] }

/-- A delivery due now with a tag. -/
def tagD (tag : Nat) (f : Flit) : Deliv := { deliv0 with tag := some tag, flit := f }

/-- One delivery at site 1. -/
def mmD (d : Deliv) (f : Mm → Mm) : State := { mmS f with sw := [(1, { (default : Switch) with deliv := [d] })] }

/-- A creel of one row, PADV and CADV one cell, in a mode, with a TAIL. -/
def creel1 (mode tail ctail : Nat) : Creel := { (default : Creel) with desc := BitVec.ofNat 64 (mode * 2 ^ 62 + 2 ^ 26), tail := tail, ctail := ctail }

/-- The last of the four rows' creels on sub-bank 3, filling the row, with PADV 4. -/
def creel4 : Creel := { (default : Creel) with desc := BitVec.ofNat 64 (2 ^ 62 + 3 * 2 ^ 60 + 6143 * 2 ^ 47 + 2 * 2 ^ 32) }

/-- Meets the hypotheses of Obligations.CreelsPushAndPull. -/
theorem witness_CreelPush :
    (let s := mmD (tagD 0x100 flit1) fun m => { m with creels := [(0, creel1 1 3 3)] }
     sitePresent s.member 1 = true ∧ kindOf 1 = .mm ∧ siteRuns s 1 = true ∧ (swAt s 1).deliv = [tagD 0x100 flit1] ∧ bits 0x100 11 10 = 0
     ∧ bit 0x100 9 = false ∧ bit 0x100 8 = true ∧ crMode (creel1 1 3 3).desc = 1 ∧ (subAt (mmAt s 1) 0).power = 0
     ∧ (subAt (mmAt s 1) 0).lastSched ≠ some s.now ∧ crPadv (creel1 1 3 3).desc ≤ crFree (creel1 1 3 3))
    ∧ (let s := mmD (tagD 0x2F0 flit1) fun m => { m with creels := [(15, creel4)] }
       siteRuns s 1 = true ∧ bits 0x2F0 7 4 = 15 ∧ bit 0x2F0 9 = true ∧ bit 0x2F0 8 = false ∧ creelAt (mmAt s 1) 15 = creel4 ∧ crSub creel4.desc = 3
       ∧ crRow creel4.desc creel4.tail = 6143 ∧ crPadv creel4.desc = 4 ∧ 4 ≤ crFree creel4) := by decide +kernel
/-- Meets the hypotheses of Obligations.CreelsPushAndPull. -/
theorem witness_CreelPull :
    let s := mmS fun m => { m with creels := [(0, creel1 3 1 1)], pages := [(0, 0x100000)], pull := [(0, 0x4020)] }
    let m := mmAt s 1
    let e := pullPlanEntry m s.now
    let c := creelAt m 0
    sitePresent s.member 1 = true ∧ siteRuns s 1 = true ∧ bits e 15 14 = 1 ∧ bit e 5 = true ∧ bit e 4 = false ∧ bits e 13 10 = 0
    ∧ sparseLeaves m s.now = false ∧ crMode c.desc = 3 ∧ crCadv c.desc ≤ crCommitted c ∧ crCadv c.desc ≤ 4 ∧ (subAt m 0).power = 0
    ∧ (subAt m 0).lastSched ≠ some s.now ∧ mmCells m 0 (crRow c.desc c.head) = List.replicate 4 .good ∧ m.inj = none := by decide +kernel

/-- A DMA operation. -/
def dmaO (op arg : Nat) : DmaOp := { op := op, creel := 0, arg := arg, tag := 5, data := 1, sour := 0, arr := 0, half := none }

/-- Site 1, at ACLK 2, with a creel of two committed cells and an operation in the queue of sub-bank 0. -/
def dmaS (mode op arg : Nat) : State :=
  { mmS (fun m => { m with creels := [(0, creel1 mode 2 2)], subs := [(0, { (default : SubBank) with dmaq := [dmaO op arg] })] }) with now := 2 }

/-- A commit creel of two rows whose four committed cells lie in both. -/
def creel2 : Creel := { (default : Creel) with desc := BitVec.ofNat 64 (3 * 2 ^ 62 + 2 ^ 34 + 2 ^ 26), head := 2, tail := 6, ctail := 6 }

/-- Meets the hypotheses of Obligations.DmaMovesAndRowsAreCorrected. -/
theorem witness_DmaOperations :
    (let f : Flit := { data := BitVec.ofNat 1024 (2 ^ 512), sour := 0 }
     let s := mmD (tagD 0x400 f) id
     let o := dmaOpOf f
     siteRuns s 1 = true ∧ o.op ≠ 0 ∧ (subAt (mmAt s 1) (crSub (creelAt (mmAt s 1) o.creel).desc)).dmaq = []
     ∧ (subAt (mmAt s 1) (crSub (creelAt (mmAt s 1) o.creel).desc)).power = 0)
    ∧ (let s := dmaS 2 1 0
       let m := mmAt s 1
       let c := creelAt m 0
       (subAt m 0).dmaq = [dmaO 1 0] ∧ (subAt m 0).lowNext < s.now ∧ (dmaO 1 0).arr < s.now ∧ (subAt m 0).lastSched = none ∧ crSub c.desc = 0 ∧ crMode c.desc = 2 ∧ crPadv c.desc ≤ crFree c ∧ (subAt m 0).power = 0 ∧ s.bulk = [])
    ∧ dmaStatus (creel1 3 2 2) (dmaO 2 4) = 1 ∧ dmaStatus (creel1 3 2 2) (dmaO 2 1) = 4 ∧ dmaStatus (creel1 3 2 2) (dmaO 2 0) = 0
    ∧ (∀ k, k < 4 → crRow (creel1 3 2 2).desc (ptrAdd 4 (ptrAdd 4 0 0) k) = 0)
    ∧ dmaStatus creel2 (dmaO 2 0) = 0 ∧ (((List.range 4).map fun k => crRow creel2.desc (ptrAdd (crCap creel2.desc) (ptrAdd (crCap creel2.desc) creel2.head 0) k)).eraseDups).length = 2
    ∧ dmaStatus (creel1 3 2 2) (dmaO 3 2) = 0 ∧ (mmAt (dmaS 3 3 2) 1).retq = [] ∧ (subAt (mmAt (dmaS 3 3 2) 1) 0).lastSched = none
    ∧ (let s := mmS fun m => { m with lane := some (0, 3), edgeq := [{ op := dmaO 2 0, job := none }] }
       attPresent s.member 0 = true ∧ (mmAt s 1).lane = some (0, 3) ∧ (mmAt s 1).recalled = 0 ∧ edgeMay (mmAt s 1) (dmaO 2 0) = true
       ∧ (attAt s 0).outE.length < 256 - (attAt s 0).sOut ∧ 0 < creditsLeft (attAt s 0) (laneLoop 0 true)) := by decide +kernel
/-- Meets the hypotheses of Obligations.DmaMovesAndRowsAreCorrected. -/
theorem witness_DmaRead_cells : ∀ b r, mmCells (mmAt (dmaS 3 2 0) 1) b r = List.replicate 4 .good := fun _ _ => rfl
/-- Meets the hypotheses of Obligations.DmaMovesAndRowsAreCorrected. -/
theorem witness_ScrubAndWriteBack :
    (let s : State := { mmS (fun m => { m with subs := [(0, { (default : SubBank) with writeBack := [9] })] }) with now := 1 }
     sitePresent s.member 1 = true ∧ (subAt (mmAt s 1) 0).lowNext < s.now ∧ (subAt (mmAt s 1) 0).lastSched = none
     ∧ writeBackSub s 1 = some 0 ∧ (subAt (mmAt s 1) 0).writeBack = [9])
    ∧ (let s : State := { mmS id with now := 1 }
       (subAt (mmAt s 1) 3).lowNext < s.now ∧ subFree s 1 3 = true ∧ (mmAt s 1).inj = none)
    ∧ (let s : State := { mmS (fun m => { m with code := [(0, .ue)] }) with now := 1 }
       subFree s 1 0 = true ∧ CellCode.ue ∈ mmCells (mmAt s 1) 0 (subAt (mmAt s 1) 0).scrubRow) := by decide +kernel
/-- Meets the hypotheses of Obligations.SubBankPowerChangesOnRequest. -/
theorem witness_SubBankPower :
    (let s := mmS fun m => { m with subs := [(3, { (default : SubBank) with req := some (1, 0), waits := true })] }
     s.now % 8 = 0 ∧ (subAt (mmAt s 1) 3).req = some (1, 0) ∧ creditsOut (mmAt s 1) 3 = 0 ∧ 8 * (0 / 8 + 200) ≤ ({ s with now := 1600 } : State).now)
    ∧ (let s : State := { mmS (fun m => { m with subs := [(0, { (default : SubBank) with power := 2, waking := some 0 })] }) with now := 6400 }
       (subAt (mmAt s 1) 0).waking = some 0 ∧ (0 + 7) / 8 + 800 ≤ s.now / 8 ∧ elasticOf (mmAt s 1) 0 = []) := by decide +kernel
/-- Meets the hypotheses of Obligations.SubBankPowerChangesOnRequest. -/
theorem witness_SubBankRequest :
    (let s := State.reset
     siteReach s 1 = true ∧ kindOf 1 = .mm ∧ siteLive s 1 = false ∧ ∀ k, k < 4 → (subAt (mmAt s 1) k).waking = none ∧ (subAt (mmAt s 1) k).power = 0
       ∧ (subAt (mmAt s 1) k).req = none)
    ∧ (let s : State := { State.reset with mm := [(1, { (default : Mm) with subs := [(3, { (default : SubBank) with req := some (2, 0) })] })] }
       siteReach s 1 = true ∧ siteLive s 1 = false ∧ (subAt (mmAt s 1) 3).req = some (2, 0)
       ∧ ∀ k, k < 4 → k ≠ 3 → (subAt (mmAt s 1) k).req = none ∧ (subAt (mmAt s 1) k).power < 3) := by decide +kernel

/-- Lanes of a flit, lowest first, the others 0. -/
def lanesF (l : List Nat) : Flit := { data := BitVec.ofNat 1024 (l.foldr (fun x acc => x + 2 ^ 32 * acc) 0), sour := 0 }

/-- A descriptor: IDX rows in sub-bank 0, VAL rows in sub-bank 1, 16 flits of E4M3, DEL 2; a flush of one flit, FDEL 2. -/
def descF : Flit := lanesF [3, 0x10000, 0x10010, 2, 2, 1]

/-- The reader that it starts. -/
def reader0 : Reader := descReader 0 descF

/-- Meets the hypotheses of Obligations.SparseReadersAccumulateAndFlush. -/
theorem witness_Descriptor :
    let s := mmD (tagD 0x900 descF) id
    siteRuns s 1 = true ∧ (swAt s 1).deliv = [tagD 0x900 descF] ∧ descZero descF = true ∧ bit (flitLane descF 0) 0 = true ∧ bit (flitLane descF 0) 1 = true
    ∧ readerOk reader0 = true ∧ flushOk (descFlush 0 descF) = true ∧ (mmAt s 1).sp.rd = none ∧ (mmAt s 1).sp.fl = none ∧ descZero (lanesF [4, 0x10000, 0x10010, 2, 2, 1]) = false := by decide +kernel
/-- Meets the hypotheses of Obligations.SparseReadersAccumulateAndFlush. -/
theorem witness_Updates :
    (let f := lanesF ((List.replicate 16 0x3F800000) ++ [2 ^ 31 + 32767])
     let s := mmD (tagD 0x800 f) id
     siteRuns s 1 = true ∧ f.sour.toNat / 16 = 0 ∧ flitUpdates f = [(32767, 0x3F800000, false)] ∧ look [] (mmAt s 1).sp.queues (32767 % 16) = []
     ∧ look 0 (mmAt s 1).sp.free (32767 % 16) ≤ s.now ∧ flushedNow (mmAt s 1).sp 32767 s.now = false)
    ∧ (let g : Group := { addr := 5, sum := 1, sour := true, at_ := 0 }
       let s := mmS fun m => { m with sp := { m.sp with queues := [(5, [g])] } }
       look [] (mmAt s 1).sp.queues (5 % 16) = [g] ∧ g.addr = 5 ∧ g.at_ = s.now ∧ flushedNow (mmAt s 1).sp 5 s.now = false)
    ∧ (let g : Group := { addr := 5, sum := 1, sour := true, at_ := 0 }
       (mmAt (mmS fun m => { m with sp := { m.sp with landing := [g] } }) 1).sp.landing = [g] ∧ g.at_ + 3 < 4) := by decide +kernel
/-- Meets the hypotheses of Obligations.SparseReadersAccumulateAndFlush. -/
theorem witness_ReaderAndFlush :
    (let s : State := { mmS (fun m => { m with sp := { m.sp with rd := some reader0 } }) with now := 1 }
     let m := mmAt s 1
     let row := fun b k => (BitVec.ofNat 512 (leNat (mmRow m b k)), false)
     let x := { reader0 with idx := row 0 0, val := row 1 0 }
     siteRuns s 1 = true ∧ m.sp.rd = some reader0 ∧ reader0.d + reader0.del + reader0.next = s.now + 1 ∧ TabWf default s.sw = true ∧ TabWf default s.mm = true ∧ (mxAt s 1).spmac = none ∧ m.sp.landing = []
     ∧ reader0.isub = 0 ∧ reader0.vsub = 1 ∧ m.inj = none ∧ (subAt m 0).power = 0 ∧ (subAt m 1).power = 0
     ∧ (subAt m 0).lastSched ≠ some s.now ∧ (subAt m 1).lastSched ≠ some s.now
     ∧ mmCells m 0 0 = List.replicate 4 .good ∧ mmCells m 1 0 = List.replicate 4 .good ∧ (readerFlit x).2.1 = 0)
    ∧ (let x := descFlush 0 descF
       let s : State := { mmS (fun m => { m with sp := { m.sp with fl := some x } }) with now := 2 }
       siteRuns s 1 = true ∧ (mmAt s 1).sp.fl = some x ∧ x.d + x.fdel + x.next = s.now ∧ (mmAt s 1).sp.rd = none ∧ (mmAt s 1).sp.rdAt ≠ s.now + 1
       ∧ ∀ i, i < 32 → flushHaz (mmAt s 1).sp (x.addr + 32 * x.next + i) s.now = false) := by decide +kernel
/-- Meets the hypotheses of Obligations.SparseReadersAccumulateAndFlush. -/
theorem witness_SkipAlarm : areaList (withArea id) = [0] := by decide +kernel

/-! ## Stacks and drafts -/

/-- A request header of stack 0: OP, N - 1 = 0, link 3, series 1, lanes 1 and 2. -/
def reqF (op link ser a b : Nat) : Flit := lanesF [op + link * 2 ^ 9 + ser * 2 ^ 14, a, b]

/-- A record. -/
def recOne (type target : Nat) (data : List Byte) : Rec := { off := 0, type := type, banksel := 0, target := target, crc := 0, data := data }

/-- A stack plan of one series 1, LEN 1, ALLOW 1 in every channel. -/
def plan1 : List Byte := leBytes 16 1 ++ leBytes 8 0x0101 ++ List.replicate 32 1

/-- A state whose stack 0 has entries in its inbound partition. -/
def stkS (q : List QEntry) (f : Stack → Stack) : State :=
  { withArea (fun a => { a with recs := [recOne 0x0B (2 ^ 28) plan1] }) with att := [(0, { (default : Attach) with inS := q })], stks := [(0, f default)] }

/-- An entry of a queue on link 3. -/
def qE (f : Flit) (arr : Nat) : QEntry := { flit := f, link := 3, arr := arr }

/-- Meets the hypotheses of Obligations.StackRequestsAreQueued. -/
theorem witness_StreamRequests :
    (let h := qE (reqF 1 3 0 (0xEE6C00000 / 128 - 1) 0) 0
     let s := stkS [h] id
     stackPresent s.member 0 = true ∧ (attAt s 0).inS = [h] ∧ hbHeaderOk (stackPlan s 0) h.flit = true ∧ hbN h.flit = 1
     ∧ streamOff h.flit 1 = userEnd ∧ hbOp h.flit = 1 ∧ stackHalted s 0 = false ∧ readyBy s 0 (offChan (streamOff h.flit 0)) 2 9 767 = true ∧ (stackAt s 0).staged = [])
    ∧ (let h := qE (reqF 2 0 0 0 0) 0
       let h : QEntry := { h with link := 0 }
       let d : QEntry := { qE flit1 1 with link := 0 }
       let s := stkS [h, d] id
       hbHeaderOk (stackPlan s 0) h.flit = true ∧ hbOp h.flit = 2 ∧ dataFlits [d] h.link h.arr 1 = some [flit1]) := by decide +kernel
/-- Meets the hypotheses of Obligations.StackRequestsAreQueued. -/
theorem witness_GatherAndScatter :
    (let h := qE (reqF 3 3 1 0 (2 ^ 31 + 250003455)) 0
     let s := stkS [h] id
     hbHeaderOk (stackPlan s 0) h.flit = true ∧ seriesOf (stackPlan s 0) (hbSeries h.flit) = some (1, List.replicate 32 1) ∧ hbN h.flit = 1
     ∧ bit (hbLane h.flit 2) 31 = true ∧ bits (hbLane h.flit 2) 27 0 = 250003455 ∧ chanFailed (stackAt s 0) (250003455 % 32) = false
     ∧ (stackAt s 0).staged = [] ∧ hbOp h.flit = 3 ∧ look 0 (stackAt s 0).series (32 + 250003455 % 32) < allowNow (stackAt s 0) (1, List.replicate 32 1)
     ∧ stackHalted s 0 = false ∧ readyBy s 0 (250003455 % 32) 4 14 783 = true)
    ∧ (let s := stkS [] fun k => { k with series := [(32, 1)] }
       allowNow (stackAt s 0) (1, List.replicate 32 1) ≤ look 0 (stackAt s 0).series 32)
    ∧ (let h := qE (reqF 4 3 1 0 (2 ^ 31)) 0
       let s := stkS [h, qE flit1 1, qE flit1 2] id
       hbHeaderOk (stackPlan s 0) h.flit = true ∧ hbOp h.flit = 4 ∧ dataFlits [qE flit1 1, qE flit1 2] h.link h.arr 2 = some [flit1, flit1]) := by decide +kernel

/-- A grain access. -/
def gOp (w : Option (BitVec 512 × Bool)) : GrainOp := { grain := 4, write := w, req := 0, part := 0, beats := 9, arr := 0 }

/-- Meets the hypotheses of Obligations.GrainsMoveInTheirFrames. -/
theorem witness_Grains :
    (let g := gOp (some (1, false))
     let s := stkS [] fun k => { k with chans := [(1, { (default : Channel) with ops := [g] })] }
     let x := channelFree s 0 1
     let b := toPick (serveFrom 0 1 (beatsPerPick (stackAt s 0) 1) x.1 x.2 g.beats).1 s
     stackHalted s 0 = false ∧ (chanAt (stackAt s 0) 1).ops = [g] ∧ chanFailed (stackAt s 0) 1 = false ∧ offChan (64 * g.grain) = 1 ∧ areaOfAtt b 0 = some 0
     ∧ areaOfAtt s 0 = some 0 ∧ (areaAt b 0).skim.state ≠ 2 ∧ stackAt b 0 = stackAt s 0)
    ∧ (let g := gOp none
       let s := stkS [] fun k => { k with chans := [(1, { (default : Channel) with ops := [g] })] }
       let x := channelFree s 0 1
       stackAt (toPick (serveFrom 0 1 (beatsPerPick (stackAt s 0) 1) x.1 x.2 g.beats).1 s) 0 = stackAt s 0 ∧ grainCells (stackAt s 0) (64 * g.grain) = List.replicate 4 .good)
    ∧ (let x := { emptyStage 9 3 0 0 0 with flit := flit1 }
       let s : State := { stkS [] (fun k => { k with staged := [x] }) with att := [(0, { (default : Attach) with sOut := 1 })] }
       let b := runTo (x.at_ - 1) s
       firstStaged (stackAt s 0).staged = some x ∧ x.waiting = 0 ∧ stackAt b 0 = stackAt s 0 ∧ (attAt b 0).outS.length < (attAt b 0).sOut)
    ∧ (chanAt (stackAt (stkS [] fun k => { k with chans := [(31, { (default : Channel) with wbq := [64] })] }) 0) 31).wbq = [64] := by decide +kernel
/-- Meets the hypotheses of Obligations.GrainsMoveInTheirFrames. -/
theorem witness_Frames : stackPresent (withArea id).member 31 = true ∧ areaOfAtt (withArea id) 31 = some 0 ∧ (curStep (withArea id) 0).isSome = true := by decide +kernel
/-- Meets the hypotheses of Obligations.StacksTrainAndAnswer. -/
theorem witness_Training : stackPresent State.reset.member 31 = true ∧ (chanAt (stackAt State.reset 31) (outChan 31 State.reset.pick)).minm ≤ 31
    ∧ chanFailed (stackAt State.reset 31) (outChan 31 State.reset.pick) = false ∧ outChan 31 State.reset.pick < 32 := by decide +kernel
/-- Meets the hypotheses of Obligations.StacksTrainAndAnswer. -/
theorem witness_Elastic :
    let s := stkS [] id
    (dpaOk s.member (0xEE6C00000 - 1) 1 = true ∧ dpaStack (0xEE6C00000 - 1) = 0 ∧ 1 < creditsLeft (attAt s 0) 0 ∧ 0 < creditsLeft (attAt s 0) 1
      ∧ creditsLeft (attAt { s with att := [(0, { (default : Attach) with sIn := 256 })] } 0) 0 = 0)
    ∧ (stackAt s 0).remap = []
    ∧ (∀ c, chanFailed (stackAt s 0) c = false) ∧ (∀ i, look CellCode.good (stackAt s 0).code i = .good) :=
  ⟨by decide +kernel, rfl, fun _ => by exact (by decide +kernel : chanFailed default 0 = false), fun _ => rfl⟩

/-- Mailbox 0 of port 0 holds a posted command: opcode, parameters, area word. -/
def cmdS (opc : Nat) (pars : List Byte) (area flags : Nat) (s : State) : State :=
  { s with
    bru := { s.bru with stage := 5, ready := true }
    ports := [(0, { portAt s 0 with mbx := [(0, { (default : Mbx) with
      state := 1, seq := 7, cmd := putBytes [] 0 (leBytes 2 opc ++ leBytes 2 7 ++ leBytes 2 pars.length ++ leBytes 2 area ++ leBytes 2 flags ++ List.replicate 22 0 ++ pars) })] })] }

/-- The same for a command on area 0. -/
def areaCmd (opc : Nat) (pars : List Byte) (s : State) : State := cmdS opc pars 0xF0C0 1 s

/-- A draft header of 256 bytes whose content digest is wrong. -/
def img0 : List Byte :=
  leBytes 4 0x46524458 ++ leBytes 2 1 ++ leBytes 1 8 ++ leBytes 1 1 ++ leBytes 2 0xF0C0 ++ leBytes 2 0 ++ leBytes 4 0 ++ leBytes 8 77 ++ leBytes 8 256
  ++ leBytes 8 1 ++ leBytes 2 1 ++ leBytes 2 0 ++ leBytes 4 0 ++ List.replicate 64 0 ++ leBytes 8 256 ++ leBytes 8 0 ++ List.replicate 128 0

/-- Area 0 without a job, the image at DPA 0, the load command posted. -/
def loadS : State :=
  areaCmd 0x0110 (leBytes 8 0) { withArea (fun a => { a with job := default }) with stks := [(0, { (default : Stack) with mem := putBytes [] 0 img0 })] }

/-- Meets the hypotheses of Obligations.DraftsLoadThroughTheirStreams. -/
theorem witness_DraftLoad :
    let s := loadS
    let r := mbxTaken 0 0 s
    mbxGood s 0 0 0x0110 8 .area ∧ areaNamed s (mbxAt s 0 0).cmd = true ∧ wArea (hdrArea (mbxAt s 0 0).cmd) = 0 ∧ (areaAt s 0).owner.val = 0
    ∧ hasJob s 0 = false ∧ s.su = [] ∧ (areaAt s 0).load = none ∧ (areaAt s 0).job.state ≠ jHalted ∧ (areaAt s 0).swapOpen = false ∧ par (mbxAt s 0 0).cmd 0 8 = 0
    ∧ stackPresent s.member 0 = true ∧ areaOfAtt s 0 = some 0 ∧ elasticRead 0 256 false r = (img0.take 256, 0, r) ∧ headerOk (img0.take 256) = true
    ∧ dpaOk s.member 0 (dLen (img0.take 256)) = true ∧ img0.length = dLen (img0.take 256) ∧ dLen (img0.take 256) = 256
    ∧ elasticRead 256 0 false r = (img0.drop 256, 0, r) ∧ checkImage r 0xF0C0 img0 = .inl (0x8C01, 0) := by decide +kernel

/-- A load in progress in bank 1 with a stream of 100 bytes to heddle 0. -/
def load1 : Load := { bank := 1, draft := default, streams := [(0, List.replicate 100 0)], sent := [], port := 0, m := 0 }

/-- An EDGE record with four fill slots a step for heddle 0 on edge link 2. -/
def fillE : Config.Edge := { (default : Config.Edge) with fill := [(0, { link := 2, first := 0, period := 8, count := 4 })] }

/-- A record of one MX word for site 0. -/
def rec1 : List Byte := leBytes 4 3 ++ leBytes 4 0 ++ leBytes 4 8 ++ leBytes 4 (crc32c (leBytes 8 1)) ++ leBytes 16 1

/-- The area loads; a load flit is due at the SU of heddle 0. -/
def loadingS (f : Flit) (u : Su) : State :=
  { withArea (fun a => { a with load := some load1 }) with sw := [(1026, { (default : Switch) with deliv := [{ deliv0 with tag := none, flit := f }] })], su := [(1026, u)] }

/-- Meets the hypotheses of Obligations.DraftsLoadThroughTheirStreams. -/
theorem witness_LoadStreams :
    (let f := loadFlit 0 96 [0, 0, 0, 0] true
     let s := loadingS f default
     (areaAt s 0).load = some load1 ∧ areaOfSite s suN = some 0 ∧ awaitsTag (swAt s suN) { deliv0 with tag := none, flit := f } = false ∧ bits (laneOf f.data 7).toNat 1 0 = 3 ∧ (suAt s suN).barrier = none ∧ f.sour = 0
     ∧ lfHeddle f = heddleOf suN ∧ lfCount f = 4 ∧ lfOffset f ≠ (suAt s suN).loadPos)
    ∧ (let f := loadFlit 0 0 rec1 true
       let s := loadingS f default
       let buf := (suAt s suN).loadBuf ++ sub (rowBytes f.data) 32 (lfCount f)
       let x := drainRecs (buf.length + 1) buf
       lfCount f = 32 ∧ lfOffset f = 0 ∧ hasJob s 0 = true ∧ x.1 = [] ∧ x.2.2 = false ∧ x.2.1.length = 1
       ∧ (x.2.1.all fun r => decide (crc32c r.data = r.crc ∧ r.type = 3)) = true)
    ∧ (let s : State := { withArea (fun a => { a with load := some load1, drafts := [(0, { (default : Draft) with fill := 3 })] }) with att := [(0, { (default : Attach) with sOut := 1, series := fillE })] }
       attPresent s.member 0 = true ∧ areaOfAtt s 0 = some 0 ∧ (attAt s 0).outS.length < (attAt s 0).sOut ∧ streamOf load1 0 = some (List.replicate 100 0)
       ∧ fillLink s 0 0 = some (2, 3) ∧ look 0 (attAt s 0).filled 0 < 3 ∧ hasJob s 0 = true ∧ look 0 load1.sent 0 < 100)
    ∧ (let s := { areaCmd 0x0110 (leBytes 8 0) (withArea fun a => { a with load := some load1, drafts := [(0, { (default : Draft) with fill := 3 })] }) with su := [(1026, { (default : Su) with loadLast := true })] }
       let s := modMbx 0 0 (fun b => { b with state := 2 }) s
       hasJob s 0 = true ∧ (areaAt s 0).load = some load1 ∧ (draftOf s 0).fill ≠ 0 ∧ loadComplete s load1 = true ∧ (mbxAt s load1.port load1.m).state = 2) := by decide +kernel

/-! ## Shuttle ports and time -/

/-- Port 0 in a state. -/
def shtS (st : Nat) (f : Shuttle → Shuttle) : State := { withArea id with sht := [(0, f { (default : Shuttle) with state := st })] }

/-- A small frame. -/
def frame0 : List Byte := mkFrame 0x01 0 0xFFF 0xFFF 1 (List.replicate 16 0)

/-- A slot taken for pick P. -/
def tx0 (P slot : Nat) (rel : Bool) : TxSlot := { pick := P, slot := slot, step := 0, off := 0, inLen := true, rel := rel, data := 1, sour := 0 }

/-- The state in which PICK_FRAME_SEND sends: the steps due decided and begun. -/
def sendS (s : State) : State :=
  let b := toPick ((s.now + 7) / 8) s
  match areaOfAtt b 32 with | some a => startDue a b.now (commitBefore a (b.pick + 1) 2 b) | none => b

/-- Meets the hypotheses of Obligations.PortsSendFramesAndSlots. -/
theorem witness_PortsSend :
    (let s := shtS 3 fun x => { x with txSlots := [tx0 0 13 false], peer := { x.peer with hello := true } }
     portPresent s.member 0 = true ∧ 2 ≤ (shtAt s 0).state ∧ 2 ≤ ((shtAt (sendS s) 0).rotated (sendS s).pick).state
     ∧ ((shtAt (sendS s) 0).rotated (sendS s).pick).txSlots = [tx0 0 13 false] ∧ ((shtAt (sendS s) 0).rotated (sendS s).pick).stream = []
     ∧ (shtAt s 0).peer.hello = true ∧ (shtAt s 0).ownDelta.1 = 0)
    ∧ (let h : HeldSlot := { area := 0, step := 0, data := 1, sour := 0 }
       let s := shtS 3 fun x => { x with txSlots := [tx0 0 13 true], held := [h] }
       let s := modArea 0 (fun a => { a with job := { a.job with steps := [], committed := some 0, nextK := 1 } }) s
       (shtAt (sendS s) 0).state = 3 ∧ (sendS s).pick = 0 ∧ (shtAt (sendS s) 0).txSlots = [tx0 0 13 true] ∧ (shtAt (sendS s) 0).held = [h] ∧ heldReady (sendS s) h = true)
    ∧ (let s := shtS 2 fun x => { x with txq := [frame0], lim := [(0, 100)], ownDelta := (32, 5) }
       0 < creditsLeft (attAt s 32) 2 ∧ nextFrame true (shtAt s 0) = some frame0 ∧ (shtAt s 0).ownDelta.1 ≠ 0) := by decide +kernel

/-- A report with a CLASSES section, a plan of port 0 with one class of two entries: all slots idle, then slot 0 in a code, received in slot 1. -/
def planRecs (code : Nat) : List Rec :=
  [{ off := 0, type := 0x10, banksel := 0, target := 2 ^ 29, crc := 0, data := leBytes 2 2 ++ leBytes 6 0 },
   { off := 0, type := 0x0C, banksel := 0, target := 2 ^ 28 + 32, crc := 0
     data := leBytes 1 0 ++ leBytes 1 1 ++ leBytes 1 0 ++ leBytes 1 1 ++ leBytes 12 0 ++ leBytes 2 0 ++ leBytes 2 2 ++ leBytes 4 24
       ++ leBytes 8 0 ++ leBytes 8 (code + 2 ^ 29) }]

/-- Step 0, of class 0 and LEN 8, as the slot plans know it. -/
def plan8 (code : Nat) : PlanStep := { k := 0, s := 0, cls := 0, len := 8, plans := planRecs code, dead := false }

/-- Area 0 with that draft in force and that step begun; port 0 with its peer in reach and four flits in its inbound partition. -/
def planS (code : Nat) (f : Shuttle → Shuttle) : State :=
  { shtS 3 (fun x => f { x with peer := { x.peer with hello := true } }) with
    areas := [(0, { area0 with
      recs := planRecs code, drafts := [(0, { (default : Draft) with recs := planRecs code })], job := { area0.job with plan := [plan8 code], nextK := 1 } })]
    att := [(32, { (default : Attach) with inS := List.replicate 4 (qE flit1 0), sOut := 4 })] }

/-- The plan's entry of pick 1 is offset 1 of step 0. -/
theorem witness_planAt : planAt (planS 1 id) 0 1 = some (0, plan8 1, 1, 1 + 2 ^ 29) := by decide +kernel
/-- Meets the hypotheses of Obligations.PortsSendFramesAndSlots. -/
theorem witness_ScheduledSlots :
    (let s := planS 1 id
     let e := planEntry (planRecs 1) 0 0 1
     toPick 0 s = s ∧ planAt s 0 1 = some (0, plan8 1, 1, e) ∧ jobRuns s 0 = true ∧ (plan8 1).dead = false
     ∧ ((List.range 14).all fun n => n == 0 || peTx e n == 0) = true ∧ peTx e 0 = 1 ∧ 4 ≤ (attAt s 32).inS.length)
    ∧ (planAt (planS 2 id) 0 1 = some (0, plan8 2, 1, 2 + 2 ^ 29) ∧ peTx (2 + 2 ^ 29) 0 = 2 ∧ (shtAt (planS 2 id) 0).held = [])
    ∧ (planAt (planS 3 id) 0 1 = some (0, plan8 3, 1, 3 + 2 ^ 29) ∧ peTx (3 + 2 ^ 29) 0 = 3)
    ∧ (let r : RxSlot := { pick := 1, slot := 1, kind := 0, data := 1, sour := 0 }
       let s : State := { planS 0 (fun x => { x with rxSlots := [r] }) with now := 12 }
       let P := s.pick + 1 - ppRelease (portPlan s 0)
       P = 1 ∧ planAt s 0 P = some (0, plan8 0, 1, 2 ^ 29) ∧ (List.range 14).filter (peRx (2 ^ 29)) = [1] ∧ (shtAt s 0).pushed ≤ P ∧ groupOf s 0 = [0]
       ∧ (shtAt s 0).state = 3 ∧ reachesPeer s 0 = true ∧ portPlan s 0 ≠ [] ∧ rxAt (shtAt s 0) P 1 = some r ∧ (attAt s 32).outS.length + 4 ≤ (attAt s 32).sOut) := by and_intros <;> decide +kernel

/-- A header of peer pick P with one scheduled slot 1, or none. -/
def head0 (P sched : Nat) : List Byte := leBytes 8 P ++ leBytes 4 (sched * 4) ++ List.replicate 72 0

/-- Meets the hypotheses of Obligations.PickHeadersAreTaken. -/
theorem witness_PickHeaders :
    (let s := shtS 3 fun x => { x with lastPick := some 4 }
     let f : RxFrame := { pick := 5, header := some (head0 5 0), slots := [] }
     f.header = some (head0 5 0) ∧ wordsLost (shtAt s 0) 5 0 21 = false ∧ fld (head0 5 0) 0 8 = 4 + 1 ∧ planAt s 0 5 = none ∧ schedSlots (head0 5 0) = []
     ∧ fld (head0 6 0) 0 8 ≠ 4 + 1 ∧ planAt s 0 6 = none ∧ (f.header = none ∨ wordsLost { shtAt s 0 with lostWords := [(5, 0)] } 5 0 21 = true))
    ∧ (let s := planS 0 id
       schedSlots (head0 1 1) = [1] ∧ planAt s 0 1 = some (0, plan8 0, 1, 2 ^ 29) ∧ peRx (2 ^ 29) 1 = true ∧ (shtAt s 0).lastPick = none ∧ (shtAt s 0).pushed ≤ 1 ∧ lostSegs (shtAt s 0) 1 1 = 0) := by
  decide +kernel
/-- Meets the hypotheses of Obligations.PortsTrainAndCorrect. -/
theorem witness_PortsTrain :
    (let x := shtAt (shtS 0 id) 0
     x.state = 0 ∧ bit x.ctl 0 = false ∧ x.engineOff = false)
    ∧ (let o : TrainOutcome := { spare := 0, usable := 0xFFFE, margins := List.replicate 16 4 }
       (shtAt (shtS 1 id) 0).state = 1 ∧ 15 ≤ laneCountOf o.usable ∧ (∀ l, l < 16 → bit o.usable l = true → 4 ≤ o.margins.getD l 0) ∧ laneCountOf 0x3FFF < 15)
    ∧ (let s : State := { shtS 1 (fun x => { x with signalAt := some 0 }) with up := 250 * milli }
       (shtAt s 0).signalAt = some 0 ∧ 0 + 250 * milli = s.up)
    ∧ within 2 4 (shtAt (shtS 4 id) 0).state = true
    ∧ (let x := shtAt (shtS 3 fun x => { x with deltas := List.replicate 7 (0, 0) }) 0
       2 ≤ x.state ∧ x.state ≠ 2 ∧ x.deltas.length = 7 ∧ (shtAt (shtS 3 id) 0).deltas.length < 7) := by decide +kernel
/-- Meets the hypotheses of Obligations.PortsTrainAndCorrect. -/
theorem witness_LanesAndCodewords :
    (let x := shtAt (shtS 2 id) 0
     let o : CodewordOutcome := { first := 0, role := 14, lane := 15, cwi := 0, corrected := false, failed := true }
     2 ≤ x.state ∧ o.lane < 16 ∧ o.role < 15 ∧ ((Lane.note o (look default x.lanes o.lane)).recent.filter id).length < 16 ∧ x.resync = false)
    ∧ frameOk [] = false ∧ frameOk frame0 = true ∧ fhType frame0 = 0x01
    ∧ (let s := shtS 2 fun x => { x with sprdyRun := 32 }
       let b := toPick (rotationPick (rotPhase s 0) ((s.now + 7) / 8)) s
       let y := (shtAt b 0).rotated b.pick
       bit y.ctl 1 = false ∧ 32 ≤ y.sprdyRun ∧ laneOfRole y (y.rot % 15) = some 0 ∧ (shtAt (shtS 2 id) 0).sprdyRun < 32)
    ∧ (let x := shtAt (shtS 2 fun x => { x with mirror := some (32, 3), txSpare := 15 }) 0
       x.mirror = some (32, 3) ∧ 32 + 32 ≤ 64 ∧ x.txSpare ≠ 3 ∧ bit x.peerLctl 5 = false ∧ 3 ≠ x.spare ∧ x.nospare = false ∧ (look default x.lanes x.spare).failed = false)
    ∧ creditsLeft (attAt { shtS 2 id with att := [(32, { (default : Attach) with sOut := 256 })] } 32) 3 = 0 ∧ typeRouted 0x20 = true
    ∧ (let x := shtAt (shtS 2 fun x => { x with peerLctl := 32 + 2 * 15 }) 0
       bit x.peerLctl 5 = true ∧ bits x.peerLctl 4 1 = 15 ∧ 15 ≠ x.txSpare) := by decide +kernel

/-- TSTAT of a locked master's port: HOPS 0, generation 1, PRIO 2, TMID 9. -/
def tstat0 : Nat := 9 + 2 ^ 18 + 2 ^ 26 + 2 ^ 29

/-- Meets the hypotheses of Obligations.TimeFollowsTheBestOffer. -/
theorem witness_Time :
    (let b := toPick 1 (withArea id)
     noPorts b = true ∧ b.time.holdover = false)
    ∧ (let b := toPick 1 { shtS 2 id with time := { State.reset.time with master := false } }
       noPorts b = false ∧ b.time.master = false ∧ b.time.holdover = false ∧ idAssigned b = false ∧ bestUpstream b = none)
    ∧ (let s : State := { shtS 2 (fun x => { x with tstat := tstat0, lat := 50 }) with time := { State.reset.time with master := false, hasUp := true, tmid := 9, gen := 1 } }
     let b := toPick (s.pick + 1) s
     b.time.master = false ∧ noPorts b = false ∧ bestUpstream b = some 0)
    ∧ (let s : State := { withArea id with time := { State.reset.time with master := false, hasUp := true } }
       s.time.master = false ∧ s.time.hasUp = true ∧ qualifies s s.time.upport = false ∧ bestUpstream s = none)
    ∧ (let s : State := { withArea id with up := 2 * milli, time := { State.reset.time with holdover := true, holdAt := milli, hold := 1 } }
       s.time.holdover = true ∧ s.up = s.time.holdAt + s.time.hold * milli ∧ TabWf default s.sht = true)
    ∧ (let s := shtS 2 fun x => { x with tstat := tstat0, lat := 50 }
       let x := shtAt s 0
       portPresent s.member 0 = true ∧ within 2 3 x.state = true ∧ tsLocked x.tstat = true ∧ tsHops x.tstat ≤ 5 ∧ x.lat ≠ 0 ∧ x.theta.natAbs ≤ 76
       ∧ betterOffer (tsGen x.tstat) (tsPrio x.tstat) (tsTmid x.tstat) s.time.gen s.time.tprio s.time.tmid = true)
    ∧ mayPropose { withArea id with up := second, fab := { State.reset.fab with id := Tri.of 0x8001 }
                                    time := { State.reset.time with master := false, hasUp := false, prio := Tri.of 1, upLostAt := 0 } } = true := by decide +kernel
/-- Meets the hypotheses of Obligations.TimeFollowsTheBestOffer. -/
theorem witness_Epochs :
    (let s : State := { withArea (fun a => { a with job := default }) with time := { State.reset.time with master := true, eparm := true, epoch := 100, lastEdge := none } }
     s.time.lastEdge = none ∧ s.time.master = true ∧ s.time.eparm = true ∧ anyJob s = false)
    ∧ (let s : State := { withArea id with time := { State.reset.time with master := true, holdover := false, period := 1000 } }
       s.time.period ≠ 0 ∧ (s.time.master || s.time.locked) = true ∧ s.time.holdover = false) := by decide +kernel

/-! ## Fabric -/

/-- A hello of device 5, port 3, fabric 0, feed 0, ACK. -/
def hello0 : List Byte := leBytes 8 0x1234 ++ leBytes 2 0 ++ leBytes 2 0x8005 ++ leBytes 1 3 ++ leBytes 1 0 ++ leBytes 2 1 ++ leBytes 1 8 ++ leBytes 1 1 ++ leBytes 1 1 ++ leBytes 5 0

/-- The device has id 7; port 0 is in state 2; device 5 is routed over it. -/
def fabS (f : Shuttle → Shuttle) (g : Fabric → Fabric) : State :=
  { shtS 2 f with fab := g { State.reset.fab with id := Tri.of 0x8007, route := [(5, 2 ^ 31)] } }

/-- What a hello says of its sender. -/
def helloPeer (s : State) (h : List Byte) : Peer :=
  { hello := false, mismatch := false, serial := fld h 0 8, fabric := fld h 8 2, valid := heValid h, devid := heDev h, port := fld h 12 1
    feed := fld h 13 1, rackpos := fld h 14 2, member := fld h 16 1, at_ := some s.up, lastSerial := some (fld h 0 8), ack := heAck h
    sound := decide (fld h 17 1 = 1) }

/-- Meets the hypotheses of Obligations.RoutesAndRemoteAccess. -/
theorem witness_HellosAndRoutes :
    (let s := fabS id id
     let x := shtAt s 0
     portPresent s.member 0 = true ∧ x.state = 2 ∧ hello0.length = 24 ∧ x.peer.feed = fld hello0 13 1 ∧ x.peer.lastSerial = none
     ∧ peerMismatch s (helloPeer s hello0) = false ∧ heAck hello0 = true ∧ heAck (hello0.take 18 ++ [0] ++ hello0.drop 19) = false
     ∧ peerMismatch s { helloPeer s hello0 with sound := false } = true)
    ∧ (let s : State := { fabS (fun x => { x with peer := { x.peer with hello := true, at_ := some 0 } }) id with up := 240000 }
       (shtAt s 0).peer.at_ = some 0 ∧ (shtAt s 0).peer.hello = true ∧ 0 + 240000 = s.up)
    ∧ (let s : State := { fabS (fun x => { x with peer := { x.peer with hello := true } }) id with fab := State.reset.fab }
       (shtAt s 0).peer.hello = true ∧ (List.replicate 4100 (0 : Byte)).length = 4100 ∧ idAssigned s = false ∧ s.fab.noauto = false)
    ∧ (let s := fabS id id
       let f := mkFrame 0x20 1 5 9 1 []
       typeRouted (fhType f) = true ∧ fhDst f ≠ 0xFFF ∧ idAssigned s = true ∧ fhDst f ≠ devId s ∧ fhTtl f ≠ 0 ∧ rtValid (rtAt s (fhDst f)) = true
       ∧ 2 ≤ (shtAt s (rtPort (rtAt s (fhDst f)))).state ∧ fhTtl (mkFrame 0x20 1 5 9 0 []) = 0) := by decide +kernel

/-- A remote write, read or response to or from device 5 of 4 bytes at DPA 0. -/
def rmaF (type tag : Nat) (data : List Byte) : List Byte := mkFrame type 1 7 5 31 (leBytes 8 0 ++ leBytes 4 4 ++ leBytes 2 tag ++ leBytes 2 0 ++ data)

/-- A remote read in progress for the command in mailbox 0 of port 0. -/
def rmaR : Rma := { tag := 3, job := 1, dev := 5, dpa := 0, len := 4, write := false, sentAt := some 0, data := [], answer := none, off := 0 }

/-- Meets the hypotheses of Obligations.RoutesAndRemoteAccess. -/
theorem witness_RemoteAccess :
    (let s : State := fabS id fun f => { f with rmawr := true, rmard := true }
     let s : State := { s with areas := [] }
     let f := rmaF 0x21 3 [1, 2, 3, 4]
     rtValid (rtAt s (fhSrc f)) = true ∧ 2 ≤ (shtAt s (rtPort (rtAt s (fhSrc f)))).state ∧ fhType f = 0x21 ∧ rmaStatus s true (fld (fhPay f) 0 8) (fld (fhPay f) 8 4) = 0
     ∧ (let w := elasticWrite 0 (sub (fhPay f) 16 4) s
        w = { s with stks := w.stks })
     ∧ (fabS id fun f => { f with rmawr := false }).fab.rmawr = false
     ∧ fhType (rmaF 0x20 3 []) = 0x20 ∧ rmaStatus s false 0 4 = 0)
    ∧ (let j : RemoteJob := { id := 1, port := 0, m := 0, list := [], sours := 0, bad := false, restore := none }
       let s : State := { fabS id (fun f => { f with rmas := [rmaR] }) with remote := [j] }
       let s := modMbx 0 0 (fun b => { b with state := 2 }) s
       s.fab.rmas = [rmaR] ∧ rmaR.answer = none ∧ rmaR.sentAt = some 0 ∧ s.remote = [j] ∧ j.id = rmaR.job ∧ (mbxAt s j.port j.m).state = 2
       ∧ (let f := mkFrame 0x22 1 7 5 31 (rmaRsp 3 0 0 [1, 2, 3, 4])
          fhType f = 0x22 ∧ fld (fhPay f) 0 2 = rmaR.tag ∧ bit rmaR.tag 15 = false ∧ fld (fhPay f) 2 1 = 0)
       ∧ fld (fhPay (mkFrame 0x22 1 7 5 31 (rmaRsp 3 3 0 []))) 2 1 = 3 ∧ 0 + 100 * milli = ({ s with up := 100 * milli } : State).up) := by decide +kernel

/-- The running step of planS, 8 picks long. -/
def step8 : Step := { (default : Step) with len := 8, v := 1 }

/-- planS with that step. -/
def tallyS (now : Nat) : State := { planS 1 id with now := now, areas := [(0, { area0 with
  recs := planRecs 1, job := { area0.job with steps := [step8], plan := [plan8 1] }, drafts := [(0, { (default : Draft) with recs := planRecs 1 })] })] }

/-- With one step class of LEN 8 the step has a contribution at offset 1, whatever the layout of CLASSES is. -/
theorem witness_Tallies_class (h : Config.classesOf [] = [(0, 8, 1, 0)]) :
    stepClass (tallyS 400) 0 0 = some 0 ∧ txOffsets (draftFor (tallyS 400) 0 0).recs 0 0 = [1] ∧ rxOffsets (draftFor (tallyS 400) 0 0).recs 0 0 = [1] := by
  have h1 : stepClass (tallyS 400) 0 0 = some 0 := by
    show (Config.classesOf []).findIdx? (fun c => c.1 == 0) = some 0
    rw [h]; rfl
  have h2 : classLen (planRecs 1) 0 = 8 := by
    show ((Config.classesOf []).getD 0 (0, 0, 0, 0)).2.1 = 8
    rw [h]; rfl
  refine ⟨h1, ?_, ?_⟩
  · show txOffsets (planRecs 1) 0 0 = [1]
    unfold txOffsets; rw [h2]; decide +kernel
  · show rxOffsets (planRecs 1) 0 0 = [1]
    unfold rxOffsets; rw [h2]; decide +kernel
/-- Meets the hypotheses of Obligations.TalliesAndFallbackPages. -/
theorem witness_Tallies :
    (let s := tallyS 400
     portPresent s.member 0 = true ∧ areaOfAtt s 32 = some 0 ∧ jobRuns s 0 = true ∧ (areaAt s 0).job.steps = [step8]
     ∧ (look default (shtAt s 0).txTally 0).done = false ∧ 8 * (step8.s + 1 + 33) ≤ s.now ∧ 2 ≤ (shtAt s 0).state)
    ∧ step8.ended = false ∧ step8.len ≠ 0 ∧ (tallyS 0).now ≤ 8 * (step8.s + step8.len)
    ∧ ((areaAt (tallyS 0) 0).job.steps.find? fun y => y.k == step8.k) = some step8
    ∧ (leBytes 8 0 ++ leBytes 16 0).length = 24 ∧ fld (leBytes 8 0 ++ leBytes 16 0) 0 8 = step8.k := by decide +kernel

/-- A BUCKETS record of exchange 2 with device 5: RSZ 1, FBCAP 1, out creel 0 of site 1, in creel 1 of site 1, NPG 1. -/
def bkD : List Byte := leBytes 2 2 ++ leBytes 1 1 ++ leBytes 5 0 ++ leBytes 2 1 ++ leBytes 2 1 ++ leBytes 4 0 ++ leBytes 2 5 ++ leBytes 1 0 ++ leBytes 1 1 ++ leBytes 4 1 ++ leBytes 4 (1 + 2 ^ 20) ++ leBytes 4 0

/-- A commit creel of 4,096 cells with 1,024 of them committed. -/
def bigCreel : Creel := { (default : Creel) with desc := BitVec.ofNat 64 (3 * 2 ^ 62 + 1023 * 2 ^ 34), tail := 1024, ctail := 1024 }

/-- The exchange stands; the source may send a page, the landing engine expects fragment 1. -/
def fbS : State :=
  { fabS id (fun f => { f with fbSrc := [(2 * 4096 + 5, { (default : FbSrc) with limit := 4 })], fbDst := [(2 * 4096 + 5, { (default : FbDst) with nextFrag := 1 })] }) with
    areas := [(0, { area0 with drafts := [(0, { (default : Draft) with recs := [recOne 0x0F (2 ^ 29) bkD] })] })]
    mm := [(1, { (default : Mm) with creels := [(0, bigCreel)] })] }

/-- Meets the hypotheses of Obligations.TalliesAndFallbackPages. -/
theorem witness_Fallback :
    let s := fbS
    let e := fbSrcAt s 2 5
    let c := creelAt (mmAt s (bkOut bkD 0).1) (bkOut bkD 0).2
    let P := fbRows (bkRsz bkD) (bkFbcap bkD)
    let hb := List.replicate 64 (0 : Byte)
    exchangeOf s 2 5 = some (0, bkD, 0) ∧ bkFbcap bkD ≠ 0 ∧ rtValid (rtAt s 5) = true ∧ 2 ≤ (shtAt s (rtPort (rtAt s 5))).state
    ∧ e.sentSeq < e.limit ∧ crMode c.desc = 3 ∧ 4 * P * ((e.sentSeq - e.seq) % 65536) + 4 * P ≤ crCommitted c
    ∧ creelRows 1 0 1 0 s = (hb, s) ∧ pageRows bkD hb = 1 ∧ creelRows 1 0 (min 64 (1 - 64 * e.sentFrag)) 0 s = (hb, s)
    ∧ (let f := mkFrame 0x30 1 7 5 31 (leBytes 2 2 ++ leBytes 2 0 ++ leBytes 2 1 ++ leBytes 2 3 ++ leBytes 8 0 ++ hb)
       fhType f = 0x30 ∧ fld (fhPay f) 0 2 = 2 ∧ fhSrc f = 5 ∧ fld (fhPay f) 2 2 = (fbDstAt s 2 5).nextSeq % 65536 ∧ fld (fhPay f) 4 2 = (fbDstAt s 2 5).nextFrag
       ∧ (fbDstAt s 2 5).nextFrag ≠ 0 ∧ (fbDstAt s 2 5).nextFrag + 1 ≠ fld (fhPay f) 6 2)
    ∧ (let f := mkFrame 0x31 0 7 5 31 (leBytes 2 2 ++ leBytes 2 1 ++ leBytes 2 0 ++ leBytes 2 5)
       fhType f = 0x31 ∧ fhSrc f = 5 ∧ unwrap e.seq (fld (fhPay f) 2 2) = 1 ∧ 4 * P * (1 - e.seq) ≤ crCommitted c)
    ∧ (let s : State := { s with up := milli, fab := { s.fab with fbSrc := [(2 * 4096 + 5, { (default : FbSrc) with sentSeq := 1 })] } }
       ¬ ((fbSrcAt s 2 5).sentSeq = (fbSrcAt s 2 5).nextSeq ∧ (fbSrcAt s 2 5).sentFrag = (fbSrcAt s 2 5).nextFrag) ∧ (fbSrcAt s 2 5).lastAt + milli = s.up) := by
  decide +kernel

/-! ## Registers -/

/-- A draft is not loaded and no job runs in any area. -/
def idleS : State := withArea fun a => { a with job := default }

/-- Meets the hypotheses of Obligations.HostRegisterAccesses. -/
theorem witness_HostRegisters :
    (let s := cmdS 0x0001 [] 0 0 idleS
     let s := modMbx 0 0 (fun b => { b with state := 0 }) s
     s.bru.drst = false ∧ (mbxAt s 0 0).state = 0 ∧ (mbxAt s 0 7).state = 0 ∧ opcodeKnown (hdrOpcode (mbxAt s 0 0).cmd) = true ∧ 0xFFC + 4 ≤ 0x1000
     ∧ 0x2000 + 2 ≤ 2 ^ 24 ∧ ¬ (2 = 4 ∧ 0x2000 % 4 = 0) ∧ ¬ (2 = 8 ∧ 0x2000 % 8 = 0))
    ∧ within State.reset.pwr.pmin.val State.reset.pwr.pmax.val State.reset.pwr.pmax.val = true ∧ State.reset.pwr.pmax.val < 512
    ∧ (portAt State.reset 1).writes = [] ∧ shadowDue 4 State.reset = State.reset
    ∧ bit State.reset.sec.lock.val 0 = false ∧ limitsOk State.reset = true ∧ limitsOk { State.reset with pwr := { State.reset.pwr with stagedMax := State.reset.pwr.pmax.val, stagedMin := State.reset.pwr.pmin.val } } = true
    ∧ (let s : State := { State.reset with pwr := { State.reset.pwr with stagedMax := 0, stagedMin := 511 } }
       shadowDue 4 s = s ∧ limitsOk s = false ∧ s.pwr.shadowLim = none ∧ (portAt s 1).regerrValid = false)
    ∧ ((List.range 100).all fun i => decide ((calRange i).1.1 ≤ 0 ∧ 0 ≤ (calRange i).1.2 ∧ (calRange i).2.1 ≤ (calAt State.reset i).fact + signed 32 0
        ∧ (calAt State.reset i).fact + signed 32 0 ≤ (calRange i).2.2)) = true
    ∧ 0x8000 % 65536 ≠ 0 ∧ bit 0x8000 31 = false ∧ State.reset.bru.drst = false ∧ prijanRuns State.reset = false := by decide +kernel

/-- Window 3 stands at MM_CREEL descriptor 15 of site 1, auto-increment, 64-bit. -/
def winS (ctrl : Nat) : State := { idleS with wins := [(3, { (default : Window) with addr := 0x178, site := 1, ctrl := ctrl })] }

/-- Meets the hypotheses of Obligations.WindowsVotesAndShadows. -/
theorem witness_Windows :
    (let x := winAt (winS 6) 3
     siteReach (winS 6) 1 = true ∧ kindOf 1 = .mm ∧ siteLive (winS 6) 1 = false ∧ x.addr = 0x100 + 8 * 15 ∧ x.site = 1 ∧ bit x.ctrl 2 = true
     ∧ x.ctrl % 4 = 2 ∧ bit x.ctrl 3 = false ∧ x.hi < 2 ^ 32)
    ∧ creelSetOk ((List.range 16).map fun i => if bit 1 i then (creelAt (mmAt idleS 1) i).staged else (creelAt (mmAt idleS 1) i).desc) = true
    ∧ (let s : State := { idleS with mm := [(1, { (default : Mm) with creels := [(0, { (default : Creel) with staged := BitVec.ofNat 64 (2 ^ 62 + 6143 * 2 ^ 47 + 2 ^ 34) })] })] }
       siteLive s 1 = false ∧ creelSetOk ((List.range 16).map fun i => if bit 1 i then (creelAt (mmAt s 1) i).staged else (creelAt (mmAt s 1) i).desc) = false)
    ∧ (let v := 2 ^ 31 + 6143 * 2 ^ 16 + 35 * 2 ^ 8 + 2 + 35 * 4
       bits v 13 8 ≤ 35 ∧ bit v 1 = true ∧ bits v 7 2 ≤ 35 ∧ bits v 28 16 ≤ 6143 ∧ bit v 31 = true)
    ∧ (let m := mmAt idleS 1
       raRow m < 6144 ∧ (subAt m (raSub m)).power = 0 ∧ mmCells m (raSub m) (raRow m) = List.replicate 4 .good ∧ m.inj = none) := by decide +kernel
/-- Meets the hypotheses of Obligations.WindowsVotesAndShadows. -/
theorem witness_WindowRings :
    (siteReach idleS 0 = true ∧ kindOf 0 = .mx ∧ siteLive idleS 0 = false ∧ ringCount 0 = 16
     ∧ ringSetOk 1536 ((List.range 16).map fun i => if bit 1 i then (look default (siteRings idleS 0) i).staged else (look default (siteRings idleS 0) i).desc) = true)
    ∧ (let s : State := { idleS with sf := [(513, { (default : Sf) with rings := [(7, { (default : Ring) with staged := BitVec.ofNat 64 (2 ^ 63 + 511 * 2 ^ 52 + 2 ^ 41) })] })] }
       siteReach s sfN = true ∧ kindOf sfN = .sf ∧ siteLive s sfN = false ∧ ringCount sfN = 8
       ∧ ringSetOk 512 ((List.range 8).map fun i => if bit 128 i then (look default (siteRings s sfN) i).staged else (look default (siteRings s sfN) i).desc) = false)
    ∧ portPresent idleS.member 31 = true ∧ optJob idleS (areaOfAtt idleS 63) = false ∧ idAssigned (fabS id id) = true ∧ devId (fabS id id) = 7 := by decide +kernel
/-- Meets the hypotheses of Obligations.WindowsVotesAndShadows. -/
theorem witness_VotesAndShadows :
    let s : State := { idleS with pwr := { idleS.pwr with shadowCap := some 300, shadowThrot := none } }
    (toPick (look 0 s.mod.shadowAt 4 + 1) s).pwr.shadowCap = some 300 ∧ (areaList s).filter (jobRuns s) = [] ∧ s.pwr.shadowCap = some 300 ∧ s.pwr.shadowThrot = none ∧ (s.mod.pmon.all fun kv => decide (kv.2.shadow = none)) = true := by
  decide +kernel

/-- Windows 0 to 3 with SITESTEP = 1 and with STRIDE 0, 4 and 8, the last at the end of its domain. -/
def fourWins : State :=
  { State.reset with wins := [(0, { (default : Window) with ctrl := 9, site := 2 ^ 18 - 1 }), (1, { (default : Window) with addr := 4 }),
      (2, { (default : Window) with ctrl := 1, addr := 4 }), (3, { (default : Window) with ctrl := 2, addr := 2 ^ 28 - 8 })] }

/-- Meets the hypotheses of Obligations.WindowIndexAdvancesAfterEveryAccess. -/
theorem witness_WindowIndex :
    bit (winAt fourWins 0).ctrl 3 = true ∧ bit (winAt fourWins 1).ctrl 3 = false ∧ (winAt fourWins 1).ctrl % 4 = 0 ∧ bit (winAt fourWins 2).ctrl 3 = false ∧ (winAt fourWins 2).ctrl % 4 = 1
    ∧ bit (winAt fourWins 3).ctrl 3 = false ∧ (winAt fourWins 3).ctrl % 4 = 2
    ∧ (let s : State := { State.reset with wins := [(0, { (default : Window) with ctrl := 4, site := 2 ^ 18 - 1 })] }
       let x := winAt s 0
       idxUnit s x.addr x.site = .absent ∧ x.addr % 4 = 0 ∧ bit x.ctrl 2 = true ∧ x.addr % 8 = 0) := by decide +kernel
/-- An access at an index that names nothing, with SITESTEP = 1 and with STRIDE 8 at the end of the domain, advances all the same. -/
theorem test_window_advances :
    ends (exec (.idxDataRead 1 0) fourWins) (fun t => (winAt t 0).site == 0 && (winAt t 0).addr == 0) = true
    ∧ ends (exec (.idxDataWrite 1 3 7) fourWins) (fun t => (winAt t 3).addr == 0) = true := by decide +kernel

/-! ## Host commands -/

/-- A mailbox whose STATE is changed. -/
def withState (st : Nat) (s : State) : State := modMbx 0 0 (fun b => { b with state := st }) s

/-- A transfer without an area that is still running. -/
def bulk0 : BulkJob :=
  { id := 1, port := 0, m := 0, kind := 2, left := 1, status := 0, sours := 0, site := 1, creel := 0, dests := [(0x1000, 64)], total := 1, off := 0, area := none }

/-- Meets the hypotheses of Obligations.MailboxesAnswerTheirCommands. -/
theorem witness_Mailboxes :
    (mbxAt (withState 2 (cmdS 0x0001 [] 0 0 idleS)) 0 0).state = 2
    ∧ (let s := cmdS 0x0110 (leBytes 4 0) 0xF0C0 1 idleS
       let b := mbxAt s 0 0
       b.state = 1 ∧ hdrOpcode b.cmd = 0x0110 ∧ postsTaken s = true ∧ mbxWaits s .area b.cmd = false ∧ hdrPlen b.cmd ≠ 8)
    ∧ (let s := areaCmd 0x0110 (leBytes 8 0) idleS
       let s : State := { s with bru := { s.bru with ready := false } }
       mbxGoodHeader s 0 0 8 .area ∧ mbxWaits s .area (mbxAt s 0 0).cmd = false ∧ s.bru.ready = false ∧ postsTaken s = true)
    ∧ (let s : State := { areaCmd 0x0110 (leBytes 8 0) idleS with bulk := [bulk0] }
       mbxWaits s .area (mbxAt s 0 0).cmd = true) := by decide +kernel
/-- Meets the hypotheses of Obligations.DeviceCommandsComplete. -/
theorem witness_DeviceCommands :
    mbxEarly (cmdS 0x0001 [] 0 0 idleS) 0 0 0x0001 0 ∧ mbxEarly (cmdS 0x0002 [] 0 0 idleS) 0 0 0x0002 0
    ∧ (let s := cmdS 0x0003 (leBytes 8 0x10000 ++ leBytes 4 64 ++ leBytes 4 0) 0 0 idleS
       mbxEarly s 0 0 0x0003 16 ∧ par (mbxAt s 0 0).cmd 12 4 = 0 ∧ par (mbxAt s 0 0).cmd 0 8 % 64 = 0 ∧ par (mbxAt s 0 0).cmd 8 4 = 64 * 2 ^ 0)
    ∧ (let s := cmdS 0x0011 (leBytes 4 0x44525354) 0 2 idleS
       mbxEarly s 0 0 0x0011 4 ∧ par (mbxAt s 0 0).cmd 0 4 = 0x44525354)
    ∧ (let s := cmdS 0x0302 (leBytes 2 3 ++ leBytes 2 4094) 0 2 idleS
       let s : State := { s with time := { s.time with master := false } }
       mbxGood s 0 0 0x0302 4 .device ∧ par (mbxAt s 0 0).cmd 2 2 ≤ 4094 ∧ anyJob s = false ∧ (∀ q, q < 32 → (shtAt s q).peer.hello = false) ∧ s.time.master = false
       ∧ (∀ q, q < 32 → (shtAt s q).peer.at_ = none)
       ∧ (let s : State := { s with sht := [(3, { (default : Shuttle) with peer := { (default : Peer) with at_ := some 0 } })] }
          mbxGood s 0 0 0x0302 4 .device ∧ (∀ q, q < 32 → (shtAt s q).peer.hello = false) ∧ (shtAt s 3).peer.at_ = some 0))
    ∧ (let s := areaCmd 0x0010 [] idleS
       let b := toPick ((s.now + 7) / 8) (mbxTaken 0 0 s)
       mbxGood s 0 0 0x0010 0 .both ∧ hdrFlags (mbxAt s 0 0).cmd % 4 = 1 ∧ wArea (hdrArea (mbxAt s 0 0).cmd) = 0 ∧ areaNamed s (mbxAt s 0 0).cmd = true
       ∧ storesWf b ∧ areaList b = [0] ∧ (areaAt b 0).job.steps = [] ∧ b.bulk = [] ∧ b.remote = [] ∧ (areaAt b 0).load = none ∧ (areaAt b 0).skim.state ≠ 2
       ∧ (mbxAt b 0 0).state = 2 ∧ (mbxAt b 0 0).cmd = (mbxAt s 0 0).cmd)
    ∧ (let s : State := { idleS with up := 10 * milli, ports := [(0, { (default : Port) with abortBusy := true, abortReq := 1 })] }
       let b := toPick ((s.now + 7) / 8) s
       storesWf b ∧ areaList b = [0] ∧ (areaAt b 0).job.steps = [] ∧ b.bulk = [] ∧ b.remote = [] ∧ (areaAt b 0).load = none ∧ (areaAt b 0).skim.state ≠ 2
       ∧ (portAt s 0).abortBusy = true ∧ (portAt s 0).abortAt + 10 * milli = s.up ∧ (portAt s 0).abortReq = 2 ^ 0
       ∧ postedAborts s 0 = [] ∧ (portAt s 1).abortReq = 0 ∧ postedAborts s 1 = []) := by and_intros <;> decide +kernel
/-- Meets the hypotheses of Obligations.AreaCommandsComplete. -/
theorem witness_AreaCommands :
    (let s := areaCmd 0x0100 [] State.reset
     mbxGood s 0 0 0x0100 0 .area ∧ areaRefusal s 0xF0C0 16 = mOk ∧ (areaAt s 0).defined = false
     ∧ areaRefusal s 0x0FC0 16 ≠ mOk ∧ (areaList s).length < 16)
    ∧ (let s := cmdS 0x0100 [] 0 1 { State.reset with areas := (List.range 16).map fun a => (a, { area0 with word := 0x1100 + a }) }
       mbxGood s 0 0 0x0100 0 .area ∧ areaRefusal s 0 16 = mOk ∧ 16 ≤ (areaList s).length)
    ∧ (let s := cmdS 0x0100 [] 0 1 { State.reset with areas := [(0, { area0 with word := 0x1100 })] }
       mbxGood s 0 0 0x0100 0 .area ∧ areaRefusal s 0 16 = mOk ∧ (areaList s).length < 16 ∧ (areaAt s 0).defined = true)
    ∧ (let s := areaCmd 0x0101 [] idleS
       mbxGood s 0 0 0x0101 0 .area ∧ (areaAt s 0).defined = true ∧ (areaAt s 0).owner.val = 0 ∧ hasJob s 0 = false ∧ areaBusy s 0 = false
       ∧ (areaAt s 0).load = none ∧ areaRefusal s 0xF0C0 0 = mOk ∧ areaBusy (withArea id) 0 = false ∧ (areaAt (withArea id) 0).load = none)
    ∧ (let s := cmdS 0x0101 [] 0x0FC0 1 idleS
       mbxGood s 0 0 0x0101 0 .area ∧ areaRefusal s 0x0FC0 0 ≠ mOk)
    ∧ (areaGood (areaCmd 0x0102 [] idleS) 0 0 0x0102 0 ∧ hasJob (areaCmd 0x0102 [] idleS) 0 = false ∧ hasJob (areaCmd 0x0102 [] (withArea id)) 0 = true
       ∧ areaGood (areaCmd 0x0102 [] (withArea id)) 0 0 0x0102 0)
    ∧ (let s := areaCmd 0x0103 [] (withArea fun a => { a with halted := true, job := { a.job with state := jHalted } })
       storesWf s ∧ areaGood s 0 0 0x0103 0 ∧ (areaAt s 0).job.state = jHalted ∧ (areaAt s 0).load = none ∧ (areaAt s 0).skim.state ≠ 2)
    ∧ (let s := areaCmd 0x0104 [] (withArea fun a => { a with owner := Tri.of 1 })
       let s : State := { s with up := second, ports := put default s.ports 1 { (default : Port) with up := false, downAt := 0 } }
       mbxGood s 0 0 0x0104 0 .area ∧ areaNamed s (mbxAt s 0 0).cmd = true ∧ (areaAt s 0).owner.val = 1 ∧ (portAt s 1).up = false ∧ (portAt s 1).downAt + second ≤ s.up) := by
  and_intros <;> decide +kernel

/-- A bulk command of 64 bytes: KIND, target; its scatter list at host address 0 names 64 bytes at 0x1000. -/
def bulkS (opc kind target flags : Nat) (s : State) : State :=
  let s := cmdS opc (leBytes 8 target ++ leBytes 4 64 ++ leBytes 1 kind ++ leBytes 3 0 ++ leBytes 8 0 ++ leBytes 8 0) (if flags = 1 then 0xF0C0 else 0) flags s
  modPort 0 (fun x => { x with mem := putBytes [] 0 (leBytes 8 0x1000 ++ leBytes 4 64 ++ leBytes 4 1) }) s

/-- Site 1 with a DMA lane, a commit creel of 1,024 committed cells, and an empty elastic creel. -/
def laneS (f : Area → Area) : State := { withArea f with mm := [(1, { (default : Mm) with lane := some (0, 0), creels :=
  [(0, { bigCreel with desc := bigCreel.desc ||| 0x4000000 }), (1, { (default : Creel) with desc := BitVec.ofNat 64 (2 * 2 ^ 62 + 1023 * 2 ^ 34) })] })] }

/-- Meets the hypotheses of Obligations.TransfersComplete. -/
theorem witness_Bulk :
    (let s := bulkS 0x0200 0 0 2 State.reset
     let c := (mbxAt s 0 0).cmd
     mbxGood s 0 0 0x0200 32 .both ∧ (bulkPar c).area = none ∧ par c 13 3 = 0 ∧ par c 24 8 = 0 ∧ (scatterList s 0 (bulkPar c).list (bulkPar c).len).2 = true
     ∧ bulkRefusal s true (bulkPar c) = mOk ∧ (bulkPar c).kind = 0)
    ∧ (let s := bulkS 0x0200 4 0 1 idleS
       let c := (mbxAt s 0 0).cmd
       mbxGood s 0 0 0x0200 32 .both ∧ (bulkPar c).area = some 0 ∧ areaNamed s c = true ∧ (areaAt s 0).owner.val = 0 ∧ bulkRefusal s true (bulkPar c) = mOk ∧ (bulkPar c).kind = 4)
    ∧ (let s := bulkS 0x0200 1 0x100001 1 (laneS id)
       let c := (mbxAt s 0 0).cmd
       mbxGood s 0 0 0x0200 32 .both ∧ bulkRefusal s true (bulkPar c) = mOk ∧ (bulkPar c).kind = 1)
    ∧ (let s := bulkS 0x0201 0 0 2 State.reset
       let c := (mbxAt s 0 0).cmd
       let r := mbxTaken 0 0 s
       mbxGood s 0 0 0x0201 32 .both ∧ bulkRefusal s false (bulkPar c) = mOk ∧ elasticRead 0 64 true r = (List.replicate 64 0, 0, r)
       ∧ chunkLen (scatterList s 0 0 64).1 = 64)
    ∧ (let s := bulkS 0x0201 2 1 1 (laneS id)
       let c := (mbxAt s 0 0).cmd
       mbxGood s 0 0 0x0201 32 .both ∧ bulkRefusal s false (bulkPar c) = mOk ∧ (bulkPar c).kind = 2 ∧ bulkState s (bulkPar c).area = 1) := by and_intros <;> decide +kernel
/-- Meets the hypotheses of Obligations.TransfersComplete. -/
theorem witness_Remote :
    (let s := cmdS 0x0300 (leBytes 2 5 ++ leBytes 2 0 ++ leBytes 4 64 ++ leBytes 8 0 ++ leBytes 8 0) 0 2 (fabS id id)
     let s := modPort 0 (fun x => { x with mem := putBytes [] 0 (leBytes 8 0x1000 ++ leBytes 4 64 ++ leBytes 4 1) }) s
     let c := (mbxAt s 0 0).cmd
     mbxGood s 0 0 0x0300 24 .device ∧ par c 2 2 = 0 ∧ par c 0 2 = 5 ∧ par c 4 4 = 64 ∧ par c 8 8 % 4096 + 64 ≤ 4096 ∧ (scatterList s 0 (par c 16 8) 64).2 = true
     ∧ s.fab.rmas = [] ∧ s.remote = [] ∧ s.fab.nextTag < 32768 ∧ rtValid (rtAt s 5) = true ∧ 2 ≤ (shtAt s (rtPort (rtAt s 5))).state ∧ rtValid (rtAt State.reset 5) = false)
    ∧ mbxGood (cmdS 0x0301 (List.replicate 24 0) 0 2 State.reset) 0 0 0x0301 24 .device := by decide +kernel
/-- Meets the hypotheses of Obligations.TransfersComplete. -/
theorem witness_DmaReturn :
    let f : Flit := { data := BitVec.ofNat 1024 (2 ^ 512), sour := 0 }
    let s : State := { laneS id with att := [(0, { (default : Attach) with inE := [qE f 0] })], bulk := [bulk0] }
    let s := withState 2 (cmdS 0x0201 [] 0 2 s)
    sitePresent s.member 1 = true ∧ (mmAt s 1).lane = some (0, 0) ∧ ((attAt s 0).inE.find? fun e => e.flit == f) = some (qE f 0)
    ∧ bits (flitHdr f) 1 0 = 1 ∧ bits (flitHdr f) 5 2 = bulk0.creel ∧ s.bulk = [bulk0] ∧ bulk0.kind = 2 ∧ bulk0.site = 1 ∧ bulk0.left = 1 ∧ bulk0.status = 0 ∧ bulk0.sours = 0 ∧ f.sour.toNat % 16 = 0 ∧ (mbxAt s 0 0).state = 2
    ∧ bits (flitHdr flit1) 1 0 = 0 := by decide +kernel

/-! ## Jobs and steps -/

/-- Meets the hypotheses of Obligations.JobsBeginAndReport. -/
theorem witness_Jobs :
    (let start := fun P fl => leBytes 8 P ++ leBytes 4 fl
     let loaded := withArea fun a => { a with job := { (default : Job) with state := jLoaded } }
     areaGood (areaCmd 0x0111 (start 1000 0) idleS) 0 0 0x0111 12 ∧ (areaAt idleS 0).job.state ≠ jLoaded
     ∧ areaGood (areaCmd 0x0111 (start 999 0) loaded) 0 0 0x0111 12 ∧ (areaAt loaded 0).job.state = jLoaded
     ∧ bit (draftOf loaded 0).flags 1 = false ∧ loaded.pick + 1000 ≤ 1000 ∧ 999 < loaded.pick + 1000
     ∧ areaGood (areaCmd 0x0111 (start 1000 1) loaded) 0 0 0x0111 12
     ∧ par (mbxAt (areaCmd 0x0111 (start 1000 1) loaded) 0 0).cmd 0 8 = 1000 ∧ par (mbxAt (areaCmd 0x0111 (start 1000 1) loaded) 0 0).cmd 8 4 = 1)
    ∧ (let s := areaCmd 0x0112 [] (withArea id)
       mbxGood s 0 0 0x0112 0 .area ∧ areaNamed s (mbxAt s 0 0).cmd = true)
    ∧ (let s := areaCmd 0x0604 (leBytes 1 1 ++ leBytes 7 0 ++ leBytes 8 1000) (withArea fun a => { a with job := { a.job with ras := 3 } })
       areaGood s 0 0 0x0604 16 ∧ par (mbxAt s 0 0).cmd 0 1 = 1 ∧ par (mbxAt s 0 0).cmd 1 7 = 0 ∧ (areaAt s 0).job.ras = 3 ∧ s.pick + 1000 ≤ par (mbxAt s 0 0).cmd 8 8
       ∧ (areaAt (withArea id) 0).job.ras ≠ 3)
    ∧ (let s : State := { withArea (fun a => { a with job := { (default : Job) with state := jRunning, p := 5 } }) with su := [(1026, { (default : Su) with prog := [(0, 1)] })] }
       (areaAt s 0).job.state = jRunning ∧ (areaAt s 0).job.nextK = 0 ∧ (areaAt s 0).job.committed = none ∧ areaSus s 0 = []
       ∧ (serviceSus (toPick 5 s) 0).contains suN = true ∧ suN ∈ serviceSus (toPick 5 s) 0 ∧ wHasSite (areaAt (toPick 5 s) 0).word suN = true
       ∧ wHasSite 0 16000 = false ∧ storesWf (toPick 5 s)) := by and_intros <;> decide +kernel

/-- Step 0 ended, 8 picks long, V 1. -/
def stepE (f : Step → Step) : Step := f { step8 with ended := true }

/-- A job whose only uncommitted step is st; its SU has sent a status down, and can return to the JOIN of step 0. -/
def jobS (st : Step) (status : Nat) (f : Job → Job) : State :=
  { withArea (fun a => { a with job := f { a.job with steps := [st], run := 1 } }) with
    su := [(1026, { (default : Su) with seq := { (default : Seq) with running := true }, downOut := some [1, status, 9], savedJoin := [(0, 0, [], 0, 0x2000000800100000)], prog := [(0, 0x2000000800100000)] })] }

/-- Meets the hypotheses of Obligations.StepsStartAndEnd. -/
theorem witness_Steps :
    (let s : State := { jobS step8 0 id with su := [(1026, { (default : Su) with lastJoin := some { join0 with opens := 1, start := some 9 } })] }
     let r := toPick 9 s
     knownStart s 0 = some 9 ∧ (areaAt s 0).job.state = jRunning ∧ (areaAt s 0).job.steps.length < 2 ∧ s.pwr.clamp = none ∧ jobRuns r 0 = true
     ∧ ¬ ((areaAt idleS 0).job.state = jRunning))
    ∧ (let s := jobS step8 0 id
       let r := toPick (step8.s + step8.len) s
       curStep s 0 = some step8 ∧ step8.ended = false ∧ step8.len ≠ 0 ∧ (areaAt s 0).job.state = jRunning ∧ jobRuns r 0 = true ∧ storesWf r ∧ areaSus r 0 = [1026]
       ∧ (areaAt r 0).swapOpen = false ∧ wHasSite (areaAt r 0).word suN = true)
    ∧ curStep idleS 0 = none := by decide +kernel
/-- Meets the hypotheses of Obligations.StepsCommitOrFail. -/
theorem witness_Commits :
    (let s := jobS (stepE id) 0 id
     let r := toPick 9 s
     (areaAt s 0).job.state = jRunning ∧ (areaAt s 0).job.steps.head? = some (stepE id) ∧ (stepE id).len ≠ 0 ∧ (stepE id).ended = true
     ∧ (areaAt r 0).job.steps = [stepE id] ∧ jobRuns r 0 = true ∧ stepOk r 0 (stepE id) = true ∧ storesWf r)
    ∧ (let st := stepE fun x => { x with status := 2 }
       stepOk (toPick 9 (jobS st 2 id)) 0 st = false ∧ (st.status / 2) % 2 = 1 ∧ st.origin = false)
    ∧ (let st := stepE fun x => { x with status := 1 }
       let r := toPick 9 (jobS st 1 id)
       stepOk r 0 st = false ∧ ¬ (st.status / 2) % 2 = 1 ∧ st.clamp = false ∧ st.second = false ∧ (areaAt r 0).job.run < 2
       ∧ (suAt r suN).savedJoin.find? (fun y => y.1 == st.k) = some (0, 0, [], 0, 0x2000000800100000))
    ∧ (let st := stepE fun x => { x with status := 1 }
       let r := toPick 9 (jobS st 1 fun j => { j with run := 2 })
       stepOk r 0 st = false ∧ 2 ≤ (areaAt r 0).job.run ∧ (areaAt r 0).job.cycle < 3)
    ∧ (let st := stepE fun x => { x with status := 1 }
       let r := toPick 9 (jobS st 1 fun j => { j with run := 2, cycle := 3 })
       stepOk r 0 st = false ∧ 3 ≤ (areaAt r 0).job.cycle) := by and_intros <;> decide +kernel
/-- Meets the hypotheses of Obligations.DigestsRemapsAndResumes. -/
theorem witness_Digests :
    (let s := jobS (stepE id) 0 id
     storesWf s ∧ areaOfSite s suN = some 0 ∧ curStep s 0 = some (stepE id) ∧ (areaAt s 0).job.exact = false)
    ∧ (let s := jobS (stepE id) 0 fun j => { j with ras := 2, named1 := [.site 0] }
       (areaAt s 0).job.ras = 2 ∧ mergeUnits (areaAt s 0).job.named1 (areaAt s 0).job.named2 = [.site 0] ∧ recOf s 0 0x11 areaTarget = none
       ∧ s.ras.watch.length + 1 ≤ 1024 ∧ ([WatchUnit.site 1].contains (.site 0)) = false
       ∧ (areaAt s 0).job.remapAt + 90 * second = ({ s with up := 90 * second } : State).up ∧ storesWf s)
    ∧ (let s := jobS (stepE id) 0 fun j => { j with nextK := 0, resumeP := some 1000 }
       storesWf s ∧ (areaAt s 0).job.resumeP = some 1000 ∧ areaOfSite s suN = some 0 ∧ wHasSite (areaAt s 0).word suN = true ∧ siteFenced s suN = false
       ∧ (suAt s suN).seq.running = true ∧ (suAt s suN).savedJoin.find? (fun y => y.1 == 0) = some (0, 0, [], 0, 0x2000000800100000)) := by and_intros <;> decide +kernel

/-- The same job in exact mode, with i counted at the first site of the heddle. -/
def exactS (i : Nat) : State :=
  { jobS (stepE id) 0 (fun j => { j with exact := true }) with sw := [(1024, { (default : Switch) with exc := [(0, BitVec.ofNat 32 i)] })] }

/-- Whatever EXPECT holds, one of two counts differs from it. -/
theorem witness_ExactDiffers :
    let d := fun i => exactDigest (heddleOf suN) (heddleCounts (exactS i) (heddleOf suN))
    let want := exactDigest (heddleOf suN) (Config.expectOf ((reportSection (draftOf (exactS 0) 0).recs 3).getD []) (heddleOf suN) ((stepClass (exactS 0) 0 0).getD 0))
    (storesWf (exactS 1) ∧ (areaAt (exactS 1) 0).job.exact = true ∧ draftOf (exactS 1) 0 = draftOf (exactS 2) 0) ∧ (want ≠ d 1 ∨ want ≠ d 2) := by
  intro d want
  refine ⟨by decide +kernel, ?_⟩
  by_cases h : want = d 1
  · exact .inr (by rw [h]; decide +kernel)
  · exact .inl h

/-! ## Power and temperature -/

/-- After reset with other power values. -/
def pwrS (f : Power → Power) : State := { withArea id with pwr := f State.reset.pwr }

/-- Meets the hypotheses of Obligations.PowerIsMeasuredAndClamped. -/
theorem witness_PowerIsMeasured :
    (feedsPresent (pwrS id) = 2 ∧ 50 * (pwrS id).pwr.pmax.val + 1000 < 21001 ∧ (pwrS id).pwr.clamp = none ∧ feedsPresent (pwrS fun p => { p with presB := false }) = 1
     ∧ 63 < numRegions (pwrS id).member ∧ areaOfRegion (pwrS id) 63 = some 0 ∧ areaOfRegion State.reset 63 = none)
    ∧ (let s := pwrS fun p => { p with clamp := some 0, mean100us := 18000 }
       let r := runTo (msBoundary (s.now + (0 + milli - s.up))) s
       s.pwr.clamp = some 0 ∧ s.pwr.mean100us ≤ 50 * effInForce s ∧ areaList r = [0] ∧ jobRuns r 0 = true)
    ∧ (let s := pwrS fun p => { p with clamp := some 0, mean100us := 18001 }
       50 * effInForce s < s.pwr.mean100us)
    ∧ (let s := pwrS fun p => { p with mean1ms := 1000, outBand := 9 }
       6 * 1000 + 20000 < 100 * (max 1000 (railSum s 0) - min 1000 (railSum s 0)) ∧ 9 ≤ s.pwr.outBand ∧ s.pwr.mismatch = false)
    ∧ (let s := pwrS fun p => { p with mean1ms := 200, inBand := 9 }
       ¬ (6 * 200 + 20000 < 100 * (max 200 (railSum s 0) - min 200 (railSum s 0))) ∧ 9 ≤ s.pwr.inBand ∧ (pwrS id).pwr.inBand < 9 ∧ (pwrS id).pwr.outBand < 9) := by
  decide +kernel
/-- Meets the hypotheses of Obligations.FeedsCapsAndBudgets. -/
theorem witness_Feeds :
    (feedPresent (pwrS id) 0 = true ∧ feedPresent (pwrS id) 1 = true ∧ (let s := pwrS fun p => { p with mean1us := 20000 }
      50 * (min s.pwr.eff 220) < s.pwr.mean1us))
    ∧ feedPresent (pwrS fun p => { p with presA := false }) 0 = false
    ∧ (let s := pwrS fun p => { p with backAt := some 0, oneFeed := true }
       s.pwr.backAt = some 0 ∧ s.pwr.oneFeed = true)
    ∧ (let s := cmdS 0x0400 (leBytes 2 400 ++ leBytes 6 0) 0 2 (pwrS id)
       mbxGood s 0 0 0x0400 8 .device ∧ par (mbxAt s 0 0).cmd 2 6 = 0 ∧ par (mbxAt s 0 0).cmd 0 2 = 400 ∧ (shadowDue 4 (mbxTaken 0 0 s)).pwr.pmin.val ≤ 400 ∧ 400 ≤ (shadowDue 4 (mbxTaken 0 0 s)).pwr.pmax.val
       ∧ (shadowDue 4 (mbxTaken 0 0 (cmdS 0x0400 (leBytes 2 511 ++ leBytes 6 0) 0 2 (pwrS id)))).pwr.pmax.val < 511 ∧ mbxGood (cmdS 0x0400 (leBytes 2 511 ++ leBytes 6 0) 0 2 (pwrS id)) 0 0 0x0400 8 .device)
    ∧ mbxGood (cmdS 0x0401 [] 0 2 (pwrS id)) 0 0 0x0401 0 .device
    ∧ (let s := cmdS 0x0402 (leBytes 2 480 ++ leBytes 2 120 ++ leBytes 1 1 ++ leBytes 1 0 ++ leBytes 2 0 ++ leBytes 2 0) 0 2 (pwrS id)
       let c := (mbxAt s 0 0).cmd
       mbxGood s 0 0 0x0402 10 .device ∧ par c 4 1 = 1 ∧ par c 6 2 = 0 ∧ par c 0 2 ≠ 0 ∧ 1 * par c 2 2 ≤ par c 0 2 ∧ s.pwr.pmin.val ≤ par c 2 2 ∧ par c 5 1 < 1
       ∧ par c 8 2 = s.mod.rackPos)
    ∧ mbxGood (cmdS 0x0402 (List.replicate 8 0) 0 2 (pwrS id)) 0 0 0x0402 8 .device := by and_intros <;> decide +kernel

/-- After reset with one changed region 0. -/
def regS (f : Region → Region) : State := { withArea id with regions := [(0, f Region.reset)] }

/-- Meets the hypotheses of Obligations.BudgetsHoldoffAndDroops. -/
theorem witness_Budgets :
    (storesWf (withArea id)
     ∧ (let s : State := { regS (fun x => { x with est := [(0, 1000000000)], vstate := 1, on := true }) with pwr := (pwrS fun p => { p with eff := 0, power := 50000 }).pwr }
        storesWf s ∧ 640 * (50 * effInForce s) < predicted s)
     ∧ predicted (withArea id) + 640 * 400 < 640 * (50 * effInForce (withArea id))
     ∧ (let s := pwrS fun p => { p with eff := 0 }
        predicted s ≤ 640 * (50 * effInForce s) ∧ 640 * (50 * effInForce s) ≤ predicted s + 640 * 400))
    ∧ storesWf (runTo (msBoundary (withArea id).now) (withArea id))
    ∧ (let s := regS fun x => { x with drooping := some 0 }
       storesWf s ∧ 0 < numRegions s.member ∧ (regionAt s 0).drooping = some 0 ∧ (regionAt (withArea id) 0).drooping = none)
    ∧ (let s : State := { regS (fun x => { x with drooping := some 0 }) with mx := [(0, { (default : Mx) with macs := [macO] })] }
       powerRegion 0 = 0 ∧ (mxAt s 0).macs = [macO]) := by and_intros <;> decide +kernel

/-- A power group of three devices; this one has index 1 and coordinates if c. -/
def grp0 (c : Bool) : Group2 :=
  { (default : Group2) with budget := 480, floor := 120, n := 3, index := 1, list := [9, 0, 8], assign := 160, coord := c, given := [(0, 160), (1, 160), (2, 160)]
                            reports := [(0, { power := 800, slack := 50, lim := 400, applied := 160, at_ := 0 }), (2, { power := 800, slack := 0, lim := 400, applied := 160, at_ := 0 })] }

/-- The device in the group. -/
def grpS (g : Group2) : State := pwrS fun p => { p with grp := some g }

/-- Meets the hypotheses of Obligations.PowerGroupShares. -/
theorem witness_PowerGroup :
    (let s := grpS (grp0 false)
     s.pwr.grp = some (grp0 false) ∧ (grp0 false).coord = false ∧ (grp0 false).lost = false
     ∧ (let block := leBytes 1 1 ++ leBytes 2 9 ++ leBytes 13 0
        (grp0 false).list.findIdx? (fun x => x == fld block 1 2) = some 0 ∧ 0 ≠ (grp0 false).index ∧ block.length = 16 ∧ fld block 0 1 = 1)
     ∧ (let block := leBytes 1 2 ++ leBytes 2 0 ++ leBytes 5 150
        block.length = 8 ∧ fld block 0 1 = 2 ∧ fld block 1 2 = s.mod.rackPos))
    ∧ (let g : Group2 := { grp0 true with move := some (0, 160, 2, 165) }
       g.coord = true ∧ g.move = some (0, 160, 2, 165) ∧ 0 ≠ g.index ∧ (look default g.reports 0).applied = 160 ∧ 2 ≠ g.index)
    ∧ (let g := grp0 true
       let s := grpS g
       g.move = none ∧ g.sentAt = none ∧ leastSlack g ((List.range g.n).filter (groupPresent s g)) = some 2
       ∧ mostSlack g (((List.range g.n).filter (groupPresent s g)).filter (· != 2)) = some 0 ∧ 0 ≠ g.index
       ∧ ¬ ((look default g.reports 0).slack ≤ 0 + 8 ∨ 10 * 800 + 250 < 50 * 160 ∨ min 5 (min (160 - 120) (400 - 160)) = 0))
    ∧ (let g : Group2 := { grp0 false with index := 0 }
       g.coord = false ∧ groupPresent (grpS g) g g.index = true ∧ (List.range g.index).any (groupPresent (grpS g) g) = false) := by and_intros <;> decide +kernel
/-- Meets the hypotheses of Obligations.HeatCoolantAndShorts. -/
theorem witness_Heat :
    (let s := withArea id
     let v := fun (x : Int) => x + calEff s (68 + clockRegion (suOf 0))
     storesWf s ∧ sitePresent s.member (suOf 0) = true ∧ (look default s.pwr.diodes 0).bad = false ∧ v (-641) < -640 ∧ 2400 < v 2401
     ∧ 1760 ≤ v 1760 ∧ v 1760 ≤ 2400 ∧ (look default s.pwr.diodes 0).last ≠ v 1760 ∧ (regionAt s 0).tstate < 2
     ∧ v 1759 < 1760 ∧ 16 * (s.pwr.throt : Int) ≤ v 1759 
     ∧ areaOfRegion s 0 = some 0 ∧ hasJob s 0 = true ∧ (regionAt s 0).vstate ≠ 2)
    ∧ storesWf (regS fun x => { x with tstate := 2 })
    ∧ (let s := State.reset
       storesWf s ∧ (regionAt s 0).tstate = 0 ∧ envelopeOf s 0 = [] ∧ 1520 + calEff s 68 < 1760 ∧ 16 * (s.pwr.throt : Int) ≤ 1520 + calEff s 68)
    ∧ (let s := regS fun x => { x with throtAt := some 0, coolAt := some 0, tstate := 3 }
       let s : State := { s with fence := { s.fence with regions := [(0, 1)] } }
       storesWf s ∧ (regionAt s 0).throtAt = some 0 ∧ (regionAt s 0).coolAt = some 0 ∧ (regionAt s 0).tstate = 3 ∧ look 0 s.fence.regions 0 = 1)
    ∧ (regionAt (regS fun x => { x with vstate := 2 }) 0).vstate = 2 := by and_intros <;> decide +kernel

/-! ## Resets, bring-up, repair -/

/-- Meets the hypotheses of Obligations.ResetsClearAndKeep. -/
theorem witness_Resets :
    storesWf State.reset ∧ ({ State.reset with bru := { State.reset.bru with drst := true } } : State).bru.drst = true ∧ State.reset.bru.drst = false
    ∧ (let s : State := { State.reset with ports := [(1, { (default : Port) with up := true })] }
       storesWf s ∧ (portAt s 1).up = true ∧ (portAt s 0).up = false) := by and_intros <;> decide +kernel
/-- Meets the hypotheses of Obligations.BringUpReadiesTheDevice. -/
theorem witness_BringUp :
    bringUpDue State.reset = true ∧ State.reset.bru.stage = 0 ∧ (flashNewer State.reset).isSome = true
    ∧ bringUpDue { State.reset with bru := { State.reset.bru with stage := 1 } } = true
    ∧ bringUpDue { State.reset with bru := { State.reset.bru with stage := 2, drst := true } } = true
    ∧ flashNewer { State.reset with mod := { State.reset.mod with flash0 := default, flash1 := default } } = none
    ∧ bringUpDue { State.reset with bru := { State.reset.bru with stage := 9 } } = false := by decide +kernel

/-- A device-wide command without an area. -/
def devCmd (opc : Nat) (pars : List Byte) : State := cmdS opc pars 0 2 State.reset

/-- Meets the hypotheses of Obligations.BringUpReadiesTheDevice. -/
theorem witness_Selftest :
    (let s := devCmd 0x0500 (List.replicate 16 0)
     mbxGood s 0 0 0x0500 16 .both ∧ par (mbxAt s 0 0).cmd 0 1 = 0 ∧ fenceLocked s = false ∧ hdrFlags (mbxAt s 0 0).cmd % 4 = 2 ∧ jobTouches s (fun _ => true) = false)
    ∧ (let s := areaCmd 0x0500 (List.replicate 16 0) idleS
       mbxGood s 0 0 0x0500 16 .both ∧ areaNamed s (mbxAt s 0 0).cmd = true ∧ jobTouches s (fun q => wCovers (hdrArea (mbxAt s 0 0).cmd) q) = false)
    ∧ (let s : State := { cmdS 0x0500 (leBytes 8 1 ++ leBytes 8 0) 0 2 State.reset with stks := [(0, { (default : Stack) with mem := putBytes [] 0 img0 })] }
       let r := mbxTaken 0 0 s
       mbxGood s 0 0 0x0500 16 .device ∧ par (mbxAt s 0 0).cmd 0 1 = 1 ∧ par (mbxAt s 0 0).cmd 1 7 = 0 ∧ par (mbxAt s 0 0).cmd 8 8 = 0 ∧ anyJob s = false
       ∧ elasticRead 0 256 false r = (img0.take 256, 0, r) ∧ headerOk (img0.take 256) = true ∧ img0.length = dLen (img0.take 256)
       ∧ elasticRead 256 0 false r = (img0.drop 256, 0, r)) := by and_intros <;> decide +kernel
/-- Meets the hypotheses of Obligations.FenceAndRepairCommands. -/
theorem witness_FenceRead :
    (let s := devCmd 0x0501 (leBytes 4 0 ++ leBytes 4 (229376 - 2032) ++ leBytes 4 2032)
     let c := (mbxAt s 0 0).cmd
     (mbxAt s 0 0).state = 1 ∧ hdrOpcode c = 0x0501 ∧ 1 ≤ s.bru.stage ∧ mbxGoodHeader s 0 0 12 .device ∧ mbxWaits s .device c = false ∧ par c 1 3 = 0 ∧ par c 0 1 = 0
     ∧ par c 8 4 ≤ 2032 ∧ par c 4 4 + par c 8 4 ≤ 229376 ∧ sitePresent s.member (par c 4 4) = true)
    ∧ (let c := (mbxAt (devCmd 0x0501 (leBytes 4 1 ++ leBytes 4 0 ++ leBytes 4 64)) 0 0).cmd
       par c 0 1 = 1 ∧ par c 8 4 ≤ 64 ∧ par c 4 4 + par c 8 4 ≤ 64 ∧ 0 < numRegions State.reset.member ∧ stackPresent State.reset.member 0 = true)
    ∧ (let s : State := { State.reset with mod := { State.reset.mod with member := 2 } }
       let c := fun k first => (mbxAt (devCmd 0x0501 (leBytes 4 k ++ leBytes 4 first ++ leBytes 4 1)) 0 0).cmd
       par (c 0 229375) 8 4 = 1 ∧ sitePresent s.member 229375 = false ∧ numRegions s.member ≤ 63 ∧ stackPresent s.member (1023 / 32) = false)
    ∧ (let c := (mbxAt (devCmd 0x0501 (leBytes 4 2 ++ leBytes 4 0 ++ leBytes 4 1024)) 0 0).cmd
       par c 0 1 = 2 ∧ par c 8 4 ≤ 1024)
    ∧ par (mbxAt (devCmd 0x0501 (leBytes 4 3 ++ leBytes 8 0)) 0 0).cmd 0 1 = 3 ∧ 3 < par (mbxAt (devCmd 0x0501 (leBytes 4 4 ++ leBytes 8 0)) 0 0).cmd 0 1 := by
  and_intros <;> decide +kernel
/-- Meets the hypotheses of Obligations.FenceAndRepairCommands. -/
theorem witness_RepairSite :
    (let s := devCmd 0x0503 (leBytes 1 0 ++ leBytes 1 1 ++ leBytes 2 0 ++ leBytes 4 7)
     let c := (mbxAt s 0 0).cmd
     mbxGood s 0 0 0x0503 8 .device ∧ par c 0 1 = 0 ∧ par c 1 1 = 1 ∧ par c 2 2 = 0 ∧ sitePresent s.member (par c 4 4) = true ∧ fenceLocked s = false ∧ siteLive s 7 = false)
    ∧ (let s := devCmd 0x0503 (leBytes 1 1 ++ leBytes 1 0 ++ leBytes 2 0 ++ leBytes 4 7)
       mbxGood s 0 0 0x0503 8 .device ∧ par (mbxAt s 0 0).cmd 0 1 = 1 ∧ look 0 s.fence.sites 7 % 256 ≠ 0x01)
    ∧ fenceLocked { State.reset with sec := { State.reset.sec with lock := Tri.of 16 } } = true ∧ siteLive (withArea id) 7 = true := by and_intros <;> decide +kernel
/-- Meets the hypotheses of Obligations.FenceAndRepairCommands. -/
theorem witness_RepairChannel :
    (let s := devCmd 0x0504 (leBytes 1 0 ++ leBytes 1 0 ++ leBytes 1 31 ++ leBytes 1 31 ++ leBytes 4 0)
     let c := (mbxAt s 0 0).cmd
     mbxGood s 0 0 0x0504 8 .device ∧ par c 0 1 = 0 ∧ par c 1 1 ≤ 2 ∧ par c 4 4 = 0 ∧ par c 3 1 < 32 ∧ stackPresent s.member (par c 2 1) = true ∧ fenceLocked s = false
     ∧ optJob s (areaOfAtt s 31) = false)
    ∧ par (mbxAt (devCmd 0x0504 (leBytes 1 1 ++ leBytes 1 2 ++ leBytes 6 0)) 0 0).cmd 0 1 = 1 := by and_intros <;> decide +kernel

/-- REPAIR_ROW: OP, PPR, unit, sub-bank or channel, bank, row. -/
def rowCmd (op ppr u b bank row : Nat) : List Byte := leBytes 1 op ++ leBytes 1 ppr ++ leBytes 2 0 ++ leBytes 4 u ++ leBytes 1 b ++ leBytes 1 bank ++ leBytes 2 0 ++ leBytes 4 row

/-- Meets the hypotheses of Obligations.FenceAndRepairCommands. -/
theorem witness_RepairRow :
    (let s := devCmd 0x0502 (rowCmd 0 0 1 3 0 6143)
     let c := (mbxAt s 0 0).cmd
     mbxGood s 0 0 0x0502 16 .device ∧ par c 2 2 = 0 ∧ par c 10 2 = 0 ∧ par c 0 1 = 0 ∧ par c 1 1 = 0 ∧ par c 4 4 = 1 ∧ siteReach s 1 = true ∧ par c 8 1 ≤ 3
     ∧ par c 9 1 = 0 ∧ par c 12 4 ≤ 6143 ∧ siteLive s 1 = false ∧ (∀ e, e < 32 → remapVal (mmAt s 1) 3 e < 8192))
    ∧ siteLive (withArea id) 1 = true
    ∧ (let m : Mm := { (default : Mm) with remap := (List.range 32).map fun e => (e, { v := Tri.of (8192 + e), fact := false }) }
       ∀ e, e < 32 → 8192 ≤ remapVal m 0 e ∧ remapVal m 0 e % 8192 ≠ 6143)
    ∧ (let s := devCmd 0x0502 (rowCmd 1 0 31 31 63 15258)
       let c := (mbxAt s 0 0).cmd
       mbxGood s 0 0 0x0502 16 .device ∧ par c 0 1 = 1 ∧ stackPresent s.member (par c 4 4) = true ∧ par c 8 1 ≤ 31 ∧ par c 9 1 ≤ 63 ∧ par c 12 4 ≤ 15258
       ∧ optJob s (areaOfAtt s 31) = false ∧ ∀ e, e < 64 → bit (look default (stackAt s 31).remap (64 * 31 + e)).v.val 20 = false)
    ∧ par (mbxAt (devCmd 0x0502 (rowCmd 1 1 0 0 0 0)) 0 0).cmd 1 1 = 1
    ∧ (let k : Stack := { (default : Stack) with remap := (List.range 64).map fun e => (e, { v := Tri.of (2 ^ 20 + e), fact := false }) }
       ∀ e, e < 64 → bit (look default k.remap e).v.val 20 = true) := by and_intros <;> decide +kernel

/-! ## Recovery and skim -/

/-- An entry of the watch list. -/
def watch0 (u : WatchUnit) (recur : Nat) (ok : Bool) : Watch :=
  { u := u, steps := 0, code := 1, added := 0, lastTrig := 0, testedOk := ok, lastTest := 0, recur := recur }

/-- A state with one watched unit and adjustment steps. -/
def watchS (u : WatchUnit) (recur : Nat) (ok : Bool) (adj : List (WatchUnit × Nat)) (s : State) : State :=
  { s with ras := { s.ras with watch := [watch0 u recur ok], adjust := adj } }

/-- Meets the hypotheses of Obligations.WatchListScaldAndRisk. -/
theorem witness_Scald :
    (let s := areaCmd 0x0600 (leBytes 1 7 ++ leBytes 1 1 ++ leBytes 2 0 ++ leBytes 4 3600) idleS
     let c := (mbxAt s 0 0).cmd
     areaGood s 0 0 0x0600 8 ∧ par c 0 1 ≤ 7 ∧ par c 1 1 = 1 ∧ par c 2 2 = 0 ∧ 1 ≤ par c 4 4 ∧ par c 4 4 ≤ 3600 ∧ hasJob s 0 = false ∧ s.ras.watch.length + 5 * 1 ≤ 1024)
    ∧ (let s := areaCmd 0x0600 (leBytes 4 0 ++ leBytes 4 1) idleS
       areaGood s 0 0 0x0600 8 ∧ par (mbxAt s 0 0).cmd 1 1 = 0 ∧ fenceLocked s = false)
    ∧ areaGood (areaCmd 0x0600 (leBytes 4 0 ++ leBytes 4 1) (withArea id)) 0 0 0x0600 8
    ∧ (let s := areaCmd 0x0600 (leBytes 4 0 ++ leBytes 4 1) { idleS with sec := { idleS.sec with lock := Tri.of 16 } }
       areaGood s 0 0 0x0600 8 ∧ fenceLocked s = true)
    ∧ (let s := devCmd 0x0601 (leBytes 2 0 ++ leBytes 2 253 ++ leBytes 4 0)
       mbxGood s 0 0 0x0601 8 .device ∧ par (mbxAt s 0 0).cmd 2 2 = 253 ∧ par (mbxAt s 0 0).cmd 4 4 = 0) := by and_intros <;> decide +kernel
/-- Meets the hypotheses of Obligations.WatchListScaldAndRisk. -/
theorem witness_Watch :
    (let s := watchS (.site 0) 0 true [] idleS
     watchOf s (.site 0) = some (watch0 (.site 0) 0 true) ∧ watchPresent s (.site 0) = true ∧ testAllowed s (.site 0) = true ∧ (watch0 (.site 0) 0 true).testedOk = true)
    ∧ testAllowed (watchS (.site 0) 0 true [] (withArea id)) (.site 0) = false
    ∧ (let s := watchS (.link 0 3) 0 false [] idleS
       watchPresent s (.link 0 3) = true ∧ testAllowed s (.link 0 3) = true)
    ∧ (let s := watchS (.channel 31 31) 1 false [] idleS
       watchPresent s (.channel 31 31) = true ∧ testAllowed s (.channel 31 31) = true ∧ 0 < (watch0 (.channel 31 31) 1 false).recur ∧ adjustSteps s (.channel 31 31) < 2
       ∧ 2 ≤ adjustSteps (watchS (.channel 31 31) 1 false [(.channel 31 31, 2)] idleS) (.channel 31 31))
    ∧ (let s := watchS (.lane 31 15) 1 false [(.lane 31 15, 4)] idleS
       watchPresent s (.lane 31 15) = true ∧ 4 ≤ adjustSteps s (.lane 31 15))
    ∧ (let s : State := { watchS (.lane 0 15) 1 false [] idleS with sht := [(0, { (default : Shuttle) with lanes := [(15, { (default : Lane) with role := 15 })] })] }
       watchPresent s (.lane 0 15) = true ∧ (look default (shtAt s 0).lanes 15).role = 15 ∧ adjustSteps s (.lane 0 15) < 4) := by and_intros <;> decide +kernel
/-- Meets the hypotheses of Obligations.WatchListScaldAndRisk. -/
theorem witness_Risk : storesWf (withArea id) ∧ areaList (withArea id) = [0] ∧ hasJob (withArea id) 0 = true := by decide +kernel

/-- SKIM_PARTNER with one range of 128 bytes at DPA 0 staged at 4,096: device 5 over port 0. -/
def partnerCmd (op : Nat) : List Byte :=
  leBytes 1 op ++ leBytes 1 0 ++ leBytes 2 5 ++ leBytes 4 1 ++ leBytes 8 0 ++ leBytes 8 0 ++ leBytes 8 0 ++ leBytes 8 4096 ++ leBytes 8 128

/-- The area with a peer on port 0. -/
def peerS (feed : Nat) (g : AreaRegs → AreaRegs) : State :=
  { idleS with sht := [(0, { (default : Shuttle) with state := 3, peer := { (default : Peer) with hello := true, devid := 5, feed := feed } })], aregs := [(0, g AreaRegs.reset)] }

/-- Meets the hypotheses of Obligations.SkimsCopyAndSeal. -/
theorem witness_SkimPartner :
    (let s := areaCmd 0x0602 (partnerCmd 0) (peerS 1 id)
     let c := (mbxAt s 0 0).cmd
     areaGood s 0 0 0x0602 48 ∧ par c 0 1 = 0 ∧ par c 1 1 = 0 ∧ par c 2 2 = 5 ∧ par c 4 4 = 1 ∧ par c 8 8 < 2 ^ 41 ∧ par c 16 8 < 2 ^ 41 ∧ areaOfAtt s 32 = some 0 ∧ portPresent s.member 0 = true
     ∧ rangesOk s 0 (partnerRanges c 1) = true ∧ skimBusy s 0 = false ∧ (shtAt s 0).peer.hello = true ∧ (shtAt s 0).peer.devid = 5 ∧ feedShared s 1 = false)
    ∧ (let s := areaCmd 0x0602 (partnerCmd 0) (peerS 0 id)
       areaGood s 0 0 0x0602 48 ∧ feedShared s 0 = true ∧ (aregAt s 0).ovr = false ∧ (aregAt (peerS 0 fun g => { g with ovr := true }) 0).ovr = true)
    ∧ (shtAt idleS 0).peer.hello = false ∧ portPresent State.reset.member 32 = false
    ∧ areaGood (areaCmd 0x0602 (leBytes 1 0 ++ leBytes 1 32 ++ (partnerCmd 0).drop 2) idleS) 0 0 0x0602 48
    ∧ (let s := areaCmd 0x0602 (partnerCmd 1) idleS
       areaGood s 0 0 0x0602 (24 + 24 * 1) ∧ par (mbxAt s 0 0).cmd 0 1 = 1 ∧ skimBusy s 0 = false
       ∧ skimBusy (withArea fun a => { a with skim := { a.skim with state := 2 } }) 0 = true)
    ∧ (let s := areaCmd 0x0603 (leBytes 8 1) idleS
       areaGood s 0 0 0x0603 8 ∧ par (mbxAt s 0 0).cmd 1 7 = 0 ∧ par (mbxAt s 0 0).cmd 0 1 = 1 ∧ areaGood (areaCmd 0x0603 (leBytes 8 0) idleS) 0 0 0x0603 8)
    ∧ (let s := areaCmd 0x0604 (leBytes 2 0 ++ leBytes 2 5 ++ leBytes 4 0 ++ leBytes 8 4096 ++ leBytes 8 8192) { fabS id id with areas := idleS.areas }
       let c := (mbxAt s 0 0).cmd
       areaGood s 0 0 0x0604 24 ∧ par c 0 1 = 0 ∧ par c 1 1 = 0 ∧ par c 2 2 = 5 ∧ par c 4 4 = 0 ∧ par c 8 8 % 4096 = 0 ∧ par c 8 8 < 2 ^ 41 ∧ par c 16 8 < 2 ^ 41 ∧ s.remote = [] ∧ s.fab.rmas = [] ∧ s.fab.nextTag < 32768
       ∧ hasJob s 0 = false ∧ rtValid (rtAt s 5) = true ∧ 2 ≤ (shtAt s (rtPort (rtAt s 5))).state)
    ∧ areaGood (areaCmd 0x0604 (List.replicate 24 0) (withArea id)) 0 0 0x0604 24 := by and_intros <;> decide +kernel

/-- The copying skim of area 0, with one range of 128 bytes staged at 4,096, to buffer 0 at 0. -/
def skimS (f : Skim → Skim) : State :=
  { fabS id id with areas := [(0, { area0 with job := default, skim := f { Skim.reset with state := 3, ranges := [{ (default : SkimRange) with stage := 4096, len := 128 }] } })] }

/-- Meets the hypotheses of Obligations.SkimsCopyAndSeal. -/
theorem witness_Skims :
    (let s := skimS id
     let k := (areaAt s 0).skim
     k.state = 3 ∧ k.sealing = false ∧ k.outstanding < 64 ∧ 2 ≤ (shtAt s k.port).state ∧ k.began = false)
    ∧ (areaAt idleS 0).skim.state ≠ 3
    ∧ (let s := skimS fun k => { k with began := true }
       let k := (areaAt s 0).skim
       k.began = true ∧ k.ranges.length = 1 ∧ k.sent < 128 ∧ k.bufs.1 % 4096 = 0 ∧ elasticRead 4096 128 false s = (List.replicate 128 0, 0, s))
    ∧ (let s := skimS fun k => { k with began := true, sent := 128 }
       let k := (areaAt s 0).skim
       rangeCursor k.ranges k.sent = none ∧ k.outstanding = 0)
    ∧ (let s := skimS fun k => { k with sealing := true, outstanding := 1 }
       let k := (areaAt s 0).skim
       k.state = 3 ∧ 0 < k.outstanding ∧ k.sealing = true ∧ k.outstanding = 1) := by and_intros <;> decide +kernel

/-! ## Security, the sideband and the whole machine -/

/-- A command with a scatter list at host address 0 that names n bytes at 0x1000. -/
def listCmd (opc n : Nat) (pars : List Byte) : State :=
  modPort 0 (fun x => { x with mem := putBytes [] 0 (leBytes 8 0x1000 ++ leBytes 4 n ++ leBytes 4 1) }) (devCmd opc pars)

/-- A reset state with changed security state and a command. -/
def secCmd (opc : Nat) (pars : List Byte) (f : Sec → Sec) : State := let s := devCmd opc pars; { s with sec := f s.sec }

/-- Meets the hypotheses of Obligations.SecurityAndSideband. -/
theorem witness_SecurityCommands_keys :
    mbxGood (devCmd 0x0700 []) 0 0 0x0700 0 .device
    ∧ (let s := devCmd 0x0702 (List.replicate 32 7)
       mbxGood s 0 0 0x0702 32 .device ∧ bit s.sec.lock.val 2 = false
       ∧ bit (secCmd 0x0702 (List.replicate 32 7) fun c => { c with lock := Tri.of 4 }).sec.lock.val 2 = true)
    ∧ (let s := listCmd 0x0704 64 (leBytes 4 64 ++ leBytes 4 0 ++ leBytes 8 0)
       let c := (mbxAt s 0 0).cmd
       mbxGood s 0 0 0x0704 16 .device ∧ par c 4 4 = 0 ∧ (scatterList s 0 (par c 8 8) (par c 0 4)).2 = true) := by and_intros <;> decide +kernel
/-- Meets the hypotheses of Obligations.SecurityAndSideband. -/
theorem witness_SecurityCommands_attest :
    let s := listCmd 0x0701 4564 (List.replicate 32 9 ++ leBytes 4 4564 ++ leBytes 4 0 ++ leBytes 8 0)
    let c := (mbxAt s 0 0).cmd
    mbxGood s 0 0 0x0701 48 .device ∧ par c 32 4 = 4564 ∧ par c 36 4 = 0 ∧ (scatterList s 0 (par c 40 8) (par c 32 4)).2 = true ∧ canSign s.sec = true
    ∧ s.sec.bottom < 2 ^ 20 ∧ canSign { s.sec with bottom := 2 ^ 20, nextRdy := true } = true ∧ canSign { s.sec with bottom := 2 ^ 20, nextRdy := false } = false := by
  and_intros <;> decide +kernel
/-- Meets the hypotheses of Obligations.SecurityAndSideband. -/
theorem witness_SecurityCommands_debug :
    (let s := devCmd 0x0703 [0]
     mbxGood s 0 0 0x0703 1 .device ∧ par (mbxAt s 0 0).cmd 0 1 = 0 ∧ bit s.sec.lock.val 1 = false ∧ anyJob s = false)
    ∧ bit (secCmd 0x0703 [0] fun c => { c with lock := Tri.of 2 }).sec.lock.val 1 = true
    ∧ (let s : State := { devCmd 0x0703 [1] with areas := [(0, area0)] }
       mbxGood s 0 0 0x0703 1 .device ∧ par (mbxAt s 0 0).cmd 0 1 = 1 ∧ bit s.sec.lock.val 1 = false ∧ anyJob s = true)
    ∧ (let s := devCmd 0x0703 (1 :: List.replicate 67 0)
       mbxGood s 0 0 0x0703 68 .device ∧ s.sec.challenge = none)
    ∧ (let s := secCmd 0x0703 (1 :: List.replicate 67 0) fun c => { c with challenge := some (5, 0) }
       mbxGood s 0 0 0x0703 68 .device ∧ par (mbxAt s 0 0).cmd 0 1 = 1 ∧ anyJob s = false ∧ s.up ≤ 60 * second)
    ∧ (let s := secCmd 0x0703 [1] fun c => { c with challenge := some (5, 0) }
       let s : State := { s with up := 60 * second + 1 }
       mbxGood s 0 0 0x0703 1 .device ∧ 0 + 60 * second < s.up)
    ∧ (let s := devCmd 0x0703 [2]
       mbxGood s 0 0 0x0703 1 .device ∧ par (mbxAt s 0 0).cmd 0 1 = 2) := by and_intros <;> decide +kernel
/-- Meets the hypotheses of Obligations.SecurityAndSideband. -/
theorem witness_SidebandAndSamples :
    (let s : State := { suS 0 (fun u => { u with samples := [7, 8] }) with mod := { State.reset.mod with pmon := [(0, { (default : Pmon) with sel := 0x80000000 }), (1, { (default : Pmon) with sel := 0x80000001 })] } }
     siteReach s 1026 = true ∧ kindOf 1026 = .su ∧ TabWf default s.mod.pmon = true ∧ bit 0x80000000 31 = true ∧ bits 0x80000000 13 0 = heddleOf 1026
     ∧ (look default s.mod.pmon 0).next < 64 ∧ (suAt s 1026).samples.length ≤ 64 ∧ bits 0x80000001 13 0 ≠ heddleOf 1026)
    ∧ State.reset.sec.challenge = none ∧ (secCmd 0x0703 [1] fun c => { c with challenge := some (5, 0) }).sec.challenge = some (5, 0) := by and_intros <;> decide +kernel
/-- Meets the hypotheses of Obligations.AbsentUnitsStop. -/
theorem witness_AbsentUnitsStop :
    sitePresent State.reset.member 229376 = false ∧ sitePresent State.reset.member 0 = true ∧ kindOf 0 ≠ .sf ∧ kindOf 0 ≠ .su ∧ sitePresent State.reset.member 513 = true ∧ kindOf 513 ≠ .mx
    ∧ stackPresent State.reset.member 32 = false ∧ portPresent State.reset.member 32 = false ∧ numRegions State.reset.member ≤ 64 := by and_intros <;> decide +kernel
/-- Meets the hypotheses of Obligations.StepsKeepStoresCanonical. -/
theorem witness_StepsKeepStoresCanonical :
    storesWf (withArea id) ∧ ends (step { withArea id with pending := [.nop 0 0] }) (fun _ => true) = true := by and_intros <;> decide +kernel
/-- Meets the hypotheses of Obligations.StepsKeepStoresCanonical. -/
theorem witness_StepsKeepMemoriesCanonical : storesWf { withArea id with pending := [.nop 0 0] } ∧ memoriesWf { withArea id with pending := [.nop 0 0] } := by
  refine ⟨by decide +kernel, fun n => ?_⟩
  exact ⟨rfl, rfl, rfl, rfl, rfl, rfl⟩
/-- Meets the hypotheses of Obligations.StepsKeepAreasApart. -/
theorem witness_StepsKeepAreasApart : areasApart { withArea id with pending := [.nop 0 0] } := by
  have e : ∀ a, areaAt (withArea id) a = if a = 0 then area0 else Area.reset := fun a => rfl
  refine ⟨by decide +kernel, fun a h => ?_⟩
  by_cases ha : a = 0
  · subst ha
    refine ⟨by decide +kernel, by decide +kernel, fun b hb hne => ?_⟩
    change (areaAt (withArea id) b).defined = true at hb
    rw [e, if_neg hne] at hb
    exact absurd hb (by decide)
  · change (areaAt (withArea id) a).defined = true at h
    rw [e, if_neg ha] at h
    exact absurd h (by decide)

/-! ## Ill-formed commands: one for each check -/

theorem test_ill_formed_area : Instr.wf (.warmLoadComplete 16) = false := by decide
theorem test_ill_formed_att : Instr.wf (.creditReturn 65 0) = false := by decide
theorem test_ill_formed_bank : Instr.wf (.accQueueServe 0 16) = false := by decide
theorem test_ill_formed_bar : Instr.wf (.registerWrite 0 1 0 4 0) = false := by decide
theorem test_ill_formed_block : Instr.wf (.groupReportReceive (List.replicate 33 0) true) = false := by decide
theorem test_ill_formed_byte : Instr.wf (.skimWriteAnswer 0 256) = false := by decide
theorem test_ill_formed_cal : Instr.wf (.calUserWrite 0 100 0) = false := by decide
theorem test_ill_formed_channel : Instr.wf (.hbmCaPar 0 32) = false := by decide
theorem test_ill_formed_device : Instr.wf (.fabRouteWrite 0 4096 0) = false := by decide
theorem test_ill_formed_dpa : Instr.wf (.elasticStackAccess (2 ^ 41) 4 none) = false := by decide
theorem test_ill_formed_exchange : Instr.wf (.fbPageSend 65536 0) = false := by decide
theorem test_ill_formed_feed : Instr.wf (.feedLoss 2) = false := by decide
theorem test_ill_formed_frame : Instr.wf (.routedFrame (List.replicate 8193 0)) = false := by
  simp only [Instr.wf, isFrame, List.length_replicate]; decide
theorem test_ill_formed_half : Instr.wf (.rmaTimeout 65536) = false := by decide
theorem test_ill_formed_heddle : Instr.wf (.fillSlot 0 14336) = false := by decide
theorem test_ill_formed_lane : Instr.wf (.laneFail 0 16) = false := by decide
theorem test_ill_formed_length : Instr.wf (.elasticStackAccess 0 (2 ^ 30 + 1) none) = false := by decide
theorem test_ill_formed_loop : Instr.wf (.creditReturn 0 7) = false := by decide
theorem test_ill_formed_mailbox : Instr.wf (.nop 0 8) = false := by decide
theorem test_ill_formed_margin : Instr.wf (.hbmTrainStep 0 32 0 true) = false := by decide
theorem test_ill_formed_offset : Instr.wf (.registerWrite 0 0 (2 ^ 32) 4 0) = false := by decide
theorem test_ill_formed_port : Instr.wf (.nop 2 0) = false := by decide
theorem test_ill_formed_portOf : Instr.wf (.weaveEntryExec 0 5) = false := by decide
theorem test_ill_formed_pos : Instr.wf (.tokenTableEmit 0 16) = false := by decide
theorem test_ill_formed_region : Instr.wf (.droopAlarm 64) = false := by decide
theorem test_ill_formed_shuttle : Instr.wf (.slotTake 32) = false := by decide
theorem test_ill_formed_site : Instr.wf (.mac 229376 0) = false := by decide
theorem test_ill_formed_size : Instr.wf (.registerWrite 0 0 0 3 0) = false := by decide
theorem test_ill_formed_stack : Instr.wf (.hbmRequest 32) = false := by decide
theorem test_ill_formed_stage : Instr.wf (.bringupStageTimeout 0) = false := by decide
theorem test_ill_formed_sub : Instr.wf (.mmScrub 0 4) = false := by decide
theorem test_ill_formed_sums : Instr.wf (.macBlockEntry 0 (List.replicate 18 0)) = false := by decide
theorem test_ill_formed_window : Instr.wf (.idxDataRead 0 4) = false := by decide
theorem test_ill_formed_word : Instr.wf (.secLockWrite 0 (2 ^ 32)) = false := by decide
theorem test_ill_formed_word64 : Instr.wf (.idxDataWrite 0 0 (2 ^ 64)) = false := by decide
theorem test_ill_formed_optWindow : Instr.wf (.mmPwrRequest (some 4) 0 0) = false := by decide
theorem test_ill_formed_optWord : Instr.wf (.idxAccessTimeout 0 (some (2 ^ 64))) = false := by decide
theorem test_ill_formed_upset : Instr.wf (.flitArrival 0 0 ⟨[8], [], false⟩) = false := by decide
theorem test_ill_formed_codeword : Instr.wf (.codewordDecode 0 ⟨0, 16, 0, 0, false, false, false⟩) = false := by decide
theorem test_ill_formed_train : Instr.wf (.portTrained 0 ⟨16, 0, []⟩) = false := by decide
theorem test_ill_formed_rxFrame : Instr.wf (.pickHeaderReceive 0 ⟨0, some [], []⟩) = false := by decide
theorem test_ill_formed_rxSlot : Instr.wf (.pickHeaderReceive 0 ⟨0, none, [(14, 0)]⟩) = false := by decide
theorem test_ill_formed_failure : Instr.wf (.regionReturn 0 ⟨true, [⟨0, 0, false, 16, false⟩]⟩) = false := by decide
theorem test_ill_formed_bringUp : Instr.wf (.bringUp ⟨[64], [], [], [], [], [], [], false, [], 0⟩) = false := by decide
theorem test_ill_formed_training : Instr.wf (.bringUp ⟨[], [], [], [⟨0, 0, some 3, 0⟩], [], [], [], false, [], 0⟩) = false := by decide
theorem test_ill_formed_test : Instr.wf (.selftestTest 0 0 ⟨[], [], [64], 0⟩) = false := by decide
theorem test_ill_formed_unit : Instr.wf (.watchClear (.link 0 4)) = false := by decide
theorem test_ill_formed_sample : Instr.wf (.regulatorSample ⟨[(1, 0, 0, 0), (1, 0, 0, 0)], 0, 0, 0, 0, 0, 0⟩) = false := by decide
theorem test_ill_formed_energy : Instr.wf (.energyShare ⟨0, List.replicate 17 0, 0, [], 0, []⟩) = false := by decide
theorem test_ill_formed_tri : Instr.wf (.triplicatedRead (.owned 2)) = false := by decide
theorem test_ill_formed_data : Instr.wf (.elasticStackAccess 0 4 (some (List.replicate (2 ^ 30 + 1) 0))) = false := by
  simp only [Instr.wf, isOptData, List.length_replicate]; decide
theorem test_well_formed : Instr.wf (.nop 1 7) = true ∧ Instr.wf (.mac 229375 0) = true ∧ Instr.wf (.macBlockEntry 0 (List.replicate 17 0)) = true := by decide

/-! ## Values: published check values and worked numbers of the formats -/

/-- The ASCII digits 1 to 9. -/
def digits : List Byte := [0x31, 0x32, 0x33, 0x34, 0x35, 0x36, 0x37, 0x38, 0x39]

/-- The published check value of CRC-32C over the digits. -/
theorem test_crc32c : crc32c digits = 0xE3069283 := by decide +kernel
/-- The published check value of CRC-64/XZ, the value R320 itself gives. -/
theorem test_crc64 : crc64 digits = 0x995DC9BBDF1939FA := by decide +kernel
/-- The published check value of the SMBus CRC-8. -/
theorem test_pec : pec digits = 0xF4 := by decide +kernel
/-- The first bytes of the published SHA-256 digest of "abc". -/
theorem test_sha256 : (sha256 [0x61, 0x62, 0x63]).take 4 = [0xBA, 0x78, 0x16, 0xBF] := by decide +kernel
/-- FP32: 1.5 + 2.25 = 3.75; 3 times 0.5 is 1.5; the square root of 9 is 3; 1 / 4 within an ulp. -/
theorem test_fp32 : fAdd 0x3FC00000 0x40100000 = 0x40700000 ∧ fMul 0x40400000 0x3F000000 = 0x3FC00000 ∧ fSqrt 0x41100000 = 0x40400000 := by decide +kernel
/-- FP32 ties go to even: 1 + 2^-24 is 1, and 1 + 3 * 2^-24 is 1 + 2^-22. -/
theorem test_fp32_ties : fAdd 0x3F800000 0x33800000 = 0x3F800000 ∧ fAdd 0x3F800000 0x34400000 = 0x3F800002 := by decide +kernel
/-- FP8 E4M3: 448 is the largest code 0x7E; beyond it the result is saturated or NaN (R53). -/
theorem test_e4m3 : (convert 3 0 false 0 (.fin false 448 0)).1 = 0x7E ∧ (convert 3 0 false 0 (.fin false 4096 0)).1 = 0x7E ∧ (convert 3 0 true 0 (.fin false 4096 0)).1 = 0x7F := by decide +kernel
/-- FP4 E2M1: 6 is 0x7, minus one half is 0x9. -/
theorem test_e2m1 : (convert 7 0 false 0 (.fin false 6 0)).1 = 0x7 ∧ (convert 7 0 false 0 (.fin true 1 (-1))).1 = 0x9 := by decide +kernel
/-- Site, heddle and position numbers (R13, R15): position 5 of heddle 129 is column 5, row 5. -/
theorem test_site : siteOf 129 5 = (4 + 1) * 512 + 4 + 1 ∧ heddleOf ((4 + 1) * 512 + 4 + 1) = 129 := by decide +kernel

end Sys2Proof.Tests
end

section
/-! R24, R25: every step keeps the defined areas valid and apart (O60).

A command other than AREA_CREATE and AREA_CHANGE defines no area and gives none another word: from s to t it keeps the areas,
AreasKept s t, and what keeps the areas keeps them apart. AreasKept is a preorder, so each function of the model has one lemma,
that of its parts in their order; a lemma takes AreasKept s t, of the state before, and gives it of the state after. AREA_CREATE
and AREA_CHANGE check the word they give an area, which is what areasApart needs.

The many short proofs are elaborated in turn: side by side they ask for more threads than the check's memory limit has stacks for. -/
namespace Sys2Proof.Machine
set_option Elab.async false

/-- The defined areas of t are defined in s with the same words, on the same member, in a store that is canonical where that of s is. -/
structure AreasKept (s t : State) : Prop where
  member : t.member = s.member
  wf : TabWf Area.reset s.areas = true → TabWf Area.reset t.areas = true
  area : ∀ a, (areaAt t a).defined = true → (areaAt s a).defined = true ∧ (areaAt t a).word = (areaAt s a).word

theorem AreasKept.refl (s : State) : AreasKept s s := ⟨rfl, id, fun _ h => ⟨h, rfl⟩⟩

theorem AreasKept.trans {r s t : State} (h : AreasKept r s) (k : AreasKept s t) : AreasKept r t :=
  ⟨k.member.trans h.member, k.wf ∘ h.wf, fun a ha =>
    have ⟨h1, e1⟩ := k.area a ha
    have ⟨h2, e2⟩ := h.area a h1
    ⟨h2, e1.trans e2⟩⟩

/-- R24, R25: a command that keeps the areas keeps them valid and apart. -/
theorem AreasKept.areasApart {s t : State} (h : AreasKept s t) (hs : areasApart s) : areasApart t := by
  obtain ⟨hwf, hs⟩ := hs
  refine ⟨h.wf hwf, fun a ha => ?_⟩
  obtain ⟨hda, ea⟩ := h.area a ha
  obtain ⟨hn, hv, hd⟩ := hs a hda
  rw [ea, h.member]
  refine ⟨hn, hv, fun b hb hne r hr => ?_⟩
  obtain ⟨hdb, eb⟩ := h.area b hb
  rw [eb]
  exact hd b hdb hne r hr

section
variable {s t : State}

/-! ## The relation -/

theorem AreasKept.frame {r : State} (h : AreasKept s t) (ha : r.areas = t.areas := by rfl)
    (hm : r.mod.member = t.mod.member := by rfl) : AreasKept s r :=
  ⟨hm.trans h.member, fun hs => ha ▸ h.wf hs, fun a hr => by
    have e : areaAt r a = areaAt t a := by simp only [areaAt, ha]
    rw [e] at hr ⊢
    exact h.area a hr⟩

theorem AreasKept.ite {c : Prop} [Decidable c] {a b : State} (ha : AreasKept s a) (hb : AreasKept s b) : AreasKept s (if c then a else b) := by
  split
  · exact ha
  · exact hb

theorem AreasKept.pair1 {α : Type} {x : α} (h : AreasKept s t) : AreasKept s (t, x).1 := h
theorem AreasKept.pair2 {α : Type} {x : α} (h : AreasKept s t) : AreasKept s (x, t).2 := h
theorem AreasKept.pair22 {α β : Type} {x : α} {y : β} (h : AreasKept s t) : AreasKept s (x, y, t).2.2 := h

theorem AreasKept.ite1 {α : Type} {c : Prop} [Decidable c] {a b : State × α} (ha : AreasKept s a.1) (hb : AreasKept s b.1) :
    AreasKept s (if c then a else b).1 := by
  split
  · exact ha
  · exact hb

theorem AreasKept.ite2 {α : Type} {c : Prop} [Decidable c] {a b : α × State} (ha : AreasKept s a.2) (hb : AreasKept s b.2) :
    AreasKept s (if c then a else b).2 := by
  split
  · exact ha
  · exact hb

theorem AreasKept.ite22 {α β : Type} {c : Prop} [Decidable c] {a b : α × β × State} (ha : AreasKept s a.2.2) (hb : AreasKept s b.2.2) :
    AreasKept s (if c then a else b).2.2 := by
  split
  · exact ha
  · exact hb

theorem AreasKept.modArea {i : Nat} {g : Area → Area} (h : AreasKept s t)
    (hg : ∀ x, (g x).defined = true → x.defined = true ∧ (g x).word = x.word := by exact fun _ hx => ⟨hx, rfl⟩) : AreasKept s (modArea i g t) := by
  refine ⟨h.member, fun hs => tabWf_alter _ _ _ _ (h.wf hs), fun a ha => ?_⟩
  by_cases e : a = i
  · subst e
    rw [areaAt_modArea_self] at ha ⊢
    obtain ⟨hd, hw⟩ := hg _ ha
    obtain ⟨hd', hw'⟩ := h.area a hd
    exact ⟨hd', hw.trans hw'⟩
  · rw [areaAt_modArea_ne _ _ _ _ e] at ha ⊢
    exact h.area a ha

theorem AreasKept.each {α : Type} {l : List α} {f : α → State → State} (h : AreasKept s t)
    (hf : ∀ x q, AreasKept s q → AreasKept s (f x q)) : AreasKept s (each l f t) := by
  induction l generalizing t with
  | nil => exact h
  | cons x l ih => exact ih (hf x t h)

/-- A fold keeps the areas of a state it carries where each of its steps does. -/
theorem AreasKept.foldl {α β : Type} {l : List α} {f : β → α → β} (v : β → State) {b : β} (h : AreasKept s (v b))
    (hf : ∀ b x, AreasKept s (v b) → AreasKept s (v (f b x))) : AreasKept s (v (l.foldl f b)) := by
  induction l generalizing b with
  | nil => exact h
  | cons x l ih => exact ih (hf b x h)

/-- As AreasKept, of every state in which a command may end. -/
def OutKept (s : State) (o : Out) : Prop := ∀ t, o = .next t → AreasKept s t

theorem OutKept.next (h : AreasKept s t) : OutKept s (.next t) := fun _ e => by cases e; exact h
theorem OutKept.fault {x : Fault} : OutKept s (.fault x) := fun _ e => by cases e
theorem OutKept.refused {x : Refusal} : OutKept s (.refused x) := fun _ e => by cases e
theorem OutKept.ite {c : Prop} [Decidable c] {a b : Out} (ha : OutKept s a) (hb : OutKept s b) : OutKept s (if c then a else b) := by
  split
  · exact ha
  · exact hb

/-! ## What functions on the state keep -/

/-! ### The functions of Sys2Proof/Machine/Ops.lean -/

theorem AreasKept.modPort {i : Nat} {g : Port → Port} (h : AreasKept s t) : AreasKept s (modPort i g t) := h.frame

theorem AreasKept.modWin {i : Nat} {g : Window → Window} (h : AreasKept s t) : AreasKept s (modWin i g t) := h.frame

theorem AreasKept.modAreg {i : Nat} {g : AreaRegs → AreaRegs} (h : AreasKept s t) : AreasKept s (modAreg i g t) := h.frame

theorem AreasKept.modSw {i : Nat} {g : Switch → Switch} (h : AreasKept s t) : AreasKept s (modSw i g t) := h.frame

theorem AreasKept.modMm {i : Nat} {g : Mm → Mm} (h : AreasKept s t) : AreasKept s (modMm i g t) := h.frame

theorem AreasKept.modMx {i : Nat} {g : Mx → Mx} (h : AreasKept s t) : AreasKept s (modMx i g t) := h.frame

theorem AreasKept.modSf {i : Nat} {g : Sf → Sf} (h : AreasKept s t) : AreasKept s (modSf i g t) := h.frame

theorem AreasKept.modSu {i : Nat} {g : Su → Su} (h : AreasKept s t) : AreasKept s (modSu i g t) := h.frame

theorem AreasKept.modAtt {i : Nat} {g : Attach → Attach} (h : AreasKept s t) : AreasKept s (modAtt i g t) := h.frame

theorem AreasKept.modStack {i : Nat} {g : Stack → Stack} (h : AreasKept s t) : AreasKept s (modStack i g t) := h.frame

theorem AreasKept.modSht {i : Nat} {g : Shuttle → Shuttle} (h : AreasKept s t) : AreasKept s (modSht i g t) := h.frame

theorem AreasKept.modRegion {i : Nat} {g : Region → Region} (h : AreasKept s t) : AreasKept s (modRegion i g t) := h.frame

theorem AreasKept.onlyIf {c : Bool} {f : State → State}
    (h : AreasKept s t) (hf : ∀ q, AreasKept s q → AreasKept s (f q)) : AreasKept s (onlyIf c f t) :=
  .ite (hf _ h) h

theorem AreasKept.dated {n : Nat} {f : State → State} (h : AreasKept s t) (hf : ∀ q, AreasKept s q → AreasKept s (f q)) : AreasKept s (dated n f t) :=
  (hf { t with now := n } h.frame).frame

theorem AreasKept.freshValue (h : AreasKept s t) : AreasKept s (freshValue t).2 := h.frame.pair2

theorem AreasKept.modCurStep {a : Nat} {f : Step → Step} (h : AreasKept s t) : AreasKept s (modCurStep a f t) := h.modArea

theorem AreasKept.count {code unit n : Nat} (h : AreasKept s t) : AreasKept s (count code unit n t) := h.frame

theorem AreasKept.msix {p v : Nat} (h : AreasKept s t) : AreasKept s (msix p v t) := h.modPort

theorem AreasKept.pushRecord {code step draft : Nat} {r : Report349} {p : Nat} (h : AreasKept s t) : AreasKept s (pushRecord code step draft r p t) :=
  .ite h (.ite h.modPort.count (.ite h.modPort h.modPort.msix))

theorem AreasKept.writeRecord {code : Nat} {r : Report349} (h : AreasKept s t) : AreasKept s (writeRecord code r t) :=
  h.each (fun _ _ hq => hq.pushRecord)

theorem AreasKept.heddleStatus {h' b : Nat} (h : AreasKept s t) : AreasKept s (heddleStatus h' b t) := h.modSu

theorem AreasKept.failStep {code : Nat} {r : Report349} (h : AreasKept s t) : AreasKept s (failStep code r t) := by
  unfold Machine.failStep
  split
  · exact h
  · refine .ite h ?_
    extract_lets +onlyGivenNames s1
    have h1 : AreasKept s s1 := h.modCurStep
    split
    · exact h1.heddleStatus
    · exact h1

theorem AreasKept.noteSour {a h' : Option Nat} (h : AreasKept s t) : AreasKept s (noteSour a h' t) := by
  unfold Machine.noteSour
  split
  · exact h
  · extract_lets +onlyGivenNames s1
    have h1 : AreasKept s s1 := h.modCurStep
    split
    · exact h1.heddleStatus
    · exact h1

theorem AreasKept.noteStoredSour {a : Option Nat} {unit grain : Nat} (h : AreasKept s t) : AreasKept s (noteStoredSour a unit grain t) := by
  unfold Machine.noteStoredSour
  split
  · exact h
  · exact h.modCurStep

theorem AreasKept.haltArea {r : Report349} (h : AreasKept s t) : AreasKept s (haltArea r t) := by
  unfold Machine.haltArea
  split
  · exact h
  · exact .ite h.modArea h

theorem AreasKept.refreshPins (h : AreasKept s t) : AreasKept s (refreshPins t) := h.frame

theorem AreasKept.quiesce (h : AreasKept s t) : AreasKept s (quiesce t) := h.frame.refreshPins

theorem AreasKept.mbxComplete {p m st detail : Nat} {rsp : List Byte} (h : AreasKept s t) : AreasKept s (mbxComplete p m st detail rsp t) :=
  .ite h h.modPort.msix

theorem AreasKept.skimFailRecord {a cause : Nat} (h : AreasKept s t) : AreasKept s (skimFailRecord a cause t) := h.count.writeRecord

theorem AreasKept.clearArea {a : Nat} (h : AreasKept s t) : AreasKept s (clearArea a t) := h.frame

theorem AreasKept.dropRecords {a : Nat} (h : AreasKept s t) : AreasKept s (dropRecords a t) := by
  unfold Machine.dropRecords
  extract_lets +onlyGivenNames w s1
  have h1 : AreasKept s s1 := h.modArea
  exact h1.frame

theorem AreasKept.endJob {a : Nat} (h : AreasKept s t) : AreasKept s (endJob a t) := by
  unfold Machine.endJob
  extract_lets +onlyGivenNames skimming s1
  have h1 : AreasKept s s1 := by
    unfold s1
    split
    · exact h.mbxComplete
    · exact h
  exact .ite h1.clearArea.modArea.skimFailRecord h1.clearArea.modArea

theorem AreasKept.endJobOf {a : Option Nat} (h : AreasKept s t) : AreasKept s (endJobOf a t) := by
  unfold Machine.endJobOf
  split
  · exact .ite h.endJob h
  · exact h

theorem AreasKept.watchAdd {u : WatchUnit} {code : Nat}
    (h : AreasKept s t) : AreasKept s (watchAdd u code t) := .ite h.frame (.ite h.count h.frame.count)

theorem AreasKept.watchTrigger {code n : Nat} {u : WatchUnit}
    (h : AreasKept s t) : AreasKept s (watchTrigger code n u t) := .ite h.frame.watchAdd h.frame

theorem AreasKept.riskEvent {code region : Nat} (h : AreasKept s t) : AreasKept s (riskEvent code region t) := h.frame

theorem AreasKept.report {code : Nat} {r : Report349} (h : AreasKept s t) : AreasKept s (report code r t) := by
  unfold Machine.report
  extract_lets +onlyGivenNames s1
  have h1 : AreasKept s s1 := h.count
  extract_lets +onlyGivenNames s2
  have h2 : AreasKept s s2 := .ite h1.writeRecord h1
  exact .ite h2.failStep (.ite h2.haltArea (.ite h2.endJobOf (.ite h2.quiesce h2)))

theorem AreasKept.reportSite {code n : Nat} (h : AreasKept s t) : AreasKept s (reportSite code n t) := h.report

theorem AreasKept.reportProg {code n paddr : Nat} (h : AreasKept s t) : AreasKept s (reportProg code n paddr t) := h.report

theorem AreasKept.reportUnit {code unit : Nat} (h : AreasKept s t) : AreasKept s (reportUnit code unit t) := h.report

theorem AreasKept.reportArea {code a : Nat} (h : AreasKept s t) : AreasKept s (reportArea code a t) := h.report

theorem AreasKept.rampCheck {t' h' : Nat} (h : AreasKept s t) : AreasKept s (rampCheck t' h' t) := by
  unfold Machine.rampCheck
  split
  · exact h
  · refine .ite h ?_
    extract_lets +onlyGivenNames base
    split
    · exact h
    · exact h.modCurStep.dated (fun _ hq => hq.report)

theorem AreasKept.emitSent {x : Sent} (h : AreasKept s t) : AreasKept s (emitSent x t) := h.frame

theorem AreasKept.guardUnit {c : Bool} {f : State → State}
    (h : AreasKept s t) (hf : ∀ q, AreasKept s q → AreasKept s (f q)) : OutKept s (guardUnit c f t) :=
  .ite (.next (hf _ h)) (.fault)

theorem AreasKept.onSite {k : SiteKind} {n : Nat} {f : State → State}
    (h : AreasKept s t) (hf : ∀ q, AreasKept s q → AreasKept s (f q)) : OutKept s (onSite k n f t) :=
  .ite (.ite (.next (hf _ h)) (.refused)) (.fault)

theorem AreasKept.atSite {n : Nat} {f : State → State} (h : AreasKept s t) (hf : ∀ q, AreasKept s q → AreasKept s (f q)) : OutKept s (atSite n f t) :=
  h.guardUnit (fun _ hq => hf _ hq)

theorem AreasKept.atStack {k : Nat} {f : State → State}
    (h : AreasKept s t) (hf : ∀ q, AreasKept s q → AreasKept s (f q)) : OutKept s (atStack k f t) :=
  h.guardUnit (fun _ hq => hf _ hq)

theorem AreasKept.atShuttle {p : Nat} {f : State → State}
    (h : AreasKept s t) (hf : ∀ q, AreasKept s q → AreasKept s (f q)) : OutKept s (atShuttle p f t) :=
  h.guardUnit (fun _ hq => hf _ hq)

theorem AreasKept.atRegion {r : Nat} {f : State → State}
    (h : AreasKept s t) (hf : ∀ q, AreasKept s q → AreasKept s (f q)) : OutKept s (atRegion r f t) :=
  h.guardUnit (fun _ hq => hf _ hq)

theorem AreasKept.atAtt {a : Nat} {f : State → State} (h : AreasKept s t) (hf : ∀ q, AreasKept s q → AreasKept s (f q)) : OutKept s (atAtt a f t) :=
  h.guardUnit (fun _ hq => hf _ hq)

theorem AreasKept.atArea {a : Nat} {f : State → State} (h : AreasKept s t) (hf : ∀ q, AreasKept s q → AreasKept s (f q)) : OutKept s (atArea a f t) :=
  h.guardUnit (fun _ hq => hf _ hq)

theorem AreasKept.atPort {p : Nat} {f : State → State} (h : AreasKept s t) (hf : ∀ q, AreasKept s q → AreasKept s (f q)) : OutKept s (atPort p f t) :=
  h.guardUnit (fun _ hq => hf _ hq)

/-! ### The functions of Sys2Proof/Machine/Clock.lean -/

theorem AreasKept.excUp {n i k : Nat} (h : AreasKept s t) : AreasKept s (excUp n i k t) := h.modSw

theorem AreasKept.inject {n t' : Nat} {f : Flit} (h : AreasKept s t) : AreasKept s (inject n t' f t) := h.modSw

theorem AreasKept.spEmit {u n : Nat} {o : SpOp} (h : AreasKept s t) : AreasKept s (spEmit u n o t) :=
  .ite (((h.onlyIf (fun _ hq => hq.reportProg)).onlyIf (fun _ hq => hq.modMx)).inject) h

theorem AreasKept.spClock {u n : Nat} (h : AreasKept s t) : AreasKept s (spClock u n t) := by
  unfold Machine.spClock
  split
  · exact h
  · exact .ite h (h.spEmit.onlyIf (fun _ hq => hq.modMx.reportProg))

theorem AreasKept.mxRaise {n : Nat} {d : MxDue} (h : AreasKept s t) : AreasKept s (mxRaise n d t) := by
  unfold Machine.mxRaise
  split
  · exact .ite h h.noteSour
  · exact h.reportProg.watchTrigger
  · exact h

theorem AreasKept.mxClock {u n : Nat} (h : AreasKept s t) : AreasKept s (mxClock u n t) :=
  .ite h (((h.modMx.spClock.each (fun _ _ hq => hq.reportProg)).each (fun _ _ hq => hq.modMx.mxRaise)).modMx)

theorem AreasKept.sfClock {u n : Nat} (h : AreasKept s t) : AreasKept s (sfClock u n t) := by
  unfold Machine.sfClock
  extract_lets +onlyGivenNames due
  refine .ite h ?_
  extract_lets +onlyGivenNames s1
  have h1 : AreasKept s s1 := h.modSf
  extract_lets +onlyGivenNames clash s2
  have h2 : AreasKept s s2 := h1.each (fun _ _ hq => hq.reportProg)
  refine h2.each fun _ q hq => ?_
  refine .ite hq.modSf ?_
  extract_lets +onlyGivenNames s3
  have h3 : AreasKept s s3 := hq.modSf.excUp
  split
  · exact .ite h3 h3.noteSour
  · exact h3

theorem AreasKept.siteClock {k u : Nat} (h : AreasKept s t) : AreasKept s (siteClock k u t) := by
  induction k generalizing t with
  | zero => exact h
  | succ k ih =>
    unfold Machine.siteClock
    split
    · exact h
    · exact ih (h.dated fun q hq => (hq.each fun _ _ hr => hr.mxClock).each fun _ _ hr => hr.sfClock)

theorem AreasKept.suClock {t' n : Nat} (h : AreasKept s t) : AreasKept s (suClock t' n t) := .ite h h.modSu.excUp

theorem AreasKept.settle {t' : Nat} (h : AreasKept s t) : AreasKept s (settle t' t) := by
  unfold Machine.settle
  extract_lets +onlyGivenNames tooFull s1
  have h1 : AreasKept s s1 := ((h.each (fun _ _ hq => hq.rampCheck)).siteClock).each (fun _ _ hq => hq.suClock)
  exact h1.frame.each (fun _ _ hq => hq.report)

theorem AreasKept.runTo {t' : Nat} (h : AreasKept s t) : AreasKept s (runTo t' t) := by
  unfold Machine.runTo
  refine .ite h ?_
  extract_lets +onlyGivenNames s1
  have h1 : AreasKept s s1 := h.settle
  exact h1.frame

theorem AreasKept.toPick {p : Nat} (h : AreasKept s t) : AreasKept s (toPick p t) := h.runTo

/-! ### The functions of Sys2Proof/Machine/Mbx.lean -/

theorem AreasKept.modMbx {p m : Nat} {f : Mbx → Mbx} (h : AreasKept s t) : AreasKept s (modMbx p m f t) := h.modPort

theorem AreasKept.bootRom (h : AreasKept s t) : AreasKept s (bootRom t) := by
  unfold Machine.bootRom
  split
  · exact h.frame
  · exact h.frame.refreshPins

theorem AreasKept.stage1 (h : AreasKept s t) : AreasKept s (stage1 t) := .ite h.bootRom h

theorem AreasKept.mbxRun {opc : Nat} {plen : Nat → Bool} {sc : Scope} {free early : Bool} {f : Nat → Nat → Tab Byte → State → State} {p m : Nat}
    (h : AreasKept s t) (hf : ∀ x0 x1 x2 q, AreasKept s q → AreasKept s (f x0 x1 x2 q)) : OutKept s (mbxRun opc plen sc free early f p m t) := by
  unfold Machine.mbxRun
  refine h.guardUnit fun q hq => ?_
  extract_lets +onlyGivenNames b c
  refine .ite hq ?_
  exact .ite hq.stage1 (.ite hq.stage1.modMbx.mbxComplete (.ite hq.stage1.modMbx.mbxComplete (hf _ _ _ _ hq.stage1.modMbx)))

theorem AreasKept.mbxRunOp {own : Tab Byte → Bool} {opc : Nat} {plen : Nat → Bool} {sc : Scope} {free early : Bool} {f : Nat → Nat → Tab Byte →
  State → State} {p m : Nat}
    (h : AreasKept s t) (hf : ∀ p m c q, AreasKept s q → AreasKept s (f p m c q)) : OutKept s (mbxRunOp own opc plen sc free early f p m t) :=
  .ite (h.mbxRun hf) (h.guardUnit fun _ hq => hq)

theorem AreasKept.mbxDone {p m st : Nat} (h : AreasKept s t) : AreasKept s (mbxDone p m st t) := h.mbxComplete

theorem AreasKept.answerPosted {p m : Nat} (h : AreasKept s t) : AreasKept s (answerPosted p m t) := .ite h h.modMbx.mbxDone

theorem AreasKept.onArea {own : Bool} {p m : Nat} {c : Tab Byte} {f : Nat → State → State}
    (h : AreasKept s t) (hf : ∀ x0 q, AreasKept s q → AreasKept s (f x0 q)) : AreasKept s (onArea own p m c f t) :=
  .ite h.mbxDone (.ite h.mbxDone (hf _ _ h))

theorem AreasKept.mbxCode {p m code detail : Nat} (h : AreasKept s t) : AreasKept s (mbxCode p m code detail t) := h.mbxComplete

/-! ### The functions of Sys2Proof/Machine/Warp.lean -/

theorem AreasKept.countN {code n k : Nat} (h : AreasKept s t) : AreasKept s (countN code n k t) := .ite h h.count

theorem AreasKept.takeEdge {a l : Nat} {f : Option Flit} (h : AreasKept s t) : AreasKept s (takeEdge a l f t) := .ite h h.modAtt

theorem AreasKept.takeInput {n p : Nat} (h : AreasKept s t) : AreasKept s (takeInput n p t) := by
  unfold Machine.takeInput
  split
  · exact h.takeEdge
  · exact h.modSw

theorem AreasKept.reportPort {code n p : Nat} {isOut : Bool} (h : AreasKept s t) : AreasKept s (reportPort code n p isOut t) := h.report

theorem AreasKept.emptyInput {n src out : Nat} (h : AreasKept s t) : AreasKept s (emptyInput n src out t) := h.report

theorem AreasKept.reportEdge {code n p : Nat} {isOut : Bool} (h : AreasKept s t) : AreasKept s (reportEdge code n p isOut t) := h.report

theorem AreasKept.edgePush {n p a l due : Nat} {f : Flit} (h : AreasKept s t) : AreasKept s (edgePush n p a l due f t) :=
  .ite (.ite h h.modAtt) (.ite h.modAtt h.reportEdge)

theorem AreasKept.sendOut {n p te leave : Nat} {tok : Bool} {f : Flit} (h : AreasKept s t) : AreasKept s (sendOut n p te leave tok f t) := by
  unfold Machine.sendOut
  refine .ite h.reportPort ?_
  refine .ite h.modSw ?_
  split
  · exact h.modSw
  · split
    · exact h.edgePush
    · exact h

theorem AreasKept.runMatch {n p : Nat} (h : AreasKept s t) : AreasKept s (runMatch n p t) := .ite h.modSw h.modSw.excUp

theorem AreasKept.tokWait {n p : Nat} (h : AreasKept s t) : AreasKept s (tokWait n p t) := h.modSw.runMatch

theorem AreasKept.forwardEntry {n p e : Nat} (h : AreasKept s t) : AreasKept s (forwardEntry n p e t) := by
  unfold Machine.forwardEntry
  split
  · exact h.emptyInput
  · extract_lets +onlyGivenNames s1
    have h1 : AreasKept s s1 := h.sendOut
    extract_lets +onlyGivenNames s2
    have h2 : AreasKept s s2 := .ite h1 h1.takeInput
    exact .ite ((AreasKept.ite h2 h2.excUp).tokWait) (.ite h2 h2.excUp)

theorem AreasKept.reduceEntry {n p e : Nat} (h : AreasKept s t) : AreasKept s (reduceEntry n p e t) := by
  unfold Machine.reduceEntry
  split
  · extract_lets +onlyGivenNames f t' s1
    have h1 : AreasKept s s1 := h.sendOut
    extract_lets +onlyGivenNames s2
    have h2 : AreasKept s s2 := .ite h1 h1.takeInput.takeInput
    extract_lets +onlyGivenNames s3
    have h3 : AreasKept s s3 := .ite h2.countN h2.countN
    exact .ite ((AreasKept.ite h3.modSw h3.modSw.excUp).tokWait) (.ite h3.modSw h3.modSw.excUp)
  · extract_lets +onlyGivenNames s1
    have h1 : AreasKept s s1 := .ite h.emptyInput (.ite h h.takeInput)
    exact .ite (.ite h1 h1.takeInput) (.ite h1 h1.emptyInput)

theorem AreasKept.weaveEntry {n p : Nat} (h : AreasKept s t) : AreasKept s (weaveEntry n p t) := .ite h (.ite h.forwardEntry (.ite h.reduceEntry h))

theorem AreasKept.segCorrected {n i k : Nat} (h : AreasKept s t) : AreasKept s (segCorrected n i k t) := by
  unfold Machine.segCorrected
  refine h.each fun _ q hq => ?_
  extract_lets +onlyGivenNames s1
  have h1 : AreasKept s s1 := hq.count.riskEvent
  split
  · exact h1.watchTrigger
  · exact h1

theorem AreasKept.checkFlit {n i : Nat} {u : LinkUpset} {f : Flit} (h : AreasKept s t) : AreasKept s (checkFlit n i u f t).2 :=
  (h.segCorrected.each (fun _ _ hq => hq.reportPort)).pair2

theorem AreasKept.arriveEdge {n i a l : Nat} {u : LinkUpset} (h : AreasKept s t) : AreasKept s (arriveEdge n i a l u t) := by
  unfold Machine.arriveEdge
  refine .ite h ?_
  refine .ite h.takeEdge.reportPort ?_
  split
  · exact h
  · exact h.checkFlit.modAtt

theorem AreasKept.arrive {n i : Nat} {u : LinkUpset} {f : Fly} (h : AreasKept s t) : AreasKept s (arrive n i u f t) :=
  .ite h.runTo.modSw (.ite h.runTo.modSw.reportPort h.runTo.modSw.checkFlit.modSw)

theorem AreasKept.tokenArrive {n word : Nat} (h : AreasKept s t) : AreasKept s (tokenArrive n word t) :=
  .ite h (.ite h.reportPort (.ite h.reportPort h.modSw.runMatch))

theorem AreasKept.selectPage {h' pg : Nat} (h : AreasKept s t) : AreasKept s (selectPage h' pg t) :=
  h.each (fun _ _ hq => .ite hq ((AreasKept.ite hq.modSw.modMm hq.modSw).each (fun _ _ hq => hq.reportPort)))

theorem AreasKept.underCredit {t' k : Nat} {f : State → State}
    (h : AreasKept s t) (hf : ∀ q, AreasKept s q → AreasKept s (f q)) : AreasKept s (underCredit t' k f t) :=
  .ite (hf _ h.modAtt) h

/-! ### The functions of Sys2Proof/Machine/Mm.lean -/

theorem AreasKept.mmCorrected {n b r k : Nat} (h : AreasKept s t) : AreasKept s (mmCorrected n b r k t) :=
  .ite h (h.modMm.each (fun _ _ hq => hq.count.riskEvent.watchTrigger))

theorem AreasKept.mmRead {n b r : Nat} (h : AreasKept s t) : AreasKept s (mmRead n b r t).2.2 := by
  unfold Machine.mmRead
  extract_lets +onlyGivenNames m out data s1
  have h1 : AreasKept s s1 := h.modMm
  exact .ite22 h1.mmCorrected.modMm.report.pair22 (.ite22 h1.mmCorrected.noteStoredSour.pair22 h1.mmCorrected.pair22)

theorem AreasKept.markSched {n b : Nat} {push : Bool} {r i : Nat} (h : AreasKept s t) : AreasKept s (markSched n b push r i t) := h.modMm

theorem AreasKept.bankClash {n b : Nat} (h : AreasKept s t) : AreasKept s (bankClash n b t) := by
  unfold Machine.bankClash
  exact h.modMm.report

theorem AreasKept.mmBlocked {n b i : Nat} {push : Bool} {r : State} (h : AreasKept s t) (e : mmBlocked n b i push t = some r) : AreasKept s r := by
  unfold Machine.mmBlocked at e
  split at e
  · cases e; exact h.report
  · split at e
    · cases e; exact h.bankClash
    · cases e

theorem AreasKept.mmPush {n i : Nat} {half : List Byte} {sour : Bool} (h : AreasKept s t) : AreasKept s (mmPush n i half sour t) := by
  unfold Machine.mmPush
  extract_lets +onlyGivenNames c d b
  split
  · exact h.mmBlocked ‹_›
  · exact .ite h.report (.ite h.markSched.modMm.excUp.noteSour h.markSched.modMm.excUp)

theorem AreasKept.mmPushFlit {n tag : Nat} {f : Flit} (h : AreasKept s t) : AreasKept s (mmPushFlit n tag f t) := by
  unfold Machine.mmPushFlit
  extract_lets +onlyGivenNames m b
  split
  · exact h.report
  · exact .ite h.bankClash (.ite ((AreasKept.ite h.mmPush h).mmPush) (.ite h.mmPush h))

theorem AreasKept.readBehind {n b r : Nat} {x : Access} (h : AreasKept s t) : AreasKept s (readBehind n b r x t).2.2 :=
  .ite22 h.mmRead h.modMm.mmRead.modMm.pair22

theorem AreasKept.mmPull {n i : Nat} (h : AreasKept s t) : AreasKept s (mmPull n i t).2.2 := by
  unfold Machine.mmPull
  extract_lets +onlyGivenNames c d b zero
  split
  · exact (h.mmBlocked ‹_›).pair22
  · extract_lets +onlyGivenNames c0
    refine .ite22 h.report.pair22 ?_
    extract_lets +onlyGivenNames r p s1
    have h1 : AreasKept s s1 := h.markSched
    extract_lets +onlyGivenNames x
    have h2 : AreasKept s x.2.2 := by
      unfold x
      clear_value p
      split
      · exact h1.readBehind
      · exact h1.mmRead
    exact h2.modMm.excUp.pair22

theorem AreasKept.pullEntry {n e : Nat} (h : AreasKept s t) : AreasKept s (pullEntry n e t) := by
  unfold Machine.pullEntry
  extract_lets +onlyGivenNames lo hi m
  refine .ite h ?_
  extract_lets +onlyGivenNames clash zero s1 a
  have h1 : AreasKept s s1 := .ite h.bankClash h
  have h2 : AreasKept s a.2.2 := .ite22 h1.pair22 (.ite22 h1.mmPull h1.pair22)
  extract_lets +onlyGivenNames b
  have h3 : AreasKept s b.2.2 := .ite22 h1.pair22 (.ite22 h2.mmPull h2.pair22)
  exact h3.excUp.inject

theorem AreasKept.dmaReturn {n : Nat} (h : AreasKept s t) : AreasKept s (dmaReturn n t) := by
  unfold Machine.dmaReturn
  extract_lets +onlyGivenNames m g k head hdr data sour
  refine .ite h.inject ?_
  extract_lets +onlyGivenNames s1
  have h1 : AreasKept s s1 := h.modMm
  extract_lets +onlyGivenNames s2
  have h2 : AreasKept s s2 := by
    unfold s2
    split
    · exact h1.modAtt
    · exact h1
  exact h2.inject

theorem AreasKept.bulkFinish {j : BulkJob} (h : AreasKept s t) : AreasKept s (bulkFinish j t) := h.frame.mbxComplete

theorem AreasKept.bulkDone {job st sours : Nat} (h : AreasKept s t) : AreasKept s (bulkDone job st sours t) := by
  unfold Machine.bulkDone
  extract_lets +onlyGivenNames s1
  have h1 : AreasKept s s1 := h.frame
  split
  · exact h1.bulkFinish
  · exact h1

theorem AreasKept.bulkPush {n i st : Nat} (h : AreasKept s t) : AreasKept s (bulkPush n i st t) := by
  unfold Machine.bulkPush
  split
  · exact h.bulkDone
  · exact h

theorem AreasKept.lateDrop {n i : Nat} (h : AreasKept s t) : AreasKept s (lateDrop n i t) := h.modMm.count.bulkPush

theorem AreasKept.dmaArrive {n : Nat} {f : Flit} (h : AreasKept s t) : AreasKept s (dmaArrive n f t) :=
  .ite h.modMm (.ite h.modMm.lateDrop (.ite h.modMm.report h.modMm.modMm))

theorem AreasKept.dmaRow {n : Nat} {c : Creel} {r : Nat} {h' : HalfRead} (h : AreasKept s t) : AreasKept s (dmaRow n c r h' t).2 :=
  (AreasKept.ite22 h.mmRead h.pair22).pair2

theorem AreasKept.dmaServe {n : Nat} {o : DmaOp} (h : AreasKept s t) : AreasKept s (dmaServe n o t).1 := by
  unfold Machine.dmaServe
  extract_lets +onlyGivenNames m c d b answer
  refine .ite1 (.ite1 (.ite1 h.pair1 h.modMm.pair1) (.ite1 h.lateDrop.pair1 (.ite1 h.report.pair1 h.modMm.bulkPush.pair1))) ?_
  refine .ite1 h.pair1 ?_
  exact .ite1 h.modMm.pair1 (.ite1 (.ite1 h.pair1 (.ite1 h.dmaRow.pair1 h.dmaRow.modMm.pair1)) h.modMm.modMm.pair1)

theorem AreasKept.lowAccess {n b u : Nat} {r : State} (h : AreasKept s t) (e : lowAccess n b u t = some r) : AreasKept s r := by
  unfold Machine.lowAccess at e
  extract_lets +onlyGivenNames x free take at e
  split at e
  · cases e; exact h.modMm
  · split at e
    · cases e; exact h.runTo.modMm
    · cases e

theorem AreasKept.takeDeliv {n : Nat} {d : Deliv} (h : AreasKept s t) : AreasKept s (takeDeliv n d t) := h.runTo.modSw

theorem AreasKept.subRequest {n b st : Nat} (h : AreasKept s t) : AreasKept s (subRequest n b st t) := .ite (.ite h.modMm h.modMm) (.ite h h.modMm)

theorem AreasKept.subChange {n b : Nat} (h : AreasKept s t) : AreasKept s (subChange n b t) := by
  unfold Machine.subChange
  split
  · exact h
  · exact h.modMm

/-! ### The functions of Sys2Proof/Machine/Stack.lean -/

theorem AreasKept.hbmCorrected {n c j : Nat} (h : AreasKept s t) : AreasKept s (hbmCorrected n c j t) :=
  .ite h (h.modStack.each (fun _ _ hq => hq.count.riskEvent.watchTrigger))

theorem AreasKept.grainRead {n o : Nat} {req : Option Nat} (h : AreasKept s t) : AreasKept s (grainRead n o req t).2.2 := by
  unfold Machine.grainRead
  extract_lets +onlyGivenNames k c
  refine .ite22 h.pair22 ?_
  extract_lets +onlyGivenNames cells b s1
  have h1 : AreasKept s s1 := h.hbmCorrected
  refine .ite22 h1.modStack.report.pair22 ?_
  exact .ite22 ((AreasKept.ite h1.noteStoredSour h1).pair22) (.ite22 h1.modStack.pair22 h1.pair22)

theorem AreasKept.grainWrite {n o : Nat} {b : List Byte} {sour : Bool}
    (h : AreasKept s t) : AreasKept s (grainWrite n o b sour t) := .ite h h.modStack

theorem AreasKept.elasticGrains {k o n : Nat} (h : AreasKept s t) : AreasKept s (elasticGrains k o n t).2 := by
  induction n generalizing t o with
  | zero => exact h
  | succ n ih => exact ih h.grainRead

theorem AreasKept.elasticRead {d n : Nat} {zero : Bool} (h : AreasKept s t) : AreasKept s (elasticRead d n zero t).2.2 := h.elasticGrains.pair22

theorem AreasKept.elasticGrain {n o p : Nat} {b : List Byte} (h : AreasKept s t) : AreasKept s (elasticGrain n o p b t) :=
  .ite h.grainWrite h.grainRead.grainWrite

theorem AreasKept.elasticWrites {n k o : Nat} {b : List Byte} (h : AreasKept s t) : AreasKept s (elasticWrites n k o b t) := by
  induction k generalizing t o b with
  | zero => exact h
  | succ k ih =>
    cases b with
    | nil => exact h
    | cons x b => exact ih h.elasticGrain

theorem AreasKept.elasticWrite {d : Nat} {b : List Byte} (h : AreasKept s t) : AreasKept s (elasticWrite d b t) := h.elasticWrites

theorem AreasKept.queueOp {n : Nat} {o : GrainOp} (h : AreasKept s t) : AreasKept s (queueOp n o t) := h.modStack

theorem AreasKept.reportReq {code n a : Nat} {f : Flit} (h : AreasKept s t) : AreasKept s (reportReq code n a f t) := h.report

theorem AreasKept.stageReturn {n a : Nat} {f : Flit} {x : Staged}
    (h : AreasKept s t) : AreasKept s (stageReturn n a f x t) := .ite h.reportReq h.modStack

theorem AreasKept.takeReq {n : Nat} (h : AreasKept s t) : AreasKept s (takeReq n t).2 := h.modStack.pair2

theorem AreasKept.streamRead {n a : Nat} {f : Flit} (h : AreasKept s t) : AreasKept s (streamRead n a f t) :=
  .ite h.reportReq (h.takeReq.each (fun _ _ hq => hq.stageReturn.queueOp.queueOp))

theorem AreasKept.queueWrite {n a req o beats : Nat} {f : Flit}
    (h : AreasKept s t) : AreasKept s (queueWrite n a req o beats f t) := h.queueOp.queueOp

theorem AreasKept.streamWrite {n a : Nat} {f : Flit} {data : List Flit} (h : AreasKept s t) : AreasKept s (streamWrite n a f data t) :=
  h.takeReq.each (fun _ _ hq => hq.queueWrite)

theorem AreasKept.rowStatuses {n ser allow : Nat} {l : List Nat} (h : AreasKept s t) : AreasKept s (rowStatuses n ser allow l t).2 := by
  induction l generalizing t with
  | nil => exact h
  | cons x l ih =>
    unfold Machine.rowStatuses
    extract_lets +onlyGivenNames u c k used st s1 s2
    have h1 : AreasKept s s1 := .ite h.modStack h
    have h2 : AreasKept s s2 := .ite h1.count (.ite h1.count h1)
    exact ih h2

theorem AreasKept.gatherRow {n a : Nat} {f : Flit} {req m unit st v : Nat} (h : AreasKept s t) : AreasKept s (gatherRow n a f req m unit st v t) :=
  .ite ((h.each (fun _ _ hq => hq.stageReturn)).each (fun _ _ hq => hq.queueOp)) (h.each (fun _ _ hq => hq.stageReturn))

theorem AreasKept.gatherReq {n a : Nat} {f : Flit} {e : Nat × List Nat} (h : AreasKept s t) : AreasKept s (gatherReq n a f e t) :=
  .ite h.reportReq ((h.rowStatuses.takeReq.each (fun _ _ hq => hq.gatherRow)).stageReturn)

theorem AreasKept.scatterReq {n a : Nat} {f : Flit} {e : Nat × List Nat} {data : List Flit}
    (h : AreasKept s t) : AreasKept s (scatterReq n a f e data t) :=
  (h.rowStatuses.takeReq.each (fun _ _ hq => .ite hq.queueWrite.queueWrite hq)).stageReturn

theorem AreasKept.stackRequest {n : Nat} {e : QEntry} (h : AreasKept s t) : AreasKept s (stackRequest n e t) := by
  unfold Machine.stackRequest
  dsimp only
  refine .ite h ?_
  refine .ite h.modAtt.reportReq ?_
  split
  · exact h.modAtt.reportReq
  · refine .ite h.modAtt.reportReq (.ite h.modAtt.streamRead (.ite h.modAtt.streamWrite ?_))
    split
    · exact h.modAtt.reportReq
    · exact .ite h.modAtt.gatherReq h.modAtt.scatterReq

theorem AreasKept.mirrorFlit {a d : Nat} (h : AreasKept s t) : AreasKept s (mirrorFlit a d t) := by
  unfold Machine.mirrorFlit
  extract_lets +onlyGivenNames k
  split
  · exact .ite h.grainWrite.grainWrite.modArea h
  · exact h

theorem AreasKept.scrubGrain {n c g : Nat} (h : AreasKept s t) : AreasKept s (scrubGrain n c g t) :=
  .ite h.hbmCorrected.modStack.count (.ite h.hbmCorrected.modStack h.hbmCorrected)

theorem AreasKept.flashWrite (h : AreasKept s t) : AreasKept s (flashWrite t) := by
  refine h.frame rfl ?_
  unfold Machine.flashWrite
  dsimp only
  split <;> rfl

theorem AreasKept.chanFail {n c : Nat} (h : AreasKept s t) : AreasKept s (chanFail n c t) := by
  unfold Machine.chanFail
  extract_lets +onlyGivenNames s1
  have h1 : AreasKept s s1 := h.modStack
  exact h1.frame.flashWrite.report

/-! ### The functions of Sys2Proof/Machine/Scatter.lean -/

theorem AreasKept.toHost {p : Nat} {l : List (Nat × Nat)} {off : Nat} {b : List Byte}
    (h : AreasKept s t) : AreasKept s (toHost p l off b t) := h.modPort

/-! ### The functions of Sys2Proof/Machine/Mx.lean -/

theorem AreasKept.mxFault {code n : Nat} (h : AreasKept s t) : AreasKept s (mxFault code n t) := h.reportProg

theorem AreasKept.mxNext {n d : Nat} (h : AreasKept s t) : AreasKept s (mxNext n d t) := h.modMx

theorem AreasKept.mxReserved {n : Nat} (h : AreasKept s t) : AreasKept s (mxReserved n t) := h.mxFault.modMx

theorem AreasKept.mxIssue {op n : Nat} {w : W64} {f : State → State}
    (h : AreasKept s t) (hf : ∀ q, AreasKept s q → AreasKept s (f q)) : OutKept s (mxIssue op n w f t) :=
  h.onSite (fun _ hq => .ite hq (.ite hq.runTo.mxFault.modMx (.ite (hf _ hq.runTo.excUp) (.ite hq.runTo.mxReserved hq))))

theorem AreasKept.loadActs {site n : Nat} {f : Nat → MxAct} (h : AreasKept s t) : AreasKept s (loadActs site n f t) := h.modMx.mxNext

theorem AreasKept.arrayBusy {n : Nat} {l : List (Nat × Nat)} (h : AreasKept s t) : AreasKept s (arrayBusy n l t) := h.modMx.excUp

theorem AreasKept.blockReports {n pc : Nat} {r : BlockOut} (h : AreasKept s t) : AreasKept s (blockReports n pc r t) := by
  unfold Machine.blockReports
  extract_lets +onlyGivenNames s1
  have h1 : AreasKept s s1 := .ite h.count h
  extract_lets +onlyGivenNames s2
  have h2 : AreasKept s s2 := .ite h1.count h1
  exact .ite (((AreasKept.ite h2.count h2).reportProg).watchTrigger) (.ite h2.count h2)

theorem AreasKept.blockEntry {n : Nat} {o : MacOp} {upset : List ℤ} (h : AreasKept s t) : AreasKept s (blockEntry n o upset t) :=
  .ite h.modMx (.ite ((AreasKept.ite h.blockReports.modMx.count h.blockReports).modMx) h.modMx.blockReports.excUp.modMx)

theorem AreasKept.outPut {n t' a : Nat} {toMem : Bool} {f : Flit} (h : AreasKept s t) : AreasKept s (outPut n t' a toMem f t) := .ite h.modMx h.inject

theorem AreasKept.outFlit {n t' a e k : Nat} {toMem clr : Bool} (h : AreasKept s t) : AreasKept s (outFlit n t' a e k toMem clr t) :=
  (AreasKept.ite (.ite h.modMx.mxFault h.modMx) ((AreasKept.ite h.modMx.mxFault h.modMx).count)).outPut

theorem AreasKept.mxDeliver {n : Nat} {d : Deliv} (h : AreasKept s t) : AreasKept s (mxDeliver n d t) := by
  unfold Machine.mxDeliver
  split
  · exact h.reportSite
  · exact .ite h.reportSite (.ite h.reportSite h.modMx)

/-! ### The functions of Sys2Proof/Machine/Sf.lean -/

theorem AreasKept.sfFault {code n : Nat} (h : AreasKept s t) : AreasKept s (sfFault code n t) := h.reportProg

theorem AreasKept.sfNext {n d : Nat} (h : AreasKept s t) : AreasKept s (sfNext n d t) := h.modSf

theorem AreasKept.sfReserved {n : Nat} (h : AreasKept s t) : AreasKept s (sfReserved n t) := h.sfFault.modSf

theorem AreasKept.sfIssue {op n : Nat} {w : W64} {g : State → State}
    (h : AreasKept s t) (hfg : ∀ q, AreasKept s q → AreasKept s (g q)) : OutKept s (sfIssue op n w g t) :=
  h.onSite (fun _ hq => .ite hq (.ite hq.runTo.sfFault.modSf (.ite (hfg _ hq.runTo.excUp) (.ite hq.runTo.sfReserved hq))))

theorem AreasKept.sfUnit {op : Nat} {u : SfUnit} {busy n : Nat} {w : W64} {g : State → State}
    (h : AreasKept s t) (hfg : ∀ q, AreasKept s q → AreasKept s (g q)) : OutKept s (sfUnit op u busy n w g t) :=
  h.sfIssue (fun _ hq => .ite hq.sfFault.sfNext ((hfg _ hq.modSf).sfNext))

theorem AreasKept.sfResult {n lat : Nat} {dst : SfDst} {mask : W32} {val : Vec} (h : AreasKept s t) : AreasKept s (sfResult n lat dst mask val t) :=
  .ite h.sfFault h.modSf

theorem AreasKept.sfScalar {n : Nat} {w : W64} {x : W32} (h : AreasKept s t) : AreasKept s (sfScalar n w x t) := h.sfResult

theorem AreasKept.sfDue {n t' : Nat} {pc : Option Nat} {a : SfAct} (h : AreasKept s t) : AreasKept s (sfDue n t' pc a t) := h.modSf

theorem AreasKept.sfJump {n : Nat} {w : W64} (h : AreasKept s t) : AreasKept s (sfJump n w t) := h.modSf

theorem AreasKept.countNan {n k : Nat} (h : AreasKept s t) : AreasKept s (countNan n k t) := .ite h h.count

theorem AreasKept.sfLanes {op : Nat} {u : SfUnit} {busy lat k : Nat} {fp : Bool} {g : W32 → W32 → W32 → W32} {n : Nat} {w : W64}
    (h : AreasKept s t) : OutKept s (sfLanes op u busy lat k fp g n w t) :=
  h.sfUnit (fun _ hq => (AreasKept.ite hq.countNan hq).sfResult)

theorem AreasKept.sfCompare {op lat top : Nat} {cmp : Nat → W32 → W32 → Bool} {n : Nat} {w : W64}
    (h : AreasKept s t) : OutKept s (sfCompare op lat top cmp n w t) :=
  .ite (h.sfIssue (fun _ hq => hq.sfReserved)) (h.sfUnit (fun _ hq => hq.sfResult))

theorem AreasKept.sfReduce {op : Nat} {u : SfUnit} {busy lat : Nat} {ident : W32} {g : W32 → W32 → W32} {fin : W32 → W32} {n : Nat} {w : W64}
    (h : AreasKept s t) : OutKept s (sfReduce op u busy lat ident g fin n w t) :=
  h.sfUnit (fun _ hq => hq.countNan.sfResult)

theorem AreasKept.topWrite {n lat : Nat} {l : List (W32 × W32)} {sour : Byte} (h : AreasKept s t) : AreasKept s (topWrite n lat l sour t) :=
  h.each (fun _ _ hq => hq.sfResult.sfResult)

theorem AreasKept.sfDeliver {n : Nat} {d : Deliv} (h : AreasKept s t) : AreasKept s (sfDeliver n d t) := by
  unfold Machine.sfDeliver
  split
  · exact h.reportSite
  · exact .ite h.reportSite (.ite h.reportSite h.modSf.sfDue)

theorem AreasKept.ringDeliver {n : Nat} {f : Deliv → State → State}
    (h : AreasKept s t) (hf : ∀ x0 q, AreasKept s q → AreasKept s (f x0 q)) : AreasKept s (ringDeliver n f t) := by
  unfold Machine.ringDeliver
  split
  · exact h
  · exact .ite (hf _ _ h.takeDeliv) h.takeDeliv

/-! ### The functions of Sys2Proof/Machine/Drafts.lean -/

theorem AreasKept.writeRec {b : Nat} {r : Rec} (h : AreasKept s t) : AreasKept s (writeRec b r t) :=
  .ite h.modSw (.ite h.modMm (.ite h.modMx (.ite h.modSf (.ite h.modSu (.ite h.modSw h)))))

theorem AreasKept.clearBank {b w : Nat} (h : AreasKept s t) : AreasKept s (clearBank b w t) := h.frame

theorem AreasKept.applyInit {n : Nat} {d : List Byte} (h : AreasKept s t) : AreasKept s (applyInit n d t) := by
  unfold Machine.applyInit
  split
  · exact h
  · split
    · exact h.modMx
    · exact h.modSf
    · exact h.modMm
    · exact h

theorem AreasKept.swapSite {l : List Rec} {n : Nat} (h : AreasKept s t) : AreasKept s (swapSite l n t) := by
  unfold Machine.swapSite
  extract_lets +onlyGivenNames d s1
  have h1 : AreasKept s s1 := by
    unfold s1
    split
    · exact h.modMm
    · exact h.modMx
    · exact h.modSf
    · exact h
  split
  · exact h1.applyInit
  · exact h1

theorem AreasKept.coldSite {r : Rec} (h : AreasKept s t) : AreasKept s (coldSite r t) := by
  unfold Machine.coldSite
  extract_lets +onlyGivenNames n
  refine .ite h.modMm ?_
  refine .ite ?_ (.ite h.applyInit h)
  split
  · exact h.modMx
  · exact h.modSf
  · exact h

theorem AreasKept.coldStart {w : Nat} (h : AreasKept s t) : AreasKept s (coldStart w t) := h.frame

theorem AreasKept.loadRoutes {w : Nat} (h : AreasKept s t) : AreasKept s (loadRoutes w t) := h.frame.each (fun _ _ hq => hq.modSw)

theorem AreasKept.finishLoad {a : Nat} (h : AreasKept s t) : AreasKept s (finishLoad a t) := by
  unfold Machine.finishLoad
  split
  · exact h
  · extract_lets +onlyGivenNames cold w s1
    have h1 : AreasKept s s1 := h.modArea
    refine .mbxComplete (.ite ?_ h1.modArea)
    extract_lets +onlyGivenNames site _ s2
    have h2 : AreasKept s s2 := h1.modArea
    exact h2.frame

theorem AreasKept.coldDone {a : Nat} (h : AreasKept s t) : AreasKept s (coldDone a t) := by
  unfold Machine.coldDone
  split
  · exact .ite h.finishLoad h
  · exact h

theorem AreasKept.dropLoad {a st : Nat} (h : AreasKept s t) : AreasKept s (dropLoad a st t) := by
  unfold Machine.dropLoad
  split
  · exact h
  · exact h.modArea.mbxComplete

theorem AreasKept.loadRefused {p m code detail id : Nat} (h : AreasKept s t) : AreasKept s (loadRefused p m code detail id t) := h.mbxComplete

theorem AreasKept.startLoad {a p m : Nat} {img : List Byte} {l : List Rec} (h : AreasKept s t) : AreasKept s (startLoad a p m img l t) :=
  .ite h.mbxComplete (((AreasKept.ite h.clearBank.coldStart.loadRoutes h.clearBank).modArea).coldDone)

theorem AreasKept.draftLoad {p m : Nat} {c : Tab Byte} {a : Nat} (h : AreasKept s t) : AreasKept s (draftLoad p m c a t) := by
  unfold Machine.draftLoad
  dsimp only
  have h1 : ∀ d n, AreasKept s (Machine.elasticRead d n false t).2.2 := fun _ _ => .elasticRead h
  refine .ite h.mbxDone (.ite h.mbxDone (.ite (h1 _ _).loadRefused (.ite (h1 _ _).loadRefused (.ite (h1 _ _).loadRefused (.ite (h1 _
    _).elasticRead.loadRefused ?_)))))
  split
  · exact (h1 _ _).elasticRead.loadRefused
  · exact (h1 _ _).elasticRead.startLoad

theorem AreasKept.acceptLoad {a su : Nat} {l : Load} {pay : List Byte} {last : Bool}
    (h : AreasKept s t) : AreasKept s (acceptLoad a su l pay last t) :=
  (((h.each (fun _ _ hq => hq.writeRec)).each (fun _ _ hq => .ite hq.coldSite hq)).modSu).coldDone

theorem AreasKept.takeLoad {su : Nat} {f : Flit} (h : AreasKept s t) : AreasKept s (takeLoad su f t) := by
  unfold Machine.takeLoad
  extract_lets +onlyGivenNames u h'
  split
  · exact h
  · split
    · exact h
    · exact .ite h (.ite h.modArea (.ite h.modArea h.acceptLoad))

theorem AreasKept.rootFlit {a t' d : Nat} (h : AreasKept s t) : AreasKept s (rootFlit a t' d t) := h.runTo.modArea

theorem AreasKept.switchBank {n p b t' : Nat} (h : AreasKept s t) : AreasKept s (switchBank n p b t' t) := by
  unfold Machine.switchBank
  extract_lets +onlyGivenNames s1
  have h1 : AreasKept s s1 := h.modSw
  extract_lets +onlyGivenNames s2
  have h2 : AreasKept s s2 := .ite h1.reportPort h1
  refine .ite h2 ?_
  extract_lets +onlyGivenNames recs s3
  have h3 : AreasKept s s3 := by
    unfold s3
    split
    · exact h2.modMm
    · exact h2.modMx
    · exact h2.modSf
    · exact h2
  exact h3.swapSite

/-! ### The functions of Sys2Proof/Machine/Sparse.lean -/

theorem AreasKept.modSp {n : Nat} {f : Sparse → Sparse} (h : AreasKept s t) : AreasKept s (modSp n f t) := h.modMm

theorem AreasKept.descArrive {n : Nat} {f : Flit} (h : AreasKept s t) : AreasKept s (descArrive n f t) := .ite h.reportSite h.modSp

theorem AreasKept.readerRow {n b r : Nat} (h : AreasKept s t) : AreasKept s (readerRow n b r t).2 := by
  unfold Machine.readerRow
  split
  · exact h.mmBlocked ‹_›
  · exact h.markSched.mmRead.excUp

theorem AreasKept.readerFetch {n : Nat} {r : Reader} (h : AreasKept s t) : AreasKept s (readerFetch n r t).2 :=
  (AreasKept.ite2 ((AreasKept.ite2 h.readerRow h.pair2).readerRow) ((AreasKept.ite2 h.readerRow h.pair2).pair2)).pair2

theorem AreasKept.applyGroup {n : Nat} {g : Group} (h : AreasKept s t) : AreasKept s (applyGroup n g t) := .ite h.modSp.reportSite h.modSp

theorem AreasKept.bankGroups {n b : Nat} {l : List Group} (h : AreasKept s t) : AreasKept s (bankGroups n b l t) :=
  h.each (fun _ _ hq => .ite hq.modSp.applyGroup (.ite hq.reportSite hq.modSp))

theorem AreasKept.updateArrive {n : Nat} {f : Flit} (h : AreasKept s t) : AreasKept s (updateArrive n f t) :=
  .ite h.modSp (.ite (((h.each (fun _ _ hq => hq.bankGroups)).modSp).count) (h.each (fun _ _ hq => hq.bankGroups)))

theorem AreasKept.mmHandle {n : Nat} {d : Deliv} (h : AreasKept s t) : AreasKept s (mmHandle n d t) := by
  unfold Machine.mmHandle
  split
  · exact h.reportSite
  · exact .ite h.mmPushFlit (.ite h.dmaArrive (.ite h.updateArrive (.ite h.descArrive h.reportSite)))

theorem AreasKept.mmTake {n : Nat} {p : Option Nat → Bool} (h : AreasKept s t) : AreasKept s (mmTake n p t) := by
  unfold Machine.mmTake
  split
  · exact h
  · exact .ite (.ite h.takeDeliv.mmHandle h.takeDeliv) h

theorem AreasKept.skipEval {a : Nat} (h : AreasKept s t) : AreasKept s (skipEval a t) := .ite h (.ite h.modAreg.reportArea h.modAreg)

/-! ### The functions of Sys2Proof/Machine/Steps.lean -/

theorem AreasKept.applyRecords {a : Nat} (h : AreasKept s t) : AreasKept s (applyRecords a t) := by
  unfold Machine.applyRecords
  extract_lets +onlyGivenNames s1
  have h1 : AreasKept s s1 := h.modArea
  extract_lets +onlyGivenNames w atts s2
  have h2 : AreasKept s s2 := h1.frame
  extract_lets +onlyGivenNames s3
  have h3 : AreasKept s s3 := by
    unfold s3
    refine h2.each fun _ q hq => ?_
    split
    · exact hq.modAtt.each (fun _ _ hq => hq.modMm)
    · exact hq.modAtt
  exact h3.modArea

theorem AreasKept.resetEstimates {a : Nat} (h : AreasKept s t) : AreasKept s (resetEstimates a t) := h.each (fun _ _ hq => hq.modRegion)

theorem AreasKept.skimPoint {a k : Nat} {first : Bool} (h : AreasKept s t) : AreasKept s (skimPoint a k first t) :=
  .ite (.ite h.modArea (.ite h.count h)) (.ite h.modArea h)

theorem AreasKept.stepStart {a k S : Nat} (h : AreasKept s t) : AreasKept s (stepStart a k S t) := by
  unfold Machine.stepStart
  extract_lets +onlyGivenNames s1 x d next swapping s2 d r s3 fell s4 s5 w site s6
  have h1 : AreasKept s s1 := h.toPick
  have h2 : AreasKept s s2 := .ite h1.modArea h1
  have h3 : AreasKept s s3 := .ite (.ite h2.applyRecords.resetEstimates h2.applyRecords) h2
  have h4 : AreasKept s s4 := .ite h3.dropLoad h3
  have h5 : AreasKept s s5 := .ite h4.modArea h4
  have h6 : AreasKept s s6 := h5.frame
  exact h6.skimPoint.modArea

theorem AreasKept.startNext {a : Nat} (h : AreasKept s t) : AreasKept s (startNext a t) := by
  unfold Machine.startNext
  extract_lets +onlyGivenNames j
  split
  · exact .ite (.ite h.toPick.stepStart h.toPick) h
  · exact h

theorem AreasKept.startDue {a t' : Nat} (h : AreasKept s t) : AreasKept s (startDue a t' t) := by
  unfold Machine.startDue
  split
  · exact .ite h.startNext h
  · exact h

theorem AreasKept.heddleEnd {su : Nat} {fell : Bool} {bank : Nat} (h : AreasKept s t) : AreasKept s (heddleEnd su fell bank t) := by
  unfold Machine.heddleEnd
  extract_lets +onlyGivenNames h' u s1
  have h1 : AreasKept s s1 := by
    unfold s1
    split
    · exact h.modSu.selectPage
    · exact h
  extract_lets +onlyGivenNames late s2
  have h2 : AreasKept s s2 := .ite h1.reportProg h1
  extract_lets +onlyGivenNames s3
  have h3 : AreasKept s s3 := h2.modSu
  refine .ite ?_ h3
  extract_lets +onlyGivenNames sites broken s4
  have h4 : AreasKept s s4 := h3.each (fun _ _ hq => hq.each (fun _ _ hq => hq.switchBank))
  exact .ite h4.reportSite h4

theorem AreasKept.endPick {a : Nat} (h : AreasKept s t) : AreasKept s (endPick a t) := by
  unfold Machine.endPick
  split
  · exact h
  · refine .ite h ?_
    extract_lets +onlyGivenNames s1
    have h1 : AreasKept s s1 := h.toPick
    refine .ite h1 ?_
    extract_lets +onlyGivenNames x d fell s2
    have h2 : AreasKept s s2 := h1.modCurStep
    extract_lets +onlyGivenNames s3
    have h3 : AreasKept s s3 := h2.each (fun _ _ hq => hq.heddleEnd)
    extract_lets +onlyGivenNames w site acc slack s4
    have h4 : AreasKept s s4 := h3.frame
    exact ((h4.each (fun _ _ hq => hq.reportPort)).each (fun _ _ hq => hq.reportSite)).each (fun _ _ hq => hq.modAreg.report)

theorem AreasKept.skimCommit {a k : Nat} (h : AreasKept s t) : AreasKept s (skimCommit a k t) := .ite h (.ite h.modArea h.modArea.skimFailRecord)

theorem AreasKept.commitStep {a : Nat} {st : Step} (h : AreasKept s t) : AreasKept s (commitStep a st t) :=
  .ite h.frame.skimCommit.modArea.endJob h.frame.skimCommit.modArea

theorem AreasKept.restoreUnits {a k : Nat} (h : AreasKept s t) : AreasKept s (restoreUnits a k t) := h.frame

theorem AreasKept.abandon {a k bank : Nat} (h : AreasKept s t) : AreasKept s (abandon a k bank t) := h.restoreUnits.modArea.applyRecords

theorem AreasKept.rejoinAll {a k p : Nat} (h : AreasKept s t) : AreasKept s (rejoinAll a k p t) := h.frame

theorem AreasKept.secondFailure {a : Nat} {st : Step} {back : Bool} (h : AreasKept s t) : AreasKept s (secondFailure a st back t) := by
  unfold Machine.secondFailure
  extract_lets +onlyGivenNames p s1 _ s2 s3
  have h3 : AreasKept s s3 := h.modArea.report.modArea
  refine .ite h3.report ?_
  extract_lets +onlyGivenNames s4 s5
  have h4 : AreasKept s s4 := .ite h3 h3.abandon
  have h5 : AreasKept s s5 := h4.frame
  exact h5.modArea

theorem AreasKept.failStepAt {a : Nat} {st : Step} (h : AreasKept s t) : AreasKept s (failStepAt a st t) :=
  .ite h.report (.ite h.abandon.rejoinAll (.ite h.secondFailure h.count.modArea.abandon.rejoinAll))

theorem AreasKept.commitOldest {a : Nat} (h : AreasKept s t) : AreasKept s (commitOldest a t) := by
  unfold Machine.commitOldest
  extract_lets +onlyGivenNames j
  refine .ite h ?_
  split
  · exact h
  · refine .ite h ?_
    extract_lets +onlyGivenNames s1
    have h1 : AreasKept s s1 := .ite h h.endPick
    extract_lets +onlyGivenNames s2
    have h2 : AreasKept s s2 := h1.toPick
    split
    · exact h2
    · exact .ite h2 (.ite h2.commitStep h2.failStepAt)

theorem AreasKept.commitBefore {a p f : Nat} (h : AreasKept s t) : AreasKept s (commitBefore a p f t) := by
  induction f generalizing t with
  | zero => exact h
  | succ f ih =>
    unfold Machine.commitBefore
    split
    · exact .ite (ih h.commitOldest) h
    · exact h

/-! ### The functions of Sys2Proof/Machine/Shuttle.lean -/

theorem AreasKept.queueFrame {p : Nat} {f : List Byte} (h : AreasKept s t) : AreasKept s (queueFrame p f t) := .ite h h.modSht

theorem AreasKept.sendTally {p : Nat} {t' : TxSlot} (h : AreasKept s t) : AreasKept s (sendTally p t' t) :=
  .ite (.ite h.modSht h) ((AreasKept.ite h.modSht h).noteSour)

theorem AreasKept.takeFour {p : Nat}
    (h : AreasKept s t) : AreasKept s (takeFour p t).2.2 := .ite22 h.modAtt.pair22 h.modAtt.freshValue.reportEdge.pair22

theorem AreasKept.frameSlot {p : Nat} {t' : TxSlot} (h : AreasKept s t) : AreasKept s (frameSlot p t' t) := h.modSht

theorem AreasKept.takeSlot {p P : Nat} {e : Nat × PlanStep × Nat × Nat} {i : Nat} (h : AreasKept s t) : AreasKept s (takeSlot p P e i t) := by
  unfold Machine.takeSlot
  split
  · exact .ite h (.ite h.takeFour.frameSlot (.ite (.ite h.report h.takeFour.modSht) h.frameSlot))

theorem AreasKept.resolveRelease {p : Nat} {t' : TxSlot} (h : AreasKept s t) : AreasKept s (resolveRelease p t' t) := by
  unfold Machine.resolveRelease
  extract_lets +onlyGivenNames s1
  have h1 : AreasKept s s1 := h.modSht
  split
  · exact h1.report
  · exact .ite h1.modSht.frameSlot h1.report

theorem AreasKept.portDown {p : Nat} (h : AreasKept s t) : AreasKept s (portDown p t) := .ite h.modSht.reportUnit h.modSht

theorem AreasKept.rxLaneFail {p lane : Nat} (h : AreasKept s t) : AreasKept s (rxLaneFail p lane t) := .ite h.modSht (.ite h.modSht.portDown h.modSht)

theorem AreasKept.unlockPort {p : Nat} (h : AreasKept s t) : AreasKept s (unlockPort p t) := h.modSht

theorem AreasKept.lockPort {p : Nat} (h : AreasKept s t) : AreasKept s (lockPort p t) := .ite h.modSht h

theorem AreasKept.rxFold {p P : Nat} {got : Nat → Option (Nat × BitVec 4096)} (h : AreasKept s t) : AreasKept s (rxFold p P got t) := by
  unfold Machine.rxFold
  split
  · exact h
  · exact .ite h (.ite h h.modSht)

theorem AreasKept.rxSlot {p P : Nat} {h' : List Byte} {f : RxFrame} {i : Nat} (h : AreasKept s t) : AreasKept s (rxSlot p P h' f i t) :=
  .ite (.ite h h.modSht) h.report

theorem AreasKept.takeHeader {p : Nat} {h' : List Byte} (h : AreasKept s t) : AreasKept s (takeHeader p h' t) := h.modSht

theorem AreasKept.pushOut {p : Nat} {f : Flit} (h : AreasKept s t) : AreasKept s (pushOut p f t) := .ite h.modAtt h.reportEdge

theorem AreasKept.pushSlot {p P : Nat} {aligned : Bool} {i : Nat} (h : AreasKept s t) : AreasKept s (pushSlot p P aligned i t) := by
  unfold Machine.pushSlot
  split
  · exact h.freshValue.report.modSht.each (fun _ _ hq => hq.pushOut)
  · exact (AreasKept.ite h.report h).each (fun _ _ hq => hq.pushOut)

theorem AreasKept.sendHello {p : Nat} (h : AreasKept s t) : AreasKept s (sendHello p t) := h.queueFrame

/-! ### The functions of Sys2Proof/Machine/Time.lean -/

theorem AreasKept.setLocked {b : Bool} (h : AreasKept s t) : AreasKept s (setLocked b t) := by
  unfold Machine.setLocked
  extract_lets +onlyGivenNames s1
  have h1 : AreasKept s s1 := .ite h h.frame
  exact h1.frame

theorem AreasKept.masterTime (h : AreasKept s t) : AreasKept s (masterTime t) := .ite h.frame.setLocked h.frame.setLocked

theorem AreasKept.followPort {p : Nat} (h : AreasKept s t) : AreasKept s (followPort p t) := h.frame.setLocked

theorem AreasKept.shiftTheta {d : ℤ} (h : AreasKept s t) : AreasKept s (shiftTheta d t) := h.frame

theorem AreasKept.startHoldover (h : AreasKept s t) : AreasKept s (startHoldover t) := h.frame.count

theorem AreasKept.adoptOffer {p : Nat} (h : AreasKept s t) : AreasKept s (adoptOffer p t) := h.frame.modSht.count.followPort

theorem AreasKept.newCount (h : AreasKept s t) : AreasKept s (newCount t) := h.frame

theorem AreasKept.takeTime {p : Nat} (h : AreasKept s t) : AreasKept s (takeTime p t) := h.frame.shiftTheta.newCount

/-! ### The functions of Sys2Proof/Machine/Fabric.lean -/

theorem AreasKept.helloLost {p : Nat} (h : AreasKept s t) : AreasKept s (helloLost p t) := h.modSht.unlockPort

theorem AreasKept.failSkim {a cause : Nat} (h : AreasKept s t) : AreasKept s (failSkim a cause t) := h.modArea.skimFailRecord

theorem AreasKept.skimFeedCheck {p : Nat} (h : AreasKept s t) : AreasKept s (skimFeedCheck p t) :=
  .ite (h.each (fun _ _ hq => (AreasKept.ite hq.failSkim hq).modArea)) h

theorem AreasKept.takeHello {p : Nat} {h' : List Byte} (h : AreasKept s t) : AreasKept s (takeHello p h' t) := by
  unfold Machine.takeHello
  extract_lets +onlyGivenNames x
  refine .ite h ?_
  extract_lets +onlyGivenNames serial changed q mis ok s1
  have h1 : AreasKept s s1 := h.modSht
  extract_lets +onlyGivenNames s2
  have h2 : AreasKept s s2 := .ite h1.count h1
  extract_lets +onlyGivenNames s3
  have h3 : AreasKept s s3 := .ite h2.sendHello h2
  exact .ite ((AreasKept.ite h3 h3.skimFeedCheck).lockPort) ((AreasKept.ite h3 h3.skimFeedCheck).unlockPort)

theorem AreasKept.helloAgain {p : Nat} (h : AreasKept s t) : AreasKept s (helloAgain p t) := by
  unfold Machine.helloAgain
  extract_lets +onlyGivenNames x
  split
  · exact h
  · exact .ite h.modSht h.modSht.unlockPort

theorem AreasKept.reroute {d : Nat} (h : AreasKept s t) : AreasKept s (reroute d t) := by
  unfold Machine.reroute
  refine .ite h ?_
  extract_lets +onlyGivenNames s1
  have h1 : AreasKept s s1 := .ite h.count h
  exact h1.frame

theorem AreasKept.conflictCheck (h : AreasKept s t) : AreasKept s (conflictCheck t) := .ite h.frame h

theorem AreasKept.takeRoute {p : Nat} {pay : List Byte} (h : AreasKept s t) : AreasKept s (takeRoute p pay t) := by
  unfold Machine.takeRoute
  refine .ite h ?_
  extract_lets +onlyGivenNames f ad s1
  have h1 : AreasKept s s1 := h.modSht
  exact (AreasKept.ite h1.frame.reportUnit.conflictCheck h1).each (fun _ _ hq => hq.reroute)

theorem AreasKept.routeFrame {f : List Byte} (h : AreasKept s t) : AreasKept s (routeFrame f t) := .ite h.queueFrame h.count

theorem AreasKept.startRouted {type vc dst : Nat} {pay : List Byte} (h : AreasKept s t) : AreasKept s (startRouted type vc dst pay t) := h.routeFrame

theorem AreasKept.serveRma {f : List Byte} (h : AreasKept s t) : AreasKept s (serveRma f t) :=
  .ite h.startRouted (.ite h.elasticWrite.startRouted h.elasticGrains.startRouted)

theorem AreasKept.modRma {tag : Nat} {g : Rma → Rma} (h : AreasKept s t) : AreasKept s (modRma tag g t) := h.frame

theorem AreasKept.pumpRma {k : Nat} (h : AreasKept s t) : AreasKept s (pumpRma k t) := by
  induction k generalizing t with
  | zero => exact h
  | succ k ih =>
    unfold Machine.pumpRma
    split
    · exact h
    · exact .ite (ih h.modRma.startRouted) (ih h.modRma)

theorem AreasKept.addRmas {l : List Rma} (h : AreasKept s t) : AreasKept s (addRmas l t) := h.frame.pumpRma

theorem AreasKept.restoreSeal {j : RemoteJob} {x : Restore} {l : List Rma} (h : AreasKept s t) : AreasKept s (restoreSeal j x l t) := by
  unfold Machine.restoreSeal
  extract_lets +onlyGivenNames recs good best
  clear_value best
  split
  · exact .mbxComplete h.frame
  · exact .addRmas h.frame

theorem AreasKept.restoreRanges {j : RemoteJob} {l : List Rma} {r : List Byte} (h : AreasKept s t) : AreasKept s (restoreRanges j l r t) := by
  unfold Machine.restoreRanges
  extract_lets +onlyGivenNames all x
  have hx : AreasKept s x.2.2 := .foldl (fun y : Nat × Option Nat × State => y.2.2) h fun _ _ hq => hq.elasticWrite
  clear_value x
  split
  · exact .mbxComplete hx.frame
  · exact .mbxComplete hx.frame

theorem AreasKept.finishRemote {j : RemoteJob} (h : AreasKept s t) : AreasKept s (finishRemote j t) := by
  unfold Machine.finishRemote
  extract_lets +onlyGivenNames l
  refine .ite h ?_
  extract_lets +onlyGivenNames _ s1 st
  have h1 : AreasKept s s1 := h.frame
  have h2 : AreasKept s { s1 with remote := s1.remote.filter fun y => y.id != j.id } := h1.frame
  split
  · exact h2.mbxComplete
  · refine .ite h2.mbxComplete ?_
    split
    · exact h1.restoreSeal
    · exact h1.restoreRanges

theorem AreasKept.settleRemote {k : Nat} (h : AreasKept s t) : AreasKept s (settleRemote k t) := by
  induction k generalizing t with
  | zero => exact h
  | succ k ih =>
    unfold Machine.settleRemote
    split
    · exact ih h.finishRemote
    · exact h

theorem AreasKept.stirRemote (h : AreasKept s t) : AreasKept s (stirRemote t) := h.pumpRma.settleRemote

theorem AreasKept.answerRma {tag st sours : Nat} {data : List Byte} (h : AreasKept s t) : AreasKept s (answerRma tag st sours data t) := by
  unfold Machine.answerRma
  split
  · exact h
  · extract_lets +onlyGivenNames s1
    have h1 : AreasKept s s1 := h.modRma
    split
    · exact h1
    · exact (AreasKept.ite h1.frame.toHost h1.frame).stirRemote

theorem AreasKept.takeRsp {f : List Byte} (h : AreasKept s t) : AreasKept s (takeRsp f t) := .ite h h.answerRma

theorem AreasKept.buildTally {p a : Nat} {st : Step} (h : AreasKept s t) : AreasKept s (buildTally p a st t) := by
  unfold Machine.buildTally
  split
  · exact h
  · split
    · exact h
    · exact .ite h h.toPick.modSht.queueFrame

theorem AreasKept.takeTally {p : Nat} {pay : List Byte} (h : AreasKept s t) : AreasKept s (takeTally p pay t) := by
  unfold Machine.takeTally
  split
  · exact h
  · extract_lets +onlyGivenNames k
    split
    · exact .ite h (.ite h.modSht.modAreg h.modSht.modAreg.modArea.heddleStatus.report)
    · exact h

theorem AreasKept.modFbSrc {e p : Nat} {g : FbSrc → FbSrc} (h : AreasKept s t) : AreasKept s (modFbSrc e p g t) := h.frame

theorem AreasKept.modFbDst {e p : Nat} {g : FbDst → FbDst} (h : AreasKept s t) : AreasKept s (modFbDst e p g t) := h.frame

theorem AreasKept.creelRows {n i k o : Nat} (h : AreasKept s t) : AreasKept s (creelRows n i k o t).2 := by
  induction k generalizing t o with
  | zero => exact h
  | succ k ih => exact ih h.mmRead

theorem AreasKept.sendGrant {exch peer : Nat} (h : AreasKept s t) : AreasKept s (sendGrant exch peer t) := by
  unfold Machine.sendGrant
  split
  · exact h
  · exact .ite h h.startRouted

theorem AreasKept.pushRows {n ci : Nat} {rows : List (BitVec 512)} (h : AreasKept s t) : AreasKept s (pushRows n ci rows t) := h.modMm

theorem AreasKept.takePage {f : List Byte} (h : AreasKept s t) : AreasKept s (takePage f t) := by
  unfold Machine.takePage
  extract_lets +onlyGivenNames h' exid peer
  split
  · exact h.count
  · exact .ite h ((AreasKept.ite h.pushRows.modFbDst.modAreg h.pushRows.modFbDst).sendGrant)

theorem AreasKept.takeGrant {f : List Byte} (h : AreasKept s t) : AreasKept s (takeGrant f t) := by
  unfold Machine.takeGrant
  extract_lets +onlyGivenNames h' exid peer
  split
  · exact h
  · exact .ite h h.modMm.modFbSrc

theorem AreasKept.deliverFrame {f : List Byte} (h : AreasKept s t) : AreasKept s (deliverFrame f t) := by
  unfold Machine.deliverFrame
  split
  · exact h.serveRma
  · exact h.serveRma
  · exact h.takeRsp
  · exact h.takePage
  · exact h.takeGrant
  · exact h

theorem AreasKept.takeRouted {f : List Byte} (h : AreasKept s t) : AreasKept s (takeRouted f t) := .ite h.deliverFrame (.ite h.count h.routeFrame)

theorem AreasKept.acceptFrame {p : Nat} {f : List Byte} (h : AreasKept s t) : AreasKept s (acceptFrame p f t) :=
  .ite h.takeHello (.ite h (.ite h.takeRoute (.ite (.ite h.takeTally h) h.takeRouted)))

/-! ### The functions of Sys2Proof/Machine/Fence.lean -/

theorem AreasKept.allowCheck (h : AreasKept s t) : AreasKept s (allowCheck t) := .ite h.frame.reportUnit h.frame

theorem AreasKept.fenceNew {unit entry : Nat} (h : AreasKept s t) : AreasKept s (fenceNew unit entry t) := h.report

theorem AreasKept.fenceEntry {n : Nat} {f : Nat → Nat} (h : AreasKept s t) : AreasKept s (fenceEntry n f t) := .ite h.frame.fenceNew h.frame

theorem AreasKept.fenceSite {n cause : Nat} {swOff unreach : Bool}
    (h : AreasKept s t) : AreasKept s (fenceSite n cause swOff unreach t) := h.fenceEntry

theorem AreasKept.fenceLink {n p cause : Nat} (h : AreasKept s t) : AreasKept s (fenceLink n p cause t) := by
  unfold Machine.fenceLink
  extract_lets +onlyGivenNames off s1
  have h1 : AreasKept s s1 := h.fenceEntry
  split
  · exact h1.fenceEntry
  · exact h1

theorem AreasKept.fenceFailure {f : SiteFailure} {cause : Nat} (h : AreasKept s t) : AreasKept s (fenceFailure f cause t) :=
  .ite h ((AreasKept.ite h.fenceSite h).each (fun _ _ hq => hq.fenceLink))

theorem AreasKept.fenceRegion {r st : Nat} (h : AreasKept s t) : AreasKept s (fenceRegion r st t) := .ite h.frame.fenceNew h.frame

theorem AreasKept.setChannel {k c rate : Nat} {fail : Bool} (h : AreasKept s t) : AreasKept s (setChannel k c rate fail t) := by
  unfold Machine.setChannel
  extract_lets +onlyGivenNames s1
  have h1 : AreasKept s s1 := h.modStack
  exact h1.frame

theorem AreasKept.adjustUnit {u : WatchUnit} (h : AreasKept s t) : AreasKept s (adjustUnit u t) := by
  unfold Machine.adjustUnit
  extract_lets +onlyGivenNames n _ s1 _ s2
  have h1 : AreasKept s s1 := .count h.frame
  have h2 : AreasKept s s2 := h1.frame
  split
  · exact .ite h2.modStack h2.setChannel.flashWrite
  · exact .ite h2.modSht h2.modSht
  · exact h2

/-! ### The functions of Sys2Proof/Machine/Su.lean -/

theorem AreasKept.suFault {code n : Nat} (h : AreasKept s t) : AreasKept s (suFault code n t) := h.reportProg

theorem AreasKept.suNextAt {n t' : Nat} (h : AreasKept s t) : AreasKept s (suNextAt n t' t) := h.modSu

theorem AreasKept.suNext {n : Nat} (h : AreasKept s t) : AreasKept s (suNext n t) := h.suNextAt

theorem AreasKept.suStartDue {n t' : Nat} (h : AreasKept s t) : AreasKept s (suStartDue n t' t) := by
  unfold Machine.suStartDue
  split
  · exact h.startDue
  · exact h

theorem AreasKept.suReserved {n : Nat} (h : AreasKept s t) : AreasKept s (suReserved n t) := h.suFault.modSu

theorem AreasKept.suIssue {op n : Nat} {w : W64} {f : State → State}
    (h : AreasKept s t) (hf : ∀ q, AreasKept s q → AreasKept s (f q)) : OutKept s (suIssue op n w f t) := by
  unfold Machine.suIssue
  refine h.onSite fun q hq => ?_
  extract_lets +onlyGivenNames u
  refine .ite hq ?_
  extract_lets +onlyGivenNames s1
  have h1 : AreasKept s s1 := hq.suStartDue
  exact .ite h1.runTo.suFault.modSu (.ite (hf _ h1.runTo.suClock.excUp) (.ite h1.runTo.suReserved h1))

theorem AreasKept.suTimed {n t' : Nat} {late : Bool} {a : Timed} {f : State → State}
    (h : AreasKept s t) (hf : ∀ q, AreasKept s q → AreasKept s (f q)) : AreasKept s (suTimed n t' late a f t) :=
  .ite h.suFault.suNext (.ite h.suFault.suNext ((hf _ h.modSu).suNext))

theorem AreasKept.suCond {n : Nat} {c : Cond} (h : AreasKept s t) : AreasKept s (suCond n c t) := .ite h.suFault.suNext h.modSu.suNext

theorem AreasKept.joinComplete {n : Nat} (h : AreasKept s t) : AreasKept s (joinComplete n t) := by
  unfold Machine.joinComplete
  extract_lets +onlyGivenNames u
  split
  · exact h
  · split
    · exact .ite h.modSu.modSu.startDue.modArea.report h.modSu
    · exact h

theorem AreasKept.noteSlack {x : Nat} (h : AreasKept s t) : AreasKept s (noteSlack x t) := by
  unfold Machine.noteSlack
  split
  · exact h.frame
  · exact h

theorem AreasKept.rootStart {n : Nat} (h : AreasKept s t) : AreasKept s (rootStart n t) := by
  unfold Machine.rootStart
  extract_lets +onlyGivenNames u
  split
  · exact h
  · split
    · exact h
    · exact .ite h.modSu.joinComplete.noteSlack h

theorem AreasKept.takeBarrier {su : Nat} {j : Join} {f : Flit} (h : AreasKept s t) : AreasKept s (takeBarrier su j f t) := by
  unfold Machine.takeBarrier
  extract_lets +onlyGivenNames s1
  have h1 : AreasKept s s1 := .ite h.modSu h
  exact .ite h1 (.ite (.ite h1.report h1) (.ite h1.modSu (.ite h1 (((AreasKept.ite h1.noteSlack h1).modSu).joinComplete))))

theorem AreasKept.barrierLate {a su p : Nat} {x : PlanStep} (h : AreasKept s t) : AreasKept s (barrierLate a su p x t) :=
  .ite h.report h.report.secondFailure

theorem AreasKept.sampValue {n kind src site v : Nat} {r : State}
    (h : AreasKept s t) (e : sampValue n kind src site t = some (v, r)) : AreasKept s r := by
  unfold Machine.sampValue at e
  dsimp only at e
  split at e
  · split at e
    · cases e; exact h
    · cases e
  · split at e
    · obtain ⟨x, -, e⟩ := Option.map_eq_some_iff.1 e
      cases e; exact h
    · split at e
      · cases e; exact h.modSw
      · cases e

/-! ### The functions of Sys2Proof/Machine/Job.lean -/

theorem AreasKept.resetExchanges {a : Nat} (h : AreasKept s t) : AreasKept s (resetExchanges a t) := h.frame

theorem AreasKept.jobBegin {a P : Nat} {exact : Bool}
    (h : AreasKept s t) : AreasKept s (jobBegin a P exact t) := h.frame.modAreg.resetExchanges.modArea

theorem AreasKept.fenceUnit {u : WatchUnit} (h : AreasKept s t) : AreasKept s (fenceUnit u t) := by
  unfold Machine.fenceUnit
  split
  · exact h.fenceEntry
  · exact h.fenceLink
  · exact h

theorem AreasKept.patchSite {bank : Nat} {r : Rec} (h : AreasKept s t) : AreasKept s (patchSite bank r t) :=
  .ite h.writeRec.modMm (.ite (.ite h.writeRec.modMx h.writeRec.modSf) (.ite h.writeRec.applyInit h.writeRec))

theorem AreasKept.returnToService {a : Nat} (h : AreasKept s t) : AreasKept s (returnToService a t) := h.report.modArea

theorem AreasKept.resumeAt {a k P : Nat} (h : AreasKept s t) : AreasKept s (resumeAt a k P t) := by
  unfold Machine.resumeAt
  extract_lets +onlyGivenNames s1
  have h1 : AreasKept s s1 := h.toPick
  extract_lets +onlyGivenNames s2
  have h2 : AreasKept s s2 := h1.rejoinAll
  refine h2.each fun _ q hq => ?_
  split
  · exact hq.modSu.selectPage
  · exact hq

/-! ### The functions of Sys2Proof/Machine/Host.lean -/

theorem AreasKept.askDrst (h : AreasKept s t) : AreasKept s (askDrst t) := h.frame.refreshPins

theorem AreasKept.hpcDrst {value : Nat} (h : AreasKept s t) : AreasKept s (hpcDrst value t) := .ite h.askDrst h

theorem AreasKept.abortLoad {a : Nat} (h : AreasKept s t) : AreasKept s (abortLoad a t) := by
  unfold Machine.abortLoad
  split
  · exact h.modArea.mbxComplete
  · exact h

theorem AreasKept.abortRemote {sel : RemoteJob → Bool} (h : AreasKept s t) : AreasKept s (abortRemote sel t) :=
  (h.frame.each (fun _ _ hq => hq.mbxComplete)).stirRemote

theorem AreasKept.dropBulkOps {id : Nat} (h : AreasKept s t) : AreasKept s (dropBulkOps id t) := h.frame

theorem AreasKept.abortBulk {sel : BulkJob → Bool} (h : AreasKept s t) : AreasKept s (abortBulk sel t) :=
  h.frame.each (fun _ _ hq => hq.dropBulkOps.mbxComplete)

theorem AreasKept.abortArea {a : Nat} (h : AreasKept s t) : AreasKept s (abortArea a t) := by
  unfold Machine.abortArea
  exact h.commitBefore.abortBulk.abortRemote.endJob

theorem AreasKept.abortPosted {p m : Nat} (h : AreasKept s t) : AreasKept s (abortPosted p m t) :=
  h.each (fun _ _ hq => hq.each (fun _ _ hq => .ite hq hq.modMbx.mbxComplete))

theorem AreasKept.abortAll {p m : Nat} {all : Bool} {mask : Nat} (h : AreasKept s t) : AreasKept s (abortAll p m all mask t) :=
  .ite ((h.toPick.each (fun _ _ hq => hq.abortArea)).abortPosted) (h.toPick.each (fun _ _ hq => hq.abortArea))

theorem AreasKept.abortDone {p mask : Nat} (h : AreasKept s t) : AreasKept s (abortDone p mask t) := h.modPort.msix

theorem AreasKept.hpcAbort {port value : Nat} (h : AreasKept s t) : AreasKept s (hpcAbort port value t) :=
  .ite h (.ite h.modPort.abortAll.abortDone h.modPort)

theorem AreasKept.hubAbort {p : Nat} (h : AreasKept s t) : AreasKept s (hubAbort p t) :=
  .ite h (((((AreasKept.ite h.runTo h).abortAll).abortDone).modPort).count)

theorem AreasKept.mmQuietRead {n b r : Nat} (h : AreasKept s t) : AreasKept s (mmQuietRead n b r t).2.2 := h.modMm.mmCorrected.pair22

theorem AreasKept.sramRead {n b r : Nat} (h : AreasKept s t) : AreasKept s (sramRead n b r t).2.2 := by
  unfold Machine.sramRead
  split
  · exact .ite22 h.pair22 h.mmQuietRead.pair22
  · exact h.pair22
  · exact h.pair22
  · exact h.pair22

theorem AreasKept.sramWrite {n b r : Nat} {d : List Byte} (h : AreasKept s t) : AreasKept s (sramWrite n b r d t) := by
  unfold Machine.sramWrite
  split
  · exact .ite h h.modMm
  · exact h.modMx
  · exact h.modSf
  · exact h

theorem AreasKept.sramReads {n b k r : Nat} (h : AreasKept s t) : AreasKept s (sramReads n b k r t).2.2 := by
  induction k generalizing t r with
  | zero => exact h
  | succ k ih => exact ih h.sramRead

theorem AreasKept.sramWrites {n b k r : Nat} {d : List Byte} (h : AreasKept s t) : AreasKept s (sramWrites n b k r d t) := by
  induction k generalizing t r d with
  | zero => exact h
  | succ k ih => exact ih h.sramWrite

theorem AreasKept.bulkEnd {p m : Nat} {ok fails : Bool} {st detail : Nat} (h : AreasKept s t) : AreasKept s (bulkEnd p m ok fails st detail t) :=
  .ite h.count.mbxDone (.ite h.mbxDone h.mbxComplete)

theorem AreasKept.bulkStart {p m : Nat} {b : BulkPar} {st : Nat} {ops : Nat → List EdgeOp} {total : Nat} {dests : List (Nat × Nat)}
    (h : AreasKept s t) : AreasKept s (bulkStart p m b st ops total dests t) :=
  h.frame.modMm

theorem AreasKept.noteFault {p : Nat} {fails : Bool} (h : AreasKept s t) : AreasKept s (noteFault p fails t) := .ite h.count h

theorem AreasKept.bulkWrite {p m : Nat} {b : BulkPar} {l : List (Nat × Nat)} {ok fails : Bool}
    (h : AreasKept s t) : AreasKept s (bulkWrite p m b l ok fails t) :=
  .ite h.elasticWrite.bulkEnd (.ite h.sramWrites.bulkEnd (.ite h.bulkEnd h.noteFault.bulkStart))

theorem AreasKept.creelQuiet {n ci o : Nat} (h : AreasKept s t) : AreasKept s (creelQuiet n ci o t).2.2 := by
  unfold Machine.creelQuiet
  extract_lets +onlyGivenNames c
  refine .ite22 h.pair22 ?_
  extract_lets +onlyGivenNames r x
  have hx : AreasKept s x.2 := .foldl Prod.snd h fun _ _ hq => hq.dmaRow
  exact .ite22 hx.pair22 hx.pair22

theorem AreasKept.bulkCreelQuiet {p m : Nat} {b : BulkPar} {l : List (Nat × Nat)} {ok fails : Bool} (h : AreasKept s t) :
    AreasKept s (bulkCreelQuiet p m b l ok fails t) := by
  unfold Machine.bulkCreelQuiet
  extract_lets +onlyGivenNames n ci c
  refine .ite h.mbxDone ?_
  extract_lets +onlyGivenNames q off good x
  have hx : AreasKept s x.2.2 := .foldl (fun y : List Byte × Nat × State => y.2.2) h fun _ _ hq => hq.creelQuiet
  exact .bulkEnd (.ite hx.toHost.modMm hx.toHost)

theorem AreasKept.bulkRead {p m : Nat} {b : BulkPar} {l : List (Nat × Nat)} {ok fails : Bool}
    (h : AreasKept s t) : AreasKept s (bulkRead p m b l ok fails t) := by
  unfold Machine.bulkRead
  extract_lets +onlyGivenNames n k
  refine .ite h.elasticRead.toHost.bulkEnd ?_
  exact .ite h.sramReads.toHost.bulkEnd (.ite h.bulkCreelQuiet (.ite h.bulkEnd h.noteFault.bulkStart))

theorem AreasKept.bulkReturn {j : BulkJob} {op st : Nat} {data : BitVec 512} {sour : Nat}
    (h : AreasKept s t) : AreasKept s (bulkReturn j op st data sour t) := by
  unfold Machine.bulkReturn
  extract_lets +onlyGivenNames i isDrain s1
  have h1 : AreasKept s s1 := .ite h.toHost h
  extract_lets +onlyGivenNames code s2
  have h2 : AreasKept s s2 := h1.bulkDone
  split
  · exact .ite (.ite h2.bulkFinish h2.modMm) h2
  · exact h2

theorem AreasKept.startRemote {p m : Nat} {write : Bool} {c : Tab Byte} (h : AreasKept s t) : AreasKept s (startRemote p m write c t) :=
  .ite h.mbxDone (.ite h.mbxDone h.frame.addRmas.stirRemote)

/-! ### The functions of Sys2Proof/Machine/RegView.lean -/

theorem AreasKept.triPut {t' : Tri} {f : TriField} (h : AreasKept s t) : AreasKept s (triPut t' f t) := by
  unfold Machine.triPut
  split
  · exact h.frame
  · exact h.frame
  · exact h.frame
  · exact h.frame
  · exact h.frame
  · exact h.frame
  · exact h.frame
  · exact h.frame
  · exact h
  · exact h.modArea
  · exact h.modMm
  · exact h.modStack
  · exact h.modStack
  · exact h.modStack

theorem AreasKept.voteOne {f : TriField} (h : AreasKept s t) : AreasKept s (voteOne f t) := by
  unfold Machine.voteOne
  extract_lets +onlyGivenNames x
  refine .ite h ?_
  extract_lets +onlyGivenNames s1 _ s2
  have h1 : AreasKept s s1 := h.triPut
  have h2 : AreasKept s s2 := .count h1.frame
  exact .ite (.reportUnit h2.frame) h2

theorem AreasKept.vote {f : TriField} (h : AreasKept s t) : AreasKept s (vote f t) := h.each (fun _ _ hq => hq.voteOne)

/-! ### The functions of Sys2Proof/Machine/Regs.lean -/

theorem AreasKept.wrote (h : AreasKept s t) : AreasKept s (wrote t).2 := h.pair2

theorem AreasKept.refused {c : RegCode} (h : AreasKept s t) : AreasKept s (refused c t).2 := h.pair2

theorem AreasKept.unlessLive {live : Bool} {f : State → State}
    (h : AreasKept s t) (hf : ∀ q, AreasKept s q → AreasKept s (f q)) : AreasKept s (unlessLive live f t).2 :=
  .ite2 h.refused ((hf _ h).wrote)

theorem AreasKept.recap (h : AreasKept s t) : AreasKept s (recap t) := h.frame

theorem AreasKept.reloadLimits (h : AreasKept s t) : AreasKept s (reloadLimits t) := h.frame

theorem AreasKept.applyPwr (h : AreasKept s t) : AreasKept s (applyPwr t) := h.frame.recap

theorem AreasKept.applyThm (h : AreasKept s t) : AreasKept s (applyThm t) := by
  unfold Machine.applyThm
  split
  · exact h.frame
  · exact h

theorem AreasKept.applyPmon {blk : Nat} (h : AreasKept s t) : AreasKept s (applyPmon blk t) := h.frame

theorem AreasKept.applyBlock {blk : Nat} (h : AreasKept s t) : AreasKept s (applyBlock blk t) := .ite h.applyPwr (.ite h.applyThm h.applyPmon)

theorem AreasKept.shadowDue {blk : Nat} (h : AreasKept s t) : AreasKept s (shadowDue blk t) := .ite h.applyBlock h

theorem AreasKept.shadowWrite {blk : Nat} {f : State → State}
    (h : AreasKept s t) (hf : ∀ q, AreasKept s q → AreasKept s (f q)) : AreasKept s (shadowWrite blk f t) :=
  hf _ h.frame

theorem AreasKept.writeCap {v : Nat} (h : AreasKept s t) : AreasKept s (writeCap v t).2 :=
  .ite2 h.shadowDue.refused ((h.shadowDue.shadowWrite (fun _ hq => hq.frame)).wrote)

theorem AreasKept.writePwrStage {v : Nat} (h : AreasKept s t) : AreasKept s (writePwrStage v t).2 := by
  unfold Machine.writePwrStage
  extract_lets +onlyGivenNames s1
  have h1 : AreasKept s s1 := h.shadowDue
  refine .ite2 h1.wrote ?_
  refine .ite2 h1.reloadLimits.refused ?_
  exact .ite2 h1.reloadLimits.refused (((h1.shadowWrite (fun _ hq => hq.frame)).reloadLimits).wrote)

theorem AreasKept.writeCal {i v : Nat} (h : AreasKept s t) : AreasKept s (writeCal i v t).2 :=
  .ite2 h.wrote (.ite2 h.refused ((AreasKept.ite h.frame h.frame.count).wrote))

theorem AreasKept.writeMmStage {n v : Nat} (h : AreasKept s t) : AreasKept s (writeMmStage n v t).2 :=
  .ite2 h.refused (.ite2 h.modMm.wrote h.modMm.refused)

theorem AreasKept.modRings {n : Nat} {f : Tab Ring → Tab Ring} (h : AreasKept s t) : AreasKept s (modRings n f t) := .ite h.modMx h.modSf

theorem AreasKept.writeXsStage {n v : Nat} (h : AreasKept s t) : AreasKept s (writeXsStage n v t).2 :=
  .ite2 h.refused (.ite2 h.modRings.wrote h.modRings.refused)

theorem AreasKept.writeMmPwr {n v : Nat} (h : AreasKept s t) : AreasKept s (writeMmPwr n v t).2 := by
  unfold Machine.writeMmPwr
  extract_lets +onlyGivenNames m want changed forced
  refine .ite2 h.refused ?_
  exact .ite2 h.refused (((h.modMm.each (fun _ _ hq => hq.subRequest)).each (fun _ _ hq => hq.subChange)).wrote)

theorem AreasKept.writeMmInj {n v : Nat} (h : AreasKept s t) : AreasKept s (writeMmInj n v t).2 :=
  .ite2 h.refused (.ite2 h.refused (.ite2 h.wrote h.modMm.wrote))

theorem AreasKept.readRdata {n : Nat} (h : AreasKept s t) : AreasKept s (readRdata n t).2 :=
  .ite2 h.refused (.ite2 h.modMm.wrote h.mmQuietRead.modMm.wrote)

theorem AreasKept.writeRdata {n w v : Nat} (h : AreasKept s t) : AreasKept s (writeRdata n w v t).2 :=
  .ite2 h.refused (.ite2 h.modMm.wrote h.modMm.modMm.wrote)

theorem AreasKept.putProg {n b a v : Nat} (h : AreasKept s t) : AreasKept s (putProg n b a v t) := by
  unfold Machine.putProg
  refine .ite h ?_
  split
  · exact h.modMx
  · exact h.modSf
  · exact h.modSu
  · exact h

theorem AreasKept.putStore {n o v : Nat} (h : AreasKept s t) : AreasKept s (putStore n o v t) :=
  .ite (.ite h.modSw (.ite h.modSw h)) (.ite (.ite h h.modSw) (.ite (.ite h (.ite h.modMm (.ite h.modMm h))) h.putProg))

theorem AreasKept.writeSite {n o v : Nat} (h : AreasKept s t) : AreasKept s (writeSite n o v t).2 := by
  unfold Machine.writeSite
  refine .ite2 (h.unlessLive (fun _ hq => hq.putStore)) ?_
  split
  · refine .ite2 (.ite2 h.refused (h.unlessLive (fun _ hq => hq.modMm))) ?_
    refine .ite2 h.writeMmStage ?_
    exact .ite2 h.writeMmPwr (.ite2 h.writeMmInj (.ite2 (.ite2 h.refused h.modMm.wrote) (.ite2 h.writeRdata h.wrote)))
  · exact h.wrote
  · exact .ite2 (.ite2 h.refused (h.unlessLive (fun _ hq => hq.modRings))) (.ite2 h.writeXsStage h.wrote)

theorem AreasKept.writeShtCtl {p v : Nat} (h : AreasKept s t) : AreasKept s (writeShtCtl p v t).2 :=
  .ite2 h.refused ((AreasKept.ite h.modSht.portDown h.modSht).wrote)

theorem AreasKept.writeRoute {d v : Nat} (h : AreasKept s t) : AreasKept s (writeRoute d v t) := .ite h h.frame

theorem AreasKept.writeHub {o v : Nat} (h : AreasKept s t) : AreasKept s (writeHub o v t).2 :=
  .ite2 h.modAreg.wrote (.ite2 h.frame.wrote (.ite2 h.writeRoute.wrote h.wrote))

theorem AreasKept.writeUnit {u : IdxUnit} {v : Nat} (h : AreasKept s t) : AreasKept s (writeUnit u v t).2 := by
  unfold Machine.writeUnit
  split
  · exact h.writeSite
  · exact .ite2 h.writeShtCtl h.wrote
  · exact h.writeHub
  · exact h.wrote

theorem AreasKept.idxWrite {idx site : Nat} {w64 : Bool} {v : Nat} (h : AreasKept s t) : AreasKept s (idxWrite idx site w64 v t).2 := by
  unfold Machine.idxWrite
  extract_lets +onlyGivenNames u
  refine .ite2 h.pair2 (.ite2 h.pair2 ?_)
  have h1 : AreasKept s (Machine.writeUnit u v t).2 := h.writeUnit
  split
  next e => rw [e] at h1; exact h1
  next e => rw [e] at h1; exact h1

theorem AreasKept.idxRead {idx site : Nat} {w64 : Bool} (h : AreasKept s t) : AreasKept s (idxRead idx site w64 t).2.2 := by
  unfold Machine.idxRead
  extract_lets +onlyGivenNames u w isData first n r
  refine .ite22 h.pair22 (.ite22 h.pair22 ?_)
  have h1 : AreasKept s r.2 := .ite2 h.readRdata (.ite2 h.refused h.wrote)
  clear_value r
  obtain ⟨_ | c, q⟩ := r
  · exact (h1.each fun _ _ hq => hq.vote).pair22
  · exact h1.pair22

theorem AreasKept.idxDataRead {port w : Nat} (h : AreasKept s t) : AreasKept s (idxDataRead port w t) := by
  unfold Machine.idxDataRead
  extract_lets +onlyGivenNames x w64 r1
  have h1 : AreasKept s r1.2.2 := h.idxRead
  extract_lets +onlyGivenNames d2
  have h2 : AreasKept s d2.2 := by
    unfold d2
    split
    · exact h1.pair2
    · exact h1.freshValue
  exact h2.modWin.modPort

theorem AreasKept.idxDataWrite {w v : Nat} (h : AreasKept s t) : AreasKept s (idxDataWrite w v t) := h.idxWrite.modWin

theorem AreasKept.throughWindow {w idx site v : Nat} (h : AreasKept s t) : AreasKept s (throughWindow w idx site v t) := h.idxWrite.modWin

theorem AreasKept.siteWindow {w n off v : Nat} (h : AreasKept s t) : OutKept s (siteWindow w n off v t) := h.guardUnit (fun _ hq => hq.throughWindow)

theorem AreasKept.planPower {n a : Nat} {st : Step} (h : AreasKept s t) : AreasKept s (planPower n a st t) := by
  unfold Machine.planPower
  extract_lets +onlyGivenNames l
  split
  · exact h
  · exact h.toPick.each (fun _ _ hq => hq.subRequest)

theorem AreasKept.regErr {p off : Nat} {c : RegCode} (h : AreasKept s t) : AreasKept s (regErr p off c t) := h.modPort

theorem AreasKept.refuseOpcode {p m : Nat} (h : AreasKept s t) : AreasKept s (refuseOpcode p m t) := .ite h (.ite h.modMbx.mbxDone h.modMbx.mbxDone)

theorem AreasKept.mbxPost {p m v : Nat} (h : AreasKept s t) : AreasKept s (mbxPost p m v t) := .ite h.count h.modMbx.refuseOpcode

theorem AreasKept.writeHpc {p off v : Nat} (h : AreasKept s t) : AreasKept s (writeHpc p off v t) :=
  .ite h.hpcAbort (.ite h.modPort (.ite h.hpcDrst (.ite h.modPort h)))

theorem AreasKept.writeWin {w o v : Nat} (h : AreasKept s t) : AreasKept s (writeWin w o v t).2 := by
  unfold Machine.writeWin
  refine .ite2 h.modWin.wrote ?_
  refine .ite2 (.ite2 h.refused h.modWin.wrote) ?_
  exact .ite2 h.idxDataWrite.wrote (.ite2 h.modWin.wrote (.ite2 h.modWin.wrote (.ite2 h.modWin.wrote h.wrote)))

theorem AreasKept.writeTim {off v : Nat} (h : AreasKept s t) : AreasKept s (writeTim off v t).2 :=
  .ite2 (.ite2 h.refused h.frame.wrote) (.ite2 h.frame.wrote (.ite2 h.frame.wrote (.ite2 h.frame.wrote h.wrote)))

theorem AreasKept.writeRisk {a v : Nat} (h : AreasKept s t) : AreasKept s (writeRisk a v t).2 := .ite2 h.refused h.modAreg.wrote

theorem AreasKept.writeRas {o v : Nat} (h : AreasKept s t) : AreasKept s (writeRas o v t).2 := .ite2 h.modPort.wrote (.ite2 h.writeRisk h.wrote)

theorem AreasKept.writeLock {v : Nat} (h : AreasKept s t) : AreasKept s (writeLock v t) := h.frame

theorem AreasKept.writePmon {off v : Nat}
    (h : AreasKept s t) : AreasKept s (writePmon off v t) := .ite h (h.shadowDue.shadowWrite (fun _ hq => hq.frame))

theorem AreasKept.barWrite32 {p off v : Nat} (h : AreasKept s t) : AreasKept s (barWrite32 p off v t).2 := by
  unfold Machine.barWrite32
  refine .ite2 h.writeHpc.wrote ?_
  refine .ite2 (.ite2 h.mbxPost.wrote h.wrote) ?_
  refine .ite2 h.writeWin ?_
  refine .ite2 h.modPort.wrote ?_
  refine .ite2 h.writeTim ?_
  refine .ite2 h.frame.wrote ?_
  refine .ite2 h.writeCap ?_
  refine .ite2 h.writePwrStage ?_
  refine .ite2 (.ite2 ((h.shadowDue.shadowWrite (fun _ hq => hq.frame)).wrote) h.refused) ?_
  exact .ite2 h.writeRas (.ite2 h.writeLock.wrote (.ite2 (.ite2 h.writeCal h.wrote) (.ite2 h.writePmon.wrote h.wrote)))

theorem AreasKept.barWrite {p off v : Nat} (h : AreasKept s t) : AreasKept s (barWrite p off v t) := by
  unfold Machine.barWrite
  have h1 : AreasKept s (Machine.barWrite32 p off v t).2 := h.barWrite32
  split
  next e => rw [e] at h1; exact h1
  next e => rw [e] at h1; exact h1.regErr

theorem AreasKept.barAccess {p off size v : Nat} (h : AreasKept s t) : AreasKept s (barAccess p off size v t) :=
  .ite h.barWrite (.ite h.barWrite.barWrite h.regErr)

theorem AreasKept.hostWrite {p off size v : Nat} (h : AreasKept s t) : AreasKept s (hostWrite p off size v t) :=
  .ite h.barAccess.modPort (.ite h.barAccess (h.barAccess.each (fun _ _ hq => hq.barAccess)))

theorem AreasKept.bar2Write {p off size v : Nat} (h : AreasKept s t) : AreasKept s (bar2Write p off size v t) := .ite h.modMbx h

/-! ### The functions of Sys2Proof/Machine/BringUp.lean -/

theorem AreasKept.advanceRollback {bad : List Nat} (h : AreasKept s t) : AreasKept s (advanceRollback bad t) := .ite h.frame.countN h

theorem AreasKept.powerOn {feedId rackPos : Nat} (h : AreasKept s t) : AreasKept s (powerOn feedId rackPos t) :=
  ⟨h.member, fun _ => rfl, fun _ ha => by cases ha⟩

theorem AreasKept.deviceReset {feedId rackPos : Nat} (h : AreasKept s t) : AreasKept s (deviceReset feedId rackPos t) :=
  ⟨h.member, fun _ => rfl, fun _ ha => by cases ha⟩

theorem AreasKept.powerWave {bad : List Nat} (h : AreasKept s t) : AreasKept s (powerWave bad t) := h.each (fun _ _ hq => hq.modRegion)

theorem AreasKept.loadChannels {l : Tab Nat} (h : AreasKept s t) : AreasKept s (loadChannels l t) := h.frame.each (fun _ _ hq => hq.modStack)

theorem AreasKept.buildFence {bad : List Nat} {sites : List SiteFailure} {r : State}
    (h : AreasKept s t) (e : buildFence bad sites t = some r) : AreasKept s r := by
  unfold Machine.buildFence at e
  split at e
  · cases e
  next f _ =>
    extract_lets +onlyGivenNames one s1 s2 s3 s4 s5 s6 at e
    have h1 : AreasKept s s1 := .loadChannels h.frame
    have h2 : AreasKept s s2 := h1.each fun _ _ hq => hq.modRegion
    have h3 : AreasKept s s3 := .ite h2.count h2
    have h4 : AreasKept s s4 := h3.each fun _ _ hq => hq.fenceRegion
    have h5 : AreasKept s s5 := h4.each fun _ _ hq => hq.fenceFailure
    cases e
    exact .ite h5.flashWrite.flashWrite h5.flashWrite

theorem AreasKept.trainChannel {t' : ChannelTraining} (h : AreasKept s t) : AreasKept s (trainChannel t' t) := by
  unfold Machine.trainChannel
  refine .ite h ?_
  extract_lets +onlyGivenNames c s1
  have h1 : AreasKept s s1 := h.modStack
  split
  · exact h1.setChannel
  · exact h1.setChannel

theorem AreasKept.trainStacks {l : List ChannelTraining} (h : AreasKept s t) : AreasKept s (trainStacks l t) :=
  (h.each (fun _ _ hq => hq.trainChannel)).each (fun _ _ hq => hq.modStack)

theorem AreasKept.enableEngines {bad : List Nat} (h : AreasKept s t) : AreasKept s (enableEngines bad t) := h.each (fun _ _ hq => hq.modSht)

theorem AreasKept.microcodeLoad {bad : List SiteFailure} (h : AreasKept s t) : AreasKept s (microcodeLoad bad t) :=
  (h.each (fun _ _ hq => hq.fenceSite)).each (fun _ _ hq => hq.fenceSite)

theorem AreasKept.referenceRun {differ : List SiteFailure} {again : Bool} (h : AreasKept s t) : AreasKept s (referenceRun differ again t) := by
  unfold Machine.referenceRun
  extract_lets +onlyGivenNames set
  refine .ite h.frame.count ?_
  refine .ite h.frame ?_
  extract_lets +onlyGivenNames s1
  have h1 : AreasKept s s1 := h.each (fun _ _ hq => hq.count.fenceSite)
  exact .ite h1.frame.reportUnit h1.frame

theorem AreasKept.flashIfChanged (h : AreasKept s t) : AreasKept s (flashIfChanged t) := .ite h h.flashWrite

theorem AreasKept.bringUpDone {o : BringUpOutcome} {boot : Bool} (h : AreasKept s t) : AreasKept s (bringUpDone o boot t) := by
  unfold Machine.bringUpDone
  extract_lets +onlyGivenNames first _ s1 s2
  have h1 : AreasKept s s1 := h.frame
  have h2 : AreasKept s s2 := .ite h1.reportUnit h1
  exact .refreshPins (.ite h2.advanceRollback h2)

theorem AreasKept.bringUpFail {stage : Nat} (h : AreasKept s t) : AreasKept s (bringUpFail stage t) := h.frame.reportUnit

theorem AreasKept.bringUpFrom3 {o : BringUpOutcome} {boot : Bool} (h : AreasKept s t) : AreasKept s (bringUpFrom3 o boot t) := by
  unfold Machine.bringUpFrom3
  extract_lets +onlyGivenNames bad
  split
  · exact h.bringUpFail
  next r e =>
    have h1 : AreasKept s r := h.buildFence e
    exact (h1.each fun _ _ hq => hq.fenceLink).trainStacks.enableEngines.microcodeLoad.referenceRun.allowCheck.flashIfChanged.bringUpDone

theorem AreasKept.retestRegion {r : Nat} {regulatorOk : Bool} {l : List SiteFailure}
    (h : AreasKept s t) : AreasKept s (retestRegion r regulatorOk l t) :=
  .ite h.fenceRegion (h.fenceRegion.modRegion.each (fun _ _ hq => hq.fenceFailure))

theorem AreasKept.selfTest {inSet : Nat → Bool} {o : TestOutcome} (h : AreasKept s t) : AreasKept s (selfTest inSet o t) := by
  unfold Machine.selfTest
  extract_lets +onlyGivenNames s1
  have h1 : AreasKept s s1 := h.runTo
  extract_lets +onlyGivenNames iso s2
  have h2 : AreasKept s s2 := h1.each (fun _ _ hq => hq.retestRegion)
  exact (((h2.each (fun _ _ hq => hq.fenceFailure)).each (fun _ _ hq => hq.trainChannel)).flashWrite).allowCheck

theorem AreasKept.repairMmRow {p m n b r : Nat} (h : AreasKept s t) : AreasKept s (repairMmRow p m n b r t) := by
  unfold Machine.repairMmRow
  extract_lets +onlyGivenNames x used
  refine .ite h.mbxDone ?_
  refine .ite h.mbxDone ?_
  split
  · exact h.count.mbxCode
  · exact h.modMm.mbxComplete

theorem AreasKept.repairStackRow {p m k c bank row : Nat} {ppr pprOk : Bool}
    (h : AreasKept s t) : AreasKept s (repairStackRow p m k c bank row ppr pprOk t) := by
  unfold Machine.repairStackRow
  extract_lets +onlyGivenNames x v
  refine .ite h.mbxDone ?_
  refine .ite h.mbxDone ?_
  refine .ite (.ite h.mbxComplete h.mbxCode) ?_
  split
  · exact h.count.mbxCode
  · exact h.modStack.mbxComplete

theorem AreasKept.repairSite {p m : Nat} {c : Tab Byte} {f : Nat → State → State}
    (h : AreasKept s t) (hf : ∀ x0 q, AreasKept s q → AreasKept s (f x0 q)) : AreasKept s (repairSite p m c f t) :=
  .ite h.mbxDone (.ite h.mbxDone (.ite h.mbxDone (.ite h.mbxDone (hf _ _ h))))

theorem AreasKept.repairedSite {p m n : Nat} (h : AreasKept s t) : AreasKept s (repairedSite p m n t) := h.flashWrite.allowCheck.mbxComplete

theorem AreasKept.repairChannel {p m : Nat} {c : Tab Byte} {pass : Bool} {f : Nat → Nat → State → State}
    (h : AreasKept s t) (hf : ∀ x0 x1 q, AreasKept s q → AreasKept s (f x0 x1 q)) : AreasKept s (repairChannel p m c pass f t) := by
  unfold Machine.repairChannel
  extract_lets +onlyGivenNames k ch
  refine .ite h.mbxDone ?_
  exact .ite h.mbxDone (.ite h.mbxDone (.ite h.mbxDone (.ite h.mbxCode (((hf _ _ _ h.modStack).flashWrite).mbxComplete))))

/-! ### The functions of Sys2Proof/Machine/Power.lean -/

theorem AreasKept.breakRegion {code r other : Nat} (h : AreasKept s t) : AreasKept s (breakRegion code r other t) := by
  unfold Machine.breakRegion
  split
  · exact h
  · split
    · exact .ite h.report h
    · exact h

theorem AreasKept.enterClamp (h : AreasKept s t) : AreasKept s (enterClamp t) :=
  .ite h ((AreasKept.ite h.frame.reportUnit (h.frame.each (fun _ _ hq => hq.reportArea))).refreshPins)

theorem AreasKept.moveStart (h : AreasKept s t) : AreasKept s (moveStart t) := h.frame

theorem AreasKept.setHold {a h' : Nat} (h : AreasKept s t) : AreasKept s (setHold a h' t) := .ite h.modAreg.count h.modAreg

theorem AreasKept.addEnergy {a : Option Nat} {e : Nat} (h : AreasKept s t) : AreasKept s (addEnergy a e t) := by
  unfold Machine.addEnergy
  split
  · exact h.modAreg
  · exact h.frame

theorem AreasKept.sampleRegion {y : Nat × Nat × Nat × Nat} (h : AreasKept s t) : AreasKept s (sampleRegion y t) := .ite h h.modRegion.addEnergy

theorem AreasKept.checkSupply
    (h : AreasKept s t) : AreasKept s (checkSupply t) := h.each (fun _ _ hq => hq.each (fun _ _ hq => .ite hq.breakRegion hq))

theorem AreasKept.raiseBudgets {l : List Nat} {need : Nat} (h : AreasKept s t) : AreasKept s (raiseBudgets l need t) := by
  induction l generalizing t need with
  | nil => exact h
  | cons r l ih => exact .ite h (.ite (ih h.freshValue.modRegion) (ih h))

theorem AreasKept.shareEnergy {e : Nat} {traffic : List Nat} (h : AreasKept s t) : AreasKept s (shareEnergy e traffic t) :=
  .ite h.addEnergy ((h.each (fun _ _ hq => hq.addEnergy)).addEnergy)

theorem AreasKept.chargeDroop {t' e n : Nat} (h : AreasKept s t) : AreasKept s (chargeDroop t' e n t) := by
  unfold Machine.chargeDroop
  split
  · exact h
  · exact .ite h.modMx.report h.modMx

theorem AreasKept.setFeed {f : Nat} {v : Bool} (h : AreasKept s t) : AreasKept s (setFeed f v t) := h.frame

theorem AreasKept.modGrp {f : Group2 → Group2} (h : AreasKept s t) : AreasKept s (modGrp f t) := h.frame

theorem AreasKept.takeReport {i : Nat} {r : Report} (h : AreasKept s t) : AreasKept s (takeReport i r t) := h.modGrp

theorem AreasKept.pecFail (h : AreasKept s t) : AreasKept s (pecFail t) := h.count

theorem AreasKept.applyAssign {v : Nat} (h : AreasKept s t) : AreasKept s (applyAssign v t) := h.toPick.modGrp.recap

theorem AreasKept.sendAssign {i v : Nat} (h : AreasKept s t) : AreasKept s (sendAssign i v t) := by
  unfold Machine.sendAssign
  split
  · exact h
  · exact .ite h.modGrp.applyAssign h.modGrp.emitSent

theorem AreasKept.beginMove {g : Group2} (h : AreasKept s t) : AreasKept s (beginMove g t) := by
  unfold Machine.beginMove
  extract_lets +onlyGivenNames l
  split
  · exact h
  · split
    · exact h
    · exact .ite h h.modGrp.sendAssign

theorem AreasKept.throttle {r : Nat} (h : AreasKept s t) : AreasKept s (throttle r t) := h.modRegion

theorem AreasKept.judgeThrottle {r : Nat} (h : AreasKept s t) : AreasKept s (judgeThrottle r t) :=
  .ite h.modRegion.throttle.modRegion.report.riskEvent h.modRegion.modRegion

theorem AreasKept.judgePair {r q : Nat} (h : AreasKept s t) : AreasKept s (judgePair r q t) := by
  unfold Machine.judgePair
  extract_lets +onlyGivenNames t' u d h' s1
  have h1 : AreasKept s s1 := .ite ((AreasKept.ite h.throttle h).modRegion) h
  exact .ite h1.breakRegion.riskEvent h1

theorem AreasKept.judgeEnvEnd {r : Nat} (h : AreasKept s t) : AreasKept s (judgeEnvEnd r t) := .ite h.modRegion h

theorem AreasKept.forceSubs {r : Nat} (h : AreasKept s t) : AreasKept s (forceSubs r t) := h.each (fun _ _ hq => hq.subChange)

theorem AreasKept.regionFatal {code r : Nat} (h : AreasKept s t) : AreasKept s (regionFatal code r t) := by
  unfold Machine.regionFatal
  refine .report ?_
  split
  · exact h.commitBefore
  · exact h

theorem AreasKept.tripRegion {r : Nat} (h : AreasKept s t) : AreasKept s (tripRegion r t) :=
  h.forceSubs.fenceRegion.modRegion.regionFatal.flashWrite.allowCheck

theorem AreasKept.judgeCooling {r : Nat} (h : AreasKept s t) : AreasKept s (judgeCooling r t) := h.modRegion

theorem AreasKept.judgeRegion {r : Nat} {v : ℤ} {good : Bool} (h : AreasKept s t) : AreasKept s (judgeRegion r v good t) := by
  unfold Machine.judgeRegion
  split
  · exact h
  · extract_lets +onlyGivenNames s1
    have h1 : AreasKept s s1 := h.modRegion
    exact .ite h1.judgeCooling (.ite h1.tripRegion (((h1.each (fun _ _ hq => hq.judgePair)).judgeEnvEnd).judgeThrottle))

theorem AreasKept.loseSites {r : Nat} (h : AreasKept s t) : AreasKept s (loseSites r t) := h.frame

/-! ### The functions of Sys2Proof/Machine/Recovery.lean -/

theorem AreasKept.scaldFailure {mode : Nat} {f : SiteFailure} (h : AreasKept s t) : AreasKept s (scaldFailure mode f t) :=
  .ite h.fenceFailure.report ((AreasKept.ite h.watchAdd h).each (fun _ _ hq => hq.watchAdd))

theorem AreasKept.modWatch {u : WatchUnit} {f : Watch → Watch} (h : AreasKept s t) : AreasKept s (modWatch u f t) := h.frame

theorem AreasKept.siteTest {u : WatchUnit} {pass : Bool} (h : AreasKept s t) : AreasKept s (siteTest u pass t) := by
  unfold Machine.siteTest
  refine .ite h ?_
  extract_lets +onlyGivenNames s1
  have h1 : AreasKept s s1 := by
    unfold s1
    split
    · exact h.runTo
    · exact h
  extract_lets +onlyGivenNames s2
  have h2 : AreasKept s s2 := h1.modWatch
  refine .ite h2 ?_
  split
  · exact h2.fenceSite.flashWrite.allowCheck
  · exact h2.fenceLink.flashWrite.allowCheck
  · exact h2

theorem AreasKept.unitAdjust {u : WatchUnit} (h : AreasKept s t) : AreasKept s (unitAdjust u t) := by
  unfold Machine.unitAdjust
  split
  · exact h
  · exact .ite h h.adjustUnit.modWatch

theorem AreasKept.evalRisk {a : Nat} (h : AreasKept s t) : AreasKept s (evalRisk a t) := .ite h.modAreg.reportArea h.modAreg

theorem AreasKept.skimWrite {a dst : Nat} {b : List Byte} (h : AreasKept s t) : AreasKept s (skimWrite a dst b t) := h.frame.modArea.queueFrame

theorem AreasKept.skimWrites {a f d : Nat} {b : List Byte} (h : AreasKept s t) : AreasKept s (skimWrites a f d b t) := by
  induction f generalizing t d b with
  | zero => exact h
  | succ f ih => exact .ite h (ih h.skimWrite)

/-! ### Writes of one part of the state, whatever the state is -/

theorem AreasKept.withTime {x} (h : AreasKept s t) : AreasKept s { t with time := x } := h.frame
theorem AreasKept.withPwr {x} (h : AreasKept s t) : AreasKept s { t with pwr := x } := h.frame
theorem AreasKept.withRas {x} (h : AreasKept s t) : AreasKept s { t with ras := x } := h.frame
theorem AreasKept.withSec {x} (h : AreasKept s t) : AreasKept s { t with sec := x } := h.frame
theorem AreasKept.withFab {x} (h : AreasKept s t) : AreasKept s { t with fab := x } := h.frame
theorem AreasKept.withRefDraft {x} (h : AreasKept s t) : AreasKept s { t with mod := { t.mod with refDraft := x } } := h.frame

/-! ## What commands keep -/

/-! ### The commands of Sys2Proof/Machine/Warp.lean -/

theorem AreasKept.execWeaveEntryExec {site out : Nat} (h : AreasKept s t) : OutKept s (execWeaveEntryExec site out t) :=
  h.atSite (fun _ hq => .ite hq.weaveEntry hq)

theorem AreasKept.execFlitArrival {site inp : Nat} {u : LinkUpset} (h : AreasKept s t) : OutKept s (execFlitArrival site inp u t) := by
  unfold Machine.execFlitArrival
  refine h.atSite fun q hq => ?_
  split
  · exact hq.arriveEdge
  · split
    · exact hq.arrive
    · exact .ite hq.reportPort hq

theorem AreasKept.execControlTokenArrival {su : Nat} {flip : BitVec 24} (h : AreasKept s t) : OutKept s (execControlTokenArrival su flip t) := by
  unfold Machine.execControlTokenArrival
  refine h.onSite fun q hq => ?_
  split
  · exact hq
  · exact hq.runTo.modSu.tokenArrive

theorem AreasKept.execTokenWindowExpiry {site out : Nat} (h : AreasKept s t) : OutKept s (execTokenWindowExpiry site out t) := by
  unfold Machine.execTokenWindowExpiry
  refine h.atSite fun q hq => ?_
  extract_lets +onlyGivenNames o must
  split
  · exact hq
  · exact hq.runTo.modSw.each (fun _ _ hq => hq.reportPort)

theorem AreasKept.execPageTakeEffect {su : Nat} (h : AreasKept s t) : OutKept s (execPageTakeEffect su t) := by
  unfold Machine.execPageTakeEffect
  refine h.onSite fun q hq => ?_
  split
  · exact hq
  · exact .ite hq (((AreasKept.ite hq.runTo hq.runTo.excUp).modSu).selectPage)

theorem AreasKept.execCreditReturn {att loop : Nat} (h : AreasKept s t) : OutKept s (execCreditReturn att loop t) := by
  unfold Machine.execCreditReturn
  refine h.atAtt fun q hq => ?_
  split
  · exact hq
  · exact .ite hq.modAtt.count hq.modAtt

theorem AreasKept.execWrpCreditHang {att loop : Nat} (h : AreasKept s t) : OutKept s (execWrpCreditHang att loop t) := by
  unfold Machine.execWrpCreditHang
  refine h.atAtt fun q hq => ?_
  split
  · exact hq
  · exact hq.runTo.modAtt.reportEdge

theorem AreasKept.execHaltReach {site : Nat} (h : AreasKept s t) : OutKept s (execHaltReach site t) := by
  unfold Machine.execHaltReach
  refine h.atSite fun q hq => ?_
  split
  · exact hq
  · refine .ite ?_ hq
    extract_lets +onlyGivenNames s1
    have h1 : AreasKept s s1 := hq.toPick
    extract_lets +onlyGivenNames s2
    have h2 : AreasKept s s2 := h1.modSw
    extract_lets +onlyGivenNames stop s3
    have h3 : AreasKept s s3 := .ite h2.modMx h2
    extract_lets +onlyGivenNames s4
    have h4 : AreasKept s s4 := .ite h3.modSf h3
    exact (AreasKept.ite h4.modSu h4).each (fun _ _ hq => .ite hq.modAtt.modStack (.ite hq.modAtt.modSht hq.modAtt))

/-! ### The commands of Sys2Proof/Machine/Mm.lean -/

theorem AreasKept.execPullEntryExec {site : Nat} (h : AreasKept s t) : OutKept s (execPullEntryExec site t) :=
  h.onSite (fun _ hq => .ite hq (.ite hq.reportSite (.ite hq.pullEntry (.ite hq.dmaReturn hq))))

theorem AreasKept.execDmaQueueService {site sub : Nat} (h : AreasKept s t) : OutKept s (execDmaQueueService site sub t) := by
  unfold Machine.execDmaQueueService
  refine h.onSite fun q hq => ?_
  split
  · exact hq
  · split
    · exact hq
    · exact (hq.lowAccess ‹_›).dmaServe.modMm

theorem AreasKept.execDmaOpArrival {site : Nat} (h : AreasKept s t) : OutKept s (execDmaOpArrival site t) := by
  unfold Machine.execDmaOpArrival
  refine h.onSite fun q hq => ?_
  split
  · exact .ite hq.takeDeliv.dmaArrive hq
  · exact hq

theorem AreasKept.execEdgeDmaSlot {att site : Nat} (h : AreasKept s t) : OutKept s (execEdgeDmaSlot att site t) := by
  unfold Machine.execEdgeDmaSlot
  refine h.guardUnit fun q hq => ?_
  extract_lets +onlyGivenNames m
  split
  · exact hq
  · refine .ite hq ?_
    extract_lets +onlyGivenNames cr back room k op
    refine .ite hq ?_
    clear_value op
    extract_lets +onlyGivenNames hdr f s1
    have h1 : AreasKept s s1 := hq.modMm
    refine .modAtt ?_
    split
    · exact .ite h1.modMm h1
    · exact h1

theorem AreasKept.execMmScrub {site sub : Nat} (h : AreasKept s t) : OutKept s (execMmScrub site sub t) := by
  unfold Machine.execMmScrub
  refine h.onSite fun q hq => ?_
  extract_lets +onlyGivenNames b
  refine .ite hq ?_
  split
  · exact hq
  next r e =>
    have h1 : AreasKept s r := hq.lowAccess e
    exact .ite (.ite h1.modMm.modMm h1.modMm.modMm.modMm.count) h1.modMm.mmCorrected.modMm

theorem AreasKept.execEccWriteBack {site : Nat} (h : AreasKept s t) : OutKept s (execEccWriteBack site t) := by
  unfold Machine.execEccWriteBack
  refine h.onSite fun q hq => ?_
  split
  · exact hq
  · split
    next e => exact (hq.lowAccess e).modMm
    · exact hq

theorem AreasKept.execSubbankStateChange {site sub : Nat} (h : AreasKept s t) : OutKept s (execSubbankStateChange site sub t) :=
  h.onSite (fun _ hq => .ite hq.toPick.subChange hq)

theorem AreasKept.execSubbankForceTimeout {site sub : Nat} (h : AreasKept s t) : OutKept s (execSubbankForceTimeout site sub t) := by
  unfold Machine.execSubbankForceTimeout
  refine h.onSite fun q hq => ?_
  split
  · exact hq.toPick.subChange
  · exact hq

theorem AreasKept.execSubbankReturnOn {site sub : Nat} (h : AreasKept s t) : OutKept s (execSubbankReturnOn site sub t) := by
  unfold Machine.execSubbankReturnOn
  refine h.onSite fun q hq => ?_
  extract_lets +onlyGivenNames b
  split
  · exact hq
  · exact hq.toPick.modMm

/-! ### The commands of Sys2Proof/Machine/Stack.lean -/

theorem AreasKept.execElasticStackAccess {dpa len : Nat} {data : Option (List Byte)}
    (h : AreasKept s t) : OutKept s (execElasticStackAccess dpa len data t) := by
  unfold Machine.execElasticStackAccess
  refine h.atStack fun q hq => ?_
  split
  · exact .ite (hq.underCredit (fun _ hq => hq.elasticWrite)) hq
  · exact .ite (hq.underCredit (fun _ hq => hq.modAtt.elasticRead.emitSent)) hq

theorem AreasKept.execHbmFrameStart {stack : Nat} (h : AreasKept s t) : OutKept s (execHbmFrameStart stack t) := h.atStack (fun _ hq => hq.toPick)

theorem AreasKept.execGatherWindowStart {stack : Nat} (h : AreasKept s t) : OutKept s (execGatherWindowStart stack t) := by
  unfold Machine.execGatherWindowStart
  refine h.atStack fun q hq => ?_
  split
  · exact hq
  · split
    · exact hq
    · exact hq.toPick.modStack

theorem AreasKept.execHbmRequest {stack : Nat} (h : AreasKept s t) : OutKept s (execHbmRequest stack t) := by
  unfold Machine.execHbmRequest
  refine h.atStack fun q hq => ?_
  split
  · exact hq
  · exact .ite hq hq.stackRequest

theorem AreasKept.execHbmGrainAccess {stack ch : Nat} (h : AreasKept s t) : OutKept s (execHbmGrainAccess stack ch t) := by
  unfold Machine.execHbmGrainAccess
  refine h.atStack fun q hq => ?_
  extract_lets +onlyGivenNames c
  split
  · exact hq
  · refine .ite hq ?_
    extract_lets +onlyGivenNames x u s1
    have h1 : AreasKept s s1 := hq.toPick
    extract_lets +onlyGivenNames s2
    have h2 : AreasKept s s2 := h1.modStack
    extract_lets +onlyGivenNames o
    split
    · extract_lets +onlyGivenNames s3
      have h3 : AreasKept s s3 := h2.grainWrite
      extract_lets +onlyGivenNames s4
      have h4 : AreasKept s s4 := .ite h3.noteSour h3
      split
      · exact .ite h4.mirrorFlit h4
      · exact h4
    · exact h2.grainRead.modStack

theorem AreasKept.execHbmWriteBack {stack ch : Nat} (h : AreasKept s t) : OutKept s (execHbmWriteBack stack ch t) := by
  unfold Machine.execHbmWriteBack
  refine h.atStack fun q hq => ?_
  split
  · exact hq
  · exact hq.modStack

theorem AreasKept.execHbmReturnRelease {stack : Nat} (h : AreasKept s t) : OutKept s (execHbmReturnRelease stack t) := by
  unfold Machine.execHbmReturnRelease
  refine h.atStack fun q hq => ?_
  split
  · exact hq
  · exact .ite hq.runTo.modStack (.ite hq.runTo.modStack.modAtt hq.runTo.modStack.reportEdge)

theorem AreasKept.execHbmScrub {stack : Nat} (h : AreasKept s t) : OutKept s (execHbmScrub stack t) :=
  h.atStack (fun _ hq => (hq.toPick.modStack.each (fun _ _ hq => hq.scrubGrain)).modStack)

theorem AreasKept.execHbmTrainStep {stack margin temp : Nat} {converged : Bool}
    (h : AreasKept s t) : OutKept s (execHbmTrainStep stack margin temp converged t) := by
  unfold Machine.execHbmTrainStep
  refine h.atStack fun q hq => ?_
  extract_lets +onlyGivenNames s1
  have h1 : AreasKept s s1 := hq.toPick
  extract_lets +onlyGivenNames s2
  have h2 : AreasKept s s2 := h1.modStack
  extract_lets +onlyGivenNames c x miss n s3
  have h3 : AreasKept s s3 := h2.modStack
  exact .ite ((AreasKept.ite h3.count.watchTrigger h3).chanFail) (.ite h3.count.watchTrigger h3)

theorem AreasKept.execHbmCaPar {stack ch : Nat} (h : AreasKept s t) : OutKept s (execHbmCaPar stack ch t) := h.atStack (fun _ hq => hq.modStack.count)

theorem AreasKept.execHbmOdecc {stack ch : Nat} (h : AreasKept s t) : OutKept s (execHbmOdecc stack ch t) := h.atStack (fun _ hq => hq.modStack.count)

/-! ### The commands of Sys2Proof/Machine/Mx.lean -/

theorem AreasKept.execMxNop {site : Nat} {w : W64} (h : AreasKept s t) : OutKept s (execMxNop site w t) := h.mxIssue (fun _ hq => hq.mxNext)

theorem AreasKept.execMxEnd {site : Nat} {w : W64} (h : AreasKept s t) : OutKept s (execMxEnd site w t) := h.mxIssue (fun _ hq => hq.modMx)

theorem AreasKept.execMxWait {site : Nat} {w : W64} (h : AreasKept s t) : OutKept s (execMxWait site w t) := h.mxIssue (fun _ hq => hq.mxNext)

theorem AreasKept.execMxWpk {site : Nat} {w : W64} (h : AreasKept s t) : OutKept s (execMxWpk site w t) :=
  h.mxIssue (fun _ hq => .ite hq.mxFault.mxNext hq.mxNext)

theorem AreasKept.execMxLoop {site : Nat} {w : W64} (h : AreasKept s t) : OutKept s (execMxLoop site w t) := by
  unfold Machine.execMxLoop
  refine h.mxIssue fun q hq => ?_
  split
  · exact hq.modMx
  · exact hq.mxFault.mxNext

theorem AreasKept.execSetm {site : Nat} {w : W64} (h : AreasKept s t) : OutKept s (execSetm site w t) :=
  h.mxIssue (fun _ hq => .ite hq.modMx.mxNext hq.mxReserved)

theorem AreasKept.execSeta {site : Nat} {w : W64} (h : AreasKept s t) : OutKept s (execSeta site w t) := h.mxIssue (fun _ hq => hq.modMx.mxNext)

theorem AreasKept.execAdda {site : Nat} {w : W64} (h : AreasKept s t) : OutKept s (execAdda site w t) := h.mxIssue (fun _ hq => hq.modMx.mxNext)

theorem AreasKept.execSetf {site : Nat} {w : W64} (h : AreasKept s t) : OutKept s (execSetf site w t) := h.mxIssue (fun _ hq => hq.modMx.mxNext)

theorem AreasKept.execSetau {site : Nat} {w : W64} (h : AreasKept s t) : OutKept s (execSetau site w t) := h.mxIssue (fun _ hq => hq.modMx.mxNext)

theorem AreasKept.execRel {site : Nat} {w : W64} (h : AreasKept s t) : OutKept s (execRel site w t) := by
  unfold Machine.execRel
  refine h.mxIssue fun q hq => ?_
  extract_lets +onlyGivenNames k
  split
  · exact hq.modMx.mxNext
  · exact hq.mxFault.mxNext

theorem AreasKept.execLds {site : Nat} {w : W64} (h : AreasKept s t) : OutKept s (execLds site w t) :=
  h.mxIssue (fun _ hq => .ite hq.mxFault.mxNext (.ite hq.mxFault.mxNext (.ite hq.mxFault.mxNext hq.loadActs)))

theorem AreasKept.execLdss {site : Nat} {w : W64} (h : AreasKept s t) : OutKept s (execLdss site w t) :=
  h.mxIssue (fun _ hq => .ite hq.mxFault.mxNext (.ite hq.mxFault.mxNext (.ite hq.mxFault.mxNext hq.loadActs)))

theorem AreasKept.execLdc {site : Nat} {w : W64} (h : AreasKept s t) : OutKept s (execLdc site w t) :=
  h.mxIssue (fun _ hq => .ite hq.mxFault.mxNext (.ite hq.mxFault.mxNext hq.loadActs))

theorem AreasKept.execLdk {site : Nat} {w : W64} (h : AreasKept s t) : OutKept s (execLdk site w t) :=
  h.mxIssue (fun _ hq => .ite hq.mxFault.mxNext (.ite hq.mxFault.mxNext hq.loadActs))

theorem AreasKept.execGenc {site : Nat} {w : W64} (h : AreasKept s t) : OutKept s (execGenc site w t) :=
  h.mxIssue (fun _ hq => .ite hq.mxFault.mxNext (.ite hq.mxFault.mxNext hq.modMx.mxNext))

theorem AreasKept.execMac {site : Nat} {w : W64} (h : AreasKept s t) : OutKept s (execMac site w t) := by
  unfold Machine.execMac
  refine h.mxIssue fun q hq => ?_
  extract_lets +onlyGivenNames x psk n skips audit o
  refine .ite hq.mxFault.mxNext ?_
  exact .ite hq.mxFault.mxNext (.ite hq.mxFault.mxNext (.ite hq.mxFault.mxNext hq.modMx.arrayBusy.mxNext))

theorem AreasKept.execMacBlockEntry {site : Nat} {upset : List ℤ} (h : AreasKept s t) : OutKept s (execMacBlockEntry site upset t) := by
  unfold Machine.execMacBlockEntry
  refine h.onSite fun q hq => ?_
  split
  · exact hq
  · refine .ite ?_ hq
    extract_lets +onlyGivenNames s1
    have h1 : AreasKept s s1 := hq.runTo
    split
    · exact h1
    · exact .ite h1 h1.blockEntry

theorem AreasKept.execOut {site : Nat} {w : W64} (h : AreasKept s t) : OutKept s (execOut site w t) := by
  unfold Machine.execOut
  refine h.mxIssue fun q hq => ?_
  extract_lets +onlyGivenNames x a m0 nf k toMem t'
  refine .ite hq.mxFault.mxNext ?_
  exact .ite hq.mxFault.mxNext (.ite hq.mxFault.mxNext ((hq.modMx.each (fun _ _ hq => hq.outFlit)).mxNext))

theorem AreasKept.execOuts {site : Nat} {w : W64} (h : AreasKept s t) : OutKept s (execOuts site w t) :=
  h.mxIssue (fun _ hq => .ite hq.mxFault.mxNext (.ite hq.mxFault.mxNext hq.modMx.outPut.mxNext))

theorem AreasKept.execAcc {site : Nat} {w : W64} (h : AreasKept s t) : OutKept s (execAcc site w t) := by
  unfold Machine.execAcc
  refine h.mxIssue (fun _ hq => .ite hq.mxReserved (.ite hq.mxFault.mxNext (.ite hq.mxFault.mxNext (.ite hq.mxFault.mxNext hq.modMx.mxNext))))

theorem AreasKept.execSpmac {site : Nat} {w : W64} (h : AreasKept s t) : OutKept s (execSpmac site w t) := by
  unfold Machine.execSpmac
  refine h.mxIssue fun q hq => ?_
  extract_lets +onlyGivenNames x nlog nf t'
  refine .ite hq.mxReserved ?_
  exact .ite hq.mxFault.mxNext (.ite hq.mxFault.mxNext ((((AreasKept.ite2 hq.freshValue hq.pair2).modMx).arrayBusy).mxNext))

/-! ### The commands of Sys2Proof/Machine/Sf.lean -/

theorem AreasKept.execSfNop {site : Nat} {w : W64} (h : AreasKept s t) : OutKept s (execSfNop site w t) := h.sfIssue (fun _ hq => hq.sfNext)

theorem AreasKept.execSfEnd {site : Nat} {w : W64} (h : AreasKept s t) : OutKept s (execSfEnd site w t) :=
  h.sfIssue (fun _ hq => (AreasKept.ite hq hq.sfFault).modSf)

theorem AreasKept.execSfWait {site : Nat} {w : W64} (h : AreasKept s t) : OutKept s (execSfWait site w t) := h.sfIssue (fun _ hq => hq.sfNext)

theorem AreasKept.execSfWpk {site : Nat} {w : W64} (h : AreasKept s t) : OutKept s (execSfWpk site w t) :=
  h.sfIssue (fun _ hq => .ite hq.sfFault.sfNext hq.sfNext)

theorem AreasKept.execSfLoop {site : Nat} {w : W64} (h : AreasKept s t) : OutKept s (execSfLoop site w t) := by
  unfold Machine.execSfLoop
  refine h.sfIssue fun q hq => ?_
  split
  · exact hq.modSf
  · exact hq.sfFault.sfNext

theorem AreasKept.execSfBr {site : Nat} {w : W64} (h : AreasKept s t) : OutKept s (execSfBr site w t) := h.sfIssue (fun _ hq => hq.sfJump)

theorem AreasKept.execBz {site : Nat} {w : W64} (h : AreasKept s t) : OutKept s (execBz site w t) := h.sfIssue (fun _ hq => .ite hq.sfJump hq.sfNext)

theorem AreasKept.execBnz {site : Nat} {w : W64}
    (h : AreasKept s t) : OutKept s (execBnz site w t) := h.sfIssue (fun _ hq => .ite hq.sfNext hq.sfJump)

theorem AreasKept.execSli {site : Nat} {w : W64} (h : AreasKept s t) : OutKept s (execSli site w t) := h.sfIssue (fun _ hq => hq.sfScalar.sfNext)

theorem AreasKept.execSadd {site : Nat} {w : W64} (h : AreasKept s t) : OutKept s (execSadd site w t) := h.sfIssue (fun _ hq => hq.sfScalar.sfNext)

theorem AreasKept.execSmovv {site : Nat} {w : W64} (h : AreasKept s t) : OutKept s (execSmovv site w t) := h.sfIssue (fun _ hq => hq.sfScalar.sfNext)

theorem AreasKept.execGetpk {site : Nat} {w : W64} (h : AreasKept s t) : OutKept s (execGetpk site w t) := h.sfIssue (fun _ hq => hq.sfScalar.sfNext)

theorem AreasKept.execFadd {site : Nat} {w : W64} (h : AreasKept s t) : OutKept s (execFadd site w t) := h.sfLanes

theorem AreasKept.execFsub {site : Nat} {w : W64} (h : AreasKept s t) : OutKept s (execFsub site w t) := h.sfLanes

theorem AreasKept.execFmul {site : Nat} {w : W64} (h : AreasKept s t) : OutKept s (execFmul site w t) := h.sfLanes

theorem AreasKept.execFfma {site : Nat} {w : W64} (h : AreasKept s t) : OutKept s (execFfma site w t) := h.sfLanes

theorem AreasKept.execFmin {site : Nat} {w : W64} (h : AreasKept s t) : OutKept s (execFmin site w t) := h.sfLanes

theorem AreasKept.execFmax {site : Nat} {w : W64} (h : AreasKept s t) : OutKept s (execFmax site w t) := h.sfLanes

theorem AreasKept.execFcmp {site : Nat} {w : W64} (h : AreasKept s t) : OutKept s (execFcmp site w t) := h.sfCompare

theorem AreasKept.execIadd {site : Nat} {w : W64} (h : AreasKept s t) : OutKept s (execIadd site w t) := h.sfLanes

theorem AreasKept.execIsub {site : Nat} {w : W64} (h : AreasKept s t) : OutKept s (execIsub site w t) := h.sfLanes

theorem AreasKept.execImul {site : Nat} {w : W64} (h : AreasKept s t) : OutKept s (execImul site w t) := h.sfLanes

theorem AreasKept.execImulh {site : Nat} {w : W64} (h : AreasKept s t) : OutKept s (execImulh site w t) := h.sfLanes

theorem AreasKept.execIand {site : Nat} {w : W64} (h : AreasKept s t) : OutKept s (execIand site w t) := h.sfLanes

theorem AreasKept.execIor {site : Nat} {w : W64} (h : AreasKept s t) : OutKept s (execIor site w t) := h.sfLanes

theorem AreasKept.execIxor {site : Nat} {w : W64} (h : AreasKept s t) : OutKept s (execIxor site w t) := h.sfLanes

theorem AreasKept.execIshl {site : Nat} {w : W64} (h : AreasKept s t) : OutKept s (execIshl site w t) := h.sfLanes

theorem AreasKept.execIshr {site : Nat} {w : W64} (h : AreasKept s t) : OutKept s (execIshr site w t) := h.sfLanes

theorem AreasKept.execIsra {site : Nat} {w : W64} (h : AreasKept s t) : OutKept s (execIsra site w t) := h.sfLanes

theorem AreasKept.execIcmp {site : Nat} {w : W64} (h : AreasKept s t) : OutKept s (execIcmp site w t) := h.sfCompare

theorem AreasKept.execSel {site : Nat} {w : W64} (h : AreasKept s t) : OutKept s (execSel site w t) := h.sfUnit (fun _ hq => hq.sfResult)

theorem AreasKept.execCvt {site : Nat} {w : W64} (h : AreasKept s t) : OutKept s (execCvt site w t) := by
  unfold Machine.execCvt
  extract_lets +onlyGivenNames fr dst
  refine .ite (h.sfIssue (fun _ hq => hq.sfReserved)) ?_
  exact h.sfUnit (fun _ hq => ((AreasKept.ite hq.modSf hq.modSf.count).countNan).sfResult)

theorem AreasKept.execCvtmx {site : Nat} {w : W64} (h : AreasKept s t) : OutKept s (execCvtmx site w t) := by
  unfold Machine.execCvtmx
  extract_lets +onlyGivenNames fo
  refine .ite (h.sfIssue (fun _ hq => hq.sfReserved)) ?_
  exact h.sfUnit (fun _ hq => (((AreasKept.ite hq.modSf hq.modSf.count).countNan).sfResult).sfResult)

theorem AreasKept.execFexp {site : Nat} {w : W64} (h : AreasKept s t) : OutKept s (execFexp site w t) := h.sfLanes

theorem AreasKept.execFexp2 {site : Nat} {w : W64} (h : AreasKept s t) : OutKept s (execFexp2 site w t) := h.sfLanes

theorem AreasKept.execFexpsub {site : Nat} {w : W64} (h : AreasKept s t) : OutKept s (execFexpsub site w t) := h.sfLanes

theorem AreasKept.execFlog {site : Nat} {w : W64} (h : AreasKept s t) : OutKept s (execFlog site w t) := h.sfLanes

theorem AreasKept.execFlog2 {site : Nat} {w : W64} (h : AreasKept s t) : OutKept s (execFlog2 site w t) := h.sfLanes

theorem AreasKept.execFrcp {site : Nat} {w : W64} (h : AreasKept s t) : OutKept s (execFrcp site w t) := h.sfLanes

theorem AreasKept.execFrsq {site : Nat} {w : W64} (h : AreasKept s t) : OutKept s (execFrsq site w t) := h.sfLanes

theorem AreasKept.execFsqrt {site : Nat} {w : W64} (h : AreasKept s t) : OutKept s (execFsqrt site w t) := h.sfLanes

theorem AreasKept.execFtanh {site : Nat} {w : W64} (h : AreasKept s t) : OutKept s (execFtanh site w t) := h.sfLanes

theorem AreasKept.execFsig {site : Nat} {w : W64} (h : AreasKept s t) : OutKept s (execFsig site w t) := h.sfLanes

theorem AreasKept.execFerf {site : Nat} {w : W64} (h : AreasKept s t) : OutKept s (execFerf site w t) := h.sfLanes

theorem AreasKept.execFgelu {site : Nat} {w : W64} (h : AreasKept s t) : OutKept s (execFgelu site w t) := h.sfLanes

theorem AreasKept.execRsum {site : Nat} {w : W64} (h : AreasKept s t) : OutKept s (execRsum site w t) := h.sfReduce

theorem AreasKept.execRmax {site : Nat} {w : W64} (h : AreasKept s t) : OutKept s (execRmax site w t) := h.sfReduce

theorem AreasKept.execRmin {site : Nat} {w : W64} (h : AreasKept s t) : OutKept s (execRmin site w t) := h.sfReduce

theorem AreasKept.execRrsum {site : Nat} {w : W64} (h : AreasKept s t) : OutKept s (execRrsum site w t) := h.sfReduce

theorem AreasKept.execPerm {site : Nat} {w : W64} (h : AreasKept s t) : OutKept s (execPerm site w t) := h.sfUnit (fun _ hq => hq.sfResult)

theorem AreasKept.execBcast {site : Nat} {w : W64} (h : AreasKept s t) : OutKept s (execBcast site w t) := h.sfUnit (fun _ hq => hq.sfResult)

theorem AreasKept.execLdv {site : Nat} {w : W64} (h : AreasKept s t) : OutKept s (execLdv site w t) :=
  h.sfUnit (fun _ hq => .ite hq.sfFault hq.sfResult.sfDue)

theorem AreasKept.execStv {site : Nat} {w : W64} (h : AreasKept s t) : OutKept s (execStv site w t) := h.sfUnit (fun _ hq => .ite hq.sfFault hq.sfDue)

theorem AreasKept.execSend {site : Nat} {w : W64} (h : AreasKept s t) : OutKept s (execSend site w t) := h.sfUnit (fun _ hq => hq.excUp.inject)

theorem AreasKept.execHash {site : Nat} {w : W64} (h : AreasKept s t) : OutKept s (execHash site w t) :=
  .ite (h.sfIssue (fun _ hq => hq.sfReserved)) (h.sfUnit (fun _ hq => hq.sfResult))

theorem AreasKept.execRng {site : Nat} {w : W64} (h : AreasKept s t) : OutKept s (execRng site w t) := h.sfUnit (fun _ hq => hq.sfResult)

theorem AreasKept.execSortcx {site : Nat} {w : W64} (h : AreasKept s t) : OutKept s (execSortcx site w t) :=
  .ite (h.sfIssue (fun _ hq => hq.sfReserved)) (h.sfUnit (fun _ hq => hq.sfResult.sfResult))

theorem AreasKept.execTopki {site : Nat} {w : W64} (h : AreasKept s t) : OutKept s (execTopki site w t) := h.sfUnit (fun _ hq => hq.topWrite)

theorem AreasKept.execTopk {site : Nat} {w : W64} (h : AreasKept s t) : OutKept s (execTopk site w t) :=
  .ite (h.sfIssue (fun _ hq => hq.sfReserved)) (h.sfUnit (fun _ hq => hq.topWrite))

theorem AreasKept.execRingDelivery {site : Nat} (h : AreasKept s t) : OutKept s (execRingDelivery site t) := by
  unfold Machine.execRingDelivery
  refine .ite (h.onSite (fun _ hq => hq.ringDeliver (fun _ _ hq => hq.sfDeliver))) ?_
  exact h.onSite (fun _ hq => hq.ringDeliver (fun _ _ hq => hq.mxDeliver))

/-! ### The commands of Sys2Proof/Machine/Drafts.lean -/

theorem AreasKept.execDraftLoad {port m : Nat} (h : AreasKept s t) : OutKept s (execDraftLoad port m t) :=
  h.mbxRun (fun _ _ _ _ hq => hq.onArea (fun _ _ hq => hq.draftLoad))

theorem AreasKept.execLoadFlit {su : Nat} (h : AreasKept s t) : OutKept s (execLoadFlit su t) := by
  unfold Machine.execLoadFlit
  refine h.onSite fun q hq => ?_
  split
  · exact hq.takeDeliv.takeLoad
  · split
    · exact hq
    · split
      · exact hq
      · refine .ite hq ?_
        split
        · exact hq
        · extract_lets +onlyGivenNames o
          refine .ite hq ?_
          split
          · exact hq
          · exact hq.rootFlit.acceptLoad

theorem AreasKept.execFillSlot {att heddle : Nat} (h : AreasKept s t) : OutKept s (execFillSlot att heddle t) := by
  unfold Machine.execFillSlot
  refine h.atAtt fun q hq => ?_
  split
  · exact .ite hq (.ite hq.modAtt.modArea hq.reportEdge)
  · exact hq

theorem AreasKept.execWarmLoadComplete {area : Nat} (h : AreasKept s t) : OutKept s (execWarmLoadComplete area t) := by
  unfold Machine.execWarmLoadComplete
  refine h.atArea fun q hq => ?_
  split
  · exact .ite hq.finishLoad hq
  · exact hq

theorem AreasKept.execFellBankSwitch {site out : Nat} (h : AreasKept s t) : OutKept s (execFellBankSwitch site out t) := by
  unfold Machine.execFellBankSwitch
  refine h.atSite fun q hq => ?_
  split
  · exact hq.runTo.switchBank
  · exact hq

/-! ### The commands of Sys2Proof/Machine/Sparse.lean -/

theorem AreasKept.execReaderEmit {site : Nat} (h : AreasKept s t) : OutKept s (execReaderEmit site t) := by
  unfold Machine.execReaderEmit
  refine h.onSite fun q hq => ?_
  split
  · exact hq
  · exact .ite hq (((AreasKept.ite hq.runTo.readerFetch.runTo hq.runTo.readerFetch.runTo.count).modSp).inject)

theorem AreasKept.execAccQueueServe {site bank : Nat} (h : AreasKept s t) : OutKept s (execAccQueueServe site bank t) := by
  unfold Machine.execAccQueueServe
  refine h.onSite fun q hq => ?_
  split
  · exact hq
  · exact hq.runTo.modSp.applyGroup

theorem AreasKept.execFlushEmit {site : Nat} (h : AreasKept s t) : OutKept s (execFlushEmit site t) := by
  unfold Machine.execFlushEmit
  refine h.onSite fun q hq => ?_
  split
  · exact hq
  · refine .ite hq ?_
    extract_lets +onlyGivenNames t' s1
    have h1 : AreasKept s s1 := hq.runTo
    exact .ite (((AreasKept.ite h1.reportSite h1).modSp).reportSite) (((AreasKept.ite h1.reportSite h1).modSp).inject)

theorem AreasKept.execMmDelivery {site : Nat} (h : AreasKept s t) : OutKept s (execMmDelivery site t) := h.onSite (fun _ hq => hq.mmTake)

theorem AreasKept.execDescriptorFlit {site : Nat} (h : AreasKept s t) : OutKept s (execDescriptorFlit site t) := h.onSite (fun _ hq => hq.mmTake)

theorem AreasKept.execUpdateFlit {site : Nat} (h : AreasKept s t) : OutKept s (execUpdateFlit site t) := h.onSite (fun _ hq => hq.mmTake)

theorem AreasKept.execSkipAlarmEval (h : AreasKept s t) : OutKept s (execSkipAlarmEval t) := .next (h.toPick.each (fun _ _ hq => hq.skipEval))

/-! ### The commands of Sys2Proof/Machine/Shuttle.lean -/

theorem AreasKept.execElasticFrameSend {p : Nat} (h : AreasKept s t) : OutKept s (execElasticFrameSend p t) := by
  unfold Machine.execElasticFrameSend
  refine h.atShuttle fun q hq => ?_
  extract_lets +onlyGivenNames x
  refine .ite hq ?_
  split
  · exact hq
  · exact (AreasKept.ite hq.modAtt hq).modSht

theorem AreasKept.execSlotTake {p : Nat} (h : AreasKept s t) : OutKept s (execSlotTake p t) := by
  unfold Machine.execSlotTake
  refine h.atShuttle fun q hq => ?_
  extract_lets +onlyGivenNames s1
  have h1 : AreasKept s s1 := hq.toPick
  split
  · exact h1
  · exact .ite (h1.each (fun _ _ hq => hq.takeSlot)) h1

theorem AreasKept.execPickFrameSend {p : Nat} (h : AreasKept s t) : OutKept s (execPickFrameSend p t) := by
  unfold Machine.execPickFrameSend
  refine h.atShuttle fun q hq => ?_
  extract_lets +onlyGivenNames s1
  have h1 : AreasKept s s1 := hq.toPick
  extract_lets +onlyGivenNames s2
  have h2 : AreasKept s s2 := by
    unfold s2
    split
    · exact h1.commitBefore.startDue
    · exact h1
  extract_lets +onlyGivenNames P s3
  have h3 : AreasKept s s3 := h2.each (fun _ _ hq => hq.resolveRelease)
  extract_lets +onlyGivenNames s4
  have h4 : AreasKept s s4 := h3.modSht
  exact .ite h4.modSht ((((h4.each (fun _ _ hq => hq.sendTally)).freshValue).modSht).each (fun _ _ hq => hq.emitSent))

theorem AreasKept.execCodewordDecode {p : Nat} {o : CodewordOutcome} (h : AreasKept s t) : OutKept s (execCodewordDecode p o t) := by
  unfold Machine.execCodewordDecode
  refine h.guardUnit fun q hq => ?_
  extract_lets +onlyGivenNames x
  refine .ite hq ?_
  extract_lets +onlyGivenNames s1
  have h1 : AreasKept s s1 := hq.modSht
  extract_lets +onlyGivenNames s2
  have h2 : AreasKept s s2 := .ite h1.count.watchTrigger h1
  extract_lets +onlyGivenNames key words s3
  have h3 : AreasKept s s3 := .ite h2 (.ite (.ite h2 h2.modSht) h2.modSht)
  exact .ite (((AreasKept.ite h3.rxLaneFail h3).freshValue).modSht) (.ite h3.rxLaneFail h3)

theorem AreasKept.execPickHeaderReceive {p : Nat} {f : RxFrame} (h : AreasKept s t) : OutKept s (execPickHeaderReceive p f t) := by
  unfold Machine.execPickHeaderReceive
  refine h.atShuttle fun q hq => ?_
  extract_lets +onlyGivenNames x
  refine .ite hq ?_
  extract_lets +onlyGivenNames lost
  split
  · exact hq.modSht.rxFold
  · refine .ite hq.modSht.rxFold ?_
    extract_lets +onlyGivenNames P slip s1
    have h1 : AreasKept s s1 := hq.takeHeader.modSht
    exact ((AreasKept.ite h1.count.unlockPort h1.lockPort).rxFold).each (fun _ _ hq => hq.rxSlot)

theorem AreasKept.execSlotPush {p : Nat} (h : AreasKept s t) : OutKept s (execSlotPush p t) := by
  unfold Machine.execSlotPush
  refine h.atShuttle fun q hq => ?_
  extract_lets +onlyGivenNames s1
  have h1 : AreasKept s s1 := .ite hq.runTo hq
  extract_lets +onlyGivenNames P
  refine .ite h1 ?_
  split
  · exact h1
  · exact .ite h1 ((h1.each (fun _ _ hq => hq.pushSlot)).modSht)

theorem AreasKept.execLinkFrameSend {p : Nat} (h : AreasKept s t) : OutKept s (execLinkFrameSend p t) :=
  h.atShuttle (fun _ hq => .ite hq ((AreasKept.ite hq.freshValue hq).queueFrame))

theorem AreasKept.execLinkFrame {p : Nat} {ownDelta : ℤ} {payload : List Byte} (h : AreasKept s t) : OutKept s (execLinkFrame p ownDelta payload t) :=
  h.atShuttle (fun _ hq => .ite hq hq.modSht.lockPort)

theorem AreasKept.execSignalDetect {p : Nat} (h : AreasKept s t) : OutKept s (execSignalDetect p t) := h.atShuttle (fun _ hq => .ite hq.modSht hq)

theorem AreasKept.execPortTrained {p : Nat} {o : TrainOutcome} (h : AreasKept s t) : OutKept s (execPortTrained p o t) := by
  unfold Machine.execPortTrained
  refine h.atShuttle (fun _ hq => .ite hq (.ite hq.portDown (((hq.modSht.each (fun _ _ hq => hq.watchAdd)).reportUnit).sendHello)))

theorem AreasKept.execTrainingTimeout {p : Nat} (h : AreasKept s t) : OutKept s (execTrainingTimeout p t) :=
  h.atShuttle (fun _ hq => .ite hq hq.runTo.portDown)

theorem AreasKept.execLossOfSignal {p : Nat} (h : AreasKept s t) : OutKept s (execLossOfSignal p t) := h.atShuttle (fun _ hq => .ite hq hq.portDown)

theorem AreasKept.execRotationPoint {p : Nat} (h : AreasKept s t) : OutKept s (execRotationPoint p t) := by
  unfold Machine.execRotationPoint
  refine h.atShuttle fun q hq => ?_
  refine .ite hq ?_
  extract_lets +onlyGivenNames s1
  have h1 : AreasKept s s1 := hq.toPick
  extract_lets +onlyGivenNames s2
  have h2 : AreasKept s s2 := h1.modSht
  extract_lets +onlyGivenNames x
  refine .ite h2 ?_
  refine .ite h2.modSht.count ?_
  split
  · exact h2.modSht
  · exact h2

theorem AreasKept.execLaneFail {p lane : Nat} (h : AreasKept s t) : OutKept s (execLaneFail p lane t) :=
  h.guardUnit (fun _ hq => .ite hq (.ite hq.toPick.modSht.reportUnit hq.rxLaneFail))

/-! ### The commands of Sys2Proof/Machine/Time.lean -/

theorem AreasKept.execPickSteer (h : AreasKept s t) : OutKept s (execPickSteer t) := by
  unfold Machine.execPickSteer
  refine .next ?_
  extract_lets +onlyGivenNames s1
  have h1 : AreasKept s s1 := h.toPick
  refine .ite h1.frame.masterTime ?_
  refine .ite h1.masterTime ?_
  split
  · exact .ite h1 h1.frame.masterTime
  · exact h1.shiftTheta.followPort

theorem AreasKept.execUpstreamLoss (h : AreasKept s t) : OutKept s (execUpstreamLoss t) := by
  unfold Machine.execUpstreamLoss
  refine .next ?_
  refine .ite h ?_
  split
  · exact h.toPick.followPort
  · exact h.startHoldover

theorem AreasKept.execHoldoverExpiry (h : AreasKept s t) : OutKept s (execHoldoverExpiry t) :=
  .next (.ite h h.runTo.withTime.setLocked.reportUnit)

theorem AreasKept.execBetterOffer {p : Nat} (h : AreasKept s t) : OutKept s (execBetterOffer p t) := by
  unfold Machine.execBetterOffer
  refine h.atShuttle fun q hq => ?_
  exact .ite hq (.ite (.ite hq.adoptOffer (.ite hq.takeTime.adoptOffer (.ite hq hq.modSht.count))) (.ite hq.modSht hq))

theorem AreasKept.execMasterProposal (h : AreasKept s t) : OutKept s (execMasterProposal t) := .next (.ite h.frame.masterTime h)

theorem AreasKept.execEpochInEdge {width : Nat} (h : AreasKept s t) : OutKept s (execEpochInEdge width t) := by
  unfold Machine.execEpochInEdge
  refine .next ?_
  extract_lets +onlyGivenNames near _ s1
  have h1 : AreasKept s s1 := .ite h h.frame
  clear_value s1
  refine .ite h1.count (.ite ?_ h1)
  extract_lets +onlyGivenNames s2
  have h2 : AreasKept s s2 := h1.toPick
  clear_value s2
  exact h2.frame.newCount.count

theorem AreasKept.execEpochOutPulse (h : AreasKept s t) : OutKept s (execEpochOutPulse t) := .next (.ite h (.ite h.toPick.emitSent h.toPick))

theorem AreasKept.execRefclkLoss (h : AreasKept s t) : OutKept s (execRefclkLoss t) := .next (.ite h.frame.count.startHoldover h.frame.count)

/-! ### The commands of Sys2Proof/Machine/Fabric.lean -/

theorem AreasKept.execHelloSend {p : Nat} (h : AreasKept s t) : OutKept s (execHelloSend p t) := h.atShuttle (fun _ hq => hq.sendHello)

theorem AreasKept.execHelloReceive {p : Nat} {payload : List Byte} (h : AreasKept s t) : OutKept s (execHelloReceive p payload t) :=
  h.atShuttle (fun _ hq => hq.takeHello)

theorem AreasKept.execHelloTimeout {p : Nat} (h : AreasKept s t) : OutKept s (execHelloTimeout p t) := by
  unfold Machine.execHelloTimeout
  refine h.atShuttle fun q hq => ?_
  extract_lets +onlyGivenNames x
  split
  · exact .ite hq.runTo.helloLost hq
  · exact hq

theorem AreasKept.execRouteSend {p : Nat} (h : AreasKept s t) : OutKept s (execRouteSend p t) :=
  h.atShuttle (fun _ hq => .ite hq hq.frame.modSht.queueFrame)

theorem AreasKept.execRouteReceive {p : Nat} {payload : List Byte} (h : AreasKept s t) : OutKept s (execRouteReceive p payload t) :=
  h.atShuttle (fun _ hq => hq.takeRoute)

theorem AreasKept.execRmaRequest {frame : List Byte} (h : AreasKept s t) : OutKept s (execRmaRequest frame t) := .next (.ite h.serveRma h)

theorem AreasKept.execRmaResponse {frame : List Byte} (h : AreasKept s t) : OutKept s (execRmaResponse frame t) := .next (.ite h.takeRsp h)

theorem AreasKept.execRmaTimeout {tag : Nat} (h : AreasKept s t) : OutKept s (execRmaTimeout tag t) := by
  unfold Machine.execRmaTimeout
  refine .next ?_
  split
  · split
    · exact h.runTo.answerRma
    · exact h
  · exact h

theorem AreasKept.execTallyBuild {p : Nat} (h : AreasKept s t) : OutKept s (execTallyBuild p t) := by
  unfold Machine.execTallyBuild
  refine h.atShuttle fun q hq => ?_
  split
  · exact hq
  · refine .ite hq ?_
    split
    · exact hq.buildTally
    · exact hq

theorem AreasKept.execTallyReceive {p : Nat} {payload : List Byte} (h : AreasKept s t) : OutKept s (execTallyReceive p payload t) :=
  h.atShuttle (fun _ hq => .ite hq.takeTally hq)

theorem AreasKept.execFbPageSend {exch peer : Nat} (h : AreasKept s t) : OutKept s (execFbPageSend exch peer t) := by
  unfold Machine.execFbPageSend
  refine .next ?_
  split
  · exact h
  · exact .ite h h.creelRows.creelRows.modFbSrc.startRouted

theorem AreasKept.execFbgrantSend {exch peer : Nat} (h : AreasKept s t) : OutKept s (execFbgrantSend exch peer t) := .next h.sendGrant

theorem AreasKept.execFbPageReceive {frame : List Byte} (h : AreasKept s t) : OutKept s (execFbPageReceive frame t) := .next (.ite h.takePage h)

theorem AreasKept.execFbgrantReceive {frame : List Byte} (h : AreasKept s t) : OutKept s (execFbgrantReceive frame t) := .next (.ite h.takeGrant h)

theorem AreasKept.execFbResendTimeout {exch peer : Nat} (h : AreasKept s t) : OutKept s (execFbResendTimeout exch peer t) := by
  unfold Machine.execFbResendTimeout
  refine .next ?_
  split
  · exact h
  · exact .ite h h.runTo.count.modAreg.modFbSrc

theorem AreasKept.execRoutedFrame {frame : List Byte} (h : AreasKept s t) : OutKept s (execRoutedFrame frame t) := .next (.ite h.takeRouted h)

theorem AreasKept.execElasticFrameReceive {p : Nat} {frame : List Byte} {bad : Bool}
    (h : AreasKept s t) : OutKept s (execElasticFrameReceive p frame bad t) := by
  unfold Machine.execElasticFrameReceive
  refine h.atShuttle fun q hq => ?_
  exact .ite hq (.ite hq.modSht.count (.ite (hq.underCredit (fun _ hq => hq.modSht.acceptFrame)) hq.modSht.acceptFrame))

/-! ### The commands of Sys2Proof/Machine/Su.lean -/

theorem AreasKept.execSuNop {site : Nat} {w : W64} (h : AreasKept s t) : OutKept s (execSuNop site w t) := h.suIssue (fun _ hq => hq.suNext)

theorem AreasKept.execSuWait {site : Nat} {w : W64} (h : AreasKept s t) : OutKept s (execSuWait site w t) := h.suIssue (fun _ hq => hq.suNextAt)

theorem AreasKept.execWt {site : Nat} {w : W64} (h : AreasKept s t) : OutKept s (execWt site w t) :=
  h.suIssue (fun _ hq => .ite hq.suFault.suNext hq.suNextAt)

theorem AreasKept.execSuLoop {site : Nat} {w : W64} (h : AreasKept s t) : OutKept s (execSuLoop site w t) := by
  unfold Machine.execSuLoop
  refine h.suIssue fun q hq => ?_
  split
  · exact hq.modSu
  · exact hq.suFault.suNext

theorem AreasKept.execSuBr {site : Nat} {w : W64} (h : AreasKept s t) : OutKept s (execSuBr site w t) := h.suIssue (fun _ hq => hq.modSu)

theorem AreasKept.execSett {site : Nat} {w : W64} (h : AreasKept s t) : OutKept s (execSett site w t) := h.suIssue (fun _ hq => hq.modSu.suNext)

theorem AreasKept.execAddt {site : Nat} {w : W64} (h : AreasKept s t) : OutKept s (execAddt site w t) := h.suIssue (fun _ hq => hq.modSu.suNext)

theorem AreasKept.execGo {site : Nat} {w : W64} (h : AreasKept s t) : OutKept s (execGo site w t) :=
  h.suIssue (fun _ hq => hq.suTimed (fun _ hq => hq.modSu))

theorem AreasKept.execPage {site : Nat} {w : W64}
    (h : AreasKept s t) : OutKept s (execPage site w t) := h.suIssue fun _ hq => hq.suTimed fun _ hr => hr

theorem AreasKept.execFell {site : Nat} {w : W64} (h : AreasKept s t) : OutKept s (execFell site w t) :=
  h.suIssue (fun _ hq => .ite hq.suReserved (hq.suTimed (fun _ hq => hq.modSu)))

theorem AreasKept.execTokenTableEmit {su pos : Nat} (h : AreasKept s t) : OutKept s (execTokenTableEmit su pos t) :=
  h.onSite (fun _ hq => .ite hq.modSu.excUp hq)

theorem AreasKept.execSiteStart {site : Nat} (h : AreasKept s t) : OutKept s (execSiteStart site t) := by
  unfold Machine.execSiteStart
  refine h.atSite fun q hq => ?_
  extract_lets +onlyGivenNames su
  split
  · exact hq
  · extract_lets +onlyGivenNames s1
    have h1 : AreasKept s s1 := hq.suStartDue
    extract_lets +onlyGivenNames s2
    have h2 : AreasKept s s2 := h1.runTo.modSu
    refine .ite h2 ?_
    extract_lets +onlyGivenNames p
    split
    · exact .ite h2.reportProg h2.modMx
    · exact .ite h2.reportProg h2.modSf
    · exact h2

theorem AreasKept.execCwait {site : Nat} {w : W64} (h : AreasKept s t) : OutKept s (execCwait site w t) := h.suIssue (fun _ hq => hq.suCond)

theorem AreasKept.execQwait {site : Nat} {w : W64} (h : AreasKept s t) : OutKept s (execQwait site w t) :=
  h.suIssue (fun _ hq => .ite hq.suReserved hq.suCond)

theorem AreasKept.execJoin {site : Nat} {w : W64} (h : AreasKept s t) : OutKept s (execJoin site w t) := by
  unfold Machine.execJoin
  refine h.suIssue fun q hq => ?_
  extract_lets +onlyGivenNames u
  split
  · exact hq
  · exact .ite hq.suFault (.ite hq.modSu.modSu.selectPage hq.modSu.modArea)

theorem AreasKept.execJoinReady {su : Nat} (h : AreasKept s t) : OutKept s (execJoinReady su t) := by
  unfold Machine.execJoinReady
  refine h.onSite fun q hq => ?_
  extract_lets +onlyGivenNames u
  split
  · exact .ite hq (.ite hq.toPick.modSu.rootStart hq.toPick)
  · exact hq

theorem AreasKept.execBarrierFlitSend {su : Nat} {down : Bool} (h : AreasKept s t) : OutKept s (execBarrierFlitSend su down t) := by
  unfold Machine.execBarrierFlitSend
  refine h.onSite fun q hq => ?_
  refine .ite hq ?_
  extract_lets +onlyGivenNames s1
  have h1 : AreasKept s s1 := .ite hq.runTo hq.toPick
  extract_lets +onlyGivenNames s2
  have h2 : AreasKept s s2 := .ite h1.rootStart h1
  extract_lets +onlyGivenNames u
  split
  · exact h2
  · exact .ite h2 (.ite (.ite h2 h2.inject) (.ite h2 h2.inject))

theorem AreasKept.execBarrierFlit {su : Nat} (h : AreasKept s t) : OutKept s (execBarrierFlit su t) := by
  unfold Machine.execBarrierFlit
  refine h.onSite fun q hq => ?_
  split
  · exact hq
  · refine .ite hq ?_
    extract_lets +onlyGivenNames s1
    have h1 : AreasKept s s1 := hq.takeDeliv
    refine .ite h1 ?_
    refine .ite h1.reportSite ?_
    split
    · exact h1.takeBarrier
    · exact h1

theorem AreasKept.execBarrierWindowEnd {su : Nat} (h : AreasKept s t) : OutKept s (execBarrierWindowEnd su t) := by
  unfold Machine.execBarrierWindowEnd
  refine h.onSite fun q hq => ?_
  split
  · split
    · exact hq
    · split
      · exact hq
      · refine .ite hq ?_
        extract_lets +onlyGivenNames s1
        have h1 : AreasKept s s1 := hq.toPick
        split
        · exact .ite h1.barrierLate h1
        · exact h1
  · exact hq

theorem AreasKept.execSamp {site : Nat} {w : W64} (h : AreasKept s t) : OutKept s (execSamp site w t) := by
  unfold Machine.execSamp
  refine h.suIssue fun q hq => ?_
  extract_lets +onlyGivenNames kind src pos
  split
  · exact hq.suReserved
  next v r e =>
    have h1 : AreasKept s r := hq.sampValue e
    exact .ite h1.count.suNext h1.modSu.suNext

/-! ### The commands of Sys2Proof/Machine/Job.lean -/

theorem AreasKept.execJobStart {port m : Nat} (h : AreasKept s t) : OutKept s (execJobStart port m t) := by
  unfold Machine.execJobStart
  refine h.mbxRun fun _ _ _ q hq => ?_
  exact hq.onArea (fun _ _ hq => .ite hq.mbxDone (.ite hq.mbxDone (.ite hq.mbxDone (.ite hq.mbxDone hq.jobBegin.mbxDone))))

theorem AreasKept.execJobStartPick {area : Nat} (h : AreasKept s t) : OutKept s (execJobStartPick area t) := by
  unfold Machine.execJobStartPick
  refine h.atArea fun q hq => ?_
  extract_lets +onlyGivenNames j
  refine .ite hq ?_
  extract_lets +onlyGivenNames s1
  have h1 : AreasKept s s1 := hq.toPick
  exact h1.frame.each (fun _ _ hq => hq.modSu)

theorem AreasKept.execJobStatus {port m : Nat} (h : AreasKept s t) : OutKept s (execJobStatus port m t) :=
  h.mbxRun (fun _ _ _ _ hq => hq.onArea (fun _ _ hq => hq.mbxComplete))

theorem AreasKept.execStepStart {area : Nat} (h : AreasKept s t) : OutKept s (execStepStart area t) := h.atArea (fun _ hq => hq.startNext)

theorem AreasKept.execStepEndPick {area : Nat} (h : AreasKept s t) : OutKept s (execStepEndPick area t) := h.atArea (fun _ hq => hq.endPick)

theorem AreasKept.execStepCommit {area : Nat} (h : AreasKept s t) : OutKept s (execStepCommit area t) := h.atArea (fun _ hq => hq.commitOldest)

theorem AreasKept.execExactDigest {su : Nat} (h : AreasKept s t) : OutKept s (execExactDigest su t) := by
  unfold Machine.execExactDigest
  refine h.onSite fun q hq => ?_
  split
  · exact hq
  · split
    · exact hq
    · exact .ite hq (.ite hq.modSu (.ite hq.modSu (hq.modSu.report.each (fun _ _ hq => hq.writeRecord))))

theorem AreasKept.execRemap {area : Nat} {o : RemapOutcome} (h : AreasKept s t) : OutKept s (execRemap area o t) := by
  unfold Machine.execRemap
  refine h.atArea fun q hq => ?_
  extract_lets +onlyGivenNames j
  refine .ite hq ?_
  extract_lets +onlyGivenNames named both fabric bad adj rest s1
  have h1 : AreasKept s s1 := hq.each (fun _ _ hq => hq.fenceUnit)
  extract_lets +onlyGivenNames s2
  have h2 : AreasKept s s2 := .ite h1 h1.flashWrite.allowCheck
  split
  · exact h2.count.endJob
  · extract_lets +onlyGivenNames bank s3
    have h3 : AreasKept s s3 := h2.each (fun _ _ hq => hq.patchSite)
    exact ((h3.modArea.each (fun _ _ hq => hq.adjustUnit)).each (fun _ _ hq => hq.watchAdd)).returnToService

theorem AreasKept.execRemapTimeout {area : Nat} (h : AreasKept s t) : OutKept s (execRemapTimeout area t) :=
  h.atArea (fun _ hq => .ite hq hq.runTo.returnToService)

theorem AreasKept.execJobResume {area : Nat} (h : AreasKept s t) : OutKept s (execJobResume area t) := by
  unfold Machine.execJobResume
  refine h.atArea fun q hq => ?_
  extract_lets +onlyGivenNames j
  split
  · exact .ite hq.modArea.resumeAt hq
  · exact hq

theorem AreasKept.execRestoreResume {port m : Nat} (h : AreasKept s t) : OutKept s (execRestoreResume port m t) := by
  unfold Machine.execRestoreResume
  refine h.mbxRunOp (fun _ _ _ _ hq => hq.onArea (fun _ _ hq => .ite hq.mbxDone (.ite hq.mbxDone (.ite hq.mbxDone hq.modArea.mbxDone))))

/-! ### The commands of Sys2Proof/Machine/Host.lean -/

theorem AreasKept.execNop {port m : Nat} (h : AreasKept s t) : OutKept s (execNop port m t) := h.mbxRun (fun _ _ _ _ hq => hq.mbxDone)

theorem AreasKept.execIdentify {port m : Nat} (h : AreasKept s t) : OutKept s (execIdentify port m t) := h.mbxRun (fun _ _ _ _ hq => hq.mbxComplete)

theorem AreasKept.execEvqSetup {port m : Nat} (h : AreasKept s t) : OutKept s (execEvqSetup port m t) :=
  h.mbxRun (fun _ _ _ _ hq => .ite hq.mbxDone hq.modPort.mbxDone)

theorem AreasKept.execDeviceReset {port m : Nat} (h : AreasKept s t) : OutKept s (execDeviceReset port m t) :=
  h.mbxRun (fun _ _ _ _ hq => .ite hq.mbxDone hq.mbxDone.askDrst)

theorem AreasKept.execHpcDrstWrite {port value : Nat}
    (h : AreasKept s t) : OutKept s (execHpcDrstWrite port value t) := h.atPort (fun _ hq => hq.hpcDrst)

theorem AreasKept.execAreaRemove {port m : Nat} (h : AreasKept s t) : OutKept s (execAreaRemove port m t) :=
  h.mbxRun fun _ _ _ _ hq => hq.onArea fun _ _ hq =>
    .ite hq.mbxDone (hq.abortLoad.dropRecords.modArea (hg := fun _ hx => Bool.noConfusion hx)).mbxDone

theorem AreasKept.execAreaClear {port m : Nat} (h : AreasKept s t) : OutKept s (execAreaClear port m t) :=
  h.mbxRun (fun _ _ _ _ hq => hq.onArea (fun _ _ hq => .ite hq.mbxDone hq.endJob.mbxDone))

theorem AreasKept.execAreaTake {port m : Nat} (h : AreasKept s t) : OutKept s (execAreaTake port m t) :=
  h.mbxRun (fun _ _ _ _ hq => hq.onArea (fun _ _ hq => .ite hq.mbxDone hq.modArea.mbxDone))

theorem AreasKept.execAbort {port m : Nat} (h : AreasKept s t) : OutKept s (execAbort port m t) :=
  h.mbxRun (fun _ _ _ _ hq => .ite hq.mbxDone hq.abortAll.abortDone.mbxComplete)

theorem AreasKept.execHpcAbortWrite {port value : Nat} (h : AreasKept s t) : OutKept s (execHpcAbortWrite port value t) :=
  h.atPort (fun _ hq => hq.hpcAbort)

theorem AreasKept.execAbortHwTimeout (h : AreasKept s t) : OutKept s (execAbortHwTimeout t) := .next (h.each (fun _ _ hq => hq.hubAbort))

theorem AreasKept.execBulkWrite {port m : Nat} {hostErr : Option Nat} (h : AreasKept s t) : OutKept s (execBulkWrite port m hostErr t) := by
  unfold Machine.execBulkWrite
  refine h.mbxRun (fun _ _ _ _ hq => .ite (hq.onArea (fun _ _ hq => .ite hq.mbxDone hq.bulkWrite)) (.ite hq.mbxDone hq.bulkWrite))

theorem AreasKept.execBulkRead {port m : Nat} {hostErr : Option Nat} (h : AreasKept s t) : OutKept s (execBulkRead port m hostErr t) :=
  h.mbxRun (fun _ _ _ _ hq => .ite (hq.onArea (fun _ _ hq => .ite hq.mbxDone hq.bulkRead)) (.ite hq.mbxDone hq.bulkRead))

theorem AreasKept.execDmaReturnArrival {site : Nat} {flit : Flit} (h : AreasKept s t) : OutKept s (execDmaReturnArrival site flit t) := by
  unfold Machine.execDmaReturnArrival
  refine h.onSite fun q hq => ?_
  split
  · exact hq
  · split
    · exact hq
    · extract_lets +onlyGivenNames h' s1
      have h1 : AreasKept s s1 := hq.modAtt
      extract_lets +onlyGivenNames s2
      have h2 : AreasKept s s2 := h1.modMm
      refine .ite h2 ?_
      split
      · exact h2.bulkReturn
      · exact .ite h2.bulkPush h2

theorem AreasKept.execRemoteRead {port m : Nat}
    (h : AreasKept s t) : OutKept s (execRemoteRead port m t) := h.mbxRun (fun _ _ _ _ hq => hq.startRemote)

theorem AreasKept.execRemoteWrite {port m : Nat}
    (h : AreasKept s t) : OutKept s (execRemoteWrite port m t) := h.mbxRun (fun _ _ _ _ hq => hq.startRemote)

theorem AreasKept.execSetFabricId {port m : Nat} (h : AreasKept s t) : OutKept s (execSetFabricId port m t) := by
  unfold Machine.execSetFabricId
  refine h.mbxRun fun _ _ _ q hq => .ite hq.mbxDone (.ite hq.mbxDone ?_)
  refine .mbxDone (.each (.each ?_ fun _ _ hr => hr.unlockPort.sendHello) fun _ _ hr => hr.helloAgain)
  exact .ite hq.withFab.masterTime hq.withFab

theorem AreasKept.execHostLinkUp {port : Nat} (h : AreasKept s t) : OutKept s (execHostLinkUp port t) := h.atPort (fun _ hq => hq.modPort)

theorem AreasKept.execPortReset {port : Nat} {kind : PortResetKind} (h : AreasKept s t) : OutKept s (execPortReset port kind t) := by
  unfold Machine.execPortReset
  refine h.atPort fun q hq => ?_
  extract_lets +onlyGivenNames l s1
  have h1 : AreasKept s s1 := hq.frame.each (fun _ _ hq => hq.dropBulkOps)
  exact .ite h1.modPort h1.modPort.modPort.count

/-! ### The commands of Sys2Proof/Machine/RegView.lean -/

theorem AreasKept.execTriplicatedRead {f : TriField} (h : AreasKept s t) : OutKept s (execTriplicatedRead f t) := .next h.vote

theorem AreasKept.execTripleVoteSweep (h : AreasKept s t) : OutKept s (execTripleVoteSweep t) := .next (h.each (fun _ _ hq => hq.voteOne))

/-! ### The commands of Sys2Proof/Machine/Regs.lean -/

theorem AreasKept.execShadowApply (h : AreasKept s t) : OutKept s (execShadowApply t) := by
  unfold Machine.execShadowApply
  refine .next ?_
  extract_lets +onlyGivenNames l
  split
  · exact h
  · exact h.toPick.each (fun _ _ hq => hq.applyBlock)

theorem AreasKept.execIdxDataRead {port window : Nat} (h : AreasKept s t) : OutKept s (execIdxDataRead port window t) :=
  h.guardUnit (fun _ hq => hq.idxDataRead)

theorem AreasKept.execIdxDataWrite {port window value : Nat} (h : AreasKept s t) : OutKept s (execIdxDataWrite port window value t) :=
  h.guardUnit (fun _ hq => hq.idxDataWrite)

theorem AreasKept.execIdxAccessTimeout {window : Nat} {write : Option Nat} (h : AreasKept s t) : OutKept s (execIdxAccessTimeout window write t) := by
  unfold Machine.execIdxAccessTimeout
  refine h.guardUnit fun q hq => .count (.modWin ?_)
  split
  · exact hq.modWin
  · exact .ite hq.freshValue.modWin.idxWrite hq.freshValue.modWin

theorem AreasKept.execMmStageApply {window site value : Nat} (h : AreasKept s t) : OutKept s (execMmStageApply window site value t) := h.siteWindow

theorem AreasKept.execXsStageApply {window site value : Nat} (h : AreasKept s t) : OutKept s (execXsStageApply window site value t) := h.siteWindow

theorem AreasKept.execMmInjWrite {window site value : Nat} (h : AreasKept s t) : OutKept s (execMmInjWrite window site value t) := h.siteWindow

theorem AreasKept.execMmRdataRead {window site : Nat} (h : AreasKept s t) : OutKept s (execMmRdataRead window site t) :=
  h.guardUnit (fun _ hq => hq.idxRead.modWin)

theorem AreasKept.execMmRdataWrite {window site value : Nat} (h : AreasKept s t) : OutKept s (execMmRdataWrite window site value t) := h.siteWindow

theorem AreasKept.execMmPwrRequest {window : Option Nat} {site value : Nat}
    (h : AreasKept s t) : OutKept s (execMmPwrRequest window site value t) := by
  unfold Machine.execMmPwrRequest
  split
  · exact h.siteWindow
  · refine h.onSite fun q hq => ?_
    split
    · exact hq
    · split
      · exact .ite hq.planPower hq
      · exact hq

theorem AreasKept.execMmPwrForce {window site value : Nat} (h : AreasKept s t) : OutKept s (execMmPwrForce window site value t) :=
  h.guardUnit (fun _ hq => hq.throughWindow)

theorem AreasKept.execShtCtlWrite {window p value : Nat} (h : AreasKept s t) : OutKept s (execShtCtlWrite window p value t) :=
  h.guardUnit (fun _ hq => hq.throughWindow)

theorem AreasKept.execFabRouteWrite {window d value : Nat} (h : AreasKept s t) : OutKept s (execFabRouteWrite window d value t) :=
  h.guardUnit (fun _ hq => hq.throughWindow)

theorem AreasKept.execRegisterWrite {port bar offset size value : Nat}
    (h : AreasKept s t) : OutKept s (execRegisterWrite port bar offset size value t) :=
  h.guardUnit (fun _ hq => .ite hq.hostWrite (.ite hq.bar2Write (.ite hq.modPort hq)))

theorem AreasKept.execSecLockWrite {port value : Nat} (h : AreasKept s t) : OutKept s (execSecLockWrite port value t) :=
  h.atPort (fun _ hq => hq.writeLock)

theorem AreasKept.execPwrStageApply {port value : Nat} (h : AreasKept s t) : OutKept s (execPwrStageApply port value t) :=
  h.atPort (fun _ hq => hq.hostWrite)

theorem AreasKept.execCalUserWrite {port i value : Nat} (h : AreasKept s t) : OutKept s (execCalUserWrite port i value t) :=
  h.guardUnit (fun _ hq => hq.hostWrite)

theorem AreasKept.execTimPickLoRead {port size : Nat} (h : AreasKept s t) : OutKept s (execTimPickLoRead port size t) :=
  h.atPort (fun _ hq => .ite hq.modPort hq.frame.modPort)

/-! ### The commands of Sys2Proof/Machine/BringUp.lean -/

theorem AreasKept.execPowerOnReset {feedId rackPos : Nat} (h : AreasKept s t) : OutKept s (execPowerOnReset feedId rackPos t) := .next h.powerOn

theorem AreasKept.execDeviceResetDrst {feedId rackPos : Nat} (h : AreasKept s t) : OutKept s (execDeviceResetDrst feedId rackPos t) :=
  .next (.ite h.deviceReset h)

theorem AreasKept.execBringUp {o : BringUpOutcome} (h : AreasKept s t) : OutKept s (execBringUp o t) := by
  unfold Machine.execBringUp
  refine .next ?_
  refine .ite h ?_
  extract_lets +onlyGivenNames s1
  have h1 : AreasKept s s1 := h.runTo
  refine .ite h1.bringUpFrom3 ?_
  extract_lets +onlyGivenNames s2
  have h2 : AreasKept s s2 := h1.stage1
  extract_lets +onlyGivenNames s3
  have h3 : AreasKept s s3 := h2.each (fun _ _ hq => hq.each (fun _ _ hq => hq.answerPosted))
  exact .ite h3 h3.powerWave.bringUpFrom3

theorem AreasKept.execBringupStageTimeout {stage : Nat}
    (h : AreasKept s t) : OutKept s (execBringupStageTimeout stage t) := .next (.ite h.bringUpFail h)

theorem AreasKept.execSelftestTest {port m : Nat} {o : TestOutcome} (h : AreasKept s t) : OutKept s (execSelftestTest port m o t) := by
  unfold Machine.execSelftestTest
  refine h.mbxRunOp (fun _ _ _ _ hq => .ite hq.mbxDone (.ite hq.mbxDone (.ite hq.mbxDone (.ite hq.mbxDone hq.selfTest.mbxComplete))))

theorem AreasKept.execSelftestInstall {port m : Nat} (h : AreasKept s t) : OutKept s (execSelftestInstall port m t) := by
  unfold Machine.execSelftestInstall
  refine h.mbxRunOp fun _ _ c q hq => ?_
  dsimp only
  have h1 : ∀ d n, AreasKept s (Machine.elasticRead d n false q).2.2 := fun _ _ => .elasticRead hq
  refine .ite hq.mbxDone (.ite hq.mbxDone (.ite hq.mbxDone (.ite (h1 _ _).mbxComplete (.ite (h1 _ _).elasticRead.mbxComplete ?_))))
  split
  · exact (h1 _ _).elasticRead.mbxComplete
  · exact .mbxComplete (h1 _ _).elasticRead.withRefDraft

theorem AreasKept.execFenceRead {port m : Nat} (h : AreasKept s t) : OutKept s (execFenceRead port m t) :=
  h.mbxRun (fun _ _ _ _ hq => .ite hq.mbxDone (.ite hq.mbxDone hq.mbxComplete))

theorem AreasKept.execRepairRow {port m : Nat} {pprOk : Bool} (h : AreasKept s t) : OutKept s (execRepairRow port m pprOk t) := by
  unfold Machine.execRepairRow
  refine h.mbxRun fun _ _ _ q hq => ?_
  extract_lets +onlyGivenNames k ppr u sel bank row
  refine .ite hq.mbxDone ?_
  refine .ite (.ite hq.mbxDone (.ite hq.mbxDone hq.repairMmRow)) ?_
  exact .ite hq.mbxDone (.ite hq.mbxDone (.ite hq.mbxDone hq.repairStackRow))

theorem AreasKept.execRepairSiteFence {port m : Nat} (h : AreasKept s t) : OutKept s (execRepairSiteFence port m t) :=
  h.mbxRunOp (fun _ _ _ _ hq => hq.repairSite (fun _ _ hq => hq.fenceSite.repairedSite))

theorem AreasKept.execRepairSiteRetest {port m : Nat} {pass : Bool} (h : AreasKept s t) : OutKept s (execRepairSiteRetest port m pass t) :=
  h.mbxRunOp (fun _ _ _ _ hq => hq.repairSite (fun _ _ hq => .ite hq.mbxCode hq.frame.repairedSite))

theorem AreasKept.execRepairChannelRetrain {port m : Nat} {pass : Bool} (h : AreasKept s t) : OutKept s (execRepairChannelRetrain port m pass t) :=
  h.mbxRunOp (fun _ _ _ _ hq => hq.repairChannel (fun _ _ _ hq => hq.setChannel))

theorem AreasKept.execRepairChannelSetRate {port m : Nat} {pass : Bool} (h : AreasKept s t) : OutKept s (execRepairChannelSetRate port m pass t) :=
  h.mbxRunOp (fun _ _ _ _ hq => hq.repairChannel (fun _ _ _ hq => hq.setChannel))

/-! ### The commands of Sys2Proof/Machine/Power.lean -/

theorem AreasKept.execClampEnd (h : AreasKept s t) : OutKept s (execClampEnd t) := by
  unfold Machine.execClampEnd
  refine .next ?_
  split
  · exact h
  · exact .ite h (((h.runTo.withPwr.each fun _ _ hq => hq.setHold).moveStart).refreshPins)

theorem AreasKept.execRegulatorSample {r : PowerSample} (h : AreasKept s t) : OutKept s (execRegulatorSample r t) := by
  unfold Machine.execRegulatorSample
  refine .next ?_
  extract_lets +onlyGivenNames s1
  have h1 : AreasKept s s1 := h.each (fun _ _ hq => hq.sampleRegion)
  exact .ite h1.frame.checkSupply.enterClamp h1.frame.checkSupply

theorem AreasKept.execSenseCompare {shared : Nat} (h : AreasKept s t) : OutKept s (execSenseCompare shared t) :=
  .next (.ite h.frame.reportUnit (.ite h.frame h.frame))

theorem AreasKept.execBudgetAdjust (h : AreasKept s t) : OutKept s (execBudgetAdjust t) :=
  .next (.ite h.raiseBudgets (.ite (h.each (fun _ _ hq => hq.modRegion)) h))

theorem AreasKept.execHoldoffUpdate (h : AreasKept s t) : OutKept s (execHoldoffUpdate t) := .next (h.runTo.each (fun _ _ hq => hq.setHold))

theorem AreasKept.execEnergyShare {r : SharedEnergy}
    (h : AreasKept s t) : OutKept s (execEnergyShare r t) := .next h.shareEnergy.shareEnergy.shareEnergy

theorem AreasKept.execDroopAlarm {region : Nat} (h : AreasKept s t) : OutKept s (execDroopAlarm region t) :=
  h.atRegion (fun _ hq => hq.count.riskEvent.modRegion)

theorem AreasKept.execDroopClear {region : Nat} (h : AreasKept s t) : OutKept s (execDroopClear region t) := by
  unfold Machine.execDroopClear
  refine h.atRegion fun q hq => ?_
  split
  · exact hq
  · exact hq.modRegion.each (fun _ _ hq => hq.chargeDroop)

theorem AreasKept.execFeedLoss {feed : Nat} (h : AreasKept s t) : OutKept s (execFeedLoss feed t) := by
  unfold Machine.execFeedLoss
  refine h.guardUnit fun q hq => ?_
  refine .ite hq ?_
  extract_lets +onlyGivenNames s1
  have h1 : AreasKept s s1 := hq.setFeed
  exact .ite h1.frame.recap.report.refreshPins.enterClamp h1.frame.recap.report.refreshPins

theorem AreasKept.execFeedReturn {feed : Nat} (h : AreasKept s t) : OutKept s (execFeedReturn feed t) := by
  unfold Machine.execFeedReturn
  refine h.guardUnit fun q hq => ?_
  refine .ite hq ?_
  extract_lets +onlyGivenNames s1
  have h1 : AreasKept s s1 := hq.setFeed
  exact h1.frame.report.refreshPins

theorem AreasKept.execOneFeedLimitLift (h : AreasKept s t) : OutKept s (execOneFeedLimitLift t) := by
  unfold Machine.execOneFeedLimitLift
  refine .next ?_
  split
  · exact .ite h.runTo.withPwr.recap h
  · exact h

theorem AreasKept.execGroupReportSend (h : AreasKept s t) : OutKept s (execGroupReportSend t) := by
  unfold Machine.execGroupReportSend
  refine .next ?_
  split
  · exact h
  · exact h.emitSent.modGrp.takeReport

theorem AreasKept.execGroupReportReceive {block : List Byte} {pecOk : Bool}
    (h : AreasKept s t) : OutKept s (execGroupReportReceive block pecOk t) := by
  unfold Machine.execGroupReportReceive
  refine .next ?_
  refine .ite h.pecFail ?_
  split
  · exact h
  · split
    · exact .ite h h.takeReport
    · exact h

theorem AreasKept.execGroupAssignSend (h : AreasKept s t) : OutKept s (execGroupAssignSend t) := by
  unfold Machine.execGroupAssignSend
  refine .next ?_
  split
  · exact h
  · refine .ite h ?_
    split
    · exact .ite h.modGrp.sendAssign h
    · exact .ite h h.beginMove

theorem AreasKept.execGroupAssignReceive {block : List Byte} {pecOk : Bool} (h : AreasKept s t) : OutKept s (execGroupAssignReceive block pecOk t) :=
  .next (.ite h.pecFail (.ite h.applyAssign h))

theorem AreasKept.execGroupAssignTimeout (h : AreasKept s t) : OutKept s (execGroupAssignTimeout t) := by
  unfold Machine.execGroupAssignTimeout
  refine .next ?_
  split
  · exact h
  · exact .ite h h.runTo.modGrp.reportUnit.recap

theorem AreasKept.execCoordinatorTakeover (h : AreasKept s t) : OutKept s (execCoordinatorTakeover t) := by
  unfold Machine.execCoordinatorTakeover
  refine .next ?_
  split
  · exact h
  · extract_lets +onlyGivenNames s1
    have h1 : AreasKept s s1 := by
      unfold s1
      split
      · exact h.runTo
      · exact h
    exact .ite h1.modGrp h1

theorem AreasKept.execDiodeRead {heddle : Nat} {reading : ℤ} (h : AreasKept s t) : OutKept s (execDiodeRead heddle reading t) :=
  h.guardUnit (fun _ hq => (AreasKept.ite hq.frame.count hq.frame).judgeRegion)

theorem AreasKept.execThrottleHoldoff {region : Nat} (h : AreasKept s t) : OutKept s (execThrottleHoldoff region t) := by
  unfold Machine.execThrottleHoldoff
  refine h.atRegion fun q hq => ?_
  split
  · exact hq
  · exact hq.runTo.modRegion

theorem AreasKept.execRegionReturn {region : Nat} {o : RetestOutcome} (h : AreasKept s t) : OutKept s (execRegionReturn region o t) := by
  unfold Machine.execRegionReturn
  refine h.atRegion fun q hq => ?_
  split
  · exact hq
  · refine .ite hq ?_
    exact .ite hq.runTo.retestRegion.modRegion.flashWrite.allowCheck.report hq.runTo.retestRegion.modRegion.flashWrite.allowCheck

theorem AreasKept.execCoolantSample {c : CoolantSample} (h : AreasKept s t) : OutKept s (execCoolantSample c t) :=
  .next ((AreasKept.ite h.frame.recap.reportUnit.riskEvent h.frame.recap).refreshPins)

theorem AreasKept.execShortDetect {region : Nat} (h : AreasKept s t) : OutKept s (execShortDetect region t) :=
  h.atRegion (fun _ hq => .ite hq hq.forceSubs.modRegion.regionFatal.loseSites.fenceRegion.flashWrite.allowCheck)

theorem AreasKept.execPwrSetCap {port m : Nat} (h : AreasKept s t) : OutKept s (execPwrSetCap port m t) := by
  unfold Machine.execPwrSetCap
  refine h.mbxRun fun _ _ c q hq => ?_
  extract_lets +onlyGivenNames v
  have h1 : AreasKept s (Machine.writeCap v q).2 := .writeCap hq
  refine .ite hq.mbxDone ?_
  split
  next e => rw [e] at h1; exact h1.mbxDone
  next e => rw [e] at h1; exact h1.mbxComplete

theorem AreasKept.execPwrStatus {port m : Nat} (h : AreasKept s t) : OutKept s (execPwrStatus port m t) := h.mbxRun (fun _ _ _ _ hq => hq.mbxComplete)

theorem AreasKept.execRackBudget {port m : Nat} (h : AreasKept s t) : OutKept s (execRackBudget port m t) := by
  unfold Machine.execRackBudget
  refine h.mbxRun (fun _ _ _ _ hq => .ite hq.mbxDone (.ite hq.mbxDone (.ite hq.frame.recap.mbxDone (.ite hq.mbxDone hq.frame.recap.mbxDone))))

/-! ### The commands of Sys2Proof/Machine/Recovery.lean -/

theorem AreasKept.execScald {port m : Nat} {o : ScaldOutcome} (h : AreasKept s t) : OutKept s (execScald port m o t) := by
  unfold Machine.execScald
  refine h.mbxRun fun _ _ _ q hq => ?_
  refine hq.onArea fun _ q hq => ?_
  extract_lets +onlyGivenNames corners mode
  refine .ite hq.mbxDone ?_
  refine .ite hq.mbxDone ?_
  refine .ite hq.mbxDone ?_
  extract_lets +onlyGivenNames w s1
  have h1 : AreasKept s s1 := hq.runTo
  extract_lets +onlyGivenNames l s2
  have h2 : AreasKept s s2 := h1.each (fun _ _ hq => hq.scaldFailure)
  exact ((AreasKept.ite h2.flashWrite.allowCheck h2).each (fun _ _ hq => hq.modRegion)).mbxComplete

theorem AreasKept.execWatchRead {port m : Nat} (h : AreasKept s t) : OutKept s (execWatchRead port m t) :=
  h.mbxRun (fun _ _ _ _ hq => .ite hq.mbxDone hq.mbxComplete)

theorem AreasKept.execWatchTest {u : WatchUnit} {pass : Bool} (h : AreasKept s t) : OutKept s (execWatchTest u pass t) := by
  unfold Machine.execWatchTest
  refine h.guardUnit fun q hq => ?_
  split
  · exact hq.siteTest
  · exact hq.siteTest
  · exact hq.unitAdjust

theorem AreasKept.execWatchClear {u : WatchUnit} (h : AreasKept s t) : OutKept s (execWatchClear u t) := by
  unfold Machine.execWatchClear
  refine .next ?_
  split
  · exact h
  · exact .ite h h.runTo.withRas.count

theorem AreasKept.execRiskEval (h : AreasKept s t) : OutKept s (execRiskEval t) := .next (h.each (fun _ _ hq => hq.evalRisk))

theorem AreasKept.execSkimPartnerSet {port m : Nat} (h : AreasKept s t) : OutKept s (execSkimPartnerSet port m t) := by
  unfold Machine.execSkimPartnerSet
  refine h.mbxRunOp fun _ _ _ q hq => ?_
  refine hq.onArea fun _ q hq => ?_
  extract_lets +onlyGivenNames q dev n l x
  refine .ite hq.mbxDone ?_
  refine .ite hq.mbxDone ?_
  exact .ite hq.mbxDone (.ite hq.mbxDone (.ite hq.mbxDone (.ite hq.mbxDone (.ite hq.mbxCode hq.modArea.mbxDone))))

theorem AreasKept.execSkimPartnerClear {port m : Nat} (h : AreasKept s t) : OutKept s (execSkimPartnerClear port m t) :=
  h.mbxRunOp (fun _ _ _ _ hq => hq.onArea (fun _ _ hq => .ite hq.mbxDone hq.modArea.mbxDone))

theorem AreasKept.execSkimOverrideSet {port m : Nat} (h : AreasKept s t) : OutKept s (execSkimOverrideSet port m t) :=
  h.mbxRunOp (fun _ _ _ _ hq => hq.onArea (fun _ _ hq => .ite hq.mbxDone hq.modAreg.mbxDone))

theorem AreasKept.execSkimOverrideClear {port m : Nat} (h : AreasKept s t) : OutKept s (execSkimOverrideClear port m t) :=
  h.mbxRunOp (fun _ _ _ _ hq => hq.onArea (fun _ _ hq => .ite hq.mbxDone hq.modAreg.mbxDone))

theorem AreasKept.execSkimSend {area : Nat} (h : AreasKept s t) : OutKept s (execSkimSend area t) := by
  unfold Machine.execSkimSend
  refine h.atArea fun q hq => ?_
  extract_lets +onlyGivenNames k f
  refine .ite hq ?_
  refine .ite hq.modArea.skimWrite ?_
  split
  · exact hq.elasticRead.modArea.skimWrite
  · exact .ite hq.modArea.skimWrites hq

theorem AreasKept.execSkimWriteAnswer {area status : Nat} (h : AreasKept s t) : OutKept s (execSkimWriteAnswer area status t) := by
  unfold Machine.execSkimWriteAnswer
  refine h.atArea fun q hq => ?_
  exact .ite hq (.ite hq.failSkim (.ite hq.failSkim (.ite hq.failSkim (.ite hq (.ite hq.modArea.modArea.count hq.modArea)))))

theorem AreasKept.execSkimStall {area : Nat}
    (h : AreasKept s t) : OutKept s (execSkimStall area t) := h.atArea (fun _ hq => .ite hq hq.runTo.failSkim)

theorem AreasKept.execRestore {port m : Nat} (h : AreasKept s t) : OutKept s (execRestore port m t) :=
  h.mbxRunOp (fun _ _ _ _ hq => hq.onArea (fun _ _ hq => .ite hq.mbxDone (.ite hq.mbxDone hq.frame.addRmas.stirRemote)))

/-! ### The commands of Sys2Proof/Machine/Security.lean -/

theorem AreasKept.execDrasalCert {port m : Nat}
    (h : AreasKept s t) : OutKept s (execDrasalCert port m t) := h.mbxRun (fun _ _ _ _ hq => hq.mbxComplete)

theorem AreasKept.execBottomTreeReady (h : AreasKept s t) : OutKept s (execBottomTreeReady t) := .next (.ite h.frame h)

theorem AreasKept.execDrasalAttest {port m : Nat} (h : AreasKept s t) : OutKept s (execDrasalAttest port m t) := by
  unfold Machine.execDrasalAttest
  refine h.mbxRun fun _ _ _ q hq => ?_
  extract_lets +onlyGivenNames n x
  refine .ite hq.mbxDone ?_
  refine .ite hq.mbxCode ?_
  extract_lets +onlyGivenNames s1
  have h1 : AreasKept s s1 := hq.toPick
  exact h1.frame.toHost.mbxComplete

theorem AreasKept.execOwnerEnrol {port m : Nat} (h : AreasKept s t) : OutKept s (execOwnerEnrol port m t) :=
  h.mbxRun (fun _ _ _ _ hq => .ite hq.mbxDone hq.frame.mbxDone)

theorem AreasKept.execDebugUnlockChallenge {port m : Nat} {random : BitVec 256}
    (h : AreasKept s t) : OutKept s (execDebugUnlockChallenge port m random t) := by
  unfold Machine.execDebugUnlockChallenge
  refine h.mbxRunOp fun _ _ _ q hq => ?_
  refine .ite hq.mbxDone ?_
  split
  · exact hq.mbxDone
  · exact hq.frame.mbxComplete

theorem AreasKept.execDebugUnlockResponse {port m : Nat} (h : AreasKept s t) : OutKept s (execDebugUnlockResponse port m t) := by
  unfold Machine.execDebugUnlockResponse
  refine h.mbxRunOp fun _ _ _ q hq => ?_
  split
  · exact hq.mbxDone
  · split
    · exact hq.mbxCode
    · exact .ite hq.mbxCode hq.frame.reportUnit.mbxDone

theorem AreasKept.execDebugUnlockDisable {port m : Nat} (h : AreasKept s t) : OutKept s (execDebugUnlockDisable port m t) :=
  h.mbxRunOp (fun _ _ _ _ hq => hq.frame.mbxDone)

theorem AreasKept.execDebugChallengeExpiry (h : AreasKept s t) : OutKept s (execDebugChallengeExpiry t) := by
  unfold Machine.execDebugChallengeExpiry
  refine .next ?_
  split
  · exact h
  · exact h.runTo.withSec

theorem AreasKept.execFwUpdate {port m : Nat} (h : AreasKept s t) : OutKept s (execFwUpdate port m t) :=
  h.mbxRun (fun _ _ _ _ hq => .ite hq.mbxDone (.ite hq.mbxCode (.ite hq.mbxCode hq.frame.mbxDone)))

/-! ### The commands of Sys2Proof/Machine/Sideband.lean -/

theorem AreasKept.execSmbReadStatus (h : AreasKept s t) : OutKept s (execSmbReadStatus t) := .next h.frame.emitSent

theorem AreasKept.execSmbReadIdentity (h : AreasKept s t) : OutKept s (execSmbReadIdentity t) := .next h.emitSent

theorem AreasKept.execSmbusTimeout (h : AreasKept s t) : OutKept s (execSmbusTimeout t) := .next h.count

theorem AreasKept.execSampleDrain {su : Nat} (h : AreasKept s t) : OutKept s (execSampleDrain su t) := by
  unfold Machine.execSampleDrain
  refine h.onSite fun q hq => ?_
  refine .ite hq ?_
  extract_lets +onlyGivenNames l s1
  have h1 : AreasKept s s1 := hq.modSu
  exact h1.frame

/-! ## The commands that give an area a word (R24, R25, R351) -/

/-- An area that holds a set flag stands in the area store. -/
theorem mem_areaList {a : Nat} (h : (areaAt s a).defined = true) : a ∈ areaList s := by
  suffices ∀ l : Tab Area, (look Area.reset l a).defined = true → a ∈ (l.filter fun kv => kv.2.defined).map Prod.fst from this _ h
  intro l
  induction l with
  | nil => exact fun hl => Bool.noConfusion hl
  | cons x l ih =>
    obtain ⟨k, v⟩ := x
    intro hl
    simp only [look] at hl
    split at hl
    · next e => simp [e, hl]
    · have := ih hl
      simp only [List.mem_map, List.mem_filter] at this ⊢
      obtain ⟨y, ⟨hy, hd⟩, e⟩ := this
      exact ⟨y, ⟨.tail _ hy, hd⟩, e⟩

/-- R24, R25: what the area rules leave unrefused is a valid word with no power region of another area's. -/
theorem wValid_of_areaRefusal {w a : Nat} (h : areaRefusal s w a = mOk) : wValid s.member w = true := by
  by_contra hv
  rw [areaRefusal, if_pos (by simpa using hv)] at h
  cases h

theorem not_covered_of_areaRefusal {w a b r : Nat} (h : areaRefusal s w a = mOk) (hb : (areaAt s b).defined = true) (hne : b ≠ a)
    (hr : r < 64) (hc : wCovers w r = true ∧ wCovers (areaAt s b).word r = true) : False := by
  have ho : ((areaList s).any fun b => decide (b ≠ a) && (wRegions w).any fun r => wCovers (areaAt s b).word r) = true :=
    List.any_eq_true.2 ⟨b, mem_areaList hb, by
      simp only [hne, ne_eq, not_false_eq_true, decide_true, Bool.true_and, List.any_eq_true]
      exact ⟨r, by simp [wRegions, hr, hc.1], hc.2⟩⟩
  rw [areaRefusal, if_pos ho] at h
  split at h <;> simp [mAreaShape, mAreaOverlap, mOk] at h

/-- R24, R25: an area that gets a word no rule refuses stays apart from the others. -/
theorem areasApart_modArea {w : Nat} {g : Area → Area} (hs : areasApart s) (hk : AreasKept s t) (hv : wValid s.member w = true)
    (ho : ∀ b, (areaAt s b).defined = true → b ≠ wArea w → ∀ r, r < 64 → ¬ (wCovers w r = true ∧ wCovers (areaAt s b).word r = true))
    (hg : ∀ x, (g x).word = w) : areasApart (modArea (wArea w) g t) := by
  obtain ⟨hwf, ht⟩ := hk.areasApart hs
  have hm : t.member = s.member := hk.member
  have hn : ∀ b, (areaAt t b).defined = true → b ≠ wArea w → ∀ r, r < 64 → ¬ (wCovers w r = true ∧ wCovers (areaAt t b).word r = true) := by
    intro b hb hne
    obtain ⟨hd, e⟩ := hk.area b hb
    rw [e]
    exact ho b hd hne
  refine ⟨tabWf_alter _ _ _ _ hwf, fun a ha => ?_⟩
  by_cases e : a = wArea w
  · subst e
    rw [areaAt_modArea_self, hg]
    refine ⟨rfl, hm ▸ hv, fun b hb hne => ?_⟩
    rw [areaAt_modArea_ne _ _ _ _ hne] at hb ⊢
    exact hn b hb hne
  · rw [areaAt_modArea_ne _ _ _ _ e] at ha ⊢
    obtain ⟨ha', hva, hda⟩ := ht a ha
    refine ⟨ha', hva, fun b hb hne r hr hc => ?_⟩
    by_cases eb : b = wArea w
    · subst eb
      rw [areaAt_modArea_self, hg] at hc
      exact hn a ha e r hr hc.symm
    · rw [areaAt_modArea_ne _ _ _ _ eb] at hb hc
      exact hda b hb hne r hr hc

theorem areasApart_ite {c : Prop} [Decidable c] {a b : State} (ha : c → areasApart a) (hb : ¬ c → areasApart b) :
    areasApart (if c then a else b) := by
  split
  · exact ha ‹_›
  · exact hb ‹_›

/-- A mailbox command keeps the areas apart where its answer does. -/
theorem areasApart_mbxRun {opc : Nat} {plen : Nat → Bool} {sc : Scope} {free early : Bool} {f : Nat → Nat → Tab Byte → State → State}
    {p m : Nat} (hs : areasApart s) (hf : ∀ p m c q, areasApart q → areasApart (f p m c q))
    (e : mbxRun opc plen sc free early f p m s = .next t) : areasApart t := by
  simp only [mbxRun, guardUnit] at e
  split at e
  · injection e with e
    subst e
    have h1 : AreasKept s (stage1 s) := (AreasKept.refl s).stage1
    have h2 : AreasKept s (modMbx p m (fun b => { b with state := 2 }) (stage1 s)) := h1.modMbx
    exact areasApart_ite (fun _ => hs) fun _ => areasApart_ite (fun _ => h1.areasApart hs) fun _ =>
      areasApart_ite (fun _ => h2.mbxComplete.areasApart hs) fun _ => areasApart_ite (fun _ => h2.mbxComplete.areasApart hs) fun _ =>
      hf _ _ _ _ (h2.areasApart hs)
  · cases e

theorem areasApart_mbxDone {p m st : Nat} (hs : areasApart s) : areasApart (mbxDone p m st s) :=
  (AreasKept.refl s).mbxDone.areasApart hs

theorem wArea_lt (w : Nat) : wArea w < 16 := Nat.mod_lt _ (by decide)

/-- R25: a new area is one that no rule refuses, under a number not in use. -/
theorem areasApart_execAreaCreate {port m : Nat} (hs : areasApart s) (e : execAreaCreate port m s = .next t) : areasApart t := by
  refine areasApart_mbxRun hs (fun p m c q hq => ?_) e
  refine areasApart_ite (fun _ => areasApart_mbxDone hq) fun _ => areasApart_ite (fun _ => areasApart_mbxDone hq) fun _ =>
    areasApart_ite (fun _ => areasApart_mbxDone hq) fun _ => areasApart_ite (fun _ => areasApart_mbxDone hq) fun hok => ?_
  have hok : areaRefusal q (hdrArea c) 16 = mOk := not_not.1 hok
  refine areasApart_mbxDone (areasApart_modArea hq (.refl q) (wValid_of_areaRefusal hok) (fun b hb _ r hr hc => ?_) fun _ => rfl)
  have hlt : b ≠ 16 := by
    have := wArea_lt (areaAt q b).word
    rw [(hq.2 b hb).1] at this
    omega
  exact not_covered_of_areaRefusal hok hb hlt hr hc

/-- R351: an area takes only a word that no rule refuses beside the other areas. -/
theorem areasApart_execAreaChange {port m : Nat} (hs : areasApart s) (e : execAreaChange port m s = .next t) : areasApart t := by
  refine areasApart_mbxRun hs (fun p m c q hq => ?_) e
  refine areasApart_ite (fun _ => areasApart_mbxDone hq) fun _ => areasApart_ite (fun _ => areasApart_mbxDone hq) fun _ =>
    areasApart_ite (fun _ => areasApart_mbxDone hq) fun _ => areasApart_ite (fun _ => areasApart_mbxDone hq) fun _ =>
    areasApart_ite (fun _ => areasApart_mbxDone hq) fun hok => ?_
  have hok : areaRefusal q (hdrArea c) (wArea (hdrArea c)) = mOk := not_not.1 hok
  exact areasApart_mbxDone (areasApart_modArea hq (AreasKept.refl q).abortLoad.dropRecords (wValid_of_areaRefusal hok)
    (fun b hb hne r hr hc => not_covered_of_areaRefusal hok hb hne hr hc) fun _ => rfl)

/-! ## Every command -/

/-- R24, R25: every command keeps the areas apart. Only AREA_CREATE and AREA_CHANGE give an area a word. -/
theorem areasApart_exec {i : Instr} (hs : areasApart s) (e : exec i s = .next t) : areasApart t := by
  have hk : AreasKept s s := .refl s
  cases i with
  | powerOnReset _ _ => exact (hk.execPowerOnReset t e).areasApart hs
  | bringUp _ => exact (hk.execBringUp t e).areasApart hs
  | bringupStageTimeout _ => exact (hk.execBringupStageTimeout t e).areasApart hs
  | deviceResetDrst _ _ => exact (hk.execDeviceResetDrst t e).areasApart hs
  | portReset _ _ => exact (hk.execPortReset t e).areasApart hs
  | nop _ _ => exact (hk.execNop t e).areasApart hs
  | identify _ _ => exact (hk.execIdentify t e).areasApart hs
  | evqSetup _ _ => exact (hk.execEvqSetup t e).areasApart hs
  | abort _ _ => exact (hk.execAbort t e).areasApart hs
  | deviceReset _ _ => exact (hk.execDeviceReset t e).areasApart hs
  | areaCreate _ _ => exact areasApart_execAreaCreate hs e
  | areaChange _ _ => exact areasApart_execAreaChange hs e
  | areaRemove _ _ => exact (hk.execAreaRemove t e).areasApart hs
  | areaClear _ _ => exact (hk.execAreaClear t e).areasApart hs
  | areaTake _ _ => exact (hk.execAreaTake t e).areasApart hs
  | draftLoad _ _ => exact (hk.execDraftLoad t e).areasApart hs
  | loadFlit _ => exact (hk.execLoadFlit t e).areasApart hs
  | warmLoadComplete _ => exact (hk.execWarmLoadComplete t e).areasApart hs
  | jobStart _ _ => exact (hk.execJobStart t e).areasApart hs
  | jobStartPick _ => exact (hk.execJobStartPick t e).areasApart hs
  | jobStatus _ _ => exact (hk.execJobStatus t e).areasApart hs
  | bulkWrite _ _ _ => exact (hk.execBulkWrite t e).areasApart hs
  | bulkRead _ _ _ => exact (hk.execBulkRead t e).areasApart hs
  | remoteRead _ _ => exact (hk.execRemoteRead t e).areasApart hs
  | remoteWrite _ _ => exact (hk.execRemoteWrite t e).areasApart hs
  | setFabricId _ _ => exact (hk.execSetFabricId t e).areasApart hs
  | pwrSetCap _ _ => exact (hk.execPwrSetCap t e).areasApart hs
  | pwrStatus _ _ => exact (hk.execPwrStatus t e).areasApart hs
  | rackBudget _ _ => exact (hk.execRackBudget t e).areasApart hs
  | selftestTest _ _ _ => exact (hk.execSelftestTest t e).areasApart hs
  | selftestInstall _ _ => exact (hk.execSelftestInstall t e).areasApart hs
  | fenceRead _ _ => exact (hk.execFenceRead t e).areasApart hs
  | repairRow _ _ _ => exact (hk.execRepairRow t e).areasApart hs
  | repairSiteFence _ _ => exact (hk.execRepairSiteFence t e).areasApart hs
  | repairSiteRetest _ _ _ => exact (hk.execRepairSiteRetest t e).areasApart hs
  | repairChannelRetrain _ _ _ => exact (hk.execRepairChannelRetrain t e).areasApart hs
  | repairChannelSetRate _ _ _ => exact (hk.execRepairChannelSetRate t e).areasApart hs
  | scald _ _ _ => exact (hk.execScald t e).areasApart hs
  | watchRead _ _ => exact (hk.execWatchRead t e).areasApart hs
  | skimPartnerSet _ _ => exact (hk.execSkimPartnerSet t e).areasApart hs
  | skimPartnerClear _ _ => exact (hk.execSkimPartnerClear t e).areasApart hs
  | skimOverrideSet _ _ => exact (hk.execSkimOverrideSet t e).areasApart hs
  | skimOverrideClear _ _ => exact (hk.execSkimOverrideClear t e).areasApart hs
  | restore _ _ => exact (hk.execRestore t e).areasApart hs
  | restoreResume _ _ => exact (hk.execRestoreResume t e).areasApart hs
  | drasalCert _ _ => exact (hk.execDrasalCert t e).areasApart hs
  | drasalAttest _ _ => exact (hk.execDrasalAttest t e).areasApart hs
  | ownerEnrol _ _ => exact (hk.execOwnerEnrol t e).areasApart hs
  | debugUnlockChallenge _ _ _ => exact (hk.execDebugUnlockChallenge t e).areasApart hs
  | debugUnlockResponse _ _ => exact (hk.execDebugUnlockResponse t e).areasApart hs
  | debugUnlockDisable _ _ => exact (hk.execDebugUnlockDisable t e).areasApart hs
  | debugChallengeExpiry => exact (hk.execDebugChallengeExpiry t e).areasApart hs
  | fwUpdate _ _ => exact (hk.execFwUpdate t e).areasApart hs
  | bottomTreeReady => exact (hk.execBottomTreeReady t e).areasApart hs
  | hpcAbortWrite _ _ => exact (hk.execHpcAbortWrite t e).areasApart hs
  | abortHwTimeout => exact (hk.execAbortHwTimeout t e).areasApart hs
  | hpcDrstWrite _ _ => exact (hk.execHpcDrstWrite t e).areasApart hs
  | registerWrite _ _ _ _ _ => exact (hk.execRegisterWrite t e).areasApart hs
  | timPickLoRead _ _ => exact (hk.execTimPickLoRead t e).areasApart hs
  | idxDataRead _ _ => exact (hk.execIdxDataRead t e).areasApart hs
  | idxDataWrite _ _ _ => exact (hk.execIdxDataWrite t e).areasApart hs
  | idxAccessTimeout _ _ => exact (hk.execIdxAccessTimeout t e).areasApart hs
  | secLockWrite _ _ => exact (hk.execSecLockWrite t e).areasApart hs
  | tripleVoteSweep => exact (hk.execTripleVoteSweep t e).areasApart hs
  | mmStageApply _ _ _ => exact (hk.execMmStageApply t e).areasApart hs
  | xsStageApply _ _ _ => exact (hk.execXsStageApply t e).areasApart hs
  | pwrStageApply _ _ => exact (hk.execPwrStageApply t e).areasApart hs
  | shadowApply => exact (hk.execShadowApply t e).areasApart hs
  | calUserWrite _ _ _ => exact (hk.execCalUserWrite t e).areasApart hs
  | mmInjWrite _ _ _ => exact (hk.execMmInjWrite t e).areasApart hs
  | mmRdataRead _ _ => exact (hk.execMmRdataRead t e).areasApart hs
  | mmRdataWrite _ _ _ => exact (hk.execMmRdataWrite t e).areasApart hs
  | mmPwrRequest _ _ _ => exact (hk.execMmPwrRequest t e).areasApart hs
  | mmPwrForce _ _ _ => exact (hk.execMmPwrForce t e).areasApart hs
  | subbankStateChange _ _ => exact (hk.execSubbankStateChange t e).areasApart hs
  | subbankForceTimeout _ _ => exact (hk.execSubbankForceTimeout t e).areasApart hs
  | subbankReturnOn _ _ => exact (hk.execSubbankReturnOn t e).areasApart hs
  | shtCtlWrite _ _ _ => exact (hk.execShtCtlWrite t e).areasApart hs
  | fabRouteWrite _ _ _ => exact (hk.execFabRouteWrite t e).areasApart hs
  | stepStart _ => exact (hk.execStepStart t e).areasApart hs
  | stepEndPick _ => exact (hk.execStepEndPick t e).areasApart hs
  | exactDigest _ => exact (hk.execExactDigest t e).areasApart hs
  | stepCommit _ => exact (hk.execStepCommit t e).areasApart hs
  | remap _ _ => exact (hk.execRemap t e).areasApart hs
  | remapTimeout _ => exact (hk.execRemapTimeout t e).areasApart hs
  | jobResume _ => exact (hk.execJobResume t e).areasApart hs
  | haltReach _ => exact (hk.execHaltReach t e).areasApart hs
  | weaveEntryExec _ _ => exact (hk.execWeaveEntryExec t e).areasApart hs
  | flitArrival _ _ _ => exact (hk.execFlitArrival t e).areasApart hs
  | controlTokenArrival _ _ => exact (hk.execControlTokenArrival t e).areasApart hs
  | tokenWindowExpiry _ _ => exact (hk.execTokenWindowExpiry t e).areasApart hs
  | fellBankSwitch _ _ => exact (hk.execFellBankSwitch t e).areasApart hs
  | pageTakeEffect _ => exact (hk.execPageTakeEffect t e).areasApart hs
  | creditReturn _ _ => exact (hk.execCreditReturn t e).areasApart hs
  | wrpCreditHang _ _ => exact (hk.execWrpCreditHang t e).areasApart hs
  | tokenTableEmit _ _ => exact (hk.execTokenTableEmit t e).areasApart hs
  | mmDelivery _ => exact (hk.execMmDelivery t e).areasApart hs
  | pullEntryExec _ => exact (hk.execPullEntryExec t e).areasApart hs
  | eccWriteBack _ => exact (hk.execEccWriteBack t e).areasApart hs
  | dmaOpArrival _ => exact (hk.execDmaOpArrival t e).areasApart hs
  | dmaQueueService _ _ => exact (hk.execDmaQueueService t e).areasApart hs
  | edgeDmaSlot _ _ => exact (hk.execEdgeDmaSlot t e).areasApart hs
  | fillSlot _ _ => exact (hk.execFillSlot t e).areasApart hs
  | mmScrub _ _ => exact (hk.execMmScrub t e).areasApart hs
  | ringDelivery _ => exact (hk.execRingDelivery t e).areasApart hs
  | siteStart _ => exact (hk.execSiteStart t e).areasApart hs
  | mxNop _ _ => exact (hk.execMxNop t e).areasApart hs
  | mxEnd _ _ => exact (hk.execMxEnd t e).areasApart hs
  | mxWait _ _ => exact (hk.execMxWait t e).areasApart hs
  | mxWpk _ _ => exact (hk.execMxWpk t e).areasApart hs
  | mxLoop _ _ => exact (hk.execMxLoop t e).areasApart hs
  | setm _ _ => exact (hk.execSetm t e).areasApart hs
  | seta _ _ => exact (hk.execSeta t e).areasApart hs
  | adda _ _ => exact (hk.execAdda t e).areasApart hs
  | setf _ _ => exact (hk.execSetf t e).areasApart hs
  | rel _ _ => exact (hk.execRel t e).areasApart hs
  | lds _ _ => exact (hk.execLds t e).areasApart hs
  | ldss _ _ => exact (hk.execLdss t e).areasApart hs
  | ldc _ _ => exact (hk.execLdc t e).areasApart hs
  | genc _ _ => exact (hk.execGenc t e).areasApart hs
  | mac _ _ => exact (hk.execMac t e).areasApart hs
  | macBlockEntry _ _ => exact (hk.execMacBlockEntry t e).areasApart hs
  | out _ _ => exact (hk.execOut t e).areasApart hs
  | outs _ _ => exact (hk.execOuts t e).areasApart hs
  | acc _ _ => exact (hk.execAcc t e).areasApart hs
  | spmac _ _ => exact (hk.execSpmac t e).areasApart hs
  | ldk _ _ => exact (hk.execLdk t e).areasApart hs
  | setau _ _ => exact (hk.execSetau t e).areasApart hs
  | sfNop _ _ => exact (hk.execSfNop t e).areasApart hs
  | sfEnd _ _ => exact (hk.execSfEnd t e).areasApart hs
  | sfWait _ _ => exact (hk.execSfWait t e).areasApart hs
  | sfWpk _ _ => exact (hk.execSfWpk t e).areasApart hs
  | sfLoop _ _ => exact (hk.execSfLoop t e).areasApart hs
  | sfBr _ _ => exact (hk.execSfBr t e).areasApart hs
  | bz _ _ => exact (hk.execBz t e).areasApart hs
  | bnz _ _ => exact (hk.execBnz t e).areasApart hs
  | sli _ _ => exact (hk.execSli t e).areasApart hs
  | sadd _ _ => exact (hk.execSadd t e).areasApart hs
  | smovv _ _ => exact (hk.execSmovv t e).areasApart hs
  | getpk _ _ => exact (hk.execGetpk t e).areasApart hs
  | fadd _ _ => exact (hk.execFadd t e).areasApart hs
  | fsub _ _ => exact (hk.execFsub t e).areasApart hs
  | fmul _ _ => exact (hk.execFmul t e).areasApart hs
  | ffma _ _ => exact (hk.execFfma t e).areasApart hs
  | fmin _ _ => exact (hk.execFmin t e).areasApart hs
  | fmax _ _ => exact (hk.execFmax t e).areasApart hs
  | fcmp _ _ => exact (hk.execFcmp t e).areasApart hs
  | iadd _ _ => exact (hk.execIadd t e).areasApart hs
  | isub _ _ => exact (hk.execIsub t e).areasApart hs
  | imul _ _ => exact (hk.execImul t e).areasApart hs
  | imulh _ _ => exact (hk.execImulh t e).areasApart hs
  | iand _ _ => exact (hk.execIand t e).areasApart hs
  | ior _ _ => exact (hk.execIor t e).areasApart hs
  | ixor _ _ => exact (hk.execIxor t e).areasApart hs
  | ishl _ _ => exact (hk.execIshl t e).areasApart hs
  | ishr _ _ => exact (hk.execIshr t e).areasApart hs
  | isra _ _ => exact (hk.execIsra t e).areasApart hs
  | icmp _ _ => exact (hk.execIcmp t e).areasApart hs
  | sel _ _ => exact (hk.execSel t e).areasApart hs
  | cvt _ _ => exact (hk.execCvt t e).areasApart hs
  | cvtmx _ _ => exact (hk.execCvtmx t e).areasApart hs
  | fexp _ _ => exact (hk.execFexp t e).areasApart hs
  | fexp2 _ _ => exact (hk.execFexp2 t e).areasApart hs
  | fexpsub _ _ => exact (hk.execFexpsub t e).areasApart hs
  | flog _ _ => exact (hk.execFlog t e).areasApart hs
  | flog2 _ _ => exact (hk.execFlog2 t e).areasApart hs
  | frcp _ _ => exact (hk.execFrcp t e).areasApart hs
  | frsq _ _ => exact (hk.execFrsq t e).areasApart hs
  | fsqrt _ _ => exact (hk.execFsqrt t e).areasApart hs
  | ftanh _ _ => exact (hk.execFtanh t e).areasApart hs
  | fsig _ _ => exact (hk.execFsig t e).areasApart hs
  | ferf _ _ => exact (hk.execFerf t e).areasApart hs
  | fgelu _ _ => exact (hk.execFgelu t e).areasApart hs
  | rsum _ _ => exact (hk.execRsum t e).areasApart hs
  | rmax _ _ => exact (hk.execRmax t e).areasApart hs
  | rmin _ _ => exact (hk.execRmin t e).areasApart hs
  | rrsum _ _ => exact (hk.execRrsum t e).areasApart hs
  | perm _ _ => exact (hk.execPerm t e).areasApart hs
  | bcast _ _ => exact (hk.execBcast t e).areasApart hs
  | ldv _ _ => exact (hk.execLdv t e).areasApart hs
  | stv _ _ => exact (hk.execStv t e).areasApart hs
  | send _ _ => exact (hk.execSend t e).areasApart hs
  | hash _ _ => exact (hk.execHash t e).areasApart hs
  | rng _ _ => exact (hk.execRng t e).areasApart hs
  | sortcx _ _ => exact (hk.execSortcx t e).areasApart hs
  | topki _ _ => exact (hk.execTopki t e).areasApart hs
  | topk _ _ => exact (hk.execTopk t e).areasApart hs
  | suNop _ _ => exact (hk.execSuNop t e).areasApart hs
  | suWait _ _ => exact (hk.execSuWait t e).areasApart hs
  | wt _ _ => exact (hk.execWt t e).areasApart hs
  | suLoop _ _ => exact (hk.execSuLoop t e).areasApart hs
  | suBr _ _ => exact (hk.execSuBr t e).areasApart hs
  | sett _ _ => exact (hk.execSett t e).areasApart hs
  | addt _ _ => exact (hk.execAddt t e).areasApart hs
  | go _ _ => exact (hk.execGo t e).areasApart hs
  | page _ _ => exact (hk.execPage t e).areasApart hs
  | fell _ _ => exact (hk.execFell t e).areasApart hs
  | cwait _ _ => exact (hk.execCwait t e).areasApart hs
  | qwait _ _ => exact (hk.execQwait t e).areasApart hs
  | join _ _ => exact (hk.execJoin t e).areasApart hs
  | joinReady _ => exact (hk.execJoinReady t e).areasApart hs
  | barrierFlit _ => exact (hk.execBarrierFlit t e).areasApart hs
  | barrierFlitSend _ _ => exact (hk.execBarrierFlitSend t e).areasApart hs
  | barrierWindowEnd _ => exact (hk.execBarrierWindowEnd t e).areasApart hs
  | samp _ _ => exact (hk.execSamp t e).areasApart hs
  | descriptorFlit _ => exact (hk.execDescriptorFlit t e).areasApart hs
  | readerEmit _ => exact (hk.execReaderEmit t e).areasApart hs
  | updateFlit _ => exact (hk.execUpdateFlit t e).areasApart hs
  | accQueueServe _ _ => exact (hk.execAccQueueServe t e).areasApart hs
  | flushEmit _ => exact (hk.execFlushEmit t e).areasApart hs
  | skipAlarmEval => exact (hk.execSkipAlarmEval t e).areasApart hs
  | hbmRequest _ => exact (hk.execHbmRequest t e).areasApart hs
  | hbmGrainAccess _ _ => exact (hk.execHbmGrainAccess t e).areasApart hs
  | hbmWriteBack _ _ => exact (hk.execHbmWriteBack t e).areasApart hs
  | hbmReturnRelease _ => exact (hk.execHbmReturnRelease t e).areasApart hs
  | hbmFrameStart _ => exact (hk.execHbmFrameStart t e).areasApart hs
  | gatherWindowStart _ => exact (hk.execGatherWindowStart t e).areasApart hs
  | hbmScrub _ => exact (hk.execHbmScrub t e).areasApart hs
  | hbmTrainStep _ _ _ _ => exact (hk.execHbmTrainStep t e).areasApart hs
  | hbmCaPar _ _ => exact (hk.execHbmCaPar t e).areasApart hs
  | hbmOdecc _ _ => exact (hk.execHbmOdecc t e).areasApart hs
  | elasticStackAccess _ _ _ => exact (hk.execElasticStackAccess t e).areasApart hs
  | pickFrameSend _ => exact (hk.execPickFrameSend t e).areasApart hs
  | slotTake _ => exact (hk.execSlotTake t e).areasApart hs
  | codewordDecode _ _ => exact (hk.execCodewordDecode t e).areasApart hs
  | laneFail _ _ => exact (hk.execLaneFail t e).areasApart hs
  | pickHeaderReceive _ _ => exact (hk.execPickHeaderReceive t e).areasApart hs
  | slotPush _ => exact (hk.execSlotPush t e).areasApart hs
  | elasticFrameReceive _ _ _ => exact (hk.execElasticFrameReceive t e).areasApart hs
  | elasticFrameSend _ => exact (hk.execElasticFrameSend t e).areasApart hs
  | linkFrameSend _ => exact (hk.execLinkFrameSend t e).areasApart hs
  | linkFrame _ _ _ => exact (hk.execLinkFrame t e).areasApart hs
  | signalDetect _ => exact (hk.execSignalDetect t e).areasApart hs
  | portTrained _ _ => exact (hk.execPortTrained t e).areasApart hs
  | trainingTimeout _ => exact (hk.execTrainingTimeout t e).areasApart hs
  | lossOfSignal _ => exact (hk.execLossOfSignal t e).areasApart hs
  | rotationPoint _ => exact (hk.execRotationPoint t e).areasApart hs
  | pickSteer => exact (hk.execPickSteer t e).areasApart hs
  | upstreamLoss => exact (hk.execUpstreamLoss t e).areasApart hs
  | holdoverExpiry => exact (hk.execHoldoverExpiry t e).areasApart hs
  | betterOffer _ => exact (hk.execBetterOffer t e).areasApart hs
  | masterProposal => exact (hk.execMasterProposal t e).areasApart hs
  | epochInEdge _ => exact (hk.execEpochInEdge t e).areasApart hs
  | epochOutPulse => exact (hk.execEpochOutPulse t e).areasApart hs
  | refclkLoss => exact (hk.execRefclkLoss t e).areasApart hs
  | helloSend _ => exact (hk.execHelloSend t e).areasApart hs
  | helloReceive _ _ => exact (hk.execHelloReceive t e).areasApart hs
  | helloTimeout _ => exact (hk.execHelloTimeout t e).areasApart hs
  | routeSend _ => exact (hk.execRouteSend t e).areasApart hs
  | routeReceive _ _ => exact (hk.execRouteReceive t e).areasApart hs
  | routedFrame _ => exact (hk.execRoutedFrame t e).areasApart hs
  | rmaRequest _ => exact (hk.execRmaRequest t e).areasApart hs
  | rmaResponse _ => exact (hk.execRmaResponse t e).areasApart hs
  | rmaTimeout _ => exact (hk.execRmaTimeout t e).areasApart hs
  | tallyBuild _ => exact (hk.execTallyBuild t e).areasApart hs
  | tallyReceive _ _ => exact (hk.execTallyReceive t e).areasApart hs
  | fbPageSend _ _ => exact (hk.execFbPageSend t e).areasApart hs
  | fbPageReceive _ => exact (hk.execFbPageReceive t e).areasApart hs
  | fbgrantSend _ _ => exact (hk.execFbgrantSend t e).areasApart hs
  | fbgrantReceive _ => exact (hk.execFbgrantReceive t e).areasApart hs
  | fbResendTimeout _ _ => exact (hk.execFbResendTimeout t e).areasApart hs
  | regulatorSample _ => exact (hk.execRegulatorSample t e).areasApart hs
  | clampEnd => exact (hk.execClampEnd t e).areasApart hs
  | senseCompare _ => exact (hk.execSenseCompare t e).areasApart hs
  | budgetAdjust => exact (hk.execBudgetAdjust t e).areasApart hs
  | holdoffUpdate => exact (hk.execHoldoffUpdate t e).areasApart hs
  | energyShare _ => exact (hk.execEnergyShare t e).areasApart hs
  | droopAlarm _ => exact (hk.execDroopAlarm t e).areasApart hs
  | droopClear _ => exact (hk.execDroopClear t e).areasApart hs
  | feedLoss _ => exact (hk.execFeedLoss t e).areasApart hs
  | feedReturn _ => exact (hk.execFeedReturn t e).areasApart hs
  | oneFeedLimitLift => exact (hk.execOneFeedLimitLift t e).areasApart hs
  | groupReportSend => exact (hk.execGroupReportSend t e).areasApart hs
  | groupReportReceive _ _ => exact (hk.execGroupReportReceive t e).areasApart hs
  | groupAssignSend => exact (hk.execGroupAssignSend t e).areasApart hs
  | groupAssignReceive _ _ => exact (hk.execGroupAssignReceive t e).areasApart hs
  | groupAssignTimeout => exact (hk.execGroupAssignTimeout t e).areasApart hs
  | coordinatorTakeover => exact (hk.execCoordinatorTakeover t e).areasApart hs
  | diodeRead _ _ => exact (hk.execDiodeRead t e).areasApart hs
  | throttleHoldoff _ => exact (hk.execThrottleHoldoff t e).areasApart hs
  | regionReturn _ _ => exact (hk.execRegionReturn t e).areasApart hs
  | coolantSample _ => exact (hk.execCoolantSample t e).areasApart hs
  | shortDetect _ => exact (hk.execShortDetect t e).areasApart hs
  | watchTest _ _ => exact (hk.execWatchTest t e).areasApart hs
  | watchClear _ => exact (hk.execWatchClear t e).areasApart hs
  | riskEval => exact (hk.execRiskEval t e).areasApart hs
  | skimSend _ => exact (hk.execSkimSend t e).areasApart hs
  | skimWriteAnswer _ _ => exact (hk.execSkimWriteAnswer t e).areasApart hs
  | skimStall _ => exact (hk.execSkimStall t e).areasApart hs
  | smbReadStatus => exact (hk.execSmbReadStatus t e).areasApart hs
  | smbReadIdentity => exact (hk.execSmbReadIdentity t e).areasApart hs
  | smbusTimeout => exact (hk.execSmbusTimeout t e).areasApart hs
  | sampleDrain _ => exact (hk.execSampleDrain t e).areasApart hs
  | dmaReturnArrival _ _ => exact (hk.execDmaReturnArrival t e).areasApart hs
  | triplicatedRead _ => exact (hk.execTriplicatedRead t e).areasApart hs
  | hostLinkUp _ => exact (hk.execHostLinkUp t e).areasApart hs

end
end Sys2Proof.Machine
end

section
open Sys2Proof Sys2Proof.Machine

/-- Settles O60: the area commands check the word they give an area, and every other command keeps the areas. -/
theorem stepsKeepAreasApart : Obligations.StepsKeepAreasApart := by
  intro s t hs e
  unfold step at e
  split at e
  · injection e with e
    exact e ▸ (AreasKept.refl s).runTo.areasApart hs
  · exact areasApart_exec ((AreasKept.refl s).frame.areasApart hs) e
end

section
/-! The step (R29) and the units that are absent (R13-R15): O1, O58. -/
namespace Sys2Proof.Machine

/-- The command stops at site n: it faults where the member has no such site, and is refused where the site is not of kind k. -/
def StopsAtSite (k : SiteKind) (n : Nat) (s : State) (o : Out) : Prop :=
  (sitePresent s.member n = false → o = .fault .absentUnit) ∧ (sitePresent s.member n = true → kindOf n ≠ k → o = .refused .wrongUnit)

theorem stopsAtSite_onSite (k : SiteKind) (n : Nat) (f : State → State) (s : State) : StopsAtSite k n s (onSite k n f s) :=
  ⟨fun h => by simp [onSite, h], fun h hk => by simp [onSite, h, hk]⟩

theorem stopsAtSite_ite {k : SiteKind} {n : Nat} {s : State} {c : Prop} [Decidable c] {a b : Out} (ha : StopsAtSite k n s a) (hb : StopsAtSite k n s b) :
    StopsAtSite k n s (if c then a else b) := by
  split
  · exact ha
  · exact hb

theorem stopsAtSite_mxIssue (op n : Nat) (w : W64) (f : State → State) (s : State) : StopsAtSite .mx n s (mxIssue op n w f s) := stopsAtSite_onSite ..
theorem stopsAtSite_sfIssue (op n : Nat) (w : W64) (f : State → State) (s : State) : StopsAtSite .sf n s (sfIssue op n w f s) := stopsAtSite_onSite ..
theorem stopsAtSite_suIssue (op n : Nat) (w : W64) (f : State → State) (s : State) : StopsAtSite .su n s (suIssue op n w f s) := stopsAtSite_onSite ..

theorem stopsAtSite_sfUnit (op : Nat) (u : SfUnit) (busy n : Nat) (w : W64) (g : State → State) (s : State) :
    StopsAtSite .sf n s (sfUnit op u busy n w g s) := stopsAtSite_sfIssue ..

theorem stopsAtSite_sfLanes (op : Nat) (u : SfUnit) (busy lat k : Nat) (fp : Bool) (g : W32 → W32 → W32 → W32) (n : Nat) (w : W64) (s : State) :
    StopsAtSite .sf n s (sfLanes op u busy lat k fp g n w s) := stopsAtSite_sfUnit ..

theorem stopsAtSite_sfCompare (op lat top : Nat) (cmp : Nat → W32 → W32 → Bool) (n : Nat) (w : W64) (s : State) :
    StopsAtSite .sf n s (sfCompare op lat top cmp n w s) := by
  unfold sfCompare
  exact stopsAtSite_ite (stopsAtSite_sfIssue ..) (stopsAtSite_sfUnit ..)

theorem guardUnit_absent {c : Bool} {f : State → State} {s : State} (h : c = false) : guardUnit c f s = .fault .absentUnit := by rw [h]; rfl

theorem atStack_absent {k : Nat} {f : State → State} {s : State} (h : stackPresent s.member k = false) : atStack k f s = .fault .absentUnit := guardUnit_absent h

theorem atShuttle_absent {p : Nat} {f : State → State} {s : State} (h : portPresent s.member p = false) : atShuttle p f s = .fault .absentUnit := guardUnit_absent h

theorem atRegion_absent {r : Nat} {f : State → State} {s : State} (h : numRegions s.member ≤ r) : atRegion r f s = .fault .absentUnit :=
  guardUnit_absent (decide_eq_false (by omega))

theorem atArea_absent {a : Nat} {f : State → State} {s : State} (h : 16 ≤ a) : atArea a f s = .fault .absentUnit := guardUnit_absent (decide_eq_false (by omega))

theorem atPort_absent {p : Nat} {f : State → State} {s : State} (h : 2 ≤ p) : atPort p f s = .fault .absentUnit := guardUnit_absent (decide_eq_false (by omega))

end Sys2Proof.Machine

open Sys2Proof Sys2Proof.Machine

/-- Settles O1: a step is exec of the queue's front, and the advance of time keeps the queue. -/
theorem stepRunsTheFrontCommandOrIdles : Obligations.StepRunsTheFrontCommandOrIdles := by
  refine ⟨fun _ _ _ => rfl, fun s h => ⟨runTo (s.now + 1) s, by simp only [step, h], ?_, ?_, ?_⟩⟩
  · rw [runTo_now]
    omega
  · rw [runTo_up]
    omega
  · rw [runTo_frame]
    exact h

/-- Settles O58: each command asks for its unit before it does anything. -/
theorem absentUnitsStop : Obligations.AbsentUnitsStop := by
  refine ⟨fun n w s => ⟨?mx, ?sf, ?su⟩, fun k s => ⟨fun h => ?stack, fun h => ?shuttle, fun h => ?region, fun h => ?area, fun h => ?port⟩⟩
  case mx =>
    have h1 : StopsAtSite .mx n s (execMac n w s) := stopsAtSite_mxIssue ..
    have h2 : StopsAtSite .mx n s (execLds n w s) := stopsAtSite_mxIssue ..
    have h3 : StopsAtSite .mx n s (execOut n w s) := stopsAtSite_mxIssue ..
    have h4 : StopsAtSite .mx n s (execSetm n w s) := stopsAtSite_mxIssue ..
    have h5 : StopsAtSite .mx n s (execSpmac n w s) := stopsAtSite_mxIssue ..
    simp only [List.forall_mem_cons]
    exact ⟨h1, h2, h3, h4, h5, List.forall_mem_nil _⟩
  case sf =>
    have h1 : StopsAtSite .sf n s (execFadd n w s) := stopsAtSite_sfLanes ..
    have h2 : StopsAtSite .sf n s (execFcmp n w s) := stopsAtSite_sfCompare ..
    have h3 : StopsAtSite .sf n s (execIadd n w s) := stopsAtSite_sfLanes ..
    have h4 : StopsAtSite .sf n s (execSel n w s) := stopsAtSite_sfUnit ..
    simp only [List.forall_mem_cons]
    exact ⟨h1, h2, h3, h4, List.forall_mem_nil _⟩
  case su =>
    have h1 : StopsAtSite .su n s (execGo n w s) := stopsAtSite_suIssue ..
    have h2 : StopsAtSite .su n s (execPage n w s) := stopsAtSite_suIssue ..
    have h3 : StopsAtSite .su n s (execJoin n w s) := stopsAtSite_suIssue ..
    have h4 : StopsAtSite .su n s (execExactDigest n s) := stopsAtSite_onSite ..
    have h5 : StopsAtSite .su n s (execSampleDrain n s) := stopsAtSite_onSite ..
    simp only [List.forall_mem_cons]
    exact ⟨h1, h2, h3, h4, h5, List.forall_mem_nil _⟩
  case stack => exact show execHbmRequest k s = _ from atStack_absent h
  case shuttle => exact show execHelloSend k s = _ from atShuttle_absent h
  case region => exact show execDroopAlarm k s = _ from atRegion_absent h
  case area => exact show execStepCommit k s = _ from atArea_absent h
  case port => exact show execHostLinkUp k s = _ from atPort_absent h
end

section
/-! SUPPORT. Stores after a change of every unit, and what shared operations change. -/
namespace Sys2Proof.Machine

/-! ## Stores after a change of every unit -/

section
variable {α : Type} [DecidableEq α] {d : α} {t : Tab α} {k : Nat}

theorem look_mapTab_cons (j : Nat) (v : α) (f : Nat → α → α) :
    look d (mapTab d f ((j, v) :: t)) k = if k = j ∧ f j v ≠ d then f j v else look d (mapTab d f t) k := by
  by_cases h : f j v = d
  · simp only [mapTab, List.filterMap_cons, h, if_true, ne_eq, not_true_eq_false, and_false, if_false]
  · simp only [mapTab, List.filterMap_cons, h, if_false, look, ne_eq, not_false_eq_true, and_true]

/-- A listed unit that its change does not bring to the default is listed as changed. -/
theorem look_mapTab_listed {f : Nat → α → α} (hk : look d t k ≠ d) (hf : f k (look d t k) ≠ d) : look d (mapTab d f t) k = f k (look d t k) := by
  induction t with
  | nil => exact absurd rfl hk
  | cons x t ih =>
    obtain ⟨j, v⟩ := x
    rw [look_mapTab_cons]
    by_cases e : k = j
    · subst e
      simp only [look, if_true] at hf ⊢
      rw [if_pos ⟨trivial, hf⟩]
    · simp only [look, if_neg e] at hk hf ⊢
      rw [if_neg fun h => e h.1]
      exact ih hk hf

/-- A change that brings no unit to the default changes a unit or leaves it unlisted. -/
theorem look_mapTab_or {f : Nat → α → α} (hf : ∀ v, f k v ≠ d) :
    look d (mapTab d f t) k = f k (look d t k) ∨ (look d t k = d ∧ look d (mapTab d f t) k = d) := by
  induction t with
  | nil => exact .inr ⟨rfl, rfl⟩
  | cons x t ih =>
    obtain ⟨j, v⟩ := x
    rw [look_mapTab_cons]
    by_cases e : k = j
    · subst e
      simp only [look, if_true]
      exact .inl (if_pos ⟨trivial, hf v⟩)
    · simp only [look, if_neg e]
      rw [if_neg fun h => e h.1]
      exact ih

omit [DecidableEq α] in
theorem look_eq_default_of_lt (h : ∀ x ∈ t, k < x.1) : look d t k = d := by
  induction t with
  | nil => rfl
  | cons x t ih =>
    have hx := h x (.head _)
    simp only [look, if_neg (show ¬ k = x.1 by omega)]
    exact ih fun y hy => h y (.tail _ hy)

/-- In a canonical store every unit is as changed, where the change keeps the default. -/
theorem look_mapTab {f : Nat → α → α} (hw : TabWf d t = true) (hd : f k d = d) : look d (mapTab d f t) k = f k (look d t k) := by
  induction t with
  | nil => exact hd.symm
  | cons x t ih =>
    obtain ⟨j, v⟩ := x
    simp only [TabWf, Bool.and_eq_true, List.all_eq_true, decide_eq_true_eq] at hw
    obtain ⟨⟨-, hlt⟩, hw⟩ := hw
    rw [look_mapTab_cons]
    by_cases e : k = j
    · subst e
      simp only [look, if_true]
      split
      · rfl
      · next h =>
        have hv : f k v = d := by_contra fun hv => h ⟨trivial, hv⟩
        rw [ih hw, look_eq_default_of_lt hlt, hd, hv]
    · simp only [look, if_neg e]
      rw [if_neg fun h => e h.1, ih hw]

theorem look_whereTab {p : Nat → Bool} {f : α → α} (hw : TabWf d t = true) (hd : f d = d) :
    look d (whereTab d p f t) k = if p k = true then f (look d t k) else look d t k :=
  look_mapTab (f := fun k v => if p k then f v else v) hw (by simp only [hd, ite_self])

theorem look_whereTab_out {p : Nat → Bool} {f : α → α} (hw : TabWf d t = true) (hp : p k = false) :
    look d (whereTab d p f t) k = look d t k := by
  unfold whereTab
  have e := look_mapTab (k := k) (f := fun k v => if p k then f v else v) hw (by simp only [hp, Bool.false_eq_true, if_false])
  simpa only [hp, Bool.false_eq_true, if_false] using e

theorem look_whereTab_or {p : Nat → Bool} {f : α → α} (hp : p k = true) (hf : ∀ v, f v ≠ d) :
    look d (whereTab d p f t) k = f (look d t k) ∨ (look d t k = d ∧ look d (whereTab d p f t) k = d) := by
  unfold whereTab
  have e := look_mapTab_or (k := k) (t := t) (f := fun k v => if p k then f v else v) (by simpa only [hp, if_true] using hf)
  simpa only [hp, if_true] using e

theorem look_whereTab_listed {p : Nat → Bool} {f : α → α} (hp : p k = true) (hk : look d t k ≠ d) (hf : f (look d t k) ≠ d) :
    look d (whereTab d p f t) k = f (look d t k) := by
  unfold whereTab
  have e := look_mapTab_listed (f := fun k v => if p k then f v else v) hk (by simpa only [hp, if_true] using hf)
  simpa only [hp, if_true] using e

end

/-! ## Mailbox completion (R338, R340) -/

/-- Completion changes host ports. -/
theorem mbxComplete_frame (p m st detail : Nat) (rsp : List Byte) (s : State) :
    mbxComplete p m st detail rsp s = { s with ports := (mbxComplete p m st detail rsp s).ports } := by
  simp only [mbxComplete]
  split <;> rfl

theorem mbxAt_mbxComplete {p m st detail : Nat} {rsp : List Byte} {s : State} (h : (mbxAt s p m).state = 2) :
    (mbxAt (mbxComplete p m st detail rsp s) p m).state = 3 ∧ (mbxAt (mbxComplete p m st detail rsp s) p m).status = st := by
  have h' : ¬ (look default (portAt s p).mbx m).state ≠ 2 := not_not.2 h
  simp only [mbxComplete, if_neg h', mbxAt, msix, portAt_modPort_self, look_put_self, and_self]

@[simp] theorem mbxAt_mbxTaken_state (p m : Nat) (s : State) : (mbxAt (mbxTaken p m s) p m).state = 2 := by
  simp only [mbxAt, mbxTaken, modMbx, portAt_modPort_self, look_alter_self]

/-! ## The end of a job (R354) -/

/-- An area whose job has ended. -/
def Area.jobEnded (x : Area) : Area :=
  { x with
    job := { x.job with state := jEnded, steps := [], plan := x.job.plan.map fun y => { y with dead := true }, ras := 0, run := 0, cycle := 0, named1 := [], named2 := [], resumeP := none }
    drafts := keepTab (· == x.bank) x.drafts, complete := 0, swapOpen := false, load := none
    halted := false
    skim := x.skim.jobEnd }

/-- The state after the completion of the area's DRAFT_LOAD, if one runs. -/
def loadAborted (a : Nat) (s : State) : State :=
  match (areaAt s a).load with
  | some l => mbxComplete l.port l.m mAborted 0 [] s
  | none => s

theorem loadAborted_frame (a : Nat) (s : State) : loadAborted a s = { s with ports := (loadAborted a s).ports } := by
  unfold loadAborted
  split
  · exact mbxComplete_frame ..
  · rfl

theorem endJob_eq (a : Nat) (s : State) :
    endJob a s = if (areaAt s a).skim.state = 2 then skimFailRecord a 0 (modArea a Area.jobEnded (clearArea a (loadAborted a s)))
      else modArea a Area.jobEnded (clearArea a (loadAborted a s)) := by
  simp only [endJob, decide_eq_true_eq]
  rfl

theorem skimFailRecord_frame (a cause : Nat) (s : State) :
    skimFailRecord a cause s = { s with ports := (skimFailRecord a cause s).ports, counts := (skimFailRecord a cause s).counts } := by
  unfold skimFailRecord
  rw [writeRecord_frame]
  rfl

/-- The end of a job clears its area; beside that it completes a load and records a failed skim. -/
theorem endJob_frame (a : Nat) (s : State) :
    endJob a s = { modArea a Area.jobEnded (clearArea a s) with ports := (endJob a s).ports, counts := (endJob a s).counts } := by
  have hq : modArea a Area.jobEnded (clearArea a (loadAborted a s)) = { modArea a Area.jobEnded (clearArea a s) with ports := (loadAborted a s).ports } := by
    rw [loadAborted_frame]
    rfl
  rw [endJob_eq, hq]
  split
  · rw [skimFailRecord_frame]
  · rfl

/-- Where no draft loads and no skim is under way, the end of a job does only that. -/
theorem endJob_quiet {a : Nat} {s : State} (hl : (areaAt s a).load = none) (hk : (areaAt s a).skim.state ≠ 2) :
    endJob a s = modArea a Area.jobEnded (clearArea a s) := by
  rw [endJob_eq, if_neg hk]
  simp only [loadAborted, hl]

theorem areaAt_endJob_self (a : Nat) (s : State) : areaAt (endJob a s) a = (areaAt s a).jobEnded := by
  rw [endJob_frame]
  exact areaAt_modArea_self _ _ _

theorem areaAt_endJob_ne {a b : Nat} (s : State) (h : b ≠ a) : areaAt (endJob a s) b = areaAt s b := by
  rw [endJob_frame]
  exact areaAt_modArea_ne _ _ _ _ h

end Sys2Proof.Machine
end

section
/-! The area commands (R24, R25, R344, R351, R352): O40. -/
namespace Sys2Proof.Machine

/-! ## The taken mailbox command changes no area -/

section
variable (p m : Nat) (s : State)
@[simp] theorem areaAt_mbxTaken (a : Nat) : areaAt (mbxTaken p m s) a = areaAt s a := rfl
@[simp] theorem hasJob_mbxTaken (a : Nat) : hasJob (mbxTaken p m s) a = hasJob s a := rfl
@[simp] theorem areaBusy_mbxTaken (a : Nat) : areaBusy (mbxTaken p m s) a = areaBusy s a := rfl
@[simp] theorem areaNamed_mbxTaken (c : Tab Byte) : areaNamed (mbxTaken p m s) c = areaNamed s c := rfl
end

/-! ## Steps of the commands -/

/-- What the owner's command for its area does. -/
theorem onArea_owned {p m a : Nat} {c : Tab Byte} {f : Nat → State → State} {s : State} (hn : areaNamed s c = true)
    (ho : (areaAt s (wArea (hdrArea c))).owner.val = p) (ha : wArea (hdrArea c) = a) : onArea true p m c f s = f a s := by
  subst ha
  simp only [onArea, hn, ho, Bool.not_true, Bool.false_eq_true, if_false, ne_eq, not_true_eq_false, decide_false, Bool.and_false]

theorem abortLoad_none {a : Nat} {s : State} (h : (areaAt s a).load = none) : abortLoad a s = s := by
  simp only [abortLoad, h]

/-! ## The commands (R25, R351, R352) -/

section
variable {p m : Nat} {s : State}

theorem execAreaCreate_good {w st : Nat} (h : mbxGood s p m 0x0100 0 .area) (hw : hdrArea (mbxAt s p m).cmd = w) (hst : areaRefusal s w 16 = st) :
    execAreaCreate p m s = .next (
      if st = mAreaShape ∨ st = mAreaOverlap then mbxDone p m st (mbxTaken p m s)
      else if 16 ≤ (areaList s).length then mbxDone p m mAreaLimit (mbxTaken p m s)
      else if (areaAt s (wArea w)).defined = true then mbxDone p m mBadParam (mbxTaken p m s)
      else if st ≠ mOk then mbxDone p m st (mbxTaken p m s)
      else mbxDone p m mOk (modArea (wArea w) (fun x => { Area.reset with defined := true, word := w, owner := Tri.of p, skim := x.skim }) (mbxTaken p m s))) := by
  subst hw hst
  exact mbxRun_good h rfl

theorem execAreaChange_good {w a st : Nat} (h : mbxGood s p m 0x0101 0 .area) (hw : hdrArea (mbxAt s p m).cmd = w) (ha : wArea w = a)
    (hst : areaRefusal s w a = st) (hl : (areaAt s a).load = none) :
    execAreaChange p m s = .next (
      if (!(areaAt s a).defined) = true then mbxDone p m mNoArea (mbxTaken p m s)
      else if (areaAt s a).owner.val ≠ p then mbxDone p m mNotOwner (mbxTaken p m s)
      else if st = mAreaShape ∨ st = mAreaOverlap then mbxDone p m st (mbxTaken p m s)
      else if hasJob s a = true ∨ areaBusy s a = true then mbxDone p m mAreaBusy (mbxTaken p m s)
      else if st ≠ mOk then mbxDone p m st (mbxTaken p m s)
      else mbxDone p m mOk (modArea a (Area.emptied w) (dropRecords a (mbxTaken p m s)))) := by
  subst hw ha hst
  refine (mbxRun_good h rfl).trans (congrArg _ ?_)
  simp only [abortLoad_none (s := mbxTaken p m s) hl]
  rfl

theorem execAreaRemove_good {a : Nat} (h : areaGood s p m 0x0102 0) (ha : wArea (hdrArea (mbxAt s p m).cmd) = a) (hb : areaBusy s a = false)
    (hl : (areaAt s a).load = none) :
    execAreaRemove p m s = .next (
      if hasJob s a = true then mbxDone p m mAreaBusy (mbxTaken p m s)
      else mbxDone p m mOk (modArea a (fun x => { Area.reset with skim := x.skim }) (dropRecords a (mbxTaken p m s)))) := by
  subst ha
  obtain ⟨hg, hn, ho⟩ := h
  refine (mbxRun_good hg rfl).trans (congrArg _ ?_)
  refine (onArea_owned (s := mbxTaken p m s) hn ho rfl).trans ?_
  simp only [hasJob_mbxTaken, areaBusy_mbxTaken, hb, Bool.false_eq_true, or_false, abortLoad_none (s := mbxTaken p m s) hl]

theorem execAreaClear_good (h : areaGood s p m 0x0103 0) (hj : (areaAt s (wArea (hdrArea (mbxAt s p m).cmd))).job.state = jHalted) :
    execAreaClear p m s = .next (mbxDone p m mOk (endJob (wArea (hdrArea (mbxAt s p m).cmd)) (mbxTaken p m s))) := by
  obtain ⟨hg, hn, ho⟩ := h
  refine (mbxRun_good hg rfl).trans (congrArg _ ?_)
  refine (onArea_owned (s := mbxTaken p m s) hn ho rfl).trans ?_
  rw [areaAt_mbxTaken, if_neg (not_not.2 hj)]

theorem execAreaTake_good {a o : Nat} (h : mbxGood s p m 0x0104 0 .area) (hn : areaNamed s (mbxAt s p m).cmd = true)
    (ha : wArea (hdrArea (mbxAt s p m).cmd) = a) (ho : (areaAt s a).owner.val % 2 = o) :
    execAreaTake p m s = .next (
      if (portAt (mbxTaken p m s) o).up = true ∨ s.up < (portAt (mbxTaken p m s) o).downAt + second then mbxDone p m mNotOwner (mbxTaken p m s)
      else mbxDone p m mOk (modArea a (fun x => { x with owner := Tri.of p }) (mbxTaken p m s))) := by
  subst ha ho
  refine (mbxRun_good h rfl).trans (congrArg _ ?_)
  simp only [onArea, areaNamed_mbxTaken, hn, Bool.not_true, Bool.false_eq_true, if_false, Bool.false_and]
  rfl

/-- The mailbox command's port, its link and its time down, are those of before. -/
theorem portAt_mbxTaken (q : Nat) : (portAt (mbxTaken p m s) q).up = (portAt s q).up ∧ (portAt (mbxTaken p m s) q).downAt = (portAt s q).downAt := by
  by_cases e : q = p
  · subst e
    simp only [mbxTaken, modMbx, portAt_modPort_self, and_self]
  · simp only [mbxTaken, modMbx, portAt_modPort_ne _ _ _ _ e, and_self]

/-- AREA_CLEAR ends the job: the area keeps its word, and nothing outside it changes. -/
theorem clear_effect {a : Nat} (hw : storesWf s) (hl : (areaAt s a).load = none) (hk : (areaAt s a).skim.state ≠ 2) :
    let t := mbxDone p m mOk (endJob a (mbxTaken p m s))
    (areaAt t a).job.state = jEnded ∧ (areaAt t a).halted = false ∧ (areaAt t a).defined = (areaAt s a).defined ∧ (areaAt t a).word = (areaAt s a).word
    ∧ (∀ b, b ≠ a → areaAt t b = areaAt s b) ∧ (mbxAt t p m).state = 3 ∧ (mbxAt t p m).status = mOk ∧ t.now = s.now
    ∧ ∀ n, wHasSite (areaAt s a).word n = false → mmAt t n = mmAt s n ∧ mxAt t n = mxAt s n ∧ sfAt t n = sfAt s n ∧ suAt t n = suAt s n := by
  intro t
  have he : endJob a (mbxTaken p m s) = modArea a Area.jobEnded (clearArea a (mbxTaken p m s)) := endJob_quiet (s := mbxTaken p m s) hl hk
  have hm := mbxAt_mbxComplete (p := p) (m := m) (st := mOk) (detail := 0) (rsp := []) (s := endJob a (mbxTaken p m s))
    (by rw [he]; exact mbxAt_mbxTaken_state p m s)
  have ht : t = { endJob a (mbxTaken p m s) with ports := t.ports } := mbxComplete_frame ..
  have ha : ∀ b, areaAt t b = areaAt (endJob a (mbxTaken p m s)) b := fun b => by rw [ht]; rfl
  obtain ⟨-, -, -, -, -, -, hmm, hmx, hsf, hsu, -⟩ := hw
  refine ⟨?_, ?_, ?_, ?_, fun b hb => ?_, hm.1, hm.2, ?_, fun n hn => ?_⟩
  · rw [ha, areaAt_endJob_self]; rfl
  · rw [ha, areaAt_endJob_self]; rfl
  · rw [ha, areaAt_endJob_self]; rfl
  · rw [ha, areaAt_endJob_self]; rfl
  · rw [ha, areaAt_endJob_ne _ hb]; rfl
  · rw [ht, he]; rfl
  · rw [ht, he]
    exact ⟨look_whereTab_out hmm hn, look_whereTab_out hmx hn, look_whereTab_out hsf hn, look_whereTab_out hsu hn⟩

end
end Sys2Proof.Machine

open Sys2Proof Sys2Proof.Machine

/-- Settles O40: the five area commands, by the first of their reasons to refuse that holds. -/
theorem areaCommandsComplete : Obligations.AreaCommandsComplete := by
  intro p m s r c w a x
  have hOk : ¬ (mOk = mAreaShape ∨ mOk = mAreaOverlap) := by decide
  refine ⟨fun h => ?create, fun h hd ho hj hb hl => ?change, fun h hb hl => ?remove, fun hw h hj hl hk => ?clear, fun h hn ho hu hdown => ?take⟩
  case create =>
    have e := execAreaCreate_good h rfl rfl
    refine ⟨fun hn hok hd => e.trans (congrArg _ ?_), fun hn hr hd => e.trans (congrArg _ ?_), fun hok hn => e.trans (congrArg _ ?_), fun hok hn hd => e.trans (congrArg _ ?_)⟩
    · rw [if_neg (hok.symm ▸ hOk), if_neg (by omega), if_neg (by rw [hd]; decide), if_neg (not_not.2 hok)]
      rfl
    · rw [if_neg (show ¬ 16 ≤ (areaList s).length by omega), if_neg (show ¬ x.defined = true by rw [hd]; decide), if_pos hr, ite_self]
      rfl
    · rw [if_neg (hok.symm ▸ hOk), if_pos hn]
      rfl
    · rw [if_neg (hok.symm ▸ hOk), if_neg (by omega), if_pos hd]
      rfl
  case change =>
    have e := execAreaChange_good h rfl rfl rfl hl
    have hj : ¬ (hasJob s a = true ∨ areaBusy s a = true) := by rw [hj, hb]; decide
    refine ⟨fun hok => e.trans (congrArg _ ?_), fun hr => e.trans (congrArg _ ?_)⟩
    · rw [if_neg (show ¬ (!x.defined) = true by rw [hd]; decide), if_neg (not_not.2 ho), if_neg (hok.symm ▸ hOk), if_neg hj, if_neg (not_not.2 hok)]
      rfl
    · rw [if_neg (show ¬ (!x.defined) = true by rw [hd]; decide), if_neg (not_not.2 ho), if_neg hj, if_pos hr, ite_self]
      rfl
  case remove =>
    have e := execAreaRemove_good h rfl hb hl
    refine ⟨fun hj => e.trans (congrArg _ ?_), fun hj => e.trans (congrArg _ ?_)⟩
    · rw [if_neg (by rw [hj]; decide)]
      rfl
    · rw [if_pos hj]
      rfl
  case clear =>
    have hn : x.defined = true := by
      have hn := h.2.1
      simp only [areaNamed, Bool.and_eq_true] at hn
      exact hn.1
    obtain ⟨h1, h2, h3, h4, h5, h6, h7, h8, h9⟩ := clear_effect (p := p) (m := m) hw hl hk
    exact ⟨_, execAreaClear_good h hj, h1, h2, h3.trans hn, h4, h5, h6, h7, h8, h9⟩
  case take =>
    have e := execAreaTake_good h hn rfl (Nat.mod_eq_of_lt ho)
    obtain ⟨pu, pd⟩ := portAt_mbxTaken (p := p) (m := m) (s := s) x.owner.val
    refine e.trans (congrArg _ ?_)
    rw [pu, pd, hu, if_neg (by simp only [Bool.false_eq_true, false_or]; omega)]
    rfl
end

section
/-! How a step commits or fails (R34-R37, R436-R442): O44. -/
namespace Sys2Proof.Machine

/-! ## What shared operations change -/

/-- Of the state only MM sites, attachments and areas differ, and of the areas nothing but what records put into area a. -/
def recordsOnly (a : Nat) (s t : State) : Prop :=
  t = { s with mm := t.mm, att := t.att, areas := t.areas }
  ∧ areaAt t a = { areaAt s a with recs := (areaAt t a).recs, applyAt := (areaAt t a).applyAt }

theorem recordsOnly.trans {a : Nat} {r s t : State} (h : recordsOnly a r s) (k : recordsOnly a s t) : recordsOnly a r t := by
  obtain ⟨hf, ha⟩ := h
  obtain ⟨kf, ka⟩ := k
  refine ⟨?_, ?_⟩
  · rw [hf] at kf
    exact kf
  · rw [ha] at ka
    exact ka

theorem recordsOnly.modArea {a : Nat} {r s : State} {g : Area → Area} (h : recordsOnly a r s)
    (hg : ∀ x : Area, g x = { x with recs := (g x).recs, applyAt := (g x).applyAt }) : recordsOnly a r (modArea a g s) :=
  h.trans ⟨rfl, by rw [areaAt_modArea_self]; exact hg _⟩

theorem recordsOnly.each {α : Type} {a : Nat} {r s : State} {l : List α} {f : α → State → State} (h : recordsOnly a r s)
    (hf : ∀ x s, recordsOnly a s (f x s)) : recordsOnly a r (each l f s) := by
  induction l generalizing s with
  | nil => exact h
  | cons x l ih => exact ih (h.trans (hf x s))

/-- Applying records changes MM sites, attachments and the records in force. -/
theorem recordsOnly_applyRecords (a : Nat) (s : State) : recordsOnly a s (applyRecords a s) := by
  unfold applyRecords
  extract_lets +onlyGivenNames s1 w atts s2 s3 shadow
  have h1 : recordsOnly a s s1 := .modArea ⟨rfl, rfl⟩ fun _ => rfl
  have h2 : recordsOnly a s s2 := h1.trans ⟨rfl, rfl⟩
  have h3 : recordsOnly a s s3 := by
    refine h2.each fun t q => ?_
    split
    · exact .each ⟨rfl, rfl⟩ fun _ _ => ⟨rfl, rfl⟩
    · exact ⟨rfl, rfl⟩
  exact h3.modArea fun _ => rfl

/-! ## A failed run (R39, R184, R437) -/

/-- An area whose run from step k on has failed. -/
def Area.abandoned (k bank : Nat) (x : Area) : Area :=
  { x with
    complete := if x.bank ≠ bank ∨ x.swapOpen then 1 else x.complete
    bank := bank
    job := { x.job with
      steps := x.job.steps.filter (fun y => decide (y.k < k)), nextK := k
      plan := x.job.plan.map fun y => if k ≤ y.k then { y with dead := true } else y } }

theorem areaAt_abandon (a k bank : Nat) (s : State) :
    areaAt (abandon a k bank s) a = { (areaAt s a).abandoned k bank with
      recs := (areaAt (abandon a k bank s) a).recs, applyAt := (areaAt (abandon a k bank s) a).applyAt } := by
  have h := (recordsOnly_applyRecords a (modArea a (Area.abandoned k bank) (restoreUnits a k s))).2
  rw [areaAt_modArea_self] at h
  exact h

theorem abandon_frame (a k bank : Nat) (s : State) :
    abandon a k bank s = { restoreUnits a k s with mm := (abandon a k bank s).mm, att := (abandon a k bank s).att, areas := (abandon a k bank s).areas } :=
  (recordsOnly_applyRecords a (modArea a (Area.abandoned k bank) (restoreUnits a k s))).1

/-- The SU at the JOIN that opened step k, joined again. -/
theorem rejoin_saved {k p pc bank : Nat} {loops : List Loop} {w : W64} {u : Su} (h : u.savedJoin.find? (fun x => x.1 == k) = some (k, pc, loops, bank, w)) :
    let v := u.rejoin k p
    v.seq.pc = pc ∧ v.seq.bank = bank ∧ v.seq.loops = loops ∧ v.inStep = k ∧ v.join = some (joinOf w p k (some p)) := by
  simp only [Su.rejoin, h, and_self]

/-- Every running SU of the area whose JOIN of step k is saved joins it again. -/
theorem suAt_rejoinAll {a k p n pc bank : Nat} {loops : List Loop} {w : W64} {s : State} (hn : wHasSite (areaAt s a).word n = true)
    (hr : (suAt s n).seq.running = true) (h : (suAt s n).savedJoin.find? (fun x => x.1 == k) = some (k, pc, loops, bank, w)) :
    suAt (rejoinAll a k p s) n = (suAt s n).rejoin k p := by
  have hu : suAt s n ≠ default := fun e => by rw [e] at hr; exact Bool.noConfusion hr
  have hj := (rejoin_saved (p := p) h).2.2.2.2
  have hv : (suAt s n).rejoin k p ≠ default := fun e => by rw [e] at hj; exact nomatch hj
  have e := look_whereTab_listed (f := fun u : Su => if u.seq.running then u.rejoin k p else u) hn hu (by
    rw [show look default s.su n = suAt s n from rfl, hr]
    exact hv)
  exact e.trans (if_pos hr)

/-- What a first failure leaves of area a, and of its SUs (R39, R184). -/
theorem rejoinAll_abandon (a k bank : Nat) (s : State) :
    let t := rejoinAll a k s.pick (abandon a k bank s)
    let x := areaAt s a
    areaAt t a = { x.abandoned k bank with recs := (areaAt t a).recs, applyAt := (areaAt t a).applyAt }
    ∧ ∀ n pc loops b w, wHasSite x.word n = true → (suAt s n).seq.running = true →
      (suAt s n).savedJoin.find? (fun y => y.1 == k) = some (k, pc, loops, b, w) →
      (suAt t n).seq.pc = pc ∧ (suAt t n).seq.bank = b ∧ (suAt t n).seq.loops = loops ∧ (suAt t n).inStep = k
      ∧ (suAt t n).join = some (joinOf w s.pick k (some s.pick)) := by
  intro t x
  have ha : areaAt (abandon a k bank s) a = _ := areaAt_abandon a k bank s
  have hs : ∀ n, suAt (abandon a k bank s) n = suAt s n := fun n => by rw [abandon_frame]; rfl
  refine ⟨ha, fun n pc loops b w hn hr h => ?_⟩
  have hw : (areaAt (abandon a k bank s) a).word = x.word := by rw [ha]; rfl
  rw [← hs n] at hr h
  rw [show suAt t n = _ from suAt_rejoinAll (hw ▸ hn) hr h]
  exact rejoin_saved h

/-! ## Reports that end a job (R434) -/

/-- The state after the count and the record of a report. -/
def reportNoted (code : Nat) (r : Report349) (s : State) : State :=
  if recorded code then writeRecord code r (count code r.unit 1 s) else count code r.unit 1 s

theorem reportNoted_frame (code : Nat) (r : Report349) (s : State) :
    reportNoted code r s = { s with ports := (reportNoted code r s).ports, counts := (reportNoted code r s).counts } := by
  unfold reportNoted
  split
  · rw [writeRecord_frame]
    rfl
  · rfl

theorem areaAt_reportNoted (code a : Nat) (r : Report349) (s : State) : areaAt (reportNoted code r s) a = areaAt s a := by
  rw [reportNoted_frame]
  rfl

theorem report_ends {code a : Nat} {r : Report349} {s : State} (hc : codeClass code = 5) (ha : r.area = some a) (hj : hasJob s a = true) :
    report code r s = endJob a (reportNoted code r s) := by
  have hq : hasJob (reportNoted code r s) a = true := by
    rw [hasJob, areaAt_reportNoted]
    exact hj
  simp only [report, hc, ha, show ¬ 5 = 3 by decide, show ¬ 5 = 4 by decide, if_false, true_or, if_true, endJobOf]
  exact if_pos hq

/-- A class 5 report ends the job of the area it names. -/
theorem areaAt_report_ends {code a : Nat} {r : Report349} {s : State} (hc : codeClass code = 5) (ha : r.area = some a) (hj : hasJob s a = true) :
    areaAt (report code r s) a = (areaAt s a).jobEnded := by
  rw [report_ends hc ha hj, areaAt_endJob_self, areaAt_reportNoted]

theorem hasJob_of_jobRuns {s : State} {a : Nat} (h : jobRuns s a = true) : hasJob s a = true := by
  rw [jobRuns] at h
  rw [hasJob, h, Bool.true_or]

/-! ## A second failure (R437, R440) -/

/-- An area one of whose steps has failed a second time. -/
def Area.secondFailed (st : Step) (x : Area) : Area :=
  { x with
    remaps := satAdd 0xFFFF x.remaps 1
    job := { x.job with
      cycle := x.job.cycle + 1
      named1 := if x.job.run = 2 then x.job.named1 else st.named
      named2 := if x.job.run = 2 then st.named else [] } }

/-- The second failure counted, with its record. -/
def countSecond (a : Nat) (st : Step) (s : State) : State :=
  modArea a (fun y => { y with remaps := satAdd 0xFFFF y.remaps 1 })
    (report 0x1E02 { (default : Report349) with area := some a, unit := hubIdx, step := some st.k }
      (modArea a (fun y => { y with job := { y.job with
        cycle := y.job.cycle + 1
        named1 := if y.job.run = 2 then y.job.named1 else st.named
        named2 := if y.job.run = 2 then st.named else [] } }) s))

/-- The area waits for its remapping from pick p on, its SUs for the barrier of step k. -/
def awaitRemap (a k p : Nat) (s : State) : State :=
  modArea a (fun y => { y with job := { y.job with ras := 2, remapAt := s.up, run := 0 } })
    { s with su := whereTab default (fun n => wHasSite (areaAt s a).word n) (Su.waits k p) s.su }

theorem secondFailure_eq (a : Nat) (st : Step) (back : Bool) (s : State) :
    secondFailure a st back s =
      if 4 ≤ (areaAt (countSecond a st s) a).job.cycle then
        report 0x5E04 { (default : Report349) with area := some a, unit := hubIdx, step := some st.k } (countSecond a st s)
      else awaitRemap a st.k s.pick (if back then countSecond a st s else abandon a st.k st.bank (countSecond a st s)) := rfl

theorem report_second_frame (r : Report349) (s : State) :
    report 0x1E02 r s = { s with ports := (report 0x1E02 r s).ports, counts := (report 0x1E02 r s).counts } :=
  report_frame r s fun c h _ => by rw [show codeClass 0x1E02 = 1 from rfl]; omega

theorem areaAt_report_second (r : Report349) (s : State) (b : Nat) : areaAt (report 0x1E02 r s) b = areaAt s b := by
  rw [report_second_frame]
  rfl

theorem countSecond_frame (a : Nat) (st : Step) (s : State) :
    countSecond a st s = { s with ports := (countSecond a st s).ports, counts := (countSecond a st s).counts, areas := (countSecond a st s).areas } := by
  unfold countSecond
  rw [report_second_frame]
  rfl

theorem areaAt_countSecond_self (a : Nat) (st : Step) (s : State) : areaAt (countSecond a st s) a = (areaAt s a).secondFailed st := by
  rw [countSecond, areaAt_modArea_self, areaAt_report_second, areaAt_modArea_self]
  rfl

theorem areaAt_countSecond_ne {a b : Nat} (st : Step) (s : State) (h : b ≠ a) : areaAt (countSecond a st s) b = areaAt s b := by
  rw [countSecond, areaAt_modArea_ne _ _ _ _ h, areaAt_report_second, areaAt_modArea_ne _ _ _ _ h]

/-- An SU that waits for remapping holds no JOIN, and selects the barrier page of the one that opened step k, where it is saved. -/
theorem waits_spec (k p : Nat) (u : Su) :
    (u.waits k p).join = none
    ∧ (∀ pc loops bank w, u.savedJoin.find? (fun x => x.1 == k) = some (k, pc, loops, bank, w) →
        (u.waits k p).timers = [(8 * (p + 1), .barrier (joinOf w p k none).bpg)])
    ∧ (u.savedJoin.find? (fun x => x.1 == k) = none → (u.waits k p).timers = []) := by
  unfold Su.waits
  cases h : u.savedJoin.find? fun x => x.1 == k with
  | none => exact ⟨rfl, fun _ _ _ _ e => (nomatch e), fun _ => rfl⟩
  | some y =>
    obtain ⟨_, pc, loops, bank, w⟩ := y
    exact ⟨rfl, fun _ _ _ _ e => by cases e; rfl, fun e => (nomatch e)⟩

theorem waits_stopped (k p : Nat) (u : Su) : (u.waits k p).seq.stopped = true := by
  unfold Su.waits
  split <;> rfl

theorem suAt_awaitRemap {a k p n : Nat} {s : State} (hn : wHasSite (areaAt s a).word n = true) :
    (suAt (awaitRemap a k p s) n).join = none
    ∧ (∀ pc loops bank w, (suAt s n).savedJoin.find? (fun x => x.1 == k) = some (k, pc, loops, bank, w) →
        (suAt (awaitRemap a k p s) n).timers = [(8 * (p + 1), .barrier (joinOf w p k none).bpg)])
    ∧ ((suAt s n).savedJoin.find? (fun x => x.1 == k) = none → (suAt (awaitRemap a k p s) n).timers = []) := by
  have hv : ∀ u : Su, u.waits k p ≠ default := fun u e => by
    have h := waits_stopped k p u
    rw [e] at h
    exact Bool.noConfusion h
  rcases look_whereTab_or (t := s.su) (f := Su.waits k p) hn hv with e | ⟨hd, e⟩
  · rw [show suAt (awaitRemap a k p s) n = (suAt s n).waits k p from e]
    exact waits_spec k p (suAt s n)
  · rw [show suAt (awaitRemap a k p s) n = default from e, show suAt s n = default from hd]
    exact ⟨rfl, fun _ _ _ _ h => (nomatch h), fun _ => rfl⟩

/-- A second failure below the limit: the units are back at the start of the step, and the area waits for remapping. -/
theorem secondFailure_below {a : Nat} {st : Step} {back : Bool} {s : State} (h : (areaAt s a).job.cycle < 3) :
    secondFailure a st back s = awaitRemap a st.k s.pick (if back then countSecond a st s else abandon a st.k st.bank (countSecond a st s)) := by
  have hc : ¬ 4 ≤ (areaAt (countSecond a st s) a).job.cycle := by
    rw [areaAt_countSecond_self]
    exact Nat.not_le.2 (Nat.succ_lt_succ h)
  rw [secondFailure_eq, if_neg hc]

/-- The fourth second failure in a row ends the job. -/
theorem areaAt_secondFailure_last {a : Nat} {st : Step} {back : Bool} {s : State} (h : 3 ≤ (areaAt s a).job.cycle) (hj : hasJob s a = true) :
    (areaAt (secondFailure a st back s) a).job.state = jEnded := by
  have ha := areaAt_countSecond_self a st s
  have hc : 4 ≤ (areaAt (countSecond a st s) a).job.cycle := by
    rw [ha]
    exact Nat.succ_le_succ h
  have hj' : hasJob (countSecond a st s) a = true := by
    rw [hasJob, ha]
    exact hj
  rw [secondFailure_eq, if_pos hc, areaAt_report_ends rfl rfl hj']
  rfl

/-! ## A commit (R34, R57, R125-R127, R456) -/

/-- An area whose step k has committed; `fell` where it is the last of its draft. -/
def Area.stepCommitted (k : Nat) (fell : Bool) (y : Area) : Area :=
  { y with
    swapOpen := if fell then false else y.swapOpen
    job := { y.job with committed := some k, steps := y.job.steps.drop 1, run := if 1 < y.job.steps.length then 1 else 0, cycle := 0, named1 := [], named2 := [] } }

/-- The units of area a after the commit of step k. -/
def commitUnits (a k : Nat) (s : State) : State :=
  let site := fun n => wHasSite (areaAt s a).word n
  { s with
    mm := whereTab default site (Mm.commit k) s.mm
    mx := whereTab default site (Mx.commit k) s.mx
    sf := whereTab default site (Sf.commit k) s.sf
    sw := whereTab default site (fun w => { w with savedBank := w.savedBank.filter fun y => y.1 != k }) s.sw }

/-- The state after a commit, but for the end of the job. -/
def stepCommitted (a k : Nat) (fell : Bool) (s : State) : State := modArea a (Area.stepCommitted k fell) (skimCommit a k (commitUnits a k s))

/-- Is a step the last of the draft that ran it? -/
def lastOfDraft (a : Nat) (st : Step) (s : State) : Bool :=
  let d := look default (areaAt s a).drafts st.bank
  decide (st.k + 1 = d.first + d.steps)

theorem commitStep_eq (a : Nat) (st : Step) (s : State) :
    commitStep a st s = if lastOfDraft a st s && !(areaAt s a).swapOpen then endJob a (stepCommitted a st.k (lastOfDraft a st s) s)
      else stepCommitted a st.k (lastOfDraft a st s) s := rfl

theorem areaAt_skimFailRecord (a cause b : Nat) (s : State) : areaAt (skimFailRecord a cause s) b = areaAt s b := by
  rw [skimFailRecord_frame]
  rfl

/-- The skim's commit changes the skim, and records a failed one. -/
theorem skimCommit_frame (a k : Nat) (s : State) :
    let t := skimCommit a k s
    t = { s with ports := t.ports, counts := t.counts, areas := t.areas } ∧ areaAt t a = { areaAt s a with skim := (areaAt t a).skim } := by
  simp only [skimCommit]
  split
  · exact ⟨rfl, rfl⟩
  split
  · exact ⟨rfl, by rw [areaAt_modArea_self]⟩
  · refine ⟨?_, by rw [areaAt_skimFailRecord, areaAt_modArea_self]⟩
    rw [skimFailRecord_frame]
    rfl

theorem areaAt_stepCommitted (a k : Nat) (fell : Bool) (s : State) :
    areaAt (stepCommitted a k fell s) a = { (areaAt s a).stepCommitted k fell with skim := (areaAt (stepCommitted a k fell s) a).skim } := by
  have h := (skimCommit_frame a k (commitUnits a k s)).2
  unfold stepCommitted
  rw [areaAt_modArea_self, h]
  rfl

theorem stepCommitted_frame (a k : Nat) (fell : Bool) (s : State) :
    stepCommitted a k fell s = { commitUnits a k s with
      ports := (stepCommitted a k fell s).ports, counts := (stepCommitted a k fell s).counts, areas := (stepCommitted a k fell s).areas } := by
  unfold stepCommitted
  rw [(skimCommit_frame a k (commitUnits a k s)).1]
  rfl

/-- What a commit leaves of area a. -/
theorem areaAt_commitStep (a : Nat) (st : Step) (s : State) :
    let t := commitStep a st s
    let x := areaAt s a
    (areaAt t a).job.committed = some st.k
    ∧ (if lastOfDraft a st s = true ∧ x.swapOpen = false then (areaAt t a).job.state = jEnded ∧ (areaAt t a).job.steps = []
      else (areaAt t a).job.state = x.job.state ∧ (areaAt t a).job.steps = x.job.steps.drop 1
        ∧ (areaAt t a).job.run = (if 1 < x.job.steps.length then 1 else 0) ∧ (areaAt t a).job.cycle = 0) := by
  intro t x
  have h := areaAt_stepCommitted a st.k (lastOfDraft a st s) s
  have ht : t = _ := commitStep_eq a st s
  by_cases hl : lastOfDraft a st s = true ∧ x.swapOpen = false
  · have hb : (lastOfDraft a st s && !(areaAt s a).swapOpen) = true := by rw [hl.1, show (areaAt s a).swapOpen = false from hl.2]; rfl
    rw [if_pos hl, ht, if_pos hb, areaAt_endJob_self, h]
    exact ⟨rfl, rfl, rfl⟩
  · have hb : ¬ (lastOfDraft a st s && !(areaAt s a).swapOpen) = true := by
      simpa only [Bool.and_eq_true, Bool.not_eq_true'] using hl
    rw [if_neg hl, ht, if_neg hb, h]
    exact ⟨rfl, rfl, rfl, rfl, rfl⟩

theorem commitStep_now (a : Nat) (st : Step) (s : State) : (commitStep a st s).now = s.now := by
  rw [commitStep_eq]
  split
  · rw [endJob_frame, stepCommitted_frame]
    rfl
  · rw [stepCommitted_frame]
    rfl

/-- A commit creel takes the TAIL recorded at the end pick. -/
theorem ctail_commit {k i tl : Nat} {m : Mm} (hw : TabWf default m.creels = true) (h : (creelAt m i).eTail.find? (fun y => y.1 == k) = some (k, tl)) :
    (creelAt (m.commit k) i).ctail = tl := by
  have e : creelAt (m.commit k) i = ((creelAt m i).commit k).1 := look_mapTab (f := fun (_ : Nat) (c : Creel) => (c.commit k).1) hw rfl
  rw [e]
  simp only [Creel.commit, h]

theorem ctail_ended {i : Nat} {m : Mm} (hw : TabWf default m.creels = true) : (creelAt m.ended i).ctail = (creelAt m i).ctail := by
  have e : creelAt m.ended i = (creelAt m i).ended := look_mapTab (f := fun (_ : Nat) (c : Creel) => c.ended) hw rfl
  rw [e]
  rfl

theorem mmAt_commitStep {a n : Nat} {st : Step} {s : State} (hw : storesWf s) (hn : wHasSite (areaAt s a).word n = true) :
    mmAt (commitStep a st s) n = (mmAt s n).commit st.k ∨ mmAt (commitStep a st s) n = ((mmAt s n).commit st.k).ended := by
  obtain ⟨-, -, -, -, -, -, hmm, -⟩ := hw
  have hq : mmAt (stepCommitted a st.k (lastOfDraft a st s) s) n = (mmAt s n).commit st.k := by
    rw [stepCommitted_frame]
    exact (look_whereTab hmm rfl).trans (if_pos hn)
  rw [commitStep_eq]
  split
  · have hwq : TabWf default (stepCommitted a st.k (lastOfDraft a st s) s).mm = true := by
      have h : TabWf default (whereTab default (fun n => wHasSite (areaAt s a).word n) (Mm.commit st.k) s.mm) = true := tabWf_mapTab _ _ _ hmm
      rw [stepCommitted_frame]
      exact h
    have hnq : wHasSite (areaAt (stepCommitted a st.k (lastOfDraft a st s) s) a).word n = true := by
      rw [areaAt_stepCommitted]
      exact hn
    rw [endJob_frame, ← hq]
    exact .inr ((look_whereTab hwq rfl).trans (if_pos hnq))
  · exact .inl hq

/-! ## The commit pick (R34, R35) -/

/-- At its commit pick the oldest step, whose end has passed, commits or fails. -/
theorem commitOldest_eq {a : Nat} {s : State} {st0 st : Step} {rest : List Step} (hj : (areaAt s a).job.state = jRunning)
    (h0 : (areaAt s a).job.steps.head? = some st0) (hl : st0.len ≠ 0) (he : st0.ended = true)
    (hs : (areaAt (toPick (st0.s + st0.len + st0.v) s) a).job.steps = st :: rest) (hr : jobRuns (toPick (st0.s + st0.len + st0.v) s) a = true) :
    let r := toPick (st0.s + st0.len + st0.v) s
    commitOldest a s = if stepOk r a st then commitStep a st r else failStepAt a st r := by
  obtain ⟨l, h0⟩ : ∃ l, (areaAt s a).job.steps = st0 :: l := by
    cases h : (areaAt s a).job.steps with
    | nil => rw [h] at h0; exact nomatch h0
    | cons x l => rw [h] at h0; cases h0; exact ⟨l, rfl⟩
  have hr' : ¬ (areaAt (toPick (st0.s + st0.len + st0.v) s) a).job.state ≠ jRunning := not_not.2 (eq_of_beq hr)
  simp only [commitOldest, hj, ne_eq, not_true_eq_false, if_false, h0, hl, he, if_true, hs]
  rw [if_neg hr']

/-! ## A failure at the commit pick (R434-R442) -/

/-- Stored sour data that the run itself did not cause: the job ends (R442). -/
def soursOnly (st : Step) : Prop := (st.status / 2) % 2 = 1 ∧ st.origin = false

theorem failStepAt_sour {a : Nat} {st : Step} {s : State} (h : soursOnly st) (hj : hasJob s a = true) :
    areaAt (failStepAt a st s) a = (areaAt s a).jobEnded := by
  have hb : (decide ((st.status / 2) % 2 = 1) && !st.origin) = true := by rw [h.2, decide_eq_true h.1]; rfl
  simp only [failStepAt, hb, if_true]
  exact areaAt_report_ends rfl rfl hj

theorem not_sour_cond {st : Step} (h : ¬ soursOnly st) : ¬ (decide ((st.status / 2) % 2 = 1) && !st.origin) = true := by
  simpa only [soursOnly, Bool.and_eq_true, decide_eq_true_eq, Bool.not_eq_true'] using h

/-- The first failure counted: the step runs again. -/
def countFirst (a : Nat) (st : Step) (s : State) : State :=
  modArea a (fun y => { y with replays := satAdd 0xFFFF y.replays 1, job := { y.job with run := 2, named1 := mergeUnits y.job.named1 st.named } }) (count 0x1E01 hubIdx 1 s)

theorem failStepAt_clamp {a : Nat} {st : Step} {s : State} (h : ¬ soursOnly st) (hc : st.clamp = true) (h2 : st.second = false) :
    failStepAt a st s = rejoinAll a st.k s.pick (abandon a st.k st.bank s) := by
  have hcl : st.clamp = true ∧ ¬ st.second = true := ⟨hc, by rw [h2]; decide⟩
  simp only [failStepAt]
  rw [if_neg (not_sour_cond h), if_pos hcl]

theorem failStepAt_first {a : Nat} {st : Step} {s : State} (h : ¬ soursOnly st) (hc : st.clamp = false) (h2 : st.second = false) (hr : (areaAt s a).job.run < 2) :
    failStepAt a st s = rejoinAll a st.k s.pick (abandon a st.k st.bank (countFirst a st s)) := by
  have hrun : ¬ 2 ≤ (areaAt s a).job.run := by omega
  simp only [failStepAt, not_sour_cond h, hc, h2, hrun, Bool.false_eq_true, false_and, or_self, if_false]
  rfl

theorem failStepAt_second {a : Nat} {st : Step} {s : State} (h : ¬ soursOnly st) (h2 : st.second = true ∨ (2 ≤ (areaAt s a).job.run ∧ st.clamp = false)) :
    failStepAt a st s = secondFailure a st false s := by
  have hcl : ¬ (st.clamp = true ∧ ¬ st.second = true) := by
    rcases h2 with h2 | ⟨-, hc⟩
    · exact fun hcl => hcl.2 h2
    · rw [hc]; exact fun hcl => Bool.noConfusion hcl.1
  have hs : st.second = true ∨ 2 ≤ (areaAt s a).job.run := h2.imp id And.left
  simp only [failStepAt, not_sour_cond h, hcl, hs, Bool.false_eq_true, if_false, if_true]

/-- What a first failure, or a run the clamp broke, leaves of the area and its SUs. -/
theorem runsAgain {a : Nat} {st : Step} {r : State} (h : ¬ soursOnly st)
    (hf : (st.clamp = true ∧ st.second = false) ∨ (st.clamp = false ∧ st.second = false ∧ (areaAt r a).job.run < 2)) :
    let t := failStepAt a st r
    let x := areaAt r a
    (areaAt t a).job.nextK = st.k ∧ (areaAt t a).job.state = x.job.state ∧ (areaAt t a).job.committed = x.job.committed
    ∧ (areaAt t a).job.steps = x.job.steps.filter (fun y => decide (y.k < st.k)) ∧ (areaAt t a).bank = st.bank
    ∧ (areaAt t a).replays = (if st.clamp = true then x.replays else satAdd 0xFFFF x.replays 1)
    ∧ (areaAt t a).job.run = (if st.clamp = true then x.job.run else 2)
    ∧ ∀ n pc loops b w, wHasSite x.word n = true → (suAt r n).seq.running = true →
      (suAt r n).savedJoin.find? (fun y => y.1 == st.k) = some (st.k, pc, loops, b, w) →
      (suAt t n).seq.pc = pc ∧ (suAt t n).seq.bank = b ∧ (suAt t n).seq.loops = loops ∧ (suAt t n).inStep = st.k
      ∧ (suAt t n).join = some (joinOf w r.pick st.k (some r.pick)) := by
  intro t x
  rcases hf with ⟨hc, h2⟩ | ⟨hc, h2, hr⟩
  · obtain ⟨ha, hs⟩ := rejoinAll_abandon a st.k st.bank r
    rw [show t = _ from failStepAt_clamp h hc h2, if_pos hc, if_pos hc, ha]
    exact ⟨rfl, rfl, rfl, rfl, rfl, rfl, rfl, hs⟩
  · obtain ⟨ha, hs⟩ := rejoinAll_abandon a st.k st.bank (countFirst a st r)
    have hx : areaAt (countFirst a st r) a = { x with replays := satAdd 0xFFFF x.replays 1, job := { x.job with run := 2, named1 := mergeUnits x.job.named1 st.named } } :=
      areaAt_modArea_self ..
    rw [hx] at ha hs
    have hc' : ¬ st.clamp = true := by rw [hc]; decide
    rw [show t = _ from failStepAt_first h hc h2 hr, if_neg hc', if_neg hc']
    refine ⟨?_, ?_, ?_, ?_, ?_, ?_, ?_, hs⟩ <;> exact ha ▸ rfl

theorem abandon_up (a k bank : Nat) (s : State) : (abandon a k bank s).up = s.up := by
  rw [abandon_frame]
  rfl

theorem suAt_abandon (a k bank n : Nat) (s : State) : suAt (abandon a k bank s) n = suAt s n := by
  rw [abandon_frame]
  rfl

theorem countSecond_up (a : Nat) (st : Step) (s : State) : (countSecond a st s).up = s.up := by
  rw [countSecond_frame]

theorem suAt_countSecond (a n : Nat) (st : Step) (s : State) : suAt (countSecond a st s) n = suAt s n := by
  rw [countSecond_frame]
  rfl

theorem areaAt_awaitRemap (a k p : Nat) (s : State) :
    areaAt (awaitRemap a k p s) a = { areaAt s a with job := { (areaAt s a).job with ras := 2, remapAt := s.up, run := 0 } } :=
  areaAt_modArea_self ..

/-- What a second failure leaves, below the limit of cycles. -/
theorem awaitsRemap {a : Nat} {st : Step} {r : State} (h : (areaAt r a).job.cycle < 3) :
    let t := secondFailure a st false r
    let x := areaAt r a
    (areaAt t a).job.ras = 2 ∧ (areaAt t a).job.nextK = st.k ∧ (areaAt t a).job.run = 0
    ∧ (areaAt t a).job.cycle = x.job.cycle + 1 ∧ (areaAt t a).remaps = satAdd 0xFFFF x.remaps 1 ∧ (areaAt t a).job.remapAt = r.up
    ∧ ∀ n, wHasSite x.word n = true → (suAt t n).join = none
      ∧ (∀ pc loops bank w, (suAt r n).savedJoin.find? (fun y => y.1 == st.k) = some (st.k, pc, loops, bank, w) →
          (suAt t n).timers = [(8 * (r.pick + 1), .barrier (joinOf w r.pick st.k none).bpg)])
      ∧ ((suAt r n).savedJoin.find? (fun y => y.1 == st.k) = none → (suAt t n).timers = []) := by
  obtain ⟨q, hq⟩ : ∃ q, q = abandon a st.k st.bank (countSecond a st r) := ⟨_, rfl⟩
  have hx := areaAt_abandon a st.k st.bank (countSecond a st r)
  rw [← hq, areaAt_countSecond_self] at hx
  have hup : q.up = r.up := by rw [hq, abandon_up, countSecond_up]
  have hsu : ∀ n, suAt q n = suAt r n := fun n => by rw [hq, suAt_abandon, suAt_countSecond]
  rw [secondFailure_below h, if_neg Bool.false_ne_true, ← hq]
  dsimp only
  rw [areaAt_awaitRemap, hup, hx]
  refine ⟨rfl, rfl, rfl, rfl, rfl, rfl, fun n hn => ?_⟩
  have h := suAt_awaitRemap (k := st.k) (p := r.pick) (show wHasSite (areaAt q a).word n = true by rw [hx]; exact hn)
  rw [hsu] at h
  exact h

end Sys2Proof.Machine

open Sys2Proof Sys2Proof.Machine

/-- Settles O44: the commit pick decides the oldest step by stepOk, and a failure by its kind. -/
theorem stepsCommitOrFail : Obligations.StepsCommitOrFail := by
  intro a s st0 ha hj h0 hl he r x w st rest hs hr
  have hx : x.job.state = jRunning := eq_of_beq hr
  have hJob : hasJob r a = true := hasJob_of_jobRuns hr
  have hrun : exec (.stepCommit a) s = .next (if stepOk r a st then commitStep a st r else failStepAt a st r) := by
    have e : exec (.stepCommit a) s = guardUnit (decide (a < 16)) (commitOldest a) s := rfl
    rw [e, decide_eq_true ha, guardUnit_true, commitOldest_eq hj h0 hl he hs hr]
  refine ⟨fun hok => ⟨commitStep a st r, ?_, commitStep_now a st r, ?_⟩, fun hno => ?_⟩
  · rw [hrun, if_pos hok]
  · obtain ⟨hc, ht⟩ := areaAt_commitStep a st r
    refine ⟨hc, ?_, fun hw n i tl hn hwc hf => ?_⟩
    · have hx' : (areaAt r a).job.steps = st :: rest := hs
      rw [hx', show (areaAt r a).job.state = jRunning from hx] at ht
      by_cases hd : lastOfDraft a st r = true ∧ x.swapOpen = false
      · rw [if_pos hd] at ht
        rw [if_pos ⟨of_decide_eq_true hd.1, hd.2⟩]
        exact ht
      · rw [if_neg hd] at ht
        rw [if_neg fun h => hd ⟨decide_eq_true h.1, h.2⟩]
        obtain ⟨h1, h2, h3, h4⟩ := ht
        exact ⟨h1, h2, h3.trans (by cases rest <;> simp), h4⟩
    · have hcr : TabWf default ((mmAt r n).commit st.k).creels = true := tabWf_mapTab _ _ (fun _ (c : Creel) => (c.commit st.k).1) hwc
      rcases mmAt_commitStep (st := st) hw hn with e | e
      · rw [e]
        exact ctail_commit hwc hf
      · rw [e, ctail_ended hcr]
        exact ctail_commit hwc hf
  · have hrun : exec (.stepCommit a) s = .next (failStepAt a st r) := by rw [hrun, if_neg (by rw [hno]; decide)]
    refine ⟨fun hsour => ⟨_, hrun, ?_, ?_⟩, fun hsour hf => ⟨_, hrun, ?_⟩, fun hsour h2 => ⟨fun hcy => ⟨_, hrun, ?_⟩, fun hcy => ⟨_, hrun, ?_⟩⟩⟩
    · rw [failStepAt_sour hsour hJob]; rfl
    · rw [failStepAt_sour hsour hJob]; rfl
    · have h := runsAgain hsour hf
      obtain ⟨h1, h2, h3⟩ := h
      exact ⟨h1, h2.trans hx, h3⟩
    · rw [failStepAt_second hsour h2]
      exact awaitsRemap hcy
    · rw [failStepAt_second hsour h2]
      exact areaAt_secondFailure_last hcy hJob
end

section
/-! O43 and a state that breaks it. -/
namespace Sys2Proof.Machine

/-! The first clause of O43 names LEN of the step as an SU's JOIN gives it in the state at the start pick. Which area an SU belongs to is read
from the area store in its order, and a write puts the areas' keys in rising order. O43 asks no canonical store of its state: where the keys
stand out of order and two areas cover a region, the start of a step moves an SU to the other area before its JOIN is read. -/

/-- A defined area of a word with a running job. -/
def runningArea (w : Nat) : Area := { Area.reset with defined := true, word := w, job := { (default : Job) with state := jRunning } }

/-- Areas 5 and 3 out of order, of which 5 covers region column 0 and 3 every column. The SU of column 1 holds the start of step 0 of
area 3; the SU of column 0, of area 5, has joined the barrier that closes a step 0 of LEN 7. -/
def unorderedAreas : State :=
  let join : Join := { len := 0, d := 0, bpg := 0, nch := 0, root := false, dev := false, endPick := 0, opens := 0, ready := none, start := none, startSeen := 0 }
  { State.reset with
    areas := [(5, runningArea 0xF005), (3, runningArea 0xF0C3)]
    su := [(1026, { (default : Su) with join := some { join with opens := 1, len := 7 } }), (1154, { (default : Su) with lastJoin := some { join with start := some 0 } })] }

theorem unorderedAreas_start :
    knownStart unorderedAreas 3 = some 0 ∧ (areaAt (toPick 0 unorderedAreas) 3).job.steps = []
    ∧ joinLen (toPick 0 unorderedAreas) 3 (areaAt unorderedAreas 3).job.nextK = 0 :=
  ⟨by decide +kernel, rfl, by decide +kernel⟩

theorem unorderedAreas_startNext : (areaAt (startNext 3 unorderedAreas) 3).job.steps.map Step.len = [7] := by
  decide +kernel

end Sys2Proof.Machine

open Sys2Proof Sys2Proof.Machine

/-- Refutes O43: in an area store whose keys are out of order, which O43 does not exclude, the step that starts has not the LEN that JOINs give at its
start pick. -/
theorem not_stepsStartAndEnd : ¬ Obligations.StepsStartAndEnd := by
  intro h
  obtain ⟨hstart, hnone, hlen⟩ := unorderedAreas_start
  obtain ⟨hclause, -, -⟩ := h 3 unorderedAreas (by decide)
  obtain ⟨t, e, -, -, -, -, hsteps, -⟩ := (hclause 0 hstart).2 rfl (by decide) rfl rfl
  have ht : startNext 3 unorderedAreas = t := by
    have e : (Host.Outcome.next (startNext 3 unorderedAreas) : Out) = .next t := e
    injection e
  have h7 := unorderedAreas_startNext
  rw [ht, hsteps, List.map_append, List.map_singleton, hlen, hnone] at h7
  exact absurd h7 (by simp)
end

section
/-! Barrier flits (R181, R182, R315-R318, R437): O15. -/
namespace Sys2Proof.Machine

/-! ## An SU that waits for the replay keeps waiting while time passes and a step starts (R33, R183) -/

/-- The SU's program is stopped and no JOIN holds it: it waits for the replay. -/
def WaitsReplay (n : Nat) (s : State) : Prop := (suAt s n).join = none ∧ (suAt s n).seq.stopped = true

namespace WaitsReplay
section
variable {n : Nat} {t : State}

theorem frame {r : State} (h : WaitsReplay n t) (hs : r.su = t.su := by rfl) : WaitsReplay n r := by
  rw [WaitsReplay, suAt, hs]
  exact h

theorem modSu {m : Nat} {g : Su → Su} (h : WaitsReplay n t) (hg : ∀ u, (g u).join = u.join ∧ (g u).seq = u.seq := by exact fun _ => ⟨rfl, rfl⟩) :
    WaitsReplay n (modSu m g t) := by
  by_cases e : n = m
  · subst e
    rw [WaitsReplay, suAt_modSu_self, (hg _).1, (hg _).2]
    exact h
  · rw [WaitsReplay, suAt_modSu_ne _ _ _ _ e]
    exact h

/-- A stopped SU is not the default, so it stays listed. -/
theorem whereTab {r : State} (p : Nat → Bool) (g : Su → Su) (h : WaitsReplay n t) (hr : r.su = whereTab default p g t.su)
    (hg : ∀ u, (g u).join = u.join ∧ (g u).seq = u.seq) : WaitsReplay n r := by
  obtain ⟨hj, hs⟩ := h
  have hne : ∀ u : Su, u.seq.stopped = true → u ≠ default := fun u hu e => by
    rw [e] at hu
    exact Bool.noConfusion hu
  have hf : ((if p n then g (suAt t n) else suAt t n).join = none) ∧ (if p n then g (suAt t n) else suAt t n).seq.stopped = true := by
    split
    · rw [(hg _).1, (hg _).2]
      exact ⟨hj, hs⟩
    · exact ⟨hj, hs⟩
  have e : look default (Machine.whereTab default p g t.su) n = if p n then g (suAt t n) else suAt t n :=
    look_mapTab_listed (f := fun k v => if p k then g v else v) (hne _ hs) (hne _ hf.2)
  rw [WaitsReplay, suAt, hr, e]
  exact hf

theorem modArea {a : Nat} {g : Area → Area} (h : WaitsReplay n t) : WaitsReplay n (modArea a g t) := h.frame
theorem modMx {m : Nat} {g : Mx → Mx} (h : WaitsReplay n t) : WaitsReplay n (modMx m g t) := h.frame
theorem modSf {m : Nat} {g : Sf → Sf} (h : WaitsReplay n t) : WaitsReplay n (modSf m g t) := h.frame
theorem modSw {m : Nat} {g : Switch → Switch} (h : WaitsReplay n t) : WaitsReplay n (modSw m g t) := h.frame
theorem modCurStep {a : Nat} {g : Step → Step} (h : WaitsReplay n t) : WaitsReplay n (modCurStep a g t) := h.modArea

theorem ite {c : Prop} [Decidable c] {a b : State} (ha : WaitsReplay n a) (hb : WaitsReplay n b) : WaitsReplay n (if c then a else b) := by
  split
  · exact ha
  · exact hb

theorem onlyIf {c : Bool} {f : State → State} (h : WaitsReplay n t) (hf : ∀ q, WaitsReplay n q → WaitsReplay n (f q)) : WaitsReplay n (onlyIf c f t) :=
  ite (hf _ h) h

theorem each {α : Type} {l : List α} {f : α → State → State} (h : WaitsReplay n t) (hf : ∀ x q, WaitsReplay n q → WaitsReplay n (f x q)) :
    WaitsReplay n (each l f t) := by
  induction l generalizing t with
  | nil => exact h
  | cons x l ih => exact ih (hf x t h)

theorem dated {u : Nat} {f : State → State} (h : WaitsReplay n t) (hf : ∀ q, WaitsReplay n q → WaitsReplay n (f q)) : WaitsReplay n (dated u f t) :=
  (hf { t with now := u } h.frame).frame

theorem writeRecord {code : Nat} {r : Report349} (h : WaitsReplay n t) : WaitsReplay n (writeRecord code r t) :=
  h.frame (by rw [writeRecord_frame])

theorem failStep {code : Nat} {r : Report349} (h : WaitsReplay n t) : WaitsReplay n (failStep code r t) := by
  unfold Machine.failStep
  split
  · exact h
  · refine ite h ?_
    dsimp only
    split
    · exact h.modCurStep.modSu
    · exact h.modCurStep

theorem haltArea {r : Report349} (h : WaitsReplay n t) : WaitsReplay n (haltArea r t) := by
  unfold Machine.haltArea
  split
  · exact h
  · exact ite h.frame h

theorem report {code : Nat} {r : Report349} (h : WaitsReplay n t) (hc : codeClass code < 5 := by decide) : WaitsReplay n (report code r t) := by
  have h5 : ¬ (codeClass code = 5 ∨ codeClass code = 6) := by omega
  have h7 : ¬ codeClass code = 7 := by omega
  have hw : WaitsReplay n (if recorded code then Machine.writeRecord code r (count code r.unit 1 t) else count code r.unit 1 t) :=
    ite (writeRecord (frame (t := t) h)) h.frame
  unfold Machine.report
  dsimp only
  rw [if_neg h5, if_neg h7]
  exact ite hw.failStep (ite hw.haltArea hw)

theorem reportProg {code m p : Nat} (h : WaitsReplay n t) (hc : codeClass code < 5 := by decide) : WaitsReplay n (reportProg code m p t) := h.report hc

theorem noteSour {a h' : Option Nat} (h : WaitsReplay n t) : WaitsReplay n (noteSour a h' t) := by
  unfold Machine.noteSour
  split
  · exact h
  · dsimp only
    split
    · exact h.modCurStep.modSu
    · exact h.modCurStep

theorem watchTrigger {code m : Nat} {u : WatchUnit} (h : WaitsReplay n t) : WaitsReplay n (watchTrigger code m u t) := by
  unfold Machine.watchTrigger Machine.watchAdd
  exact ite (ite h.frame (ite h.frame h.frame)) h.frame

theorem rampCheck {t' h' : Nat} (h : WaitsReplay n t) : WaitsReplay n (rampCheck t' h' t) := by
  unfold Machine.rampCheck
  split
  · exact h
  · refine ite h ?_
    dsimp only
    split
    · exact h
    · exact h.modCurStep.dated fun _ hq => hq.report

theorem spClock {u m : Nat} (h : WaitsReplay n t) : WaitsReplay n (spClock u m t) := by
  unfold Machine.spClock
  split
  · exact h
  · refine ite h (onlyIf ?_ fun q hq => hq.modMx.reportProg)
    exact ite (modSw (onlyIf (onlyIf h fun _ hq => hq.reportProg) fun _ hq => hq.modMx)) h

theorem mxRaise {m : Nat} {d : MxDue} (h : WaitsReplay n t) : WaitsReplay n (mxRaise m d t) := by
  unfold Machine.mxRaise
  split
  · exact ite h h.noteSour
  · exact h.reportProg.watchTrigger
  · exact h

theorem mxClock {u m : Nat} (h : WaitsReplay n t) : WaitsReplay n (mxClock u m t) :=
  ite h (modMx (each (each h.modMx.spClock fun _ _ hq => hq.reportProg) fun _ _ hq => hq.modMx.mxRaise))

theorem sfClock {u m : Nat} (h : WaitsReplay n t) : WaitsReplay n (sfClock u m t) := by
  unfold Machine.sfClock
  refine ite h (each (each h.modSf fun _ _ hq => hq.reportProg) fun d q hq => ite hq.modSf ?_)
  have h3 : WaitsReplay n (excUp m 4 1 (Machine.modSf m (fun f => d.act.perform f) q)) := hq.modSf.modSw
  dsimp only
  split
  · exact ite h3 h3.noteSour
  · exact h3

theorem siteClock {k u : Nat} (h : WaitsReplay n t) : WaitsReplay n (siteClock k u t) := by
  induction k generalizing t with
  | zero => exact h
  | succ k ih =>
    unfold Machine.siteClock
    split
    · exact h
    · exact ih (h.dated fun q hq => (hq.each fun _ _ hr => hr.mxClock).each fun _ _ hr => hr.sfClock)

theorem suClock {t' m : Nat} (h : WaitsReplay n t) : WaitsReplay n (suClock t' m t) := ite h h.modSu.modSw

theorem settle {t' : Nat} (h : WaitsReplay n t) : WaitsReplay n (settle t' t) := by
  unfold Machine.settle
  extract_lets +onlyGivenNames tooFull s1
  have h1 : WaitsReplay n s1 := ((h.each fun _ _ hq => hq.rampCheck).siteClock).each fun _ _ hq => hq.suClock
  refine each h1.frame fun x q hq => report ?_
  exact hq.frame

theorem runTo {t' : Nat} (h : WaitsReplay n t) : WaitsReplay n (runTo t' t) := by
  unfold Machine.runTo
  refine ite h ?_
  exact h.settle.frame

theorem toPick {p : Nat} (h : WaitsReplay n t) : WaitsReplay n (toPick p t) := h.runTo

theorem applyRecords {a : Nat} (h : WaitsReplay n t) : WaitsReplay n (applyRecords a t) := h.frame (by rw [(recordsOnly_applyRecords a t).1])

theorem dropLoad {a st : Nat} (h : WaitsReplay n t) : WaitsReplay n (dropLoad a st t) := by
  unfold Machine.dropLoad
  split
  · exact h
  · exact h.frame (by rw [mbxComplete_frame]; rfl)

theorem skimPoint {a k : Nat} {first : Bool} (h : WaitsReplay n t) : WaitsReplay n (skimPoint a k first t) :=
  ite (ite h.frame (ite h.frame h)) (ite h.frame h)

theorem stepStart {a k S : Nat} (h : WaitsReplay n t) : WaitsReplay n (stepStart a k S t) := by
  unfold Machine.stepStart
  extract_lets +onlyGivenNames s1 x d next swapping s2 d r s3 fell s4 s5 w site s6
  have h1 : WaitsReplay n s1 := h.toPick
  have h2 : WaitsReplay n s2 := ite h1.frame h1
  have h3 : WaitsReplay n s3 := ite (ite (each h2.applyRecords fun _ _ hq => hq.frame) h2.applyRecords) h2
  have h4 : WaitsReplay n s4 := ite h3.dropLoad h3
  have h5 : WaitsReplay n s5 := ite h4.frame h4
  have h6 : WaitsReplay n s6 := h5.whereTab site (fun u => { u with status := 0 }) rfl fun _ => ⟨rfl, rfl⟩
  exact frame h6.skimPoint

theorem startDue {a t' : Nat} (h : WaitsReplay n t) : WaitsReplay n (startDue a t' t) := by
  unfold Machine.startDue
  split
  · refine ite ?_ h
    unfold Machine.startNext
    dsimp only
    split
    · exact ite (ite h.toPick.stepStart h.toPick) h
    · exact h
  · exact h

end
end WaitsReplay

/-! ## A barrier flit taken (R181, R182, R315) -/

theorem runTo_past {u : Nat} {s : State} (h : u ≤ s.now) : runTo u s = s := by
  unfold runTo
  exact if_pos h

/-- The state after the flit at the head of a switch's deliveries has left it. -/
def deliveryTaken (n : Nat) (s : State) : State := modSw n (fun w => { w with deliv := w.deliv.drop 1 }) s

theorem siteRuns_deliveryTaken (n : Nat) (s : State) : siteRuns (deliveryTaken n s) n = siteRuns s n := by
  have e : swAt (deliveryTaken n s) n = { swAt s n with deliv := (swAt s n).deliv.drop 1 } := swAt_modSw_self ..
  simp only [siteRuns, e]
  rfl

theorem execBarrierFlit_taken {n : Nat} {s : State} {j : Join} {d : Deliv} {rest : List Deliv} (hp : sitePresent s.member n = true) (hk : kindOf n = .su)
    (hr : siteRuns s n = true) (hd : (swAt s n).deliv = d :: rest) (hdue : d.due = s.now) (htag : d.tag = none) (hw : awaitsTag (swAt s n) d = false)
    (hj : servedJoin (s.now / 8) (suAt s n) = some j) (hkind : bfKind d.flit ≠ 3 ∧ bfKind d.flit ≠ 0) :
    exec (.barrierFlit n) s = .next (takeBarrier n j d.flit (deliveryTaken n s)) := by
  have e : exec (.barrierFlit n) s = execBarrierFlit n s := rfl
  have hh : headDeliv s n = some d := by simp only [headDeliv, hd, List.head?_cons, Option.filter_some, hw, Bool.not_false, if_true]
  have ht : takeDeliv n d s = deliveryTaken n s := by
    rw [takeDeliv, runTo_past (Nat.le_of_eq hdue)]
    rfl
  have hj' : servedJoin (deliveryTaken n s).pick (suAt (deliveryTaken n s) n) = some j := hj
  rw [e, execBarrierFlit, onSite_of_kind hp hk]
  simp only [hh, ht, hkind, htag, siteRuns_deliveryTaken, hr, hj', and_false, if_false, Bool.not_true, Bool.false_eq_true, ne_eq, not_true_eq_false, or_self]

/-- The port by which the flit came, noted at the SU. -/
def portNoted (n : Nat) (f : Flit) (s : State) : State := if crossDevice f then modSu n (fun u => { u with farPort := f.port }) s else s

theorem portNoted_frame (n : Nat) (f : Flit) (s : State) : portNoted n f s = { s with su := (portNoted n f s).su } := by
  unfold portNoted
  split <;> rfl

theorem suAt_portNoted_self (n : Nat) (f : Flit) (s : State) :
    suAt (portNoted n f s) n = { suAt s n with farPort := if f.port.isSome then f.port else (suAt s n).farPort } := by
  unfold portNoted crossDevice
  split
  · rw [suAt_modSu_self]
  · rfl

theorem suAt_portNoted_ne {n m : Nat} (f : Flit) (s : State) (h : m ≠ n) : suAt (portNoted n f s) m = suAt s m := by
  unfold portNoted
  split
  · exact suAt_modSu_ne _ _ _ _ h
  · rfl

/-- A down flit's START, told to the SU. -/
def startTold (n : Nat) (j : Join) (f : Flit) (s : State) : State :=
  modSu n (fun u => { u with
    join := some { j with start := some (bfStart f), startSeen := s.pick }
    downOut := some [j.opens, bfStatus f, bfStart f] }) s

/-- What an up flit says of its child. -/
def kidTold (n : Nat) (f : Flit) (s : State) : State :=
  modSu n (fun u => { u with kids := u.kids.filter (fun k => !(k.heddle == bfHeddle f && k.far == crossDevice f)) ++
    [{ heddle := bfHeddle f, far := crossDevice f, ready := bfReady f, status := bfStatus f, seen := s.pick }] }) s

theorem takeBarrier_eq (n : Nat) (j : Join) (f : Flit) (s : State) :
    takeBarrier n j f s =
      if f.sour ≠ 0 then portNoted n f s
      else if bfStep f ≠ j.opens then
        if crossDevice f then report 0x5820 { siteReport (portNoted n f s) n with heddle := none } (portNoted n f s) else portNoted n f s
      else if bfKind f = 1 then kidTold n f (portNoted n f s)
      else if bfStart f = 0 ∨ (suAt (portNoted n f s) n).join = none ∨ j.start ≠ none then portNoted n f s
      else joinComplete n (startTold n j f (
        if j.root then noteSlack (bfStart f - j.d - maxReady (heard j (suAt (portNoted n f s) n)) (j.ready.getD 0)) (portNoted n f s) else portNoted n f s)) := rfl

section
variable {n : Nat} {j : Join} {f : Flit} {s : State}

theorem takeBarrier_up (h0 : f.sour = 0) (hs : bfStep f = j.opens) (hk : bfKind f = 1) : takeBarrier n j f s = kidTold n f (portNoted n f s) := by
  rw [takeBarrier_eq, if_neg (not_not.2 h0), if_neg (not_not.2 hs), if_pos hk]

theorem takeBarrier_other (h0 : f.sour = 0) (hs : bfStep f ≠ j.opens) (hp : f.port ≠ none) :
    takeBarrier n j f s = report 0x5820 { siteReport (portNoted n f s) n with heddle := none } (portNoted n f s) := by
  have hc : crossDevice f = true := Option.isSome_iff_ne_none.2 hp
  rw [takeBarrier_eq, if_neg (not_not.2 h0), if_pos hs, if_pos hc]

theorem takeBarrier_down (h0 : f.sour = 0) (hs : bfStep f = j.opens) (hk : bfKind f = 2) (hS : bfStart f ≠ 0) (hu : (suAt s n).join = some j)
    (hj : j.start = none) (hroot : j.root = false) : takeBarrier n j f s = joinComplete n (startTold n j f (portNoted n f s)) := by
  have hc : ¬ (bfStart f = 0 ∨ (suAt (portNoted n f s) n).join = none ∨ j.start ≠ none) := by
    rw [suAt_portNoted_self]
    simp only [hS, hu, hj, reduceCtorEq, ne_eq, not_true_eq_false, or_self, not_false_eq_true]
  rw [takeBarrier_eq, if_neg (not_not.2 h0), if_neg (not_not.2 hs), if_neg (by omega), if_neg hc, if_neg (by rw [hroot]; decide)]

end

/-! ## A JOIN completes (R182, R183) -/

/-- The SU's JOIN j, which opens a step of its own bank, completes at ACLK t. -/
def Su.completed (j : Join) (t : Nat) (u : Su) : Su :=
  { u with seq := u.seq.advance (t + 2), join := none, lastJoin := some j, conds := [], tOff := 0, tAc := 0, inStep := j.opens + 1 }

theorem joinComplete_early {n a S : Nat} {j : Join} {s : State} (hj : (suAt s n).join = some j) (hS : j.start = some S) (ha : areaOfSite s n = some a)
    (hlt : (s.now + 1) / 8 < S) (hsw : joinSwaps s a j.opens (suAt s n).seq.bank = false) : joinComplete n s = modSu n (Su.completed j s.now) s := by
  have hle : ¬ S ≤ (s.now + 1) / 8 := by omega
  simp only [joinComplete, hj, hS, ha, hsw, Bool.false_eq_true, if_false]
  exact if_neg hle

/-- A START that comes too late: the SU waits for the replay. -/
theorem waitsReplay_joinComplete {n a S : Nat} {j : Join} {s : State} (hj : (suAt s n).join = some j) (hS : j.start = some S) (ha : areaOfSite s n = some a)
    (hle : S ≤ (s.now + 1) / 8) : WaitsReplay n (joinComplete n s) := by
  unfold joinComplete
  simp only [hj, hS, ha]
  change WaitsReplay n (if S ≤ (s.now + 1) / 8 then _ else _)
  rw [if_pos hle]
  refine .report (.modArea (.startDue ?_))
  rw [WaitsReplay, suAt_modSu_self, suAt_modSu_self]
  exact ⟨rfl, rfl⟩

/-! ## A barrier flit sent (R182) -/

/-- A flit injected at ACLK t reaches the local input of the SU's switch in the next one, and changes nothing else. -/
theorem inject_sends (n : Nat) (f : Flit) (s : State) :
    onlySw n s (inject n s.now f s) ∧ swAt (inject n s.now f s) n = { swAt s n with fly := (swAt s n).fly ++ [{ due := s.now + 1, inp := 4, flit := f }] } :=
  ⟨⟨rfl, fun _ hm => swAt_modSw_ne _ _ _ _ hm⟩, swAt_modSw_self _ _ _⟩

/-- The READY an up flit of JOIN j carries: the latest, once the SU and all its children are ready. -/
def readySent (j : Join) (u : Su) (p : Nat) : Nat :=
  match j.ready with
  | some r => if r ≤ p ∧ j.nch ≤ (u.kids.filter fun k => decide (k.ready ≠ 0)).length then maxReady u r else 0
  | none => 0

/-- The STATUS and START a down flit of JOIN j carries. -/
def downSent (j : Join) (u : Su) (p : Nat) : Nat × Nat :=
  match u.downOut with
  | some [k, st, S] => if k = j.opens ∧ j.startSeen < p then (st, S) else (0, 0)
  | _ => (0, 0)

section
variable {n : Nat} {s : State} {j : Join}

theorem execBarrierFlitSend_up (hp : sitePresent s.member n = true) (hk : kindOf n = .su) (hr : siteRuns s n = true) (hb : (suAt s n).barrier ≠ none)
    (hj : servedJoin (s.now / 8) (suAt s n) = some j) (hroot : rootStart n s = s) (hac : s.now % 8 = 0) (hdev : j.root = false ∨ j.dev = true) :
    exec (.barrierFlitSend n false) s = .next (inject n s.now
      (barrierFlitOf (readySent j (heard j (suAt s n)) s.pick) j.opens (suStatus (heard j (suAt s n))) 0 1 (heddleOf n)) s) := by
  have e : exec (.barrierFlitSend n false) s = execBarrierFlitSend n false s := rfl
  have ht : toPick ((s.now + 7) / 8) s = s := runTo_past (by omega)
  have hb' : (suAt s n).barrier.isSome = true := Option.isSome_iff_ne_none.2 hb
  have hn : (heard j (suAt s n)).barrier.isNone = false := by
    rw [← Option.not_isSome]
    exact congrArg not hb'
  have hd : ¬ (j.root && !j.dev) = true := by
    rcases hdev with h | h <;> rw [h] <;> simp
  have hj' : servedJoin s.pick (suAt s n) = some j := hj
  rw [e, execBarrierFlitSend, onSite_of_kind hp hk]
  simp only [hr, Bool.not_true, Bool.false_eq_true, if_false, ht, hb', if_true, hroot, hj', hn, hd]
  rfl

theorem execBarrierFlitSend_down (hp : sitePresent s.member n = true) (hk : kindOf n = .su) (hr : siteRuns s n = true) (hb : (suAt s n).barrier ≠ none)
    (hj : servedJoin (s.now / 8) (suAt s n) = some j) (hroot : rootStart n s = s) (hac : s.now % 8 = 4) (hnch : j.nch ≠ 0) :
    exec (.barrierFlitSend n true) s = .next (inject n s.now
      (barrierFlitOf 0 j.opens (downSent j (heard j (suAt s n)) s.pick).1 (downSent j (heard j (suAt s n)) s.pick).2 2 (heddleOf n)) s) := by
  have e : exec (.barrierFlitSend n true) s = execBarrierFlitSend n true s := rfl
  have ht : runTo ((s.now + 3) / 8 * 8 + 4) s = s := runTo_past (by omega)
  have hb' : (suAt s n).barrier.isSome = true := Option.isSome_iff_ne_none.2 hb
  have hn : (heard j (suAt s n)).barrier.isNone = false := by
    rw [← Option.not_isSome]
    exact congrArg not hb'
  have hj' : servedJoin s.pick (suAt s n) = some j := hj
  rw [e, execBarrierFlitSend, onSite_of_kind hp hk]
  simp only [hr, Bool.not_true, Bool.false_eq_true, if_false, ht, hb', if_true, hroot, hj', hn, hnch]
  rfl

end

/-! ## The end of a barrier window (R317, R437) -/

theorem curStep_modCurStep {a : Nat} {s : State} {st : Step} (f : Step → Step) (h : curStep s a = some st) : curStep (modCurStep a f s) a = some (f st) := by
  obtain ⟨l, hl⟩ : ∃ l, (areaAt s a).job.steps.reverse = st :: l := by
    rw [curStep, ← List.head?_reverse] at h
    cases hr : (areaAt s a).job.steps.reverse with
    | nil => rw [hr] at h; exact nomatch h
    | cons x l => rw [hr] at h; cases h; exact ⟨l, rfl⟩
  rw [curStep, modCurStep, areaAt_modArea_self]
  simp only [hl, List.getLast?_reverse, List.head?_cons]

/-- Nothing but area a differs of the areas, MM and MX sites, switches and the clock. -/
def windowKept (a : Nat) (s t : State) : Prop := (∀ b, b ≠ a → areaAt t b = areaAt s b) ∧ t.mm = s.mm ∧ t.mx = s.mx ∧ t.sw = s.sw ∧ t.now = s.now

theorem windowKept_reportNoted (a code : Nat) (r : Report349) (s : State) : windowKept a s (reportNoted code r s) := by
  refine ⟨fun b _ => areaAt_reportNoted code b r s, ?_⟩
  rw [reportNoted_frame]
  exact ⟨rfl, rfl, rfl, rfl⟩

theorem report_fails {code : Nat} {r : Report349} {s : State} (hc : codeClass code = 3) : report code r s = failStep code r (reportNoted code r s) := by
  simp only [report, hc, if_true]
  rfl


/-- A failed step in progress: its step is marked, and its heddle's STATUS. -/
theorem failStep_running {code a : Nat} {r : Report349} {s : State} {st : Step} (ha : r.area = some a) (h : curStep s a = some st) :
    windowKept a s (failStep code r s) ∧ ∃ y, curStep (failStep code r s) a = some y ∧ y.failed = (st.failed || failsStep code)
      ∧ y.second = (st.second || code == 0x3812) ∧ y.status = stOr st.status (statusOf code) ∧ y.k = st.k := by
  have hn : ¬ (curStep s a).isNone = true := by rw [h]; exact Bool.false_ne_true
  have hk : ∀ f, windowKept a s (modCurStep a f s) := fun f => ⟨fun b hb => areaAt_modArea_ne _ _ _ _ hb, rfl, rfl, rfl, rfl⟩
  simp only [failStep, ha]
  rw [if_neg hn]
  split
  · exact ⟨hk _, _, curStep_modCurStep _ h, rfl, rfl, rfl, rfl⟩
  · exact ⟨hk _, _, curStep_modCurStep _ h, rfl, rfl, rfl, rfl⟩

theorem failStep_idle {code a : Nat} {r : Report349} {s : State} (ha : r.area = some a) (h : curStep s a = none) : failStep code r s = s := by
  simp only [failStep, ha, h, Option.isNone_none, if_true]

theorem windowKept.trans {a : Nat} {r s t : State} (h : windowKept a r s) (k : windowKept a s t) : windowKept a r t := by
  obtain ⟨h1, h2, h3, h4, h5⟩ := h
  obtain ⟨k1, k2, k3, k4, k5⟩ := k
  exact ⟨fun b hb => (k1 b hb).trans (h1 b hb), k2.trans h2, k3.trans h3, k4.trans h4, k5.trans h5⟩

theorem windowKept_awaitRemap (a k p : Nat) (s : State) : windowKept a s (awaitRemap a k p s) :=
  ⟨fun _ hb => areaAt_modArea_ne _ _ _ _ hb, rfl, rfl, rfl, rfl⟩

theorem windowKept_countSecond (a : Nat) (st : Step) (s : State) : windowKept a s (countSecond a st s) := by
  refine ⟨fun _ hb => areaAt_countSecond_ne st s hb, ?_⟩
  rw [countSecond_frame]
  exact ⟨rfl, rfl, rfl, rfl⟩

/-- The report of a barrier that came too late. -/
def lateReport (n p : Nat) (x : PlanStep) (s : State) : Report349 := { siteReport s n with unit := portIdx p, wu := some (.lane p 15), step := some x.k }

/-- The step of x as one that has failed a second time. -/
def lateStep (p : Nat) (x : PlanStep) : Step := { (default : Step) with k := x.k, s := x.s, second := true, named := [.lane p 15] }

theorem barrierLate_eq (a n p : Nat) (x : PlanStep) (s : State) :
    barrierLate a n p x s =
      if ((areaAt s a).job.steps.any fun st => st.k == x.k) = true ∨ (areaAt (report 0x3812 (lateReport n p x s) s) a).job.ras ≠ 1
      then report 0x3812 (lateReport n p x s) s else secondFailure a (lateStep p x) true (report 0x3812 (lateReport n p x s) s) := rfl

/-- STATUS with the timing bit of R434 has it. -/
theorem stOr_timing (b : Nat) : stOr b (statusOf 0x3812) % 8 / 4 = 1 := by
  have h : (b ||| 4).testBit 2 = true := by
    rw [Nat.testBit_or]
    exact Bool.or_true _
  rw [Nat.testBit_eq_decide_div_mod_eq, decide_eq_true_eq] at h
  change (b ||| 4) % 8 / 4 = 1
  omega

/-- Where the commit pick of the step is still to come, the step has a second failure there. -/
theorem barrierLate_running {a n p : Nat} {x : PlanStep} {s : State} {st : Step} (ha : areaOfSite s n = some a) (h : curStep s a = some st) (hk : st.k = x.k) :
    windowKept a s (barrierLate a n p x s)
    ∧ ∃ y, curStep (barrierLate a n p x s) a = some y ∧ y.failed = true ∧ y.second = true ∧ y.status % 8 / 4 = 1 ∧ y.k = st.k := by
  have hopen : ((areaAt s a).job.steps.any fun st => st.k == x.k) = true :=
    List.any_eq_true.2 ⟨st, List.mem_of_getLast? h, beq_iff_eq.2 hk⟩
  have hq : curStep (reportNoted 0x3812 (lateReport n p x s) s) a = some st := by
    rw [curStep, areaAt_reportNoted]
    exact h
  obtain ⟨hw, y, hy, hf, h2, hs, hyk⟩ := failStep_running (code := 0x3812) (show (lateReport n p x s).area = some a from ha) hq
  rw [barrierLate_eq, if_pos (.inl hopen), report_fails rfl]
  refine ⟨(windowKept_reportNoted a 0x3812 _ s).trans hw, y, hy, hf.trans (Bool.or_true _), h2.trans (Bool.or_true _), ?_, hyk⟩
  rw [hs]
  exact stOr_timing _

/-- Where its run has failed, the second failure takes the area to remapping at once. -/
theorem barrierLate_failed {a n p : Nat} {x : PlanStep} {s : State} (ha : areaOfSite s n = some a) (hs : (areaAt s a).job.steps = [])
    (hras : (areaAt s a).job.ras = 1) (hc : (areaAt s a).job.cycle < 3) :
    windowKept a s (barrierLate a n p x s) ∧ (areaAt (barrierLate a n p x s) a).job.ras = 2
    ∧ (areaAt (barrierLate a n p x s) a).job.cycle = (areaAt s a).job.cycle + 1 := by
  have hx : areaAt (reportNoted 0x3812 (lateReport n p x s) s) a = areaAt s a := areaAt_reportNoted ..
  have hq : report 0x3812 (lateReport n p x s) s = reportNoted 0x3812 (lateReport n p x s) s := by
    rw [report_fails rfl]
    refine failStep_idle (show (lateReport n p x s).area = some a from ha) ?_
    rw [curStep, hx, hs]
    rfl
  have hcond : ¬ (((areaAt s a).job.steps.any fun st => st.k == x.k) = true ∨ (areaAt (reportNoted 0x3812 (lateReport n p x s) s) a).job.ras ≠ 1) := by
    rw [hx, hs, hras]
    simp only [List.any_nil, Bool.false_eq_true, ne_eq, not_true_eq_false, or_self, not_false_eq_true]
  have hkept := windowKept_reportNoted a 0x3812 (lateReport n p x s) s
  rw [barrierLate_eq, hq, if_neg hcond]
  generalize reportNoted 0x3812 (lateReport n p x s) s = q at hx hkept ⊢
  rw [← hx] at hc ⊢
  rw [secondFailure_below hc, if_pos rfl]
  refine ⟨hkept.trans ((windowKept_countSecond ..).trans (windowKept_awaitRemap ..)), ?_, ?_⟩
  · rw [areaAt_awaitRemap]
  · rw [areaAt_awaitRemap, areaAt_countSecond_self]
    rfl

theorem execBarrierWindowEnd_late {n a p : Nat} {s : State} {j : Join} {x : PlanStep} (hp : sitePresent s.member n = true) (hk : kindOf n = .su)
    (hj : (suAt s n).join = some j) (ha : areaOfSite s n = some a) (hr : jobRuns s a = true) (hx : (areaAt s a).job.plan.getLast? = some x)
    (he : edgePort s a n x = some p) (hdev : j.dev = true) (hst : j.start = none) (hpick : x.s + planLen x.plans p x.cls ≤ s.now / 8) :
    exec (.barrierWindowEnd n) s = .next (barrierLate a n p x s) := by
  have e : exec (.barrierWindowEnd n) s = execBarrierWindowEnd n s := rfl
  have ht : toPick (x.s + planLen x.plans p x.cls) s = s := runTo_past (by omega)
  rw [e, execBarrierWindowEnd, onSite_of_kind hp hk]
  simp only [hj, ha, hx, he, hdev, hr, ht, hst, Bool.not_true, Bool.false_eq_true, or_self, if_false, and_self, if_true]

/-! ## What a flit leaves at the SU -/

/-- The state in which the SU hears a flit: it has left the deliveries, and its port is noted. -/
def flitTaken (n : Nat) (f : Flit) (s : State) : State := portNoted n f (deliveryTaken n s)

section
variable {n : Nat} {f : Flit} {s : State}

theorem flitTaken_frame : flitTaken n f s = { s with su := (flitTaken n f s).su, sw := (flitTaken n f s).sw } := by
  rw [flitTaken, portNoted_frame]
  rfl

theorem areaOfSite_flitTaken : areaOfSite (flitTaken n f s) n = areaOfSite s n := by
  rw [flitTaken_frame]
  rfl

theorem areaAt_flitTaken (a : Nat) : areaAt (flitTaken n f s) a = areaAt s a := by
  rw [flitTaken_frame]
  rfl

theorem flitTaken_now : (flitTaken n f s).now = s.now := by rw [flitTaken_frame]

theorem suAt_flitTaken_self : suAt (flitTaken n f s) n = { suAt s n with farPort := if f.port.isSome then f.port else (suAt s n).farPort } :=
  suAt_portNoted_self ..

/-- Nothing but SU n and the deliveries of its switch differs. -/
def heardAt (n : Nat) (rest : List Deliv) (s t : State) : Prop :=
  t = { s with su := t.su, sw := t.sw } ∧ swAt t n = { swAt s n with deliv := rest } ∧ ∀ m, m ≠ n → suAt t m = suAt s m

theorem heardAt_flitTaken {d : Deliv} {rest : List Deliv} (hd : (swAt s n).deliv = d :: rest) : heardAt n rest s (flitTaken n f s) := by
  have h : swAt (deliveryTaken n s) n = { swAt s n with deliv := (swAt s n).deliv.drop 1 } := swAt_modSw_self ..
  rw [hd] at h
  refine ⟨flitTaken_frame, ?_, fun m hm => suAt_portNoted_ne _ _ hm⟩
  rw [flitTaken, portNoted_frame]
  exact h

theorem heardAt.modSu {rest : List Deliv} {t : State} {g : Su → Su} (h : heardAt n rest s t) : heardAt n rest s (modSu n g t) := by
  obtain ⟨h1, h2, h3⟩ := h
  refine ⟨?_, h2, fun m hm => (suAt_modSu_ne _ _ _ _ hm).trans (h3 m hm)⟩
  rw [h1]
  rfl

/-- The SU once a down flit with START in time has completed its JOIN. -/
theorem downInTime {a : Nat} {j : Join} (ha : areaOfSite s n = some a) (hlt : (s.now + 1) / 8 < bfStart f)
    (hsw : joinSwaps s a j.opens (suAt s n).seq.bank = false) :
    joinComplete n (startTold n j f (flitTaken n f s)) =
      modSu n (Su.completed { j with start := some (bfStart f), startSeen := s.now / 8 } s.now) (startTold n j f (flitTaken n f s)) := by
  have hnow : (startTold n j f (flitTaken n f s)).now = s.now := flitTaken_now
  have hp : (flitTaken n f s).pick = s.now / 8 := congrArg (· / 8) flitTaken_now
  have hs : suAt (startTold n j f (flitTaken n f s)) n = _ := suAt_modSu_self ..
  have e := joinComplete_early (n := n) (a := a) (S := bfStart f) (j := { j with start := some (bfStart f), startSeen := (flitTaken n f s).pick })
    (s := startTold n j f (flitTaken n f s)) (by rw [hs]) rfl (areaOfSite_flitTaken.trans ha) (by rw [hnow]; exact hlt) ?_
  · rw [e, hnow, hp]
  · rw [hs]
    dsimp only
    rw [suAt_flitTaken_self]
    have hx : areaAt (startTold n j f (flitTaken n f s)) a = areaAt s a := areaAt_flitTaken a
    rw [joinSwaps, hx]
    exact hsw

end

end Sys2Proof.Machine

open Sys2Proof Sys2Proof.Machine

/-- Settles O15: what takeBarrier does with each kind of flit, what is sent, and the two ends of a barrier window. -/
theorem barrierFlitsPassUpAndDown : Obligations.BarrierFlitsPassUpAndDown := by
  refine ⟨?taken, ?sent, ?window⟩
  case taken =>
    intro n a s j d rest hp hk hr ha hd hdue htag hw h0 hj u down
    have e := execBarrierFlit_taken hp hk hr hd hdue htag hw hj
    have hheard : heardAt n rest s (flitTaken n d.flit s) := heardAt_flitTaken hd
    have hpick : (flitTaken n d.flit s).pick = s.now / 8 := congrArg (· / 8) flitTaken_now
    have hdown : down → exec (.barrierFlit n) s = .next (joinComplete n (startTold n j d.flit (flitTaken n d.flit s))) := by
      rintro ⟨hs, hkind, hS, hu, hjs, hroot⟩
      exact (e ⟨by omega, by omega⟩).trans (congrArg _ (takeBarrier_down (s := deliveryTaken n s) h0 hs hkind hS hu hjs hroot))
    refine ⟨fun hs hkind => ?up, fun hdn hle => ?late, fun hs hkind hport hjob => ?other, fun hdn hlt hsw => ?intime⟩
    case up =>
      obtain ⟨h1, h2, h3⟩ := hheard.modSu (g := fun u => { u with kids := u.kids.filter (fun k => !(k.heddle == bfHeddle d.flit && k.far == crossDevice d.flit)) ++
        [{ heddle := bfHeddle d.flit, far := crossDevice d.flit, ready := bfReady d.flit, status := bfStatus d.flit, seen := (flitTaken n d.flit s).pick }] })
      refine ⟨_, (e ⟨by omega, by omega⟩).trans (congrArg _ (takeBarrier_up h0 hs hkind)), h1, h2, h3, (suAt_modSu_self ..).trans ?_⟩
      rw [show suAt (portNoted n d.flit (deliveryTaken n s)) n = _ from suAt_flitTaken_self, show (portNoted n d.flit (deliveryTaken n s)).pick = _ from hpick]
      rfl
    case late =>
      have hw := waitsReplay_joinComplete (n := n) (a := a) (S := bfStart d.flit) (s := startTold n j d.flit (flitTaken n d.flit s))
        (congrArg Su.join (suAt_modSu_self ..)) rfl (areaOfSite_flitTaken.trans ha) (by rw [show (startTold n j d.flit (flitTaken n d.flit s)).now = s.now from flitTaken_now]; exact hle)
      exact ⟨_, hdown hdn, hw⟩
    case other =>
      have hk : bfKind d.flit ≠ 3 ∧ bfKind d.flit ≠ 0 := by
        simp only [List.mem_cons, List.not_mem_nil, or_false] at hkind
        omega
      refine ⟨_, (e hk).trans (congrArg _ (takeBarrier_other h0 hs hport)), ?_⟩
      have hj : hasJob (flitTaken n d.flit s) a = true := by
        rw [hasJob, areaAt_flitTaken]
        exact hjob
      exact congrArg (fun x : Area => x.job.state) (areaAt_report_ends (s := flitTaken n d.flit s) rfl (areaOfSite_flitTaken.trans ha) hj)
    case intime =>
      have ht := downInTime ha hlt hsw
      obtain ⟨h1, h2, h3⟩ := (hheard.modSu (g := _)).modSu (g := Su.completed { j with start := some (bfStart d.flit), startSeen := s.now / 8 } s.now)
      refine ⟨_, (hdown hdn).trans (congrArg _ ht), h1, h2, h3, ?_⟩
      rw [suAt_modSu_self, startTold, suAt_modSu_self]
      exact ⟨rfl, rfl, rfl, rfl, rfl, rfl⟩
  case sent =>
    intro n s j hp hk hr hb hj hroot u sends
    refine ⟨fun hac hdev p hready hle hkids => ?_, fun hac hnch st S hout hseen => ?_⟩
    · have hs : readySent j u s.pick = maxReady u p := by
        simp only [readySent, hready]
        exact if_pos ⟨hle, hkids⟩
      exact ⟨_, (execBarrierFlitSend_up hp hk hr hb hj hroot hac hdev).trans (by rw [hs]), inject_sends ..⟩
    · have hs : downSent j u s.pick = (st, S) := by
        simp only [downSent, hout]
        exact if_pos ⟨trivial, hseen⟩
      exact ⟨_, (execBarrierFlitSend_down hp hk hr hb hj hroot hac hnch).trans (by rw [hs]), inject_sends ..⟩
  case window =>
    intro n a p s j x hp hk hj ha hr hx he hdev hst hpick kept
    have e := execBarrierWindowEnd_late hp hk hj ha hr hx he hdev hst hpick
    refine ⟨fun st hcur hkx => ⟨_, e, barrierLate_running ha hcur hkx⟩, fun hs hras hc => ⟨_, e, barrierLate_failed ha hs hras hc⟩⟩
end

section
/-! The row check (R66-R70): O7. The lane sums and the check column are one double sum over lanes and elements, taken in either order; values of
narrow formats are few units of 2 ^ -16, so that every product is exact and every check weight fits its 64 bits. -/
namespace Sys2Proof.Machine

/-! ## Values of narrow formats (R44, R60) -/

/-- A finite value in units of 2 ^ -k; NaN and infinities give 0, as in `unitSum`. -/
def Num.units (k : Nat) : Num → Int
  | .fin neg m e => sgn neg m * 2 ^ (e + k).toNat
  | _ => 0

/-- A finite value that is a whole number of units of 2 ^ -16, below 2 ^ 34 of them: what a code of at most 8 bits stands for. -/
def Num.Narrow : Num → Prop
  | .fin _ m e => -16 ≤ e ∧ m * 2 ^ (e + 16).toNat ≤ 2 ^ 34
  | _ => False

theorem unitSum_eq_sum (k : Nat) (l : List Num) : unitSum k l = (l.map (Num.units k)).sum := by
  rw [List.sum_eq_foldl, List.foldl_map]
  refine List.foldl_ext _ _ _ fun acc x _ => ?_
  cases x with
  | fin neg m e => rfl
  | nan => exact (Int.add_zero acc).symm
  | inf neg => exact (Int.add_zero acc).symm

theorem Num.Narrow.abs_units_le {x : Num} (h : x.Narrow) : |x.units 16| ≤ 2 ^ 34 := by
  cases x with
  | fin neg m e =>
    obtain ⟨-, hm⟩ := h
    have hs : |sgn neg m| = (m : Int) := by cases neg <;> simp [sgn]
    rw [Num.units, abs_mul, hs, abs_of_nonneg (by positivity)]
    exact_mod_cast hm
  | nan => exact h.elim
  | inf neg => exact h.elim

theorem sgn_mul (a b : Bool) (m n : Nat) : sgn (a != b) (m * n) = sgn a m * sgn b n := by
  cases a <;> cases b <;> simp [sgn]

/-- A product of narrow values is exact in units of 2 ^ -32 (R60). -/
theorem Num.Narrow.units_mul {x y : Num} (hx : x.Narrow) (hy : y.Narrow) : (x.mul y).units 32 = x.units 16 * y.units 16 := by
  cases x with
  | fin a m e =>
    cases y with
    | fin b n f =>
      have he : (e + f + (32 : Nat)).toNat = (e + (16 : Nat)).toNat + (f + (16 : Nat)).toNat := by
        have := hx.1
        have := hy.1
        omega
      simp only [Num.mul, Num.units, sgn_mul, he, pow_add]
      ring
    | nan => exact hy.elim
    | inf neg => exact hy.elim
  | nan => exact hx.elim
  | inf neg => exact hx.elim

theorem bits_lt (w hi lo : Nat) : bits w hi lo < 2 ^ (hi + 1 - lo) := Nat.mod_lt _ (by positivity)

theorem natAbs_signed_le (n x : Nat) (hn : 0 < n) : (signed n x).natAbs ≤ 2 ^ (n - 1) := by
  obtain ⟨k, rfl⟩ : ∃ k, n = k + 1 := ⟨n - 1, by omega⟩
  have h : x % 2 ^ (k + 1) < 2 ^ k * 2 := (Nat.mod_lt _ (by positivity)).trans_eq (pow_succ 2 k)
  have e : (2 : Int) ^ (k + 1) = ((2 ^ k * 2 : Nat) : Int) := by push_cast; ring
  simp only [signed, Nat.add_sub_cancel, e]
  generalize x % 2 ^ (k + 1) = y at *
  generalize 2 ^ k = z at *
  split <;> omega

theorem fmtE_pos (f : Nat) : 0 < fmtE f := by
  simp only [fmtE]
  repeat' split
  all_goals decide

/-- What a finite code of a floating-point format stands for (R44): its mantissa and its exponent are in the format's range. -/
theorem decodeNum_float {f c : Nat} (hi : fmtInt f = false) (h : (decodeNum f c).isFin = true) :
    ∃ neg m e, decodeNum f c = .fin neg m e ∧ m < 2 ^ (fmtM f + 1)
      ∧ 1 - (fmtBias f : Int) - fmtM f ≤ e ∧ e < (2 ^ fmtE f : Nat) - (fmtBias f : Int) - fmtM f := by
  have hm : c % 2 ^ fmtM f < 2 ^ fmtM f := Nat.mod_lt _ (by positivity)
  have hE : 2 ^ 1 ≤ 2 ^ fmtE f := Nat.pow_le_pow_right (by decide) (fmtE_pos f)
  have he : bits c (fmtE f + fmtM f - 1) (fmtM f) < 2 ^ fmtE f := by
    have := fmtE_pos f
    exact (bits_lt ..).trans_eq (by congr 1; omega)
  simp only [decodeNum, hi, Bool.false_eq_true, if_false, pow_succ] at h ⊢
  split at h
  · split at h <;> cases h
  · next hs =>
    rw [if_neg hs]
    split at h
    · cases h
    · next hn =>
      rw [if_neg hn]
      split
      · exact ⟨_, _, _, rfl, by omega, by omega, by omega⟩
      · exact ⟨_, _, _, rfl, by omega, by omega, by omega⟩

theorem Num.Narrow.of_le {neg : Bool} {m k : Nat} {e : Int} (hl : -16 ≤ e) (hm : m ≤ 2 ^ k) (he : e + 16 + k ≤ 34) : (Num.fin neg m e).Narrow :=
  ⟨hl, calc
    m * 2 ^ (e + 16).toNat ≤ 2 ^ k * 2 ^ (e + 16).toNat := Nat.mul_le_mul_right _ hm
    _ = 2 ^ (k + (e + 16).toNat) := (pow_add ..).symm
    _ ≤ 2 ^ 34 := Nat.pow_le_pow_right (by decide) (by omega)⟩

/-- Of the floating-point formats of at most 8 bits E5M2 has the least unit, 2 ^ -16, and the largest values. -/
theorem fmt_narrow {f : Nat} (hf : f ≤ 10) (hw : fmtWidth f ≤ 8) : 3 ≤ f ∧ (fmtInt f = false → fmtBias f + fmtM f ≤ 17 ∧ 2 ^ fmtE f ≤ 18 + fmtBias f) := by
  interval_cases f <;> revert hw <;> decide

/-- A finite code of at most 8 bits stands for a narrow value. -/
theorem narrow_decodeNum {f : Nat} (c : Nat) (hf : f ≤ 10) (hw : fmtWidth f ≤ 8) (h : (decodeNum f c).isFin = true) : (decodeNum f c).Narrow := by
  obtain ⟨hf3, hfl⟩ := fmt_narrow hf hw
  cases hi : fmtInt f with
  | true =>
    have hv := natAbs_signed_le (fmtWidth f) c (by interval_cases f <;> decide)
    have hk : 2 ^ (fmtWidth f - 1) ≤ 2 ^ 7 := Nat.pow_le_pow_right (by decide) (by omega)
    simp only [decodeNum, hi, if_true]
    exact .of_le (k := 7) (by split <;> decide) (hv.trans hk) (by split <;> decide)
  | false =>
    obtain ⟨neg, m, e, hd, hm, hl, hu⟩ := decodeNum_float hi h
    obtain ⟨hb, hE⟩ := hfl hi
    rw [hd]
    exact .of_le (by omega) hm.le (by omega)

/-! ## The sums of a block's row check (R66, R67) -/

theorem sum_range_map {M : Type} [AddCommMonoid M] (n : Nat) (f : Nat → M) : ((List.range n).map f).sum = ∑ i ∈ Finset.range n, f i := rfl

theorem foldl_add_range (n : Nat) (f : Nat → Int) : (List.range n).foldl (fun acc i => acc + f i) 0 = ∑ i ∈ Finset.range n, f i := by
  rw [← sum_range_map, List.sum_eq_foldl, List.foldl_map]

theorem zip_map_range {α : Type} (n : Nat) (f : Nat → α) : List.zip ((List.range n).map f) (List.range n) = (List.range n).map fun i => (f i, i) := by
  conv_lhs => rw [← List.map_id (List.range n), List.map_map, Function.comp_id]
  exact List.zip_map' ..

theorem getD_map_range {α : Type} {n j : Nat} (f : Nat → α) (d : α) (hj : j < n) : ((List.range n).map f).getD j d = f j := by
  rw [List.getD_eq_getElem?_getD, List.getElem?_map, List.getElem?_range hj]
  rfl

/-- Element j of a block's streaming operand. -/
def streamElem (o : MacOp) (g j : Nat) : Num := (streamBlock o g).getD j .nan

theorem streamBlock_eq (o : MacOp) (g : Nat) : streamBlock o g = (List.range 32).map (streamElem o g) := by
  refine List.ext_getElem (by simp [streamBlock]) fun j h1 _ => ?_
  simp [streamElem, h1]

/-- The stationary values at position j of lane i of block b. -/
def laneValues (x : Mx) (m : W32) (b i j : Nat) : List Num := (stationary x m i b).getD j []

theorem stationary_eq (x : Mx) (m : W32) (b i : Nat) : stationary x m i b = (List.range 32).map (laneValues x m b i) := by
  have hl : (stationary x m i b).length = 32 := by
    simp only [stationary]
    split <;> simp
  refine List.ext_getElem (by simp [hl]) fun j h1 _ => ?_
  simp [laneValues, h1]

/-- d_i of R66. -/
def laneShift (x : Mx) (m : W32) (b i : Nat) : Nat := laneScale x m i b - minScale x m b

/-- What the sixteen lane sums give, each at its scale. -/
def laneSide (x : Mx) (o : MacOp) (g b : Nat) (upset : List Int) : Int :=
  ∑ i ∈ Finset.range 16, 2 ^ laneShift x o.mode b i * (unitSum 32 (laneProducts (streamBlock o g) (stationary x o.mode i b)) + upset.getD i 0)

/-- What the check column gives. -/
def checkSide (x : Mx) (o : MacOp) (g b : Nat) (upset : List Int) : Int :=
  ∑ j ∈ Finset.range 32, (streamElem o g j).units 16 * (look 0 x.check (32 * b + j)).toInt + upset.getD 16 0

theorem checkColumn_eq (x : Mx) (o : MacOp) (g b : Nat) :
    (List.zip (streamBlock o g) (List.range 32)).foldl (fun acc y => acc + y.1.units 16 * (look 0 x.check (32 * b + y.2)).toInt) 0
      = ∑ j ∈ Finset.range 32, (streamElem o g j).units 16 * (look 0 x.check (32 * b + j)).toInt := by
  rw [streamBlock_eq, zip_map_range, List.foldl_map, foldl_add_range]

theorem any_range_eq_false {n : Nat} {p : Nat → Bool} (h : ∀ l, l < n → p l = false) : (List.range n).any p = false :=
  List.any_eq_false.mpr fun l hl => by simp [h l (List.mem_range.mp hl)]

/-- Off the special path, with no sour operand and a spread of at most 16, a checked narrow block fails its check where the two sides differ (R67-R69). -/
theorem doBlock_rowchk {x : Mx} {o : MacOp} {g b : Nat} {accs : List Acc} (upset : List Int) (hb : b = o.b0 + g % o.kb)
    (hc : mCHK o.mode = true) (hw : fmtWidth (mFS o.mode) ≤ 8)
    (hs : ∀ l, l < 16 → laneSpecial (streamBlock o g) (streamScale o g) (laneScale x o.mode l b) (stationary x o.mode l b) = false)
    (hd : ∀ l, l < 16 → laneShift x o.mode b l ≤ 16) (ha : streamSour o g = false)
    (hl : ∀ l, l < 16 → laneSour x l (b * blockBytes o.mode) (blockBytes o.mode) = false ∧ (mSCS o.mode && look false x.ssour l) = false) :
    (doBlock x o g upset accs).rowchk = decide (checkSide x o g b upset ≠ laneSide x o g b upset) := by
  subst hb
  have hspecial := any_range_eq_false hs
  have hspread := any_range_eq_false (p := fun l => decide (16 < laneShift x o.mode (o.b0 + g % o.kb) l))
    fun l h => decide_eq_false (Nat.not_lt.mpr (hd l h))
  have hsour := any_range_eq_false
    (p := fun l => laneSour x l ((o.b0 + g % o.kb) * blockBytes o.mode) (blockBytes o.mode) || mSCS o.mode && look false x.ssour l)
    fun l h => by rw [(hl l h).1, (hl l h).2]; rfl
  unfold laneShift at hspread
  simp only [doBlock, if_neg (Nat.not_lt.mpr hw), hc, ha, List.map_map, Function.comp_def, zip_map_range, List.zip_map', List.any_map, List.foldl_map, id,
    hspecial, hspread, Bool.false_or, hsour, Bool.and_false, Bool.not_false, Bool.and_true, Bool.true_and, laneSum, foldl_add_range,
    laneSide, checkSide, laneShift, ← checkColumn_eq]
  refine congrArg (fun c => decide (c + upset.getD 16 0 ≠ _)) (List.foldl_ext _ _ _ fun acc y _ => ?_)
  cases y with
  | mk v j =>
    cases v with
    | fin neg m e => rfl
    | nan => simp [Num.units]
    | inf neg => simp [Num.units]

/-! ## The two sides agree (R66, R67) -/

theorem laneSpecial_false {a : List Num} {ea ei : Nat} {w : List (List Num)} (h : laneSpecial a ea ei w = false) :
    (∀ x ∈ a, x.isFin = true) ∧ ∀ ys ∈ w, ∀ y ∈ ys, y.isFin = true := by
  simp only [laneSpecial, Bool.or_eq_false_iff, List.any_eq_false, Bool.not_eq_true, Bool.not_eq_false'] at h
  obtain ⟨⟨⟨ha, hw⟩, -⟩, -⟩ := h
  exact ⟨ha, hw⟩

theorem modeOk_codes {m : W32} (h : modeOk m = true) : mFS m ≤ 10 ∧ mFA m ≤ 10 := by
  simp only [modeOk, modeCodesOk, Bool.and_eq_true, decide_eq_true_eq] at h
  tauto

theorem laneValues_codes (x : Mx) (m : W32) (b i : Nat) {j : Nat} (hj : j < 32) :
    ∃ l : List Nat, l.length ≤ 16 ∧ laneValues x m b i j = l.map (decodeNum (mFS m)) := by
  simp only [laneValues, stationary]
  split
  · rw [getD_map_range _ _ hj]
    refine ⟨_, ?_, (List.map_map (g := decodeNum (mFS m)) (f := elemAt _ _)).symm⟩
    rw [List.length_map]
    exact (List.length_filter_le ..).trans_eq List.length_range
  · rw [getD_map_range _ _ hj]
    exact ⟨[_], by simp, rfl⟩

/-- A lane off the special path holds narrow values at each position, at most 16 of them. -/
theorem narrow_laneValues {x : Mx} {m : W32} {a : List Num} {ea ei b i j : Nat} (hm : modeOk m = true) (hw : fmtWidth (mFS m) ≤ 8)
    (h : laneSpecial a ea ei (stationary x m i b) = false) (hj : j < 32) :
    (laneValues x m b i j).length ≤ 16 ∧ ∀ y ∈ laneValues x m b i j, y.Narrow := by
  have hfin := (laneSpecial_false h).2
  rw [stationary_eq] at hfin
  have hfin := hfin _ (List.mem_map_of_mem (List.mem_range.mpr hj))
  obtain ⟨l, hl, e⟩ := laneValues_codes x m b i hj
  rw [e] at hfin ⊢
  refine ⟨(List.length_map ..).trans_le hl, fun y hy => ?_⟩
  obtain ⟨c, -, rfl⟩ := List.mem_map.mp hy
  exact narrow_decodeNum c (modeOk_codes hm).1 hw (hfin _ hy)

theorem narrow_streamElem {o : MacOp} {ea ei g j : Nat} {w : List (List Num)} (hm : modeOk o.mode = true) (hw : fmtWidth (mFA o.mode) ≤ 8)
    (h : laneSpecial (streamBlock o g) ea ei w = false) (hj : j < 32) : (streamElem o g j).Narrow := by
  have hfin := (laneSpecial_false h).1
  rw [streamBlock_eq] at hfin
  have hfin := hfin _ (List.mem_map_of_mem (List.mem_range.mpr hj))
  obtain ⟨c, e⟩ : ∃ c, streamElem o g j = decodeNum (mFA o.mode) c := ⟨_, getD_map_range _ _ hj⟩
  rw [e] at hfin ⊢
  exact narrow_decodeNum c (modeOk_codes hm).2 hw hfin

/-- The products of one streaming value with the stationary values at its position. -/
theorem unitSum_map_mul {v : Num} {l : List Num} (hv : v.Narrow) (hl : ∀ y ∈ l, y.Narrow) : unitSum 32 (l.map v.mul) = v.units 16 * unitSum 16 l := by
  rw [unitSum_eq_sum, unitSum_eq_sum, List.map_map, ← List.sum_map_mul_left]
  exact congrArg List.sum (List.map_congr_left fun y hy => hv.units_mul (hl y hy))

theorem unitSum_laneProducts {n : Nat} {v : Nat → Num} {l : Nat → List Num} (hv : ∀ j, j < n → (v j).Narrow) (hl : ∀ j, j < n → ∀ y ∈ l j, y.Narrow) :
    unitSum 32 (laneProducts ((List.range n).map v) ((List.range n).map l)) = ∑ j ∈ Finset.range n, (v j).units 16 * unitSum 16 (l j) := by
  rw [laneProducts, List.zipWith_map, List.zipWith_self, unitSum_eq_sum, List.map_flatten, List.sum_flatten, List.map_map, List.map_map, ← sum_range_map]
  refine congrArg List.sum (List.map_congr_left fun j hj => ?_)
  have hj := List.mem_range.mp hj
  exact (unitSum_eq_sum ..).symm.trans (unitSum_map_mul (hv j hj) (hl j hj))

theorem abs_unitSum_le {l : List Num} (h : ∀ y ∈ l, y.Narrow) : |unitSum 16 l| ≤ l.length * 2 ^ 34 := by
  rw [unitSum_eq_sum]
  induction l with
  | nil => simp
  | cons y l ih =>
    have hy := (h y List.mem_cons_self).abs_units_le
    have hl := ih fun z hz => h z (List.mem_cons_of_mem _ hz)
    rw [List.map_cons, List.sum_cons, List.length_cons]
    have := abs_add_le (y.units 16) (l.map (Num.units 16)).sum
    push_cast
    linarith

/-- The sum a check weight holds (R66). -/
def weightSum (x : Mx) (m : W32) (b j : Nat) : Int := ∑ i ∈ Finset.range 16, 2 ^ laneShift x m b i * unitSum 16 (laneValues x m b i j)

theorem checkWeight_eq (x : Mx) (m : W32) (b j : Nat) : checkWeight (blockLanes x m b) j = BitVec.ofInt 64 (weightSum x m b j) := by
  rw [checkWeight, blockLanes, List.map_map, List.foldl_map, foldl_add_range]
  rfl

/-- Sixteen lanes of at most 16 values, shifted by at most 16, keep a check weight within 64 bits. -/
theorem toInt_checkWeight {x : Mx} {m : W32} {b j : Nat} (hd : ∀ i, i < 16 → laneShift x m b i ≤ 16)
    (hn : ∀ i, i < 16 → (laneValues x m b i j).length ≤ 16 ∧ ∀ y ∈ laneValues x m b i j, y.Narrow) :
    (checkWeight (blockLanes x m b) j).toInt = weightSum x m b j := by
  have hterm : ∀ i ∈ Finset.range 16, |2 ^ laneShift x m b i * unitSum 16 (laneValues x m b i j)| ≤ 2 ^ 54 := by
    intro i hi
    have hi := Finset.mem_range.mp hi
    obtain ⟨hl, hv⟩ := hn i hi
    have hp : (2 : Int) ^ laneShift x m b i ≤ 2 ^ 16 := pow_le_pow_right₀ (by decide) (hd i hi)
    have hu : |unitSum 16 (laneValues x m b i j)| ≤ 2 ^ 38 := (abs_unitSum_le hv).trans (by
      have : ((laneValues x m b i j).length : Int) ≤ 16 := by exact_mod_cast hl
      linarith)
    rw [abs_mul, abs_of_nonneg (by positivity)]
    exact (mul_le_mul hp hu (abs_nonneg _) (by positivity)).trans (by norm_num)
  have hsum : |weightSum x m b j| ≤ 2 ^ 58 :=
    (Finset.abs_sum_le_sum_abs ..).trans ((Finset.sum_le_card_nsmul _ _ _ hterm).trans (by norm_num))
  obtain ⟨hlo, hhi⟩ := abs_le.mp hsum
  rw [checkWeight_eq, BitVec.toInt_ofInt]
  exact Int.bmod_eq_of_le (by norm_num; omega) (by norm_num; omega)

/-- An error of one lane alone, as what a fault adds. -/
theorem getD_singleError (i k : Nat) (d : Int) : (List.replicate i 0 ++ [d]).getD k 0 = if k = i then d else 0 := by
  rw [List.getD_eq_getElem?_getD]
  rcases lt_trichotomy k i with h | h | h
  · rw [List.getElem?_append_left (by simpa using h), List.getElem?_replicate_of_lt h, if_neg h.ne]
    rfl
  · subst h
    simp
  · rw [List.getElem?_eq_none (by simpa using h), if_neg h.ne']
    rfl

/-! ## What the check finds (R66, R67, R69) -/

section
variable {x : Mx} {o : MacOp} {g b : Nat} (hm : modeOk o.mode = true) (hs8 : fmtWidth (mFS o.mode) ≤ 8) (ha8 : fmtWidth (mFA o.mode) ≤ 8)
  (hcheck : ∀ j, j < 32 → look 0 x.check (32 * b + j) = checkWeight (blockLanes x o.mode b) j)
  (hs : ∀ l, l < 16 → laneSpecial (streamBlock o g) (streamScale o g) (laneScale x o.mode l b) (stationary x o.mode l b) = false)
  (hd : ∀ l, l < 16 → laneShift x o.mode b l ≤ 16)
include hm hs8 ha8 hcheck hs hd

/-- The sums over lanes and over elements agree, in either order: the sides differ by what a fault adds. -/
theorem laneSide_eq (upset : List Int) :
    laneSide x o g b upset = checkSide x o g b upset - upset.getD 16 0 + ∑ i ∈ Finset.range 16, 2 ^ laneShift x o.mode b i * upset.getD i 0 := by
  have hstream : ∀ j, j < 32 → (streamElem o g j).Narrow := fun j hj => narrow_streamElem hm ha8 (hs 0 (by decide)) hj
  have hvalues := fun i (hi : i < 16) j (hj : j < 32) => narrow_laneValues hm hs8 (hs i hi) hj
  have hlane : ∀ i ∈ Finset.range 16, unitSum 32 (laneProducts (streamBlock o g) (stationary x o.mode i b))
      = ∑ j ∈ Finset.range 32, (streamElem o g j).units 16 * unitSum 16 (laneValues x o.mode b i j) := fun i hi => by
    rw [streamBlock_eq, stationary_eq]
    exact unitSum_laneProducts hstream fun j hj => (hvalues i (Finset.mem_range.mp hi) j hj).2
  have hcol : ∀ j ∈ Finset.range 32, (look 0 x.check (32 * b + j)).toInt = weightSum x o.mode b j := fun j hj => by
    have hj := Finset.mem_range.mp hj
    rw [hcheck j hj, toInt_checkWeight hd fun i hi => hvalues i hi j hj]
  have hswap : ∑ i ∈ Finset.range 16, 2 ^ laneShift x o.mode b i * ∑ j ∈ Finset.range 32, (streamElem o g j).units 16 * unitSum 16 (laneValues x o.mode b i j)
      = ∑ j ∈ Finset.range 32, (streamElem o g j).units 16 * weightSum x o.mode b j := by
    simp only [weightSum, Finset.mul_sum]
    rw [Finset.sum_comm]
    exact Finset.sum_congr rfl fun j _ => Finset.sum_congr rfl fun i _ => mul_left_comm ..
  simp only [laneSide, checkSide, mul_add, Finset.sum_add_distrib]
  rw [Finset.sum_congr rfl fun i hi => congrArg (2 ^ laneShift x o.mode b i * ·) (hlane i hi), hswap,
    Finset.sum_congr rfl fun j hj => congrArg ((streamElem o g j).units 16 * ·) (hcol j hj)]
  ring

theorem sides_agree : checkSide x o g b [] = laneSide x o g b [] := by
  rw [laneSide_eq hm hs8 ha8 hcheck hs hd]
  simp

theorem sides_differ {i : Nat} {d : Int} (hi : i < 16) (hne : d ≠ 0) :
    checkSide x o g b (List.replicate i 0 ++ [d]) ≠ laneSide x o g b (List.replicate i 0 ++ [d]) := by
  rw [laneSide_eq hm hs8 ha8 hcheck hs hd]
  simp only [getD_singleError, mul_ite, mul_zero, Finset.sum_ite_eq', Finset.mem_range, if_pos hi, if_neg (show ¬ 16 = i by omega), sub_zero]
  have : (2 : Int) ^ laneShift x o.mode b i * d ≠ 0 := mul_ne_zero (by positivity) hne
  omega

end
end Sys2Proof.Machine

open Sys2Proof Sys2Proof.Machine

/-- Settles O7: the lane sums and the check column are one double sum taken in either order, exact and within 64 bits, and they differ by
2 ^ d_i times the error of lane i. -/
theorem rowCheckFindsEverySingleLaneError : Obligations.RowCheckFindsEverySingleLaneError := by
  intro x o accs g b i d hb hm hc hs8 ha8 _ hi hcheck hs hd ha hl
  have hrow := fun upset => doBlock_rowchk (accs := accs) upset hb hc hs8 hs hd ha hl
  refine ⟨?_, fun hne => ?_⟩
  · rw [hrow, sides_agree hm hs8 ha8 hcheck hs hd]
    exact decide_eq_false (not_not_intro rfl)
  · rw [hrow]
    exact decide_eq_true (sides_differ hm hs8 ha8 hcheck hs hd hi hne)
end

section
/-! SUPPORT. What an SF instruction on a free unit does (R154, R170-R172): what it may change, and the results it has pending. -/
namespace Sys2Proof.Machine

/-! ## The units (R170, R172) -/

section
variable (f : Sf) (u : SfUnit) (t : Nat)

@[simp] theorem hold_wb : (f.hold u t).wb = f.wb := by cases u <;> rfl
@[simp] theorem hold_seq : (f.hold u t).seq = f.seq := by cases u <;> rfl
@[simp] theorem sfV_hold (k : Nat) : sfV (f.hold u t) k = sfV f k := by cases u <;> rfl
@[simp] theorem sfS_hold (k : Nat) : sfS (f.hold u t) k = sfS f k := by cases u <;> rfl
@[simp] theorem sfP_hold (k : Nat) : sfP (f.hold u t) k = sfP f k := by cases u <;> rfl
@[simp] theorem sfB_hold (w : W64) : sfB (f.hold u t) w = sfB f w := by cases u <;> rfl
@[simp] theorem topList_hold : topList (f.hold u t) = topList f := by cases u <;> rfl

end

/-! ## What an SF instruction may change -/

section
variable {code n : Nat} {r q : State}

theorem onlySf.modSf {g : Sf → Sf} (h : onlySf code n r q) : onlySf code n r (modSf n g q) := by
  obtain ⟨hr, hsf, hsw, hc⟩ := h
  refine ⟨?_, fun m hm => (sfAt_modSf_ne _ _ _ _ hm).trans (hsf m hm), hsw, hc⟩
  rw [hr]
  rfl

theorem onlySf.count {k : Nat} (h : onlySf code n r q) : onlySf code n r (count code n k q) := by
  obtain ⟨hr, hsf, hsw, hc⟩ := h
  refine ⟨?_, hsf, hsw, fun j hj => ?_⟩
  · rw [hr]
    rfl
  · exact (look_alter_ne _ _ _ _ (· + k) hj).trans (hc j hj)

theorem onlySf.excUp (r : State) : onlySf code n r (excUp n 3 1 r) := ⟨rfl, fun _ _ => rfl, sameSwitches_excUp n 3 1 r, fun _ _ => rfl⟩

theorem onlySf.now_eq (h : onlySf code n r q) : q.now = r.now := by
  rw [h.1]

end

/-- From r to q only SF site n differs, exact-mode counts and the count of a code there: the site is f with the results l pending too. -/
def SfPends (code n : Nat) (r q : State) (f : Sf) (l : List SfWb) : Prop := onlySf code n r q ∧ sfAt q n = { f with wb := f.wb ++ l }

section
variable {code n : Nat} {r q : State} {f : Sf} {l : List SfWb}

/-- A result that clashes with none due becomes pending (R154, R172). -/
theorem SfPends.sfResult {lat : Nat} {dst : SfDst} {mask : W32} {val : Vec} (h : SfPends code n r q f l) (hf : sfNoClash f r lat dst)
    (hl : ∀ x ∈ l, x.dst ≠ dst) : SfPends code n r (sfResult n lat dst mask val q) f (l ++ [sfPending r lat dst mask val]) := by
  obtain ⟨hq, hx⟩ := h
  have hclash : ((sfAt q n).wb.any fun x => decide (x.due = q.now + lat - 1) && decide (x.dst = dst)) = false := by
    rw [hx, hq.now_eq]
    refine List.any_eq_false.mpr fun x hm => ?_
    rcases List.mem_append.mp hm with hm | hm
    · simpa using hf x hm
    · simp [hl x hm]
  rw [Machine.sfResult, hclash, Bool.and_false, if_neg Bool.false_ne_true]
  refine ⟨hq.modSf, ?_⟩
  rw [sfAt_modSf_self, hx, hq.now_eq, ← List.append_assoc]
  rfl

/-- Only a NaN count changes beside the site. -/
theorem SfPends.countNan {k : Nat} (h : SfPends 0x1302 n r q f l) : SfPends 0x1302 n r (countNan n k q) f l := by
  unfold Machine.countNan
  split
  · exact h
  · exact ⟨h.1.count, h.2⟩

/-- The next word follows (R154). -/
theorem SfPends.sfNext {u : SfUnit} {busy : Nat} (h : SfPends code n r q (f.hold u (r.now + busy)) l) :
    onlySf code n r (sfNext n 1 q) ∧ sfAt (sfNext n 1 q) n = sfAfter f r u busy l := by
  obtain ⟨hq, hx⟩ := h
  refine ⟨hq.modSf, (sfAt_modSf_self ..).trans ?_⟩
  rw [hx, hq.now_eq]
  simp only [hold_wb, hold_seq, sfAfter]

end

/-- An instruction on a free unit holds it, has its results pending, and the next word follows (R154, R170). -/
theorem sfUnit_ends {code op busy n : Nat} {u : SfUnit} {w : W64} {s : State} {g : State → State} {l : List SfWb}
    (hi : sfCanIssue n w s) (ho : wOp w = op) (ht : (sfAt (sfAtIssue n s) n).till u ≤ (sfAtIssue n s).now)
    (hg : ∀ q, SfPends code n (sfAtIssue n s) q ((sfAt (sfAtIssue n s) n).hold u ((sfAtIssue n s).now + busy)) [] →
      SfPends code n (sfAtIssue n s) (g q) ((sfAt (sfAtIssue n s) n).hold u ((sfAtIssue n s).now + busy)) l) :
    sfEnds code (sfUnit op u busy n w g s) n (sfAtIssue n s) (sfAfter (sfAt (sfAtIssue n s) n) (sfAtIssue n s) u busy l) := by
  have hfree : ¬ (excUp n 3 1 (sfAtIssue n s)).now < (sfAt (excUp n 3 1 (sfAtIssue n s)) n).till u := Nat.not_lt.mpr ht
  rw [sfUnit, sfIssue_run hi ho, if_neg hfree]
  refine ⟨_, rfl, (hg _ ⟨(onlySf.excUp _).modSf, (sfAt_modSf_self ..).trans ?_⟩).sfNext⟩
  rw [List.append_nil]
  rfl

/-- The operands of an instruction are those of the site at its issue. -/
theorem SfPends.start {code n : Nat} {r q : State} {f : Sf} (h : SfPends code n r q f []) : sfAt q n = f := by
  rw [h.2, List.append_nil]

end Sys2Proof.Machine
end

section
/-! The lane-by-lane SF instructions (R71, R73, R170, R171): O9. -/
namespace Sys2Proof.Machine

/-! ## Lane-by-lane instructions (R71, R73, R170, R171) -/

/-- The command of a lane-by-lane word runs sfLanes with the word's row, counting NaNs or not. -/
def RunsLanes (l : LaneWord) : Prop :=
  ∃ fp, ∀ (n : Nat) (w : W64) (s : State), exec (l.cmd n w) s = sfLanes l.op l.unit l.busy l.lat l.reads fp l.lane n w s

theorem runsLanes_laneWords : ∀ l ∈ laneWords, RunsLanes l := by
  simp only [laneWords, List.cons_append, List.nil_append, List.forall_mem_cons, List.not_mem_nil, IsEmpty.forall_iff, implies_true, and_true]
  and_intros
  all_goals exact ⟨_, fun _ _ _ => rfl⟩

theorem laneWords_reads : ∀ l ∈ laneWords, l.reads = 1 ∨ l.reads = 2 ∨ l.reads = 3 := by decide

/-- The marks of the operands an instruction reads (R171). -/
theorem sour_take (k : Nat) (a b c : Vec) (hk : k = 1 ∨ k = 2 ∨ k = 3) : ([a, b, c].take k).foldl (fun x v => x ||| v.sour) 0
    = if k = 1 then a.sour else if k = 2 then a.sour ||| b.sour else a.sour ||| b.sour ||| c.sour := by
  rcases hk with rfl | rfl | rfl <;> simp

theorem sfLanes_ends {op busy lat k n : Nat} {u : SfUnit} {fp : Bool} {g : W32 → W32 → W32 → W32} {w : W64} {s : State}
    (hi : sfCanIssue n w s) (ho : wOp w = op) (ht : (sfAt (sfAtIssue n s) n).till u ≤ (sfAtIssue n s).now)
    (hc : sfNoClash (sfAt (sfAtIssue n s) n) (sfAtIssue n s) lat (.v (sfVD w))) (hk : k = 1 ∨ k = 2 ∨ k = 3) :
    let r := sfAtIssue n s
    let f := sfAt r n
    let a := sfV f (sfVA w)
    let b := sfB f w
    let c := sfV f (sfVC w)
    sfEnds 0x1302 (sfLanes op u busy lat k fp g n w s) n r (sfAfter f r u busy [sfPending r lat (.v (sfVD w)) (sfP f (sfPM w))
      { data := ofLanes ((List.range 32).map fun i => g (laneOf a.data i) (laneOf b.data i) (laneOf c.data i))
        sour := if k = 1 then a.sour else if k = 2 then a.sour ||| b.sour else a.sour ||| b.sour ||| c.sour }]) := by
  refine sfUnit_ends hi ho ht fun q hq => ?_
  simp only [hq.start, sfV_hold, sfB_hold, sfMask, sfP_hold, sour_take _ _ _ _ hk]
  refine SfPends.sfResult (l := []) ?_ (by rw [sfNoClash, hold_wb]; exact hc) (List.forall_mem_nil _)
  split
  · exact hq.countNan
  · exact hq

end Sys2Proof.Machine

open Sys2Proof Sys2Proof.Machine

/-- Settles O9: each word of the table runs sfLanes with its row. -/
theorem sfLaneWordsComplete : Obligations.SfLaneWordsComplete := by
  intro l hl n w s hi ho r f a b c ht hc
  obtain ⟨fp, hrun⟩ := runsLanes_laneWords l hl
  rw [hrun]
  exact sfLanes_ends hi ho ht hc (laneWords_reads l hl)
end

section
/-! SF reductions, permutes, HASH, RNG, SORTCX, TOPKI and TOPK (R73, R74, R170-R176): O11. -/
namespace Sys2Proof.Machine

/-! ## Across the lanes (R74, R171) -/

theorem sfReduce_ends {op busy lat n : Nat} {u : SfUnit} {ident : W32} {g : W32 → W32 → W32} {fin : W32 → W32} {w : W64} {s : State}
    (hi : sfCanIssue n w s) (ho : wOp w = op) (ht : (sfAt (sfAtIssue n s) n).till u ≤ (sfAtIssue n s).now)
    (hc : sfNoClash (sfAt (sfAtIssue n s) n) (sfAtIssue n s) lat (.v (sfVD w))) :
    let r := sfAtIssue n s
    let f := sfAt r n
    let a := sfV f (sfVA w)
    sfEnds 0x1302 (sfReduce op u busy lat ident g fin n w s) n r (sfAfter f r u busy [sfPending r lat (.v (sfVD w)) (BitVec.allOnes 32)
      { vecAll (fin (tree g ((List.range 32).map fun i => if bit (sfP f (sfPM w)).toNat i then laneOf a.data i else ident))) with sour := anySour a.sour }]) := by
  refine sfUnit_ends hi ho ht fun q hq => ?_
  simp only [hq.start, sfV_hold, sfMask, sfP_hold]
  exact hq.countNan.sfResult (by rwa [sfNoClash, hold_wb]) (List.forall_mem_nil _)

/-- An instruction on a free unit with one result, a function of the site at its issue. -/
theorem sfUnit_ends_one {op busy lat n : Nat} {u : SfUnit} {w : W64} {s : State} {g : State → State} {dst : SfDst} {mask : W32} {val : Vec}
    (hi : sfCanIssue n w s) (ho : wOp w = op) (ht : (sfAt (sfAtIssue n s) n).till u ≤ (sfAtIssue n s).now)
    (hc : sfNoClash (sfAt (sfAtIssue n s) n) (sfAtIssue n s) lat dst)
    (hg : ∀ q, sfAt q n = (sfAt (sfAtIssue n s) n).hold u ((sfAtIssue n s).now + busy) → g q = sfResult n lat dst mask val q) :
    sfEnds 0 (sfUnit op u busy n w g s) n (sfAtIssue n s)
      (sfAfter (sfAt (sfAtIssue n s) n) (sfAtIssue n s) u busy [sfPending (sfAtIssue n s) lat dst mask val]) := by
  refine sfUnit_ends hi ho ht fun q hq => ?_
  rw [hg q hq.start]
  exact hq.sfResult (by rwa [sfNoClash, hold_wb]) (List.forall_mem_nil _)

/-! ## The order of TOPK (R176) -/

/-- The place of a pair in the order of TOPK, best first: by key, then by index. -/
def topRank (uint small : Bool) (a : W32 × W32) : Int ×ₗ Nat := toLex (if small then keyRank uint a.1 else -keyRank uint a.1, a.2.toNat)

theorem topBetter_eq (uint small : Bool) (a b : W32 × W32) : topBetter uint small a b = decide (topRank uint small a < topRank uint small b) := by
  simp only [topRank, Prod.Lex.toLex_lt_toLex, topBetter]
  cases small <;> simp

section
variable (uint small : Bool)

theorem topInsert_perm (x : W32 × W32) (l : List (W32 × W32)) : (topInsert uint small x l).Perm (x :: l) := by
  induction l with
  | nil => exact .refl _
  | cons y l ih =>
    unfold topInsert
    split
    · exact .refl _
    · exact (ih.cons y).trans (.swap x y l)

theorem topInsert_sorted {x : W32 × W32} {l : List (W32 × W32)} (h : l.Pairwise fun a b => topRank uint small a ≤ topRank uint small b) :
    (topInsert uint small x l).Pairwise fun a b => topRank uint small a ≤ topRank uint small b := by
  induction l with
  | nil => exact List.pairwise_singleton ..
  | cons y l ih =>
    obtain ⟨hy, hl⟩ := List.pairwise_cons.mp h
    simp only [topInsert, topBetter_eq, decide_eq_true_eq]
    split
    · next hx => exact List.pairwise_cons.mpr ⟨List.forall_mem_cons.mpr ⟨hx.le, fun z hz => hx.le.trans (hy z hz)⟩, h⟩
    · next hx =>
      refine List.pairwise_cons.mpr ⟨fun z hz => ?_, ih hl⟩
      rcases List.mem_cons.mp ((topInsert_perm uint small x l).mem_iff.mp hz) with rfl | hz
      · exact not_lt.mp hx
      · exact hy z hz

/-- Pairs in the order in which TOPK inserts them. -/
def topSorted (l : List (W32 × W32)) : List (W32 × W32) := l.foldl (fun l x => topInsert uint small x l) []

theorem topSorted_concat (l : List (W32 × W32)) (x : W32 × W32) :
    topSorted uint small (l ++ [x]) = topInsert uint small x (topSorted uint small l) := List.foldl_concat ..

theorem topSorted_perm (l : List (W32 × W32)) : (topSorted uint small l).Perm l := by
  induction l using List.reverseRecOn with
  | nil => exact .refl _
  | append_singleton l x ih =>
    rw [topSorted_concat]
    exact (topInsert_perm ..).trans ((ih.cons x).trans (List.perm_append_singleton x l).symm)

theorem topSorted_sorted (l : List (W32 × W32)) : (topSorted uint small l).Pairwise fun a b => topRank uint small a ≤ topRank uint small b := by
  induction l using List.reverseRecOn with
  | nil => exact .nil
  | append_singleton l x ih =>
    rw [topSorted_concat]
    exact topInsert_sorted _ _ ih

end

/-- A list of at most 64 pairs with empty positions behind it. -/
def topFill (l : List (W32 × W32)) : List (W32 × W32) := l ++ List.replicate (64 - l.length) emptyPos

section
variable {uint small : Bool} {k : Nat} {l : List (W32 × W32)}

theorem topFill_length (h : l.length ≤ 64) : (topFill l).length = 64 := by
  rw [topFill, List.length_append, List.length_replicate]
  omega

theorem mem_topFill {x : W32 × W32} (h : x ∈ topFill l) : x ∈ l ∨ x = emptyPos :=
  (List.mem_append.mp h).imp_right List.eq_of_mem_replicate

theorem topFill_entries (h : ∀ x ∈ l, x ≠ emptyPos) : (topFill l).filter (fun y => decide (y ≠ emptyPos)) = l := by
  rw [topFill, List.filter_append, List.filter_eq_self.mpr (by simpa using h), List.filter_eq_nil_iff.mpr (by simp), List.append_nil]

theorem topFill_sorted (h : l.Pairwise fun a b => topRank uint small a ≤ topRank uint small b) :
    (topFill l).Pairwise fun a b => topBetter uint small b a = false ∨ b = emptyPos := by
  refine List.pairwise_append.mpr ⟨h.imp fun hab => .inl ?_, List.pairwise_replicate.mpr (.inr (.inr rfl)), fun a _ b hb => .inr (List.eq_of_mem_replicate hb)⟩
  rw [topBetter_eq]
  exact decide_eq_false (not_lt.mpr hab)

/-- Of the entries, an unlisted one is no better than any of the k that are listed (R176). -/
theorem mem_take_topSorted_or {x : W32 × W32} (hx : x ∈ l) :
    x ∈ (topSorted uint small l).take k
      ∨ (k ≤ ((topSorted uint small l).take k).length ∧ ∀ y ∈ (topSorted uint small l).take k, topBetter uint small x y = false) := by
  have hs := topSorted_sorted uint small l
  have hmem := (topSorted_perm uint small l).mem_iff.mpr hx
  rw [← List.take_append_drop k (topSorted uint small l)] at hs hmem
  refine (List.mem_append.mp hmem).imp_right fun hd => ⟨?_, fun y hy => ?_⟩
  · have := List.length_pos_of_mem hd
    rw [List.length_drop] at this
    rw [List.length_take]
    omega
  · rw [topBetter_eq]
    exact decide_eq_false (not_lt.mpr ((List.pairwise_append.mp hs).2.2 y hy x hd))

end

/-! ## The list held in v24-v27 (R176) -/

/-- Results to registers of which no two are one become pending one after another. -/
theorem SfPends.each_sfResult {code n lat : Nat} {mask : W32} {r q : State} {f : Sf} {l : List SfWb} {L : List (Nat × Vec)} (h : SfPends code n r q f l)
    (hc : ∀ x ∈ L, sfNoClash f r lat (.v x.1)) (hL : L.Pairwise fun x y => x.1 ≠ y.1) (hl : ∀ x ∈ L, ∀ y ∈ l, y.dst ≠ .v x.1) :
    SfPends code n r (each L (fun x => Machine.sfResult n lat (.v x.1) mask x.2) q) f (l ++ L.map fun x => sfPending r lat (.v x.1) mask x.2) := by
  induction L generalizing q l with
  | nil => rwa [List.map_nil, List.append_nil]
  | cons x L ih =>
    obtain ⟨hx, hL⟩ := List.pairwise_cons.mp hL
    obtain ⟨hcx, hc⟩ := List.forall_mem_cons.mp hc
    obtain ⟨hlx, hl⟩ := List.forall_mem_cons.mp hl
    rw [List.map_cons, List.append_cons]
    refine ih (h.sfResult hcx hlx) hc hL fun y hy => List.forall_mem_append.mpr ⟨hl y hy, List.forall_mem_singleton.mpr fun e => ?_⟩
    exact hx y hy (SfDst.v.inj e)

/-- The registers of a list of 64 positions, with what TOPK and TOPKI write to them. -/
def topRows (l : List (W32 × W32)) : List (Nat × List W32) :=
  [(24, (l.take 32).map Prod.fst), (26, (l.take 32).map Prod.snd), (25, (l.drop 32).map Prod.fst), (27, (l.drop 32).map Prod.snd)]

theorem topRows_empty : topRows (List.replicate 64 emptyPos) = [(24, List.replicate 32 0xFF800000#32), (26, List.replicate 32 0xFFFFFFFF#32),
    (25, List.replicate 32 0xFF800000#32), (27, List.replicate 32 0xFFFFFFFF#32)] := by
  simp only [topRows, List.take_replicate, List.drop_replicate, List.map_replicate, emptyPos]
  rfl

theorem topWrite_eq {l : List (W32 × W32)} (hl : l.length = 64) (n lat : Nat) (sour : Byte) (q : State) :
    topWrite n lat l sour q = each ((topRows l).map fun x => (x.1, { data := ofLanes x.2, sour := sour }))
      (fun x => sfResult n lat (.v x.1) (BitVec.allOnes 32) x.2) q := by
  have hd : (l.drop 32).take 32 = l.drop 32 := List.take_of_length_le (by rw [List.length_drop, hl])
  have e : (l.drop (32 * 1)).take 32 = l.drop 32 := hd
  simp only [topWrite, each, List.foldl_cons, List.foldl_nil, e, topRows, List.map_cons, List.map_nil]
  rfl

theorem SfPends.topWrite {n lat : Nat} {l : List (W32 × W32)} {sour : Byte} {r q : State} {f : Sf} (h : SfPends 0 n r q f []) (hl : l.length = 64)
    (hc : ∀ v, 24 ≤ v → v ≤ 27 → sfNoClash f r lat (.v v)) :
    SfPends 0 n r (topWrite n lat l sour q) f ((topRows l).map fun x => sfPending r lat (.v x.1) (BitVec.allOnes 32) { data := ofLanes x.2, sour := sour }) := by
  rw [topWrite_eq hl]
  have hrows : ∀ x ∈ (topRows l).map fun x => ((x.1, { data := ofLanes x.2, sour := sour }) : Nat × Vec), 24 ≤ x.1 ∧ x.1 ≤ 27 := by
    simp [topRows]
  have hne : ((topRows l).map fun x => ((x.1, { data := ofLanes x.2, sour := sour }) : Nat × Vec)).Pairwise fun x y => x.1 ≠ y.1 := by
    simp [topRows]
  have := h.each_sfResult (lat := lat) (mask := BitVec.allOnes 32) (fun x hx => hc x.1 (hrows x hx).1 (hrows x hx).2) hne fun _ _ => List.forall_mem_nil _
  rwa [List.nil_append, List.map_map] at this

/-- The entries of TOPK: of the list held and of the new pairs of unmasked lanes, those that are not empty. -/
def topkEntries (f : Sf) (w : W64) : List (W32 × W32) :=
  (topList f ++ ((List.range 32).filter fun i => bit (sfP f (sfPM w)).toNat i).map fun i => (laneOf (sfV f (sfVA w)).data i, laneOf (sfB f w).data i)).filter
    fun x => decide (x ≠ emptyPos)

/-- The k best of them, best first. -/
def topkBest (f : Sf) (w : W64) : List (W32 × W32) :=
  (topSorted (bit w.toNat 8) (bit w.toNat 9) (topkEntries f w)).take (bits w.toNat 6 0)

/-- The list that TOPK writes. -/
def topkList (f : Sf) (w : W64) : List (W32 × W32) := topFill (topkBest f w)

theorem topkEntries_ne {f : Sf} {w : W64} {x : W32 × W32} (h : x ∈ topkEntries f w) : x ≠ emptyPos := of_decide_eq_true (List.mem_filter.mp h).2

theorem topkList_length {w : W64} (f : Sf) (h64 : bits w.toNat 6 0 ≤ 64) : (topkList f w).length = 64 :=
  topFill_length ((List.length_take_le ..).trans h64)

/-! ## SORTCX, TOPKI and TOPK (R175, R176) -/

section
variable {n : Nat} {w : W64} {s : State} (hi : sfCanIssue n w s)
include hi

theorem execSortcx_ends (ho : wOp w = 0x5A) (hj : bits w.toNat 4 0 ∈ [1, 2, 4, 8, 16]) (h1 : 1 ≤ bits w.toNat 7 5) (h5 : bits w.toNat 7 5 ≤ 5)
    (hv : sfVD w % 2 = 0) (ht : (sfAt (sfAtIssue n s) n).vecTill ≤ (sfAtIssue n s).now)
    (hc : sfNoClash (sfAt (sfAtIssue n s) n) (sfAtIssue n s) 4 (.v (sfVD w))) (hc' : sfNoClash (sfAt (sfAtIssue n s) n) (sfAtIssue n s) 4 (.v (sfVD w + 1))) :
    let r := sfAtIssue n s
    let f := sfAt r n
    let a := sfV f (sfVA w)
    let b := sfB f w
    let pairs := (List.range 32).map (sortLane (bit w.toNat 8) (bits w.toNat 4 0) (2 ^ bits w.toNat 7 5) fun i => (laneOf a.data i, laneOf b.data i))
    sfEnds 0 (execSortcx n w s) n r (sfAfter f r .vec 1
      [sfPending r 4 (.v (sfVD w)) (sfP f (sfPM w)) { data := ofLanes (pairs.map Prod.fst), sour := anySour (a.sour ||| b.sour) },
       sfPending r 4 (.v (sfVD w + 1)) (sfP f (sfPM w)) { data := ofLanes (pairs.map Prod.snd), sour := anySour (a.sour ||| b.sour) }]) := by
  have hcodes : ¬ ((!([1, 2, 4, 8, 16].contains (bits w.toNat 4 0)) || !within 1 5 (bits w.toNat 7 5) || decide (sfVD w % 2 = 1)) = true) := by
    simp [within, h1, h5, hv, hj]
  simp only [execSortcx, if_neg hcodes]
  refine sfUnit_ends hi ho ht fun q hq => ?_
  simp only [hq.start, sfV_hold, sfB_hold, sfMask, sfP_hold]
  have hkeys := fun mask val => hq.sfResult (dst := .v (sfVD w)) (mask := mask) (val := val) (by rwa [sfNoClash, hold_wb]) (List.forall_mem_nil _)
  exact (hkeys _ _).sfResult (by rwa [sfNoClash, hold_wb]) (by simp [sfPending])

theorem execTopki_ends (ho : wOp w = 0x5B) (ht : (sfAt (sfAtIssue n s) n).topTill ≤ (sfAtIssue n s).now)
    (hc : ∀ v, 24 ≤ v → v ≤ 27 → sfNoClash (sfAt (sfAtIssue n s) n) (sfAtIssue n s) 2 (.v v)) :
    sfEnds 0 (execTopki n w s) n (sfAtIssue n s) (sfAfter (sfAt (sfAtIssue n s) n) (sfAtIssue n s) .topk 1
      ([(24, 0xFF800000#32), (26, 0xFFFFFFFF#32), (25, 0xFF800000#32), (27, 0xFFFFFFFF#32)].map
        fun x : Nat × W32 => sfPending (sfAtIssue n s) 2 (.v x.1) (BitVec.allOnes 32) (vecAll x.2))) := by
  refine sfUnit_ends hi ho ht fun q hq => ?_
  have hw := hq.topWrite (lat := 2) (l := List.replicate 64 emptyPos) (sour := 0) List.length_replicate (by simpa only [sfNoClash, hold_wb] using hc)
  rw [topRows_empty] at hw
  exact hw

theorem execTopk_ends (ho : wOp w = 0x5C) (h1 : 1 ≤ bits w.toNat 6 0) (h64 : bits w.toNat 6 0 ≤ 64)
    (ht : (sfAt (sfAtIssue n s) n).topTill ≤ (sfAtIssue n s).now)
    (hc : ∀ v, 24 ≤ v → v ≤ 27 → sfNoClash (sfAt (sfAtIssue n s) n) (sfAtIssue n s) 10 (.v v)) :
    let r := sfAtIssue n s
    let f := sfAt r n
    sfEnds 0 (execTopk n w s) n r (sfAfter f r .topk 6 ((topRows (topkList f w)).map fun x => sfPending r 10 (.v x.1) (BitVec.allOnes 32)
      { data := ofLanes x.2, sour := anySour ([24, 25, 26, 27].foldl (fun y q => y ||| (sfV f q).sour) ((sfV f (sfVA w)).sour ||| (sfB f w).sour)) })) := by
  have hk : ¬ ((!within 1 64 (bits w.toNat 6 0)) = true) := by simp [within, h1, h64]
  simp only [execTopk, if_neg hk]
  refine sfUnit_ends hi ho ht fun q hq => ?_
  simp only [hq.start, sfV_hold, sfB_hold, sfMask, sfP_hold, topList_hold, ← List.filter_append]
  exact hq.topWrite (topkList_length _ h64) (by simpa only [sfNoClash, hold_wb] using hc)
end

end Sys2Proof.Machine

open Sys2Proof Sys2Proof.Machine

/-- Settles O11: each word runs on its free unit and has the results of its function pending. -/
theorem sfReductionsHashAndSort : Obligations.SfReductionsHashAndSort := by
  refine ⟨fun n w s hi => ⟨?sum, ?max, ?min, ?rsum, ?perm, ?bcast⟩, fun n w s hi => ⟨?hash, ?rng, ?sort, ?topki, ?topk⟩⟩
  case sum => exact fun ho ht hc => sfReduce_ends hi ho ht hc
  case max => exact fun ho ht hc => sfReduce_ends hi ho ht hc
  case min => exact fun ho ht hc => sfReduce_ends hi ho ht hc
  case rsum => exact fun ho ht hc => sfReduce_ends hi ho ht hc
  case perm =>
    intro ho ht hc
    change sfEnds 0 (execPerm n w s) n _ _
    exact sfUnit_ends_one hi ho ht hc fun q hq => by simp only [hq, sfV_hold, sfB_hold, sfMask, sfP_hold]
  case bcast =>
    intro ho ht hc
    change sfEnds 0 (execBcast n w s) n _ _
    exact sfUnit_ends_one hi ho ht hc fun q hq => by simp only [hq, sfV_hold, sfMask, sfP_hold]
  case hash =>
    intro ho hb ht hc
    change sfEnds 0 (execHash n w s) n _ _
    rw [execHash, hb, Bool.not_true, if_neg Bool.false_ne_true]
    exact sfUnit_ends_one hi ho ht hc fun q hq => by simp only [hq, sfV_hold, sfS_hold, sfMask, sfP_hold]
  case rng =>
    intro ho ht hc
    change sfEnds 0 (execRng n w s) n _ _
    exact sfUnit_ends_one hi ho ht hc fun q hq => by simp only [hq, sfS_hold, sfMask, sfP_hold]
  case sort => exact fun ho hj h1 h5 hv ht hc hc' => execSortcx_ends hi ho hj h1 h5 hv ht hc hc'
  case topki => exact fun ho ht hc => execTopki_ends hi ho ht hc
  case topk =>
    intro ho h1 h64 ht hc
    obtain ⟨t, he, hf, hx⟩ := execTopk_ends hi ho h1 h64 ht hc
    have hlen := topkList_length (w := w) (sfAt (sfAtIssue n s) n) h64
    have hsorted := topFill_sorted (l := topkBest (sfAt (sfAtIssue n s) n) w) ((topSorted_sorted ..).sublist (List.take_sublist ..))
    have hbest : ∀ x ∈ topkBest (sfAt (sfAtIssue n s) n) w, x ∈ topkEntries (sfAt (sfAtIssue n s) n) w := fun x hx =>
      (topSorted_perm ..).mem_iff.mp (List.mem_of_mem_take hx)
    have hfull := topFill_entries fun x hx => topkEntries_ne (hbest x hx)
    refine ⟨t, topkList (sfAt (sfAtIssue n s) n) w, he, hf, hlen, fun x hm => ((mem_topFill hm).imp_left (hbest x)).symm, fun x hm => ?best,
      fun i j hij hj _ => ?order, hx⟩
    case best =>
      refine (mem_take_topSorted_or hm).imp (List.mem_append_left _) fun ⟨hk, hy⟩ => ⟨?_, fun y hm hne => ?_⟩
      · exact hk.trans_eq (congrArg List.length hfull.symm)
      · exact hy y ((mem_topFill hm).resolve_right hne)
    case order =>
      rw [getElem!_pos _ i (by omega), getElem!_pos _ j (by omega)]
      exact List.pairwise_iff_getElem.mp hsorted i j _ _ hij
end

section
/-! OUT and OUTS (R64, R68, R167, R168): O6. -/
namespace Sys2Proof.Machine

/-! ## Accumulators (R62, R167) -/

theorem look_foldl_put_range {α : Type} [DecidableEq α] (d : α) (t : Tab α) (g : Nat → α) {e e' i : Nat} (n : Nat) (he : e < 256) (he' : e' < 256) :
    look d ((List.range n).foldl (fun t j => put d t (256 * j + e) (g j)) t) (256 * i + e') = if e' = e ∧ i < n then g i else look d t (256 * i + e') := by
  induction n with
  | zero => simp
  | succ n ih =>
    rw [List.range_succ, List.foldl_append, List.foldl_cons, List.foldl_nil, look_put, ih]
    by_cases h : e' = e
    · subst h
      rcases lt_trichotomy i n with hi | rfl | hi
      · rw [if_neg (by omega), if_pos ⟨rfl, hi⟩, if_pos ⟨rfl, by omega⟩]
      · rw [if_pos rfl, if_pos ⟨rfl, by omega⟩]
      · rw [if_neg (by omega), if_neg (by omega), if_neg (by omega)]
    · rw [if_neg (by omega), if_neg (by tauto), if_neg (by tauto)]

/-- The entries of an accumulator after a write of sixteen of them, and those of every other. -/
theorem accsAt_putAccs {e e' : Nat} {l : List Acc} (hl : l.length = 16) (he : e < 256) (he' : e' < 256) (x : Mx) :
    accsAt (putAccs e l x) e' = if e' = e then l else accsAt x e' := by
  have hmap : l = (List.range 16).map fun i => l.getD i default :=
    List.ext_getElem (by simp [hl]) fun i h1 _ => by simp [h1]
  have hlook : ∀ i, look default (putAccs e l x).acc (256 * i + e') = if e' = e ∧ i < 16 then l.getD i default else look default x.acc (256 * i + e') := fun i => by
    simp only [putAccs]
    conv_lhs => rw [hmap, zip_map_range, List.foldl_map]
    exact look_foldl_put_range _ _ _ _ he he'
  simp only [accsAt, hlook]
  split
  · next h =>
    conv_rhs => rw [hmap]
    exact List.map_congr_left fun i hi => if_pos ⟨h, List.mem_range.mp hi⟩
  · next h => exact List.map_congr_left fun i _ => if_neg fun hc => h hc.1

theorem putAccs_frame (e : Nat) (l : List Acc) (x : Mx) : putAccs e l x = { x with acc := (putAccs e l x).acc } := rfl

theorem zeroAccs_zero (e : Nat) (x : Mx) : zeroAccs e 0 x = x := rfl

theorem zeroAccs_succ (e k : Nat) (x : Mx) : zeroAccs e (k + 1) x = putAccs (e + k) (List.replicate 16 default) (zeroAccs e k x) := by
  simp only [zeroAccs, List.range_succ, List.foldl_append, List.foldl_cons, List.foldl_nil]

theorem zeroAccs_frame (e k : Nat) (x : Mx) : zeroAccs e k x = { x with acc := (zeroAccs e k x).acc } := by
  induction k with
  | zero => rfl
  | succ k ih =>
    rw [zeroAccs_succ, putAccs_frame]
    generalize zeroAccs e k x = y at ih ⊢
    generalize (putAccs (e + k) (List.replicate 16 default) y).acc = A
    rw [ih]

theorem accsAt_zeroAccs {e k e' : Nat} (hk : e + k ≤ 256) (he' : e' < 256) (x : Mx) :
    accsAt (zeroAccs e k x) e' = if e ≤ e' ∧ e' < e + k then List.replicate 16 default else accsAt x e' := by
  induction k with
  | zero => rw [zeroAccs_zero, if_neg (by omega)]
  | succ k ih =>
    rw [zeroAccs_succ, accsAt_putAccs List.length_replicate (by omega) he', ih (by omega)]
    by_cases h : e' = e + k
    · rw [if_pos h, if_pos (by omega)]
    · rw [if_neg h]
      exact if_congr (by omega) rfl rfl

/-! ## Rows of operand SRAM (R160, R167) -/

theorem length_leBytes (n x : Nat) : (leBytes n x).length = n := by
  induction n generalizing x with
  | zero => rfl
  | succ n ih => exact congrArg (· + 1) (ih _)

theorem length_rowBytes (r : Row128) : (rowBytes r).length = 128 := length_leBytes ..

theorem lowSour_eq (f : Flit) : lowSour f = (List.range 4).any fun i => bit f.sour.toNat i := by
  have h : ∀ b : Byte, decide (b.toNat % 16 ≠ 0) = (List.range 4).any fun i => bit b.toNat i := by decide
  exact h f.sour

theorem highSour_eq (f : Flit) : highSour f = (List.range 4).any fun i => bit f.sour.toNat (4 + i) := by
  have h : ∀ b : Byte, decide (b.toNat / 16 ≠ 0) = (List.range 4).any fun i => bit b.toNat (4 + i) := by decide
  exact h f.sour

theorem perform_row (x : Mx) (a : Nat) (f : Flit) :
    let y := MxAct.perform x (.row a f)
    y = { x with mem := y.mem, gsour := y.gsour } ∧ bytesAt y.mem a 128 = rowBytes f.data
    ∧ (∀ j, ¬ (a ≤ j ∧ j < a + 128) → look 0 y.mem j = look 0 x.mem j)
    ∧ look false y.gsour (a / 64) = (List.range 4).any (fun i => bit f.sour.toNat i)
    ∧ look false y.gsour (a / 64 + 1) = (List.range 4).any (fun i => bit f.sour.toNat (4 + i))
    ∧ ∀ g, g ≠ a / 64 → g ≠ a / 64 + 1 → look false y.gsour g = look false x.gsour g := by
  refine ⟨rfl, ?_, fun j hj => ?_, ?_, ?_, fun g h0 h1 => ?_⟩
  · have h := bytesAt_putBytes_self x.mem a (rowBytes f.data)
    rwa [length_rowBytes] at h
  · refine (look_putBytes ..).trans (if_neg ?_)
    rwa [length_rowBytes]
  · exact (look_put_ne _ _ _ _ _ (by omega)).trans ((look_put_self ..).trans (lowSour_eq f))
  · exact (look_put_self ..).trans (highSour_eq f)
  · exact (look_put_ne _ _ _ _ _ h1).trans (look_put_ne _ _ _ _ _ h0)

/-! ## The staging row (R68) -/

theorem bit_eq_testBit (x i : Nat) : bit x i = x.testBit i := by
  rw [Nat.testBit_eq_decide_div_mod_eq]
  rfl

theorem bit_mark (b : Byte) (k i : Nat) (hi : i < 8) : bit (b ||| BitVec.ofNat 8 (2 ^ k)).toNat i = (bit b.toNat i || decide (k = i)) := by
  rw [bit_eq_testBit, bit_eq_testBit, BitVec.testBit_toNat, BitVec.testBit_toNat, BitVec.getLsbD_or, BitVec.getLsbD_ofNat, Nat.testBit_two_pow]
  simp [hi]

/-- Segments marked one after another: a segment is marked where one of the list says so. -/
theorem bit_foldl_mark {α : Type} (p : α → Bool) (g : α → Nat) (l : List α) (b : Byte) {i : Nat} (hi : i < 8) :
    bit (l.foldl (fun b y => if p y then b ||| BitVec.ofNat 8 (2 ^ g y) else b) b).toNat i = (bit b.toNat i || l.any fun y => p y && decide (g y = i)) := by
  induction l generalizing b with
  | nil => simp
  | cons y l ih =>
    rw [List.foldl_cons, ih, List.any_cons, ← Bool.or_assoc]
    cases p y with
    | false => simp
    | true => rw [if_pos rfl, bit_mark _ _ _ hi, Bool.true_and]

theorem stageFlit_eq (l : List (Byte × Bool)) : stageFlit l = { data := rowOf (l.map Prod.fst), sour := (stageFlit l).sour } := rfl

theorem stageFlit_sour (l : List (Byte × Bool)) {i : Nat} (hi : i < 8) :
    bit (stageFlit l).sour.toNat i = ((l.drop (16 * i)).take 16).any Prod.snd := by
  have h := bit_foldl_mark (fun y : (Byte × Bool) × Nat => y.1.2) (fun y => y.2 / 16) (List.zip l (List.range l.length)) 0 hi
  have h0 : bit (0 : Byte).toNat i = false := by simp [bit]
  refine h.trans ?_
  rw [h0, Bool.false_or, Bool.eq_iff_iff, List.any_eq_true, List.any_eq_true]
  constructor
  · rintro ⟨y, hy, hp⟩
    obtain ⟨j, hj, rfl⟩ := List.mem_iff_getElem.mp hy
    simp only [List.getElem_zip, List.getElem_range, Bool.and_eq_true, decide_eq_true_eq] at hp
    obtain ⟨hm, hji⟩ := hp
    have hjl : j < l.length := by simpa using hj
    have e : ((l.drop (16 * i)).take 16)[j - 16 * i]'(by simp; omega) = l[j] := by
      simp only [List.getElem_take, List.getElem_drop, Nat.add_sub_cancel' (show 16 * i ≤ j by omega)]
    exact ⟨l[j], e ▸ List.getElem_mem _, hm⟩
  · rintro ⟨y, hy, hp⟩
    obtain ⟨j, hj, rfl⟩ := List.mem_iff_getElem.mp hy
    simp only [List.length_take, List.length_drop] at hj
    rw [List.getElem_take, List.getElem_drop] at hp
    have e : (l.zip (List.range l.length))[16 * i + j]'(by simp; omega) = (l[16 * i + j], 16 * i + j) := by simp
    refine ⟨_, e ▸ List.getElem_mem _, ?_⟩
    rw [hp, Bool.true_and, decide_eq_true_eq]
    omega

/-! ## OUT (R64, R167, R168) -/

/-- Counts, records and areas are all that differ: what a counted event or a schedule defect's report may change. -/
def Reported (s q : State) : Prop := q = { s with ports := q.ports, counts := q.counts, areas := q.areas }

theorem Reported.refl (s : State) : Reported s s := rfl

theorem Reported.trans {s q t : State} (h : Reported s q) (h' : Reported q t) : Reported s t := by
  unfold Reported at *
  rw [h] at h'
  exact h'

theorem reported_mxFault (code n : Nat) (s : State) (h : codeClass code = 4) : Reported s (mxFault code n s) := report_defect_frame _ _ h

theorem reported_count (code n k : Nat) (s : State) : Reported s (count code n k s) := rfl

section
variable {s q : State} (h : Reported s q)
include h

theorem Reported.now_eq : q.now = s.now := by rw [h]
theorem Reported.mm_eq : q.mm = s.mm := by rw [h]
theorem Reported.sf_eq : q.sf = s.sf := by rw [h]
theorem Reported.mxAt_eq (m : Nat) : mxAt q m = mxAt s m := by rw [h]; rfl
theorem Reported.swAt_eq (m : Nat) : swAt q m = swAt s m := by rw [h]; rfl

end

/-- The flit that OUT forms of the accumulators e, …, e + k - 1. -/
def outFlitOf (x : Mx) (e k : Nat) : Flit :=
  { data := BitVec.ofNat 1024 (packCodes (fmtWidth (mFO x.mode)) (outCodes x (flitAccs x e k)).2.1)
    sour := outSour (fmtWidth (mFO x.mode)) (flitAccs x e k) }

/-- A flit of OUT as a row due at the site. -/
def outRow (x : Mx) (t a : Nat) (f : Flit) : MxDue := { at_ := t, pc := some x.seq.pc, act := .row a f }

/-- OUT has formed the flits L from state s on, flit j at ACLK t + j from k accumulators each, m0 the first: to the switch, or as rows from a on. -/
structure OutFormed (n t a m0 k : Nat) (toMem clr : Bool) (s : State) (L : List Flit) (q : State) : Prop where
  now : q.now = s.now
  mm : q.mm = s.mm
  sf : q.sf = s.sf
  others : ∀ m, m ≠ n → mxAt q m = mxAt s m
  site : ∃ A S G, mxAt q n = { mxAt s n with
    acc := A, sr := S, stage := G
    acts := (mxAt s n).acts ++ if toMem then L.mapIdx fun j f => outRow (mxAt s n) (t + j) (a + 128 * j) f else [] }
  accs : ∀ e, e < 256 → accsAt (mxAt q n) e =
    if clr = true ∧ m0 ≤ e ∧ e < m0 + L.length * k then List.replicate 16 default else accsAt (mxAt s n) e
  fly : ∀ m, (swAt q m).fly = (swAt s m).fly ++
    if toMem = false ∧ m = n then L.mapIdx fun j f => { due := t + j + 1, inp := 4, flit := f } else []

theorem OutFormed.nil (n t a m0 k : Nat) (toMem clr : Bool) (s : State) : OutFormed n t a m0 k toMem clr s [] s where
  now := rfl
  mm := rfl
  sf := rfl
  others _ _ := rfl
  site := ⟨(mxAt s n).acc, (mxAt s n).sr, (mxAt s n).stage, by simp⟩
  accs e _ := by rw [if_neg (by simp only [List.length_nil]; omega)]
  fly m := by simp

/-- What OUT leaves of the site when it has formed a flit: the register, the staging row, and with CLR the accumulators. -/
def outLeaves (e k : Nat) (clr : Bool) (x : Mx) : Mx :=
  let c := outCodes x (flitAccs x e k)
  let y := { x with sr := c.2.2.2, stage := if decide (128 < x.stage.length + c.1.length) then x.stage else x.stage ++ scaleMarks (flitAccs x e k) c.1 }
  if clr then zeroAccs e k y else y

theorem outLeaves_frame (e k : Nat) (clr : Bool) (x : Mx) :
    ∃ A S G, outLeaves e k clr x = { x with acc := A, sr := S, stage := G } := by
  cases clr with
  | false => exact ⟨_, _, _, rfl⟩
  | true =>
    simp only [outLeaves, if_true]
    rw [zeroAccs_frame]
    exact ⟨_, _, _, rfl⟩

theorem accsAt_outLeaves {e k e' : Nat} (clr : Bool) (hk : e + k ≤ 256) (he' : e' < 256) (x : Mx) :
    accsAt (outLeaves e k clr x) e' = if clr = true ∧ e ≤ e' ∧ e' < e + k then List.replicate 16 default else accsAt x e' := by
  cases clr with
  | false => rfl
  | true =>
    simp only [outLeaves, if_true, true_and]
    exact accsAt_zeroAccs hk he' _

/-- One flit of OUT: its reports change no site, and it leaves for the switch or for the SRAM. -/
theorem outFlit_eq (n t a e k : Nat) (toMem clr : Bool) (s : State) :
    ∃ q, Reported (modMx n (outLeaves e k clr) s) q ∧ outFlit n t a e k toMem clr s = outPut n t a toMem (outFlitOf (mxAt s n) e k) q := by
  refine ⟨_, ?_, rfl⟩
  have hfault : ∀ (c : Bool) (q : State), Reported q (if c = true then mxFault 0x4116 n q else q) := fun c q => by
    split
    · exact reported_mxFault _ _ _ (by decide)
    · exact .refl _
  have hcount : ∀ (c : Nat) (q : State), Reported q (if c = 0 then q else count 0x1104 n c q) := fun c q => by
    split
    · exact .refl _
    · exact reported_count ..
  exact (hfault _ _).trans (hcount _ _)

section
variable (n t a : Nat) (toMem : Bool) (f : Flit) (s : State)

theorem outPut_switch : outPut n t a false f s = inject n t f s := rfl
theorem outPut_memory : outPut n t a true f s = modMx n (fun x => { x with acts := x.acts ++ [outRow x t a f] }) s := rfl

theorem outPut_frame : outPut n t a toMem f s = { s with mx := (outPut n t a toMem f s).mx, sw := (outPut n t a toMem f s).sw } := by
  cases toMem with
  | false => rfl
  | true => rfl

@[simp] theorem outPut_now : (outPut n t a toMem f s).now = s.now := by cases toMem <;> rfl
@[simp] theorem outPut_mm : (outPut n t a toMem f s).mm = s.mm := by cases toMem <;> rfl
@[simp] theorem outPut_sf : (outPut n t a toMem f s).sf = s.sf := by cases toMem <;> rfl

theorem mxAt_outPut_ne {m : Nat} (h : m ≠ n) : mxAt (outPut n t a toMem f s) m = mxAt s m := by
  cases toMem with
  | false => rfl
  | true => exact mxAt_modMx_ne _ _ _ _ h

theorem mxAt_outPut_self : mxAt (outPut n t a toMem f s) n =
    { mxAt s n with acts := (mxAt s n).acts ++ if toMem then [outRow (mxAt s n) t a f] else [] } := by
  cases toMem with
  | false => simp [outPut, inject]
  | true => exact mxAt_modMx_self ..

theorem fly_outPut (m : Nat) : (swAt (outPut n t a toMem f s) m).fly =
    (swAt s m).fly ++ if toMem = false ∧ m = n then [{ due := t + 1, inp := 4, flit := f }] else [] := by
  cases toMem with
  | false =>
    by_cases h : m = n
    · subst h
      simp [outPut, inject]
    · simp [outPut, inject, h, swAt_modSw_ne]
  | true => simp [outPut]

end

/-- The next flit of OUT. -/
theorem OutFormed.concat {n t a m0 k : Nat} {toMem clr : Bool} {s q : State} {L : List Flit} (h : OutFormed n t a m0 k toMem clr s L q)
    (hk : m0 + (L.length + 1) * k ≤ 256) :
    OutFormed n t a m0 k toMem clr s (L ++ [outFlitOf (mxAt q n) (m0 + L.length * k) k])
      (outFlit n (t + L.length) (a + 128 * L.length) (m0 + L.length * k) k toMem clr q) := by
  obtain ⟨p, hp, e⟩ := outFlit_eq n (t + L.length) (a + 128 * L.length) (m0 + L.length * k) k toMem clr q
  rw [e]
  generalize outFlitOf (mxAt q n) (m0 + L.length * k) k = f
  have hpn : mxAt p n = outLeaves (m0 + L.length * k) k clr (mxAt q n) := (hp.mxAt_eq n).trans (mxAt_modMx_self ..)
  have hlast : m0 + L.length * k + k ≤ 256 := by rw [Nat.add_mul] at hk; omega
  constructor
  case now => rw [outPut_now, hp.now_eq, modMx_now, h.now]
  case mm => rw [outPut_mm, hp.mm_eq, modMx_mm, h.mm]
  case sf => rw [outPut_sf, hp.sf_eq, modMx_sf, h.sf]
  case others =>
    intro m hm
    rw [mxAt_outPut_ne _ _ _ _ _ _ hm, hp.mxAt_eq, mxAt_modMx_ne _ _ _ _ hm, h.others m hm]
  case site =>
    obtain ⟨A, S, G, hs⟩ := h.site
    obtain ⟨A', S', G', hl⟩ := outLeaves_frame (m0 + L.length * k) k clr (mxAt q n)
    have hacts : (if toMem = true then (L ++ [f]).mapIdx (fun j f => outRow (mxAt s n) (t + j) (a + 128 * j) f) else [])
        = (if toMem = true then L.mapIdx (fun j f => outRow (mxAt s n) (t + j) (a + 128 * j) f) else [])
          ++ if toMem = true then [outRow (mxAt s n) (t + L.length) (a + 128 * L.length) f] else [] := by
      split
      · exact List.mapIdx_concat
      · rfl
    refine ⟨A', S', G', ?_⟩
    rw [mxAt_outPut_self, hpn, hl, hs, hacts, ← List.append_assoc]
    rfl
  case accs =>
    intro v hv
    rw [mxAt_outPut_self, hpn]
    refine (accsAt_outLeaves clr hlast hv (mxAt q n)).trans ((if_congr .rfl rfl (h.accs v hv)).trans ?_)
    rw [List.length_append, List.length_singleton, Nat.add_mul]
    cases clr with
    | false => rfl
    | true =>
      simp only [true_and]
      by_cases hc : m0 + L.length * k ≤ v ∧ v < m0 + L.length * k + k
      · rw [if_pos hc, if_pos (by omega)]
      · rw [if_neg hc]
        exact if_congr (by omega) rfl rfl
  case fly =>
    intro m
    rw [fly_outPut, hp.swAt_eq, swAt_modMx, h.fly, List.append_assoc]
    refine congrArg ((swAt s m).fly ++ ·) ?_
    split
    · rw [List.mapIdx_concat]
    · rfl

/-- The flits of OUT, one after another. -/
theorem outFlits_formed {t a m0 k n nf : Nat} {toMem clr : Bool} {s : State} (hk : m0 + nf * k ≤ 256) :
    ∃ L, OutFormed n t a m0 k toMem clr s L
        (each (List.range nf) (fun j => outFlit n (t + j) (a + 128 * j) (m0 + j * k) k toMem clr) s)
      ∧ L.length = nf ∧ (0 < nf → L[0]? = some (outFlitOf (mxAt s n) m0 k)) := by
  induction nf with
  | zero => exact ⟨[], .nil .., rfl, fun h => absurd h (by decide)⟩
  | succ nf ih =>
    obtain ⟨L, hL, hlen, hfirst⟩ := ih (by rw [Nat.add_mul] at hk; omega)
    subst hlen
    rw [each, List.range_succ, List.foldl_concat, ← each]
    refine ⟨_, hL.concat hk, by simp, fun _ => ?_⟩
    cases L with
    | nil => simp [each]
    | cons f L => simpa using hfirst (by simp)

/-- The output unit and the accumulators are in use from the issue of OUT on (R167, R168). -/
def outHeld (t m0 k nf : Nat) (x : Mx) : Mx :=
  { x with outTill := t + nf, outs := (x.outs.filter fun u => decide (t < u.2.2)) ++ (List.range nf).map fun j => (m0 + j * k, k, t + 3 + j) }

theorem outFlitOf_outHeld (t m0 k nf e k' : Nat) (x : Mx) : outFlitOf (outHeld t m0 k nf x) e k' = outFlitOf x e k' := by
  have hc : outCodes (outHeld t m0 k nf x) = outCodes x := rfl
  have ha : flitAccs (outHeld t m0 k nf x) = flitAccs x := rfl
  have hm : (outHeld t m0 k nf x).mode = x.mode := rfl
  simp only [outFlitOf, hc, ha, hm]

section
variable {n : Nat} {w : W64} {s : State} (hi : mxCanIssue n w s)
include hi

theorem execOut_formed (ho : wOp w = 0x21) :
    let r := mxAtIssue n s
    let x := mxAt r n
    let a := aReg x (wAR w)
    let m0 := bits w.toNat 31 24
    let nf := bits w.toNat 23 16 + 1
    let k := outK (mFO x.mode)
    let toMem := bit w.toNat 8
    x.outTill ≤ r.now → m0 + nf * k ≤ 256 → (toMem = true → rowsOk a nf = true) → hazAcc x r.now m0 (nf * k) = false →
    ∃ q L, exec (.out n w) s = .next (mxNext n 1 q)
      ∧ OutFormed n (r.now + 2) a m0 k toMem (bit w.toNat 9) (modMx n (outHeld r.now m0 k nf) (excUp n 5 1 r)) L q
      ∧ L.length = nf ∧ ∀ j, j < nf → ∃ f, L[j]? = some f ∧ (j = 0 → f = outFlitOf x m0 k) := by
  intro r x a m0 nf k toMem ht hk hrows hhaz
  obtain ⟨L, hL, hlen, hfirst⟩ := outFlits_formed (t := r.now + 2) (a := a) (toMem := toMem) (clr := bit w.toNat 9) (n := n)
    (s := modMx n (outHeld r.now m0 k nf) (excUp n 5 1 r)) hk
  have hx : mxAt (excUp n 5 1 r) n = x := rfl
  have hfault : ¬ (256 < m0 + nf * k ∨ (toMem && !rowsOk a nf) = true) := by
    rintro (h | h)
    · omega
    · simp only [Bool.and_eq_true, Bool.not_eq_true'] at h
      exact absurd (hrows h.1) (by simp [h.2])
  refine ⟨_, L, ?_, hL, hlen, fun j hj => ⟨_, List.getElem?_eq_getElem (hlen ▸ hj), fun h0 => Option.some.inj ?_⟩⟩
  · rw [show exec (.out n w) s = execOut n w s from rfl, execOut, mxIssue_run hi ho]
    refine congrArg Host.Outcome.next ?_
    exact (if_neg (Nat.not_lt.mpr ht)).trans ((if_neg hfault).trans (if_neg (hhaz ▸ Bool.false_ne_true)))
  · subst h0
    rw [← List.getElem?_eq_getElem, hfirst hj, mxAt_modMx_self, hx, outFlitOf_outHeld]

end

theorem fly_excUp (n i k : Nat) (r : State) (m : Nat) : (swAt (excUp n i k r) m).fly = (swAt r m).fly := by
  rw [sameSwitches_excUp n i k r m]

/-- Once OUT has formed its flits and goes on: the site and the switches, seen from the state at its issue. -/
theorem OutFormed.ends {n t a m0 k nf : Nat} {toMem clr : Bool} {r q : State} {L : List Flit}
    (h : OutFormed n t a m0 k toMem clr (modMx n (outHeld r.now m0 k nf) (excUp n 5 1 r)) L q) :
    (mxNext n 1 q).now = r.now ∧ (mxNext n 1 q).mm = r.mm ∧ (mxNext n 1 q).sf = r.sf ∧ (∀ m, m ≠ n → mxAt (mxNext n 1 q) m = mxAt r m)
    ∧ (∃ A S G O, mxAt (mxNext n 1 q) n = { mxAt r n with
        acc := A, sr := S, stage := G, outTill := r.now + nf, outs := O, seq := (mxAt r n).seq.advance (r.now + 1)
        acts := (mxAt r n).acts ++ if toMem then L.mapIdx fun j f => outRow (mxAt r n) (t + j) (a + 128 * j) f else [] })
    ∧ (∀ e, e < 256 → accsAt (mxAt (mxNext n 1 q) n) e =
        if clr = true ∧ m0 ≤ e ∧ e < m0 + L.length * k then List.replicate 16 default else accsAt (mxAt r n) e)
    ∧ ∀ m, (swAt (mxNext n 1 q) m).fly = (swAt r m).fly ++
        if toMem = false ∧ m = n then L.mapIdx fun j f => { due := t + j + 1, inp := 4, flit := f } else [] := by
  have hn : mxAt (modMx n (outHeld r.now m0 k nf) (excUp n 5 1 r)) n = outHeld r.now m0 k nf (mxAt r n) := mxAt_modMx_self ..
  have hnow : q.now = r.now := h.now
  have hself : mxAt (mxNext n 1 q) n = { mxAt q n with seq := (mxAt q n).seq.advance (r.now + 1) } := by rw [mxNext, mxAt_modMx_self, hnow]
  obtain ⟨A, S, G, hs⟩ := h.site
  refine ⟨hnow, h.mm, h.sf, fun m hm => ?others, ⟨A, S, G, (outHeld r.now m0 k nf (mxAt r n)).outs, ?site⟩, fun e he => ?accs, fun m => ?fly⟩
  case others => rw [mxNext, mxAt_modMx_ne _ _ _ _ hm, h.others m hm, mxAt_modMx_ne _ _ _ _ hm]; rfl
  case site =>
    rw [hself, hs, hn]
    rfl
  case accs =>
    rw [hself]
    refine (h.accs e he).trans ?_
    rw [hn]
    rfl
  case fly =>
    rw [mxNext, swAt_modMx, h.fly, swAt_modMx, fly_excUp]

/-! ## OUTS (R64, R68, R167) -/

/-- Staging is cleared and the output unit held for one ACLK. -/
def outsHeld (t : Nat) (x : Mx) : Mx := { x with stage := [], outTill := t + 1 }

/-- The state after OUTS, issued in state r, has sent or stored its flit. -/
def outsDone (n a : Nat) (toMem : Bool) (r : State) : State :=
  mxNext n 1 (outPut n (r.now + 2) a toMem (stageFlit (mxAt r n).stage) (modMx n (outsHeld r.now) (excUp n 5 1 r)))

theorem execOuts_eq {n : Nat} {w : W64} {s : State} (hi : mxCanIssue n w s) (ho : wOp w = 0x22)
    (ht : (mxAt (mxAtIssue n s) n).outTill ≤ (mxAtIssue n s).now)
    (hrows : bit w.toNat 8 = true → rowsOk (aReg (mxAt (mxAtIssue n s) n) (wAR w)) 1 = true) :
    exec (.outs n w) s = .next (outsDone n (aReg (mxAt (mxAtIssue n s) n) (wAR w)) (bit w.toNat 8) (mxAtIssue n s)) := by
  have hfault : ¬ (bit w.toNat 8 && !rowsOk (aReg (mxAt (mxAtIssue n s) n) (wAR w)) 1) = true := by
    intro h
    simp only [Bool.and_eq_true, Bool.not_eq_true'] at h
    exact absurd (hrows h.1) (by simp [h.2])
  rw [show exec (.outs n w) s = execOuts n w s from rfl, execOuts, mxIssue_run hi ho]
  refine congrArg Host.Outcome.next ?_
  exact (if_neg (Nat.not_lt.mpr ht)).trans (if_neg hfault)

section
variable (n a : Nat) (toMem : Bool) (r : State)

theorem mxAt_outsDone_ne {m : Nat} (h : m ≠ n) : mxAt (outsDone n a toMem r) m = mxAt r m := by
  rw [outsDone, mxNext, mxAt_modMx_ne _ _ _ _ h, mxAt_outPut_ne _ _ _ _ _ _ h, mxAt_modMx_ne _ _ _ _ h]
  rfl

theorem mxAt_outsDone_self : mxAt (outsDone n a toMem r) n = { mxAt r n with
    stage := [], outTill := r.now + 1, seq := (mxAt r n).seq.advance (r.now + 1)
    acts := (mxAt r n).acts ++ if toMem then [outRow (mxAt r n) (r.now + 2) a (stageFlit (mxAt r n).stage)] else [] } := by
  rw [outsDone, mxNext, mxAt_modMx_self, mxAt_outPut_self, mxAt_modMx_self, outPut_now]
  rfl

theorem outsDone_frame : outsDone n a toMem r = { r with mx := (outsDone n a toMem r).mx, sw := (outsDone n a toMem r).sw } := by
  have h := outPut_frame n (r.now + 2) a toMem (stageFlit (mxAt r n).stage) (modMx n (outsHeld r.now) (excUp n 5 1 r))
  rw [outsDone]
  generalize outPut n (r.now + 2) a toMem (stageFlit (mxAt r n).stage) (modMx n (outsHeld r.now) (excUp n 5 1 r)) = q at h ⊢
  rw [h]
  rfl

theorem fly_outsDone (m : Nat) : (swAt (outsDone n a toMem r) m).fly =
    (swAt r m).fly ++ if toMem = false ∧ m = n then [{ due := r.now + 3, inp := 4, flit := stageFlit (mxAt r n).stage }] else [] := by
  rw [outsDone, mxNext, swAt_modMx, fly_outPut, swAt_modMx, fly_excUp]

theorem sameSwitches_outsDone : sameSwitches r (outsDone n a true r) := by
  intro m
  have h : swAt (outsDone n a true r) m = swAt (excUp n 5 1 r) m := by
    rw [outsDone, mxNext, swAt_modMx, outPut_memory, swAt_modMx, swAt_modMx]
  rw [h]
  exact sameSwitches_excUp n 5 1 r m

end

end Sys2Proof.Machine

open Sys2Proof Sys2Proof.Machine

/-- Settles O6: what OUT forms and where it goes, the staging row of OUTS, and a row that is written. -/
theorem outAndOutsSendOrStore : Obligations.OutAndOutsSendOrStore := by
  refine ⟨fun n w s hi => ?switch, fun n w s hi => ?memory, fun x a f _ => perform_row x a f⟩
  case switch =>
    intro r x m0 nf k hb ht
    refine ⟨fun ho hk hz => ?out, fun ho => ?outs⟩
    case out =>
      obtain ⟨q, L, he, hf, hlen, hflit⟩ := execOut_formed hi ho ht hk (by rw [hb]; exact fun h => absurd h Bool.false_ne_true) hz
      rw [hb] at hf
      obtain ⟨hnow, hmm, hsf, hothers, ⟨A, S, G, O, hy⟩, haccs, hfly⟩ := hf.ends
      rw [hlen] at haccs
      refine ⟨_, he, hnow, hmm, hsf, hothers, ?_, haccs, fun j hj => ?_, ?_⟩
      · rw [hy, if_neg Bool.false_ne_true, List.append_nil]
      · obtain ⟨f, hj, h0⟩ := hflit j hj
        refine ⟨f, ?_, h0⟩
        rw [hfly, if_pos ⟨rfl, rfl⟩, List.getElem?_append_right (Nat.le_add_right ..), Nat.add_sub_cancel_left, List.getElem?_mapIdx, hj,
          show r.now + 3 + j = r.now + 2 + j + 1 by omega]
        rfl
      · rw [hfly, if_pos ⟨rfl, rfl⟩, List.length_append, List.length_mapIdx, hlen]
    case outs =>
      have he := execOuts_eq hi ho ht (by rw [hb]; exact fun h => absurd h Bool.false_ne_true)
      rw [hb] at he
      have hfly := (fly_outsDone n (aReg x (wAR w)) false r n).trans (congrArg _ (if_pos ⟨rfl, rfl⟩))
      refine ⟨_, stageFlit x.stage, he, outsDone_frame .., fun m hm => mxAt_outsDone_ne _ _ _ _ hm, hfly, stageFlit_eq _, fun i hi8 _ => stageFlit_sour _ hi8, ?_⟩
      rw [mxAt_outsDone_self, if_neg Bool.false_ne_true, List.append_nil]
  case memory =>
    intro r x a m0 nf k hb ht
    refine ⟨fun ho hk hrows hz => ?out, fun ho hrows => ?outs⟩
    case out =>
      obtain ⟨q, L, he, hf, hlen, hflit⟩ := execOut_formed hi ho ht hk (fun _ => hrows) hz
      rw [hb] at hf
      obtain ⟨hnow, hmm, hsf, hothers, ⟨A, S, G, O, hy⟩, -, hfly⟩ := hf.ends
      refine ⟨_, he, hnow, hmm, hsf, hothers, ?_, ?_, ?_, fun j hj => ?_, fun m => ?_⟩
      · rw [hy]
      · rw [hy]
        exact List.take_left ..
      · rw [hy, if_pos rfl, List.length_append, List.length_mapIdx, hlen]
      · obtain ⟨f, hj, h0⟩ := hflit j hj
        refine ⟨f, ?_, h0⟩
        rw [hy, if_pos rfl, List.getElem?_append_right (Nat.le_add_right ..), Nat.add_sub_cancel_left, List.getElem?_mapIdx, hj]
        rfl
      · rw [hfly, if_neg fun h => absurd h.1 (by decide), List.append_nil]
    case outs =>
      have he := execOuts_eq hi ho ht fun _ => hrows
      rw [hb] at he
      refine ⟨_, stageFlit x.stage, he, ⟨outsDone_frame .., fun m hm => mxAt_outsDone_ne _ _ _ _ hm, sameSwitches_outsDone _ _ _⟩, stageFlit_eq _, ?_⟩
      rw [mxAt_outsDone_self]
      rfl
end

section
/-! SUPPORT. What the warp's reports change (R109, R434): of class 3 and 4, and what a switch reads of an edge link after them (R84, R101). -/
namespace Sys2Proof.Machine

/-! ## Reports of class 3 and 4 (R108, R434) -/

theorem failStep_frame (code : Nat) (r : Report349) (s : State) :
    failStep code r s = { s with areas := (failStep code r s).areas, su := (failStep code r s).su } := by
  simp only [failStep]
  split
  · rfl
  · split
    · rfl
    · split <;> rfl

theorem haltArea_frame (r : Report349) (s : State) : haltArea r s = { s with areas := (haltArea r s).areas } := by
  unfold haltArea
  split
  · rfl
  · split <;> rfl

theorem report_halts {code : Nat} {r : Report349} {s : State} (hc : codeClass code = 4) : report code r s = haltArea r (reportNoted code r s) := by
  simp only [report, hc, show ¬ 4 = 3 by decide, if_false, if_true]
  rfl

/-- Of the state only counts, records, areas and the STATUS of SUs differ. -/
def Noted (s q : State) : Prop := q = { s with ports := q.ports, counts := q.counts, areas := q.areas, su := q.su }

theorem noted_report {code : Nat} (r : Report349) (s : State) (hc : codeClass code = 3 ∨ codeClass code = 4) : Noted s (report code r s) := by
  unfold Noted
  rcases hc with hc | hc
  · rw [report_fails hc, failStep_frame, reportNoted_frame]
  · rw [report_halts hc, haltArea_frame, reportNoted_frame]

section
variable {s q : State} (h : Noted s q)
include h

theorem Noted.now_eq : q.now = s.now := by rw [h]
theorem Noted.sw_eq : q.sw = s.sw := by rw [h]
theorem Noted.att_eq : q.att = s.att := by rw [h]
theorem Noted.swAt_eq (m : Nat) : swAt q m = swAt s m := by rw [h]; rfl
theorem Noted.attAt_eq (a : Nat) : attAt q a = attAt s a := by rw [h]; rfl

end

/-! ## Counts (R349) -/

theorem counted_count_ne {c u code n k : Nat} (s : State) (h : countKey c u ≠ countKey code n) : counted (count code n k s) c u = counted s c u := by
  simp only [counted, count]
  exact look_alter_ne _ _ _ _ _ h

/-- Records count nothing but those that are lost. -/
theorem counted_pushRecord {c u code step draft p : Nat} {r : Report349} (s : State) (hc : 0x1903 < c) (hp : p < 2) :
    counted (pushRecord code step draft r p s) c u = counted s c u := by
  have hk : countKey c u ≠ countKey 0x1903 p := by
    unfold countKey
    omega
  simp only [pushRecord]
  split
  · rfl
  · split
    · exact counted_count_ne _ hk
    · split
      · split <;> rfl
      · split <;> rfl

theorem recordPorts_lt (s : State) (r : Report349) : ∀ p ∈ recordPorts s r, p < 2 := by
  intro p hp
  unfold recordPorts at hp
  split at hp
  · split at hp
    · rw [List.mem_singleton.mp hp]
      exact Nat.mod_lt _ (by decide)
    · simp only [List.mem_cons, List.not_mem_nil, or_false] at hp
      omega
  · simp only [List.mem_cons, List.not_mem_nil, or_false] at hp
    omega

theorem counted_each_pushRecord {c u code step draft : Nat} {r : Report349} {l : List Nat} (s : State) (hc : 0x1903 < c) (hl : ∀ p ∈ l, p < 2) :
    counted (each l (pushRecord code step draft r) s) c u = counted s c u := by
  induction l generalizing s with
  | nil => rfl
  | cons p l ih =>
    obtain ⟨hp, hl⟩ := List.forall_mem_cons.mp hl
    exact (ih _ hl).trans (counted_pushRecord s hc hp)

theorem counted_reportNoted {code : Nat} (r : Report349) (s : State) (hc : 0x1903 < code) :
    counted (reportNoted code r s) code r.unit = counted s code r.unit + 1 := by
  unfold reportNoted
  split
  · exact (counted_each_pushRecord _ hc (recordPorts_lt _ r)).trans (counted_count_self ..)
  · exact counted_count_self ..

/-- A code that fails a step is counted once at its unit. -/
theorem counted_report_fails {code : Nat} (r : Report349) (s : State) (hc : codeClass code = 3) (hcode : 0x1903 < code) :
    counted (report code r s) code r.unit = counted s code r.unit + 1 := by
  rw [report_fails hc, failStep_frame]
  exact counted_reportNoted r s hcode

/-! ## What stays of an area -/

/-- What a switch reads of an edge link in power region R stands: the clock, what the link may deliver and has delivered, the region's area, each area's
draft, and S_k of its running step. -/
structure EdgesKept (R : Nat) (s q : State) : Prop where
  now : q.now = s.now
  att : ∀ a, attAt q a = { attAt s a with inS := (attAt q a).inS, inE := (attAt q a).inE }
  area : areaOfRegion q R = areaOfRegion s R
  draft : ∀ a, draftOf q a = draftOf s a
  start : ∀ a, (curStep q a).map Step.s = (curStep s a).map Step.s

section
variable {R : Nat} {s q t : State}

theorem EdgesKept.trans (h : EdgesKept R s q) (k : EdgesKept R q t) : EdgesKept R s t where
  now := k.now.trans h.now
  att a := by
    have e := k.att a
    rw [h.att a] at e
    exact e
  area := k.area.trans h.area
  draft a := (k.draft a).trans (h.draft a)
  start a := (k.start a).trans (h.start a)

/-- Changes of switches, SUs, records and counts do not reach an edge link. -/
theorem EdgesKept.of_frame (h : q = { s with ports := q.ports, counts := q.counts, su := q.su, sw := q.sw }) : EdgesKept R s q := by
  rw [h]
  exact ⟨rfl, fun _ => rfl, rfl, fun _ => rfl, fun _ => rfl⟩

theorem edgesKept_heddleStatus (h b : Nat) (s : State) : EdgesKept R s (heddleStatus h b s) := .of_frame rfl

theorem edgesKept_modAtt {x : Nat} {g : Attach → Attach} (hg : ∀ y, g y = { y with inS := (g y).inS, inE := (g y).inE }) :
    EdgesKept R s (modAtt x g s) where
  now := rfl
  att a := by
    by_cases e : a = x
    · subst e
      rw [attAt_modAtt_self]
      exact hg _
    · rw [attAt_modAtt_ne _ _ _ _ e]
  area := rfl
  draft _ := rfl
  start _ := rfl

/-- The first unit that passes a test is still the first once its entry has changed and still passes. -/
theorem find?_insertAt {α : Type} {d : α} {p : Nat × α → Bool} {t : Tab α} {k : Nat} {v : α} (h : (t.find? p).map Prod.fst = some k)
    (hv : p (k, v) = p (k, look d t k)) : ((insertAt t k v).find? p).map Prod.fst = some k := by
  induction t with
  | nil => exact nomatch h
  | cons x t ih =>
    obtain ⟨j, w⟩ := x
    unfold insertAt
    split
    · rw [List.find?_cons]
      split
      · rfl
      · exact h
    · next hlt =>
      split
      · next e =>
        subst e
        simp only [look, if_true] at hv
        rw [List.find?_cons] at h ⊢
        rw [hv]
        split
        · rfl
        · next hp => rwa [hp] at h
      · next hne =>
        simp only [look, if_neg hne] at hv
        rw [List.find?_cons] at h ⊢
        split
        · next hp =>
          rw [hp] at h
          exact h
        · next hp =>
          rw [hp] at h
          exact ih h hv

/-- A change of a region's area that leaves it defined with its word leaves it the region's area. -/
theorem areaOfRegion_modArea {a : Nat} {g : Area → Area} (ha : areaOfRegion s R = some a) (hne : g (areaAt s a) ≠ Area.reset)
    (hd : (g (areaAt s a)).defined = (areaAt s a).defined) (hw : (g (areaAt s a)).word = (areaAt s a).word) :
    areaOfRegion (modArea a g s) R = some a := by
  have e : (modArea a g s).areas = insertAt s.areas a (g (areaAt s a)) := if_neg hne
  rw [areaOfRegion, e]
  exact find?_insertAt (d := Area.reset) ha (by simp only [hd, hw]; rfl)

theorem edgesKept_modArea {a : Nat} {g : Area → Area} (ha : areaOfRegion s R = some a) (hne : g (areaAt s a) ≠ Area.reset)
    (hg : ∀ x : Area, (g x).defined = x.defined ∧ (g x).word = x.word ∧ (g x).drafts = x.drafts ∧ (g x).bank = x.bank)
    (hs : (curStep (modArea a g s) a).map Step.s = (curStep s a).map Step.s) : EdgesKept R s (modArea a g s) where
  now := rfl
  att _ := rfl
  area := (areaOfRegion_modArea ha hne (hg _).1 (hg _).2.1).trans ha.symm
  draft b := by
    by_cases e : b = a
    · subst e
      obtain ⟨-, -, hd, hb⟩ := hg (areaAt s b)
      rw [draftOf, draftOf, areaAt_modArea_self, hd, hb]
    · rw [draftOf, draftOf, areaAt_modArea_ne _ _ _ _ e]
  start b := by
    by_cases e : b = a
    · subst e
      exact hs
    · rw [curStep, curStep, areaAt_modArea_ne _ _ _ _ e]

theorem edgesKept_haltArea {r : Report349} (hr : r.area = areaOfRegion s R) : EdgesKept R s (haltArea r s) := by
  unfold haltArea
  split
  · exact .of_frame rfl
  · next a ha =>
    split
    · refine edgesKept_modArea (hr.symm.trans ha) (fun e => ?_) (fun _ => ⟨rfl, rfl, rfl, rfl⟩) ?_
      · exact absurd (congrArg (fun x : Area => x.job.state) e) (show ¬ jHalted = Area.reset.job.state by decide)
      · simp only [curStep, areaAt_modArea_self]
    · exact .of_frame rfl

theorem edgesKept_failStep {code : Nat} {r : Report349} (hr : r.area = areaOfRegion s R) : EdgesKept R s (failStep code r s) := by
  simp only [failStep]
  split
  · exact .of_frame rfl
  · next a ha =>
    split
    · exact .of_frame rfl
    · next hn =>
      obtain ⟨st, hst⟩ : ∃ st, curStep s a = some st := Option.ne_none_iff_exists'.mp (by simpa using hn)
      have key : ∀ f : Step → Step, (∀ x, (f x).s = x.s) → EdgesKept R s (modCurStep a f s) := fun f hf => by
        have hcur := curStep_modCurStep f hst
        refine edgesKept_modArea (hr.symm.trans ha) (fun e => ?_) (fun _ => ⟨rfl, rfl, rfl, rfl⟩) ?_
        · rw [curStep, modCurStep, areaAt_modArea_self, e] at hcur
          exact nomatch hcur
        · rw [hst]
          exact (congrArg (Option.map Step.s) hcur).trans (congrArg some (hf st))
      split
      · refine EdgesKept.trans ?_ (edgesKept_heddleStatus ..)
        exact key _ fun _ => rfl
      · exact key _ fun _ => rfl

/-- A report that names the area of a region leaves what its edge links carry. -/
theorem edgesKept_report {code : Nat} {r : Report349} (hc : codeClass code = 3 ∨ codeClass code = 4) (hr : r.area = areaOfRegion s R) :
    EdgesKept R s (report code r s) := by
  have h0 : EdgesKept R s (reportNoted code r s) := .of_frame (by rw [reportNoted_frame])
  rcases hc with hc | hc
  · rw [report_fails hc]
    exact h0.trans (edgesKept_failStep (hr.trans h0.area.symm))
  · rw [report_halts hc]
    exact h0.trans (edgesKept_haltArea (hr.trans h0.area.symm))

end

/-! ## What an edge link carries (R20, R21, R84, R101) -/

theorem edgeSlot_eq (s : State) (a l t : Nat) (f : Config.Edge → List Config.Slots) :
    edgeSlot s a l t f = ((areaOfAtt s a).bind fun r => (curStep s r).map Step.s).elim false
      fun k => (f (attAt s a).series).any fun x => hasSlot x l (t - 8 * k) := by
  unfold edgeSlot
  cases areaOfAtt s a with
  | none => rfl
  | some r =>
    simp only [Option.bind_some]
    cases curStep s r with
    | none => rfl
    | some k => rfl

theorem attRegion_edgeAtt (s : State) (a l t : Nat) : attRegion (edgeAtt s a l t) = attRegion a := by
  unfold edgeAtt
  split
  · next h =>
    obtain ⟨rfl, -⟩ := h
    split
    · rfl
    · split <;> rfl
  · rfl

/-- The attachment at an edge site's port lies in the site's power region. -/
theorem attRegion_of_attOf {m n p a l : Nat} (hn : sitePresent m n = true) (h : attOf m n p = some (a, l)) : attRegion a = powerRegion n := by
  have hx : siteX n < 512 := Nat.mod_lt _ (by decide)
  have hy : siteY n < 448 := by
    have hr : gridRows m ≤ 448 := by
      unfold gridRows
      split <;> decide
    simp only [sitePresent, Bool.and_eq_true, decide_eq_true_eq] at hn
    omega
  simp only [attOf] at h
  unfold attRegion powerRegion boltOf
  generalize siteX n = x at *
  generalize siteY n = y at *
  split at h
  · cases h
    rw [if_pos (by omega)]
    omega
  · split at h
    · cases h
      rw [if_neg (by omega), if_pos (by omega)]
      omega
    · split at h
      · cases h
        rw [if_neg (by omega), if_neg (by omega), if_pos (by omega)]
        omega
      · split at h
        · cases h
          rw [if_neg (by omega), if_neg (by omega), if_neg (by omega), if_pos (by omega)]
          omega
        · exact nomatch h

section
variable {R : Nat} {s q : State} (h : EdgesKept R s q)
include h

theorem EdgesKept.edgeSlot_eq {a l t : Nat} {f : Config.Edge → List Config.Slots} (ha : attRegion a = R) : edgeSlot q a l t f = edgeSlot s a l t f := by
  have harea : areaOfAtt q a = areaOfAtt s a := by rw [areaOfAtt, areaOfAtt, ha, h.area]
  have hseries : (attAt q a).series = (attAt s a).series := by rw [h.att a]
  rw [Machine.edgeSlot_eq, Machine.edgeSlot_eq, harea, hseries]
  simp only [h.start]

theorem EdgesKept.edgeAtt_eq {a l t : Nat} (ha : attRegion a = R) : edgeAtt q a l t = edgeAtt s a l t := by
  unfold edgeAtt
  by_cases hal : a = 32 ∧ l < 4
  · have hR : R = 0 := by rw [← ha, hal.1]; rfl
    subst hR
    rw [if_pos hal, if_pos hal, h.area]
    cases areaOfRegion s 0 with
    | none => rfl
    | some r => simp only [h.draft, h.edgeSlot_eq (a := 64) rfl]
  · rw [if_neg hal, if_neg hal]

theorem EdgesKept.edgeHead_eq {a l : Nat} (ha : attRegion a = R) : edgeHead q a l = edgeHead s a l := by
  have htaken : (attAt q a).taken = (attAt s a).taken := by rw [h.att a]
  have houtS : (attAt q a).outS = (attAt s a).outS := by rw [h.att a]
  have houtE : (attAt q a).outE = (attAt s a).outE := by rw [h.att a]
  simp only [edgeHead, htaken, houtS, houtE, h.now, h.edgeSlot_eq ha]

end

/-- An edge link that has delivered nothing yet delivers what it is given for the rest of the ACLK (R84). -/
theorem edgeHead_takeEdge {a l : Nat} {s : State} (f : Option Flit) (h : (attAt s a).taken.any (fun x => x.1 == l) = false) :
    edgeHead (takeEdge a l f s) a l = f := by
  have hnone : (attAt s a).taken.find? (fun x => x.1 == l) = none := List.find?_eq_none.mpr (List.any_eq_false.mp h)
  unfold takeEdge
  rw [if_neg (by rw [h]; exact Bool.false_ne_true)]
  simp only [edgeHead, attAt_modAtt_self, List.find?_append, hnone, Option.none_or, List.find?_singleton, beq_self_eq_true, if_true]

/-- The flit on an edge link stays on it for every other output that names it (R84). -/
theorem edgeHead_takeEdge_head (a l : Nat) (s : State) : edgeHead (takeEdge a l (edgeHead s a l) s) a l = edgeHead s a l := by
  cases h : (attAt s a).taken.any (fun x => x.1 == l) with
  | false => exact edgeHead_takeEdge _ h
  | true => rw [takeEdge, if_pos h]

theorem takeEdge_frame (a l : Nat) (f : Option Flit) (s : State) : takeEdge a l f s = { s with att := (takeEdge a l f s).att } := by
  unfold takeEdge
  split <;> rfl

end Sys2Proof.Machine
end

section
/-! Weave entries (R83, R84, R90-R93): O17. -/
namespace Sys2Proof.Machine

/-! ## A flit leaves an output (R83, R90, R101) -/

/-- Of the state only switches, attachments and what reports change differ. -/
def WarpOnly (s q : State) : Prop := q = { s with sw := q.sw, att := q.att, counts := q.counts, ports := q.ports, areas := q.areas, su := q.su }

theorem WarpOnly.trans {s q t : State} (h : WarpOnly s q) (k : WarpOnly q t) : WarpOnly s t := by
  unfold WarpOnly at *
  rw [h] at k
  exact k

theorem Noted.warpOnly {s q : State} (h : Noted s q) : WarpOnly s q := by
  unfold WarpOnly
  rw [h]

theorem noted_reportPort {code : Nat} (n p : Nat) (out : Bool) (s : State) (hc : codeClass code = 3 ∨ codeClass code = 4) :
    Noted s (reportPort code n p out s) := noted_report _ _ hc

theorem noted_reportEdge {code : Nat} (n p : Nat) (out : Bool) (s : State) (hc : codeClass code = 3 ∨ codeClass code = 4) :
    Noted s (reportEdge code n p out s) := noted_report _ _ hc

/-- Of the switches only flits in flight and deliveries differ. -/
def FlitsOnly (s q : State) : Prop := ∀ m, swAt q m = { swAt s m with fly := (swAt q m).fly, deliv := (swAt q m).deliv }

theorem FlitsOnly.of_sw {s q : State} (h : q.sw = s.sw) : FlitsOnly s q := fun m => by rw [show swAt q m = swAt s m by rw [swAt, h, swAt]]

theorem flitsOnly_modSw {k : Nat} {g : Switch → Switch} {s : State} (hg : ∀ w, g w = { w with fly := (g w).fly, deliv := (g w).deliv }) :
    FlitsOnly s (modSw k g s) := fun m => by
  by_cases e : m = k
  · subst e
    rw [swAt_modSw_self]
    exact hg _
  · rw [swAt_modSw_ne _ _ _ _ e]

/-- What every case of an output's flit keeps. -/
def Sends (n : Nat) (s q : State) : Prop := WarpOnly s q ∧ FlitsOnly s q ∧ EdgesKept (powerRegion n) s q

theorem sends_report {code n : Nat} {r : Report349} {s : State} (hc : codeClass code = 3 ∨ codeClass code = 4) (hr : r.area = areaOfSite s n) :
    Sends n s (report code r s) :=
  have h := noted_report r s hc
  ⟨h.warpOnly, .of_sw h.sw_eq, edgesKept_report hc hr⟩

theorem sends_reportPort {code n : Nat} (p : Nat) (out : Bool) (s : State) (hc : codeClass code = 3 ∨ codeClass code = 4) :
    Sends n s (reportPort code n p out s) := by
  unfold reportPort
  exact sends_report hc rfl

theorem sends_reportEdge {code n : Nat} (p : Nat) (out : Bool) (s : State) (hc : codeClass code = 3 ∨ codeClass code = 4) :
    Sends n s (reportEdge code n p out s) := by
  unfold reportEdge
  exact sends_report hc rfl

theorem sends_modSw {n k : Nat} {g : Switch → Switch} {s : State} (hg : ∀ w, g w = { w with fly := (g w).fly, deliv := (g w).deliv }) :
    Sends n s (modSw k g s) := ⟨rfl, flitsOnly_modSw hg, .of_frame rfl⟩

theorem sends_edgePush (n p a l due : Nat) (f : Flit) (s : State) : Sends n s (edgePush n p a l due f s) := by
  have hatt : ∀ x g, (∀ y : Attach, g y = { y with inS := (g y).inS, inE := (g y).inE }) → Sends n s (modAtt x g s) := fun x g hg =>
    ⟨rfl, .of_sw rfl, edgesKept_modAtt hg⟩
  simp only [edgePush]
  split
  · split
    · exact ⟨rfl, .of_sw rfl, .of_frame rfl⟩
    · exact hatt _ _ fun _ => rfl
  · split
    · exact hatt _ _ fun _ => rfl
    · exact sends_reportEdge _ _ _ (.inl rfl)

theorem sends_sendOut (n p te leave : Nat) (tok : Bool) (f : Flit) (s : State) : Sends n s (sendOut n p te leave tok f s) := by
  unfold sendOut
  split
  · exact sends_reportPort _ _ _ (.inr rfl)
  · split
    · exact sends_modSw fun _ => rfl
    · split
      · exact sends_modSw fun _ => rfl
      · split
        · exact sends_edgePush ..
        · exact ⟨rfl, .of_sw rfl, .of_frame rfl⟩

theorem sendOut_site (n te leave : Nat) (f : Flit) (s : State) :
    sendOut n 4 te leave false f s = modSw n (fun w => { w with deliv := w.deliv ++ [{ due := leave + 1, te := te, tok := false, tag := none, flit := f }] }) s := rfl

theorem sendOut_link {n p m te leave : Nat} {tok : Bool} {f : Flit} {s : State} (hi : heldIdle s n p = false) (hp : p < 4)
    (hm : neighbour s.member n p = some m) :
    sendOut n p te leave tok f s = modSw m (fun w => { w with fly := w.fly ++ [{ due := leave + 1 + linkExtra n p, inp := facing p, flit := f }] }) s := by
  have hp4 : ¬ p = 4 := by omega
  simp only [sendOut, hi, Bool.false_eq_true, if_false, if_neg hp4, hm]

/-- Where the flit goes: to the site, or to the neighbour's facing input. -/
theorem sendOut_arrives {n p te leave : Nat} {f : Flit} {s : State} (hi : heldIdle s n p = false) :
    let q := sendOut n p te leave false f s
    (p = 4 → (swAt q n).deliv = (swAt s n).deliv ++ [{ due := leave + 1, te := te, tok := false, tag := none, flit := f }] ∧ q.att = s.att)
    ∧ ∀ m, p < 4 → neighbour s.member n p = some m →
        (swAt q m).fly = (swAt s m).fly ++ [{ due := leave + 1 + linkExtra n p, inp := facing p, flit := f }] ∧ q.att = s.att := by
  intro q
  refine ⟨?_, fun m hp hm => ?_⟩
  · rintro rfl
    simp only [q, sendOut_site, swAt_modSw_self, modSw_att, and_self]
  · simp only [q, sendOut_link hi hp hm, swAt_modSw_self, modSw_att, and_self]

/-! ## An entry takes the heads it names (R84) -/

/-- An entry takes the heads of the inputs l, unless KEEP is set. -/
def headsTaken (n e : Nat) (l : List Nat) (s : State) : State := if weKeep e then s else each l (takeInput n) s

theorem takeInput_edge {n p a l : Nat} {s : State} (h : attOf s.member n p = some (a, l)) :
    takeInput n p s = takeEdge (edgeAtt s a l s.now) l (edgeHead s (edgeAtt s a l s.now) l) s := by
  simp only [takeInput, h]

theorem takeInput_fifo {n p : Nat} {s : State} (h : attOf s.member n p = none) :
    takeInput n p s = modSw n (fun w => { w with inp := alter default w.inp p (fun i => { i with pop := true }) }) s := by
  simp only [takeInput, h]

/-- What the taking of heads from FIFOs leaves: all but the marks for their pops. -/
structure FifosTaken (n e : Nat) (l : List Nat) (s q : State) : Prop where
  frame : q = { s with sw := q.sw }
  switch : swAt q n = { swAt s n with inp := (swAt q n).inp }
  others : ∀ m, m ≠ n → swAt q m = swAt s m
  inputs : ∀ i, look default (swAt q n).inp i =
    if weKeep e = false ∧ i ∈ l then { look default (swAt s n).inp i with pop := true } else look default (swAt s n).inp i

theorem FifosTaken.fly_eq {n e : Nat} {l : List Nat} {s q : State} (h : FifosTaken n e l s q) (m : Nat) : (swAt q m).fly = (swAt s m).fly := by
  by_cases hm : m = n
  · rw [hm, h.switch]
  · rw [h.others m hm]

theorem fifosTaken_each {n e : Nat} {l : List Nat} {s : State} (hk : weKeep e = false) (hl : ∀ p ∈ l, attOf s.member n p = none) :
    FifosTaken n e l s (each l (takeInput n) s) := by
  induction l generalizing s with
  | nil => exact ⟨rfl, rfl, fun _ _ => rfl, fun i => by simp [each]⟩
  | cons p l ih =>
    obtain ⟨hp, hl⟩ := List.forall_mem_cons.mp hl
    have e1 := takeInput_fifo hp
    have hs : swAt (takeInput n p s) n = { swAt s n with inp := alter default (swAt s n).inp p (fun i => { i with pop := true }) } := by
      rw [e1, swAt_modSw_self]
    have h := ih (s := takeInput n p s) (by rw [e1]; exact hl)
    constructor
    case frame =>
      have e2 : takeInput n p s = { s with sw := (takeInput n p s).sw } := by
        rw [e1]
        rfl
      exact h.frame.trans (congrArg (fun q : State => { q with sw := (each l (takeInput n) (takeInput n p s)).sw }) e2)
    case switch =>
      refine h.switch.trans ?_
      rw [hs]
      rfl
    case others =>
      intro m hm
      refine (h.others m hm).trans ?_
      rw [e1, swAt_modSw_ne _ _ _ _ hm]
    case inputs =>
      intro i
      refine (h.inputs i).trans ?_
      rw [hs]
      by_cases hi : i = p
      · subst hi
        simp [hk]
      · simp only [look_alter_ne _ _ _ _ _ hi, List.mem_cons, hi, false_or]

theorem fifosTaken_headsTaken {n : Nat} (e : Nat) {l : List Nat} {s : State} (hl : ∀ p ∈ l, attOf s.member n p = none) :
    FifosTaken n e l s (headsTaken n e l s) := by
  unfold headsTaken
  cases hk : weKeep e with
  | true => exact ⟨rfl, rfl, fun _ _ => rfl, fun i => by simp only [hk, Bool.true_eq_false, false_and, if_false, if_true]⟩
  | false => exact fifosTaken_each hk hl

/-- A head on an edge link stays there for the rest of the ACLK. -/
theorem edgeHead_headsTaken {n e p a l : Nat} {s : State} (h : attOf s.member n p = some (a, l)) :
    edgeHead (headsTaken n e [p] s) (edgeAtt s a l s.now) l = edgeHead s (edgeAtt s a l s.now) l := by
  unfold headsTaken
  split
  · rfl
  · exact (congrArg (edgeHead · _ l) (takeInput_edge h)).trans (edgeHead_takeEdge_head ..)

theorem headsTaken_edge_frame {n e p a l : Nat} {s : State} (h : attOf s.member n p = some (a, l)) :
    headsTaken n e [p] s = { s with att := (headsTaken n e [p] s).att } := by
  have k : each [p] (takeInput n) s = { s with att := (each [p] (takeInput n) s).att } := by
    have e1 : each [p] (takeInput n) s = _ := takeInput_edge h
    rw [e1, takeEdge_frame]
  unfold headsTaken
  split
  · rfl
  · exact k

/-! ## The entries (R83, R91-R93) -/

/-- A flit counted for exact mode, a DMA delivery apart (R213). -/
def flitCounted (n i : Nat) (f : Flit) (s : State) : State := if f.loose then s else excUp n i 1 s

theorem flitCounted_frame (n i : Nat) (f : Flit) (s : State) : flitCounted n i f s = { s with sw := (flitCounted n i f s).sw } := by
  unfold flitCounted
  split <;> rfl

theorem sameSwitches_flitCounted (n i : Nat) (f : Flit) (s : State) : sameSwitches s (flitCounted n i f s) := by
  unfold flitCounted
  split
  · exact fun _ => rfl
  · exact sameSwitches_excUp _ _ _ _

/-- A forward entry without a token. -/
theorem forwardEntry_plain {n p e : Nat} {s : State} {f : Flit} (ht : weTok e = false) (hf : inputHead s n (weSrcA e) = some f) :
    forwardEntry n p e s = flitCounted n 0 f (headsTaken n e [weSrcA e] (sendOut n p s.now s.now false f s)) := by
  simp only [forwardEntry, hf, ht, Bool.false_eq_true, if_false]
  rfl

theorem execWeaveEntryExec_eq {n p : Nat} {s : State} (hn : sitePresent s.member n = true) (hp : p < 5) (hr : switchRuns s n = true)
    (hl : resultLeaves (swAt s n) p s.now = false) :
    (weKind (portEntry (swAt s n) p s.now) = 1 → exec (.weaveEntryExec n p) s = .next (forwardEntry n p (portEntry (swAt s n) p s.now) s))
    ∧ (weKind (portEntry (swAt s n) p s.now) = 2 → exec (.weaveEntryExec n p) s = .next (reduceEntry n p (portEntry (swAt s n) p s.now) s)) := by
  have e : exec (.weaveEntryExec n p) s = .next (weaveEntry n p s) := by
    rw [show exec (.weaveEntryExec n p) s = execWeaveEntryExec n p s from rfl, execWeaveEntryExec, atSite, hn, guardUnit_true, if_pos hp]
  rw [e]
  simp only [weaveEntry, hr, hl, Bool.not_true, Bool.or_self, Bool.false_eq_true, if_false]
  exact ⟨fun h => by rw [if_pos h], fun h => by rw [h, if_neg (by decide), if_pos rfl]⟩

/-- Wraps and NaNs of a reduce, counted (R92). -/
def reduceCounted (n rop : Nat) (a b : Flit) (s : State) : State :=
  if rop = 5 then countN 0x1530 n (laneCount addWraps a b) s else countN 0x1531 n (laneCount (newNan rop) a b) s

theorem reduceCounted_frame (n rop : Nat) (a b : Flit) (s : State) : reduceCounted n rop a b s = { s with counts := (reduceCounted n rop a b s).counts } := by
  unfold reduceCounted countN
  split
  · split <;> rfl
  · split <;> rfl

/-- The output of a reduce is in use in ACLK t + 1 (R89). -/
def resultNoted (n p t : Nat) (s : State) : State :=
  modSw n (fun w => { w with outp := alter default w.outp p (fun o => { o with redAt := some (t + 1) }) }) s

theorem redAt_resultNoted (n p t : Nat) (s : State) : (look default (swAt (resultNoted n p t s) n).outp p).redAt = some (t + 1) := by
  simp only [resultNoted, swAt_modSw_self, look_alter_self]

theorem swAt_resultNoted (n p t : Nat) (s : State) (m : Nat) :
    swAt (resultNoted n p t s) m = { swAt s m with outp := (swAt (resultNoted n p t s) m).outp } := by
  by_cases e : m = n
  · subst e
    simp only [resultNoted, swAt_modSw_self]
  · simp only [resultNoted, swAt_modSw_ne _ _ _ _ e]

/-- A reduce entry without a token. -/
theorem reduceEntry_plain {n p e : Nat} {s : State} {f g : Flit} (ht : weTok e = false) (hf : inputHead s n (weSrcA e) = some f)
    (hg : inputHead s n (weSrcB e) = some g) :
    reduceEntry n p e s = flitCounted n 1 (reduceFlit (weRop e) f g) (resultNoted n p s.now (reduceCounted n (weRop e) f g
      (headsTaken n e [weSrcA e, weSrcB e] (sendOut n p s.now (s.now + 1) false (reduceFlit (weRop e) f g) s)))) := by
  simp only [reduceEntry, hf, hg, ht, Bool.false_eq_true, if_false]
  rfl

theorem inputHead_fifo {n p : Nat} {s : State} (h : attOf s.member n p = none) : inputHead s n p = (look default (swAt s n).inp p).q.head? := by
  simp only [inputHead, h]

theorem inputHead_edge {n p a l : Nat} {s : State} (h : attOf s.member n p = some (a, l)) : inputHead s n p = edgeHead s (edgeAtt s a l s.now) l := by
  simp only [inputHead, h]

/-! ## What an entry leaves -/

/-- A forward entry that names an edge input. -/
theorem forwardEntry_edge {n p e a l : Nat} {s : State} {f : Flit} (hn : sitePresent s.member n = true) (ht : weTok e = false)
    (ha : attOf s.member n (weSrcA e) = some (a, l)) (hf : edgeHead s (edgeAtt s a l s.now) l = some f) :
    let t := forwardEntry n p e s
    edgeHead t (edgeAtt s a l s.now) l = some f ∧ WarpOnly s t ∧ ∀ m, (swAt t m).inp = (swAt s m).inp := by
  intro t
  have hR := attRegion_of_attOf hn ha
  obtain ⟨hw, hfl, hk⟩ := sends_sendOut n p s.now s.now false f s
  generalize hq : sendOut n p s.now s.now false f s = q at hw hfl hk
  have haq : attOf q.member n (weSrcA e) = some (a, l) := by
    rw [hw]
    exact ha
  have hx : edgeAtt q a l q.now = edgeAtt s a l s.now := by rw [hk.now, hk.edgeAtt_eq hR]
  have et : t = flitCounted n 0 f (headsTaken n e [weSrcA e] q) := by
    rw [← hq]
    exact forwardEntry_plain ht ((inputHead_edge ha).trans hf)
  refine ⟨?_, ?_, fun m => ?_⟩
  · rw [et, flitCounted_frame]
    refine Eq.trans (?_ : _ = edgeHead q (edgeAtt q a l q.now) l) ?_
    · rw [← edgeHead_headsTaken haq, hx]
      rfl
    · rw [hx, hk.edgeHead_eq ((attRegion_edgeAtt ..).trans hR), hf]
  · rw [et]
    refine hw.trans (WarpOnly.trans (q := headsTaken n e [weSrcA e] q) ?_ ?_)
    · unfold WarpOnly
      rw [headsTaken_edge_frame haq]
    · unfold WarpOnly
      rw [flitCounted_frame]
  · rw [et, sameSwitches_flitCounted n 0 f _ m, headsTaken_edge_frame haq]
    change (swAt q m).inp = (swAt s m).inp
    rw [hfl m]

/-- A flit sent and the heads it came from taken: where it goes, and what stays. -/
theorem sent_and_taken {n p e te leave : Nat} {l : List Nat} {s : State} {f : Flit} (hl : ∀ i ∈ l, attOf s.member n i = none)
    (hi : heldIdle s n p = false) :
    let q := headsTaken n e l (sendOut n p te leave false f s)
    WarpOnly s q
    ∧ swAt q n = { swAt s n with inp := (swAt q n).inp, fly := (swAt q n).fly, deliv := (swAt q n).deliv }
    ∧ (∀ i, look default (swAt q n).inp i =
        if weKeep e = false ∧ i ∈ l then { look default (swAt s n).inp i with pop := true } else look default (swAt s n).inp i)
    ∧ (p = 4 → (swAt q n).deliv = (swAt s n).deliv ++ [{ due := leave + 1, te := te, tok := false, tag := none, flit := f }] ∧ q.att = s.att)
    ∧ ∀ m, p < 4 → neighbour s.member n p = some m →
        (swAt q m).fly = (swAt s m).fly ++ [{ due := leave + 1 + linkExtra n p, inp := facing p, flit := f }] ∧ q.att = s.att := by
  intro q
  obtain ⟨hw, hfl, -⟩ := sends_sendOut n p te leave false f s
  obtain ⟨hsite, hlink⟩ := sendOut_arrives (te := te) (leave := leave) (f := f) hi
  have hT : FifosTaken n e l (sendOut n p te leave false f s) q := fifosTaken_headsTaken e (by rw [hw]; exact hl)
  generalize sendOut n p te leave false f s = r at hw hfl hsite hlink hT
  have hinp : (swAt r n).inp = (swAt s n).inp := by rw [hfl n]
  have hdeliv : (swAt q n).deliv = (swAt r n).deliv := by rw [hT.switch]
  have hatt : q.att = r.att := by rw [hT.frame]
  refine ⟨hw.trans ?_, ?_, fun i => ?_, fun hp => ?_, fun m hp hm => ?_⟩
  · unfold WarpOnly
    rw [hT.frame]
  · rw [hT.switch, hfl n]
  · rw [hT.inputs i, hinp]
  · obtain ⟨h1, h2⟩ := hsite hp
    exact ⟨hdeliv.trans h1, hatt.trans h2⟩
  · obtain ⟨h1, h2⟩ := hlink m hp hm
    exact ⟨(hT.fly_eq m).trans h1, hatt.trans h2⟩

end Sys2Proof.Machine

open Sys2Proof Sys2Proof.Machine

/-- Settles O17: a flit is sent, the heads it came from are taken, and it is counted. -/
theorem weaveForwardsAndReduces : Obligations.WeaveForwardsAndReduces := by
  refine ⟨⟨fun n p a l s f hn hp hr => ?edge, fun n p s f rest hn hp hr => ?forward⟩, fun n p s f g hn hp hr => ?reduce⟩
  case edge =>
    intro e x hl hk ht ha hf
    obtain ⟨h1, h2, h3⟩ := forwardEntry_edge (p := p) hn ht ha hf
    refine ⟨_, (execWeaveEntryExec_eq hn hp hr hl).1 hk, h1, fun m i => ?_, ?_⟩
    · rw [h3 m]
    · rw [h2]
      exact ⟨rfl, rfl, rfl, rfl⟩
  case forward =>
    intro w e hl hk ht ha hq hi
    have hf : inputHead s n (weSrcA e) = some f := (inputHead_fifo ha).trans (congrArg List.head? hq)
    have hex := (execWeaveEntryExec_eq hn hp hr hl).1 hk
    rw [forwardEntry_plain ht hf] at hex
    obtain ⟨hw, hsw, hinp, hsite, hlink⟩ := sent_and_taken (e := e) (te := s.now) (leave := s.now) (l := [weSrcA e]) (f := f)
      (List.forall_mem_singleton.mpr ha) hi
    generalize headsTaken n e [weSrcA e] (sendOut n p s.now s.now false f s) = q at hex hw hsw hinp hsite hlink
    have hfr := flitCounted_frame n 0 f q
    have hsame := sameSwitches_flitCounted n 0 f q
    generalize flitCounted n 0 f q = t at hex hfr hsame
    have hatt : t.att = q.att := by rw [hfr]
    have htn : swAt t n = { w with inp := (swAt t n).inp, fly := (swAt t n).fly, deliv := (swAt t n).deliv, exc := (swAt t n).exc } := by
      rw [hsame n, hsw]
    refine ⟨t, hex, hw.trans (by unfold WarpOnly; rw [hfr]), fun i hne => ?_, ?_, by rw [htn], by rw [htn], by rw [htn], fun h4 => ?_, fun m h4 hm _ => ?_⟩
    · rw [hsame n]
      exact (hinp i).trans (if_neg fun h => hne (List.mem_singleton.mp h.2))
    · rw [hsame n]
      refine (hinp _).trans ?_
      cases hkeep : weKeep e with
      | true => exact if_neg fun h => nomatch h.1
      | false => exact if_pos ⟨rfl, List.mem_singleton.mpr rfl⟩
    · rw [hsame n, hatt]
      exact hsite h4
    · rw [hsame m, hatt]
      exact hlink m h4 hm
  case reduce =>
    intro w e hl hk ht ha hb hf hg hi out
    have hex := (execWeaveEntryExec_eq hn hp hr hl).2 hk
    rw [reduceEntry_plain ht ((inputHead_fifo ha).trans hf) ((inputHead_fifo hb).trans hg)] at hex
    obtain ⟨hw, -, hinp, hsite, hlink⟩ := sent_and_taken (e := e) (te := s.now) (leave := s.now + 1) (l := [weSrcA e, weSrcB e]) (f := out)
      (by simp only [List.forall_mem_cons]; exact ⟨ha, hb, List.forall_mem_nil _⟩) hi
    change exec _ s = .next (flitCounted n 1 out (resultNoted n p s.now (reduceCounted n (weRop e) f g
      (headsTaken n e [weSrcA e, weSrcB e] (sendOut n p s.now (s.now + 1) false out s))))) at hex
    generalize headsTaken n e [weSrcA e, weSrcB e] (sendOut n p s.now (s.now + 1) false out s) = q at hex hw hinp hsite hlink
    have hc := reduceCounted_frame n (weRop e) f g q
    generalize reduceCounted n (weRop e) f g q = c at hex hc
    have hred := redAt_resultNoted n p s.now c
    have hnoted := swAt_resultNoted n p s.now c
    have hr' : resultNoted n p s.now c = { c with sw := (resultNoted n p s.now c).sw } := rfl
    generalize resultNoted n p s.now c = r at hex hred hnoted hr'
    have hfr := flitCounted_frame n 1 out r
    have hsame := sameSwitches_flitCounted n 1 out r
    generalize flitCounted n 1 out r = t at hex hfr hsame
    have hcq : ∀ m, swAt c m = swAt q m := fun m => by rw [hc]; rfl
    have hsw : ∀ m, swAt t m = { swAt q m with outp := (swAt t m).outp, exc := (swAt t m).exc } := fun m => by rw [hsame m, hnoted m, hcq m]
    have hpop : weKeep e = false → ∀ i ∈ [weSrcA e, weSrcB e], (look default (swAt t n).inp i).pop = true := fun hkeep i hmem => by
      rw [hsw n]
      exact congrArg Inp.pop ((hinp i).trans (if_pos ⟨hkeep, hmem⟩))
    have ht' : WarpOnly s t := hw.trans (by unfold WarpOnly; rw [hfr, hr', hc])
    refine ⟨t, hex, by rw [ht'], by rw [ht'], by rw [ht'], by rw [ht'], ?_, fun hkeep => ?_, fun h4 => ?_, fun m h4 hm _ => ?_⟩
    · rw [hsame n]
      exact hred
    · exact ⟨hpop hkeep _ (.head _), hpop hkeep _ (.tail _ (.head _))⟩
    · rw [hsw n]
      exact (hsite h4).1
    · rw [hsw m]
      exact (hlink m h4 hm).1
end

section
/-! Flits and tokens that arrive (R78, R80, R94, R96, R97, R106, R177): O18. -/
namespace Sys2Proof.Machine

/-! ## A flit is checked segment by segment (R78) -/

/-- Of the state only what reports change and the lists of the watch and risk rules differ. -/
def LinkNoted (s q : State) : Prop := q = { s with ports := q.ports, counts := q.counts, areas := q.areas, su := q.su, ras := q.ras }

theorem LinkNoted.trans {s q t : State} (h : LinkNoted s q) (k : LinkNoted q t) : LinkNoted s t := by
  unfold LinkNoted at *
  rw [h] at k
  exact k

theorem LinkNoted.swAt_eq {s q : State} (h : LinkNoted s q) (m : Nat) : swAt q m = swAt s m := by
  rw [h]
  rfl

theorem Noted.linkNoted {s q : State} (h : Noted s q) : LinkNoted s q := by
  unfold LinkNoted
  rw [h]

theorem linkNoted_each {α : Type} {l : List α} {f : α → State → State} (hf : ∀ x q, LinkNoted q (f x q)) (s : State) : LinkNoted s (each l f s) := by
  induction l generalizing s with
  | nil => rfl
  | cons x l ih => exact (hf x s).trans (ih _)

theorem linkNoted_watchTrigger (code k : Nat) (u : WatchUnit) (s : State) : LinkNoted s (watchTrigger code k u s) := by
  simp only [watchTrigger, watchAdd]
  repeat' split
  all_goals rfl

theorem linkNoted_segCorrected (n i k : Nat) (s : State) : LinkNoted s (segCorrected n i k s) := by
  refine linkNoted_each (fun _ q => ?_) s
  dsimp only
  split
  · exact LinkNoted.trans (q := riskEvent 0x2501 (powerRegion n) (count 0x2501 n 1 q)) rfl (linkNoted_watchTrigger ..)
  · rfl

theorem linkNoted_checkFlit (n i : Nat) (u : LinkUpset) (f : Flit) (s : State) : LinkNoted s (checkFlit n i u f s).2 :=
  (linkNoted_segCorrected ..).trans (linkNoted_each (fun _ q => (noted_reportPort n i false q (.inl rfl)).linkNoted) _)

/-- A flit without errors raises nothing. -/
theorem checkFlit_clean {n i : Nat} {u : LinkUpset} (hce : u.ce = []) (hue : u.ue = []) (f : Flit) (s : State) : (checkFlit n i u f s).2 = s := by
  simp only [checkFlit, hce, hue, List.filter_nil, List.length_nil]
  rfl

/-- A code of class 3 that a port raises is counted once at its switch. -/
theorem counted_reportPort {code : Nat} (n p : Nat) (out : Bool) (s : State) (hc : codeClass code = 3) (hcode : 0x1903 < code) :
    counted (reportPort code n p out s) code n = counted s code n + 1 := by
  unfold reportPort
  exact counted_report_fails _ s hc hcode

/-! ## Arrival (R78, R80, R94, R106) -/

/-- The state in which a flit is no longer in flight. -/
def flightEnded (n : Nat) (f : Fly) (s : State) : State := modSw n (fun w => { w with fly := w.fly.erase f }) s

/-- A flit pushed into a join slack FIFO. -/
def flitPushed (n i : Nat) (f : Flit) (s : State) : State :=
  modSw n (fun w => { w with inp := alter default w.inp i (fun y => { y with q := y.q ++ [f] }) }) s

section
variable {n i : Nat} {u : LinkUpset} {s : State} (hn : sitePresent s.member n = true) (hr : switchRuns s n = true)
include hn hr

theorem execFlitArrival_edge {a l : Nat} (hv : u.validBad = true) (ha : attOf s.member n i = some (a, l))
    (ht : (attAt s (edgeAtt s a l s.now)).taken.any (fun x => x.1 == l) = false) :
    exec (.flitArrival n i u) s = .next (reportPort 0x3503 n i false (takeEdge (edgeAtt s a l s.now) l none s)) := by
  rw [show exec (.flitArrival n i u) s = execFlitArrival n i u s from rfl, execFlitArrival, atSite, hn, guardUnit_true]
  simp only [ha, arriveEdge, hr, ht, hv, Bool.not_true, Bool.or_self, Bool.false_eq_true, if_false, if_true]

theorem execFlitArrival_idle (hi : i < 5) (hv : u.validBad = true) (ha : attOf s.member n i = none) (hf : foreignInput s n i = false)
    (he : earliest i (swAt s n).fly = none) : exec (.flitArrival n i u) s = .next (reportPort 0x3503 n i false s) := by
  rw [show exec (.flitArrival n i u) s = execFlitArrival n i u s from rfl, execFlitArrival, atSite, hn, guardUnit_true]
  simp only [ha, he, hv, hi, hr, hf, decide_true, Bool.not_false, Bool.and_self, if_true]

omit hn in
theorem switchRuns_flightEnded (f : Fly) : switchRuns (flightEnded n f s) n = true := by
  have e : swAt (flightEnded n f s) n = { swAt s n with fly := (swAt s n).fly.erase f } := swAt_modSw_self ..
  simp only [switchRuns, e]
  exact hr

theorem execFlitArrival_link {f : Fly} (ha : attOf s.member n i = none) (hf : foreignInput s n i = false)
    (he : earliest i (swAt s n).fly = some f) (hd : f.due = s.now) :
    exec (.flitArrival n i u) s = .next (if u.validBad then reportPort 0x3503 n i false (flightEnded n f s)
      else flitPushed n i (sourSegs (checkFlit n i u f.flit (flightEnded n f s)).1 f.flit) (checkFlit n i u f.flit (flightEnded n f s)).2) := by
  have hforeign : foreignInput (flightEnded n f s) n i = false := hf
  have hruns := switchRuns_flightEnded hr f
  rw [flightEnded] at hforeign hruns
  rw [show exec (.flitArrival n i u) s = execFlitArrival n i u s from rfl, execFlitArrival, atSite, hn, guardUnit_true]
  simp only [ha, he, arrive, runTo_past (Nat.le_of_eq hd), hruns, hforeign, Bool.not_true, Bool.or_self, Bool.false_eq_true, if_false]
  rfl

end

/-! ## Tokens (R96, R97, R177, R203) -/

/-- No entry waits: no token is met. -/
theorem matchTokens_idle {p : Nat} {w : Switch} (k : Nat) (h : (look default w.outp p).waits = []) : matchTokens k p w = (w, 0) := by
  cases k with
  | zero => rfl
  | succ k => simp only [matchTokens, h, takeFirst]

/-- The switch after its port p has been matched with no entry waiting: a FELL met earlier stands only with a complete successor (R203). -/
def fellKept (n p : Nat) (s : State) : Switch :=
  if fellActs s n || (look default (swAt s n).outp p).fell.isNone then swAt s n
  else { swAt s n with outp := alter default (swAt s n).outp p (fun o => { o with fell := none }) }

theorem runMatch_idle {n p : Nat} {s : State} (h : (look default (swAt s n).outp p).waits = []) : runMatch n p s = modSw n (fun _ => fellKept n p s) s := by
  simp only [runMatch, matchTokens_idle 4 h, if_true]
  rfl

theorem latch_fellKept (n p : Nat) (s : State) : (look default (fellKept n p s).outp p).latch = (look default (swAt s n).outp p).latch := by
  unfold fellKept
  split
  · rfl
  · simp only [look_alter_self]

/-- A token put into the latch of its port. -/
def latched (n : Nat) (word : Nat) (s : State) : State :=
  modSw n (fun w => { w with outp := alter default w.outp (tkPort word) (fun o => { o with latch := o.latch ++ [{ word := BitVec.ofNat 24 word, arr := s.now }] }) }) s

theorem outp_latched (n word : Nat) (s : State) : look default (swAt (latched n word s) n).outp (tkPort word) =
    { look default (swAt s n).outp (tkPort word) with
      latch := (look default (swAt s n).outp (tkPort word)).latch ++ [{ word := BitVec.ofNat 24 word, arr := s.now }] } := by
  simp only [latched, swAt_modSw_self, look_alter_self]

/-- A good token that finds room in its latch, with no entry waiting, joins the latch. -/
theorem tokenArrive_idle {n word : Nat} {s : State} (hr : switchRuns s n = true) (hb : tokenBad (swAt s n) word = false)
    (hl : (look default (swAt s n).outp (tkPort word)).latch.length < 2) (hw : (look default (swAt s n).outp (tkPort word)).waits = []) :
    onlySw n s (tokenArrive n word s) ∧ (look default (swAt (tokenArrive n word s) n).outp (tkPort word)).latch =
      (look default (swAt s n).outp (tkPort word)).latch ++ [{ word := BitVec.ofNat 24 word, arr := s.now }] := by
  have hout := outp_latched n word s
  have hwaits : (look default (swAt (latched n word s) n).outp (tkPort word)).waits = [] := by
    rw [hout]
    exact hw
  have hlen : ¬ 2 ≤ (look default (swAt s n).outp (tkPort word)).latch.length := Nat.not_le.mpr hl
  have e : tokenArrive n word s = modSw n (fun _ => fellKept n (tkPort word) (latched n word s)) (latched n word s) := by
    rw [← runMatch_idle hwaits]
    simp only [tokenArrive, hr, hb, if_neg hlen, Bool.not_true, Bool.false_eq_true, if_false]
    rfl
  rw [e]
  refine ⟨⟨rfl, fun m hm => ?_⟩, ?_⟩
  · rw [swAt_modSw_ne _ _ _ _ hm, latched, swAt_modSw_ne _ _ _ _ hm]
  · rw [swAt_modSw_self, latch_fellKept, hout]

/-- The SU's next token leaves its token net for the switch it names. -/
theorem execControlTokenArrival_now {u : Nat} {s : State} {w : BitVec 24} {r : List (Nat × BitVec 24)} (hu : sitePresent s.member u = true)
    (hk : kindOf u = .su) (ht : (suAt s u).tokOut = (s.now, w) :: r) :
    exec (.controlTokenArrival u 0) s =
      .next (tokenArrive (siteOf (heddleOf u) (tkSite w.toNat)) w.toNat (modSu u (fun x => { x with tokOut := r }) s)) := by
  rw [show exec (.controlTokenArrival u 0) s = execControlTokenArrival u 0 s from rfl, execControlTokenArrival, onSite_of_kind hu hk]
  have hw : w ^^^ 0 = w := BitVec.xor_zero
  simp only [ht, hw, runTo_past (Nat.le_refl s.now)]

end Sys2Proof.Machine

open Sys2Proof Sys2Proof.Machine

/-- Settles O18: a flit leaves its link, is checked and pushed; a token leaves its net and is latched. -/
theorem flitsAndTokensArrive : Obligations.FlitsAndTokensArrive := by
  refine ⟨⟨fun n i u s hn hr hi hv => ⟨fun a l ha ht => ?edge, fun ha hf he => ?idle⟩, fun n i u s f hn hr hf ha he hd => ?flit⟩,
    fun u s hu hk => ⟨fun w r ht => ?token, fun pos hpos hrun => ?table⟩⟩
  case edge =>
    have hnoted := noted_reportPort (code := 0x3503) n i false (takeEdge (edgeAtt s a l s.now) l none s) (.inl rfl)
    have hkept := (sends_reportPort (code := 0x3503) (n := n) i false (takeEdge (edgeAtt s a l s.now) l none s) (.inl rfl)).2.2
    have hregion := (attRegion_edgeAtt s a l s.now).trans (attRegion_of_attOf hn ha)
    refine ⟨_, execFlitArrival_edge hn hr hv ha ht, ?_, ?_, ?_⟩
    · rw [counted_reportPort n i false _ rfl (by decide), takeEdge_frame]
      rfl
    · rw [hkept.edgeHead_eq hregion, edgeHead_takeEdge none ht]
    · rw [hnoted.sw_eq, takeEdge_frame]
  case idle =>
    have hnoted := noted_reportPort (code := 0x3503) n i false s (.inl rfl)
    exact ⟨_, execFlitArrival_idle hn hr hi hv ha hf he, counted_reportPort n i false s rfl (by decide), hnoted.sw_eq, hnoted.att_eq⟩
  case flit =>
    intro w fresh
    have hex := execFlitArrival_link (u := u) hn hr ha hf he hd
    have hself : swAt (flightEnded n f s) n = { w with fly := w.fly.erase f } := swAt_modSw_self ..
    have hother : ∀ m, m ≠ n → swAt (flightEnded n f s) m = swAt s m := fun m hm => swAt_modSw_ne _ _ _ _ hm
    cases hv : u.validBad with
    | true =>
      rw [hv, if_pos rfl] at hex
      have hnoted := noted_reportPort (code := 0x3503) n i false (flightEnded n f s) (.inl rfl)
      have hsw := hnoted.swAt_eq
      refine ⟨_, hex, ?_, fun m hm => (hsw m).trans (hother m hm), by rw [hnoted]; rfl, by rw [hnoted]; rfl, by rw [hnoted]; rfl, hnoted.now_eq, ?_,
        fun j _ => ?_, fun _ _ h => nomatch h⟩
      · rw [hsw n, hself]
      · rw [hsw n, hself, if_pos rfl, List.append_nil]
      · rw [hsw n, hself]
    | false =>
      rw [hv, if_neg Bool.false_ne_true] at hex
      have hnoted := linkNoted_checkFlit n i u f.flit (flightEnded n f s)
      have hsw := hnoted.swAt_eq
      have hclean : u.ce = [] → u.ue = [] → (checkFlit n i u f.flit (flightEnded n f s)).2 = flightEnded n f s := fun hce hue => checkFlit_clean hce hue ..
      have hfresh : (checkFlit n i u f.flit (flightEnded n f s)).1 = fresh := rfl
      rw [hfresh] at hex
      generalize (checkFlit n i u f.flit (flightEnded n f s)).2 = q at hex hnoted hsw hclean
      have hq : swAt (flitPushed n i (sourSegs fresh f.flit) q) n = { w with
          fly := w.fly.erase f, inp := alter default w.inp i (fun y => { y with q := y.q ++ [sourSegs fresh f.flit] }) } := by
        rw [flitPushed, swAt_modSw_self, hsw n, hself]
      refine ⟨_, hex, ?_, fun m hm => ?_, by rw [hnoted]; rfl, by rw [hnoted]; rfl, by rw [hnoted]; rfl, by rw [hnoted]; rfl, ?_, fun j hj => ?_,
        fun hce hue _ => ?_⟩
      · rw [hq]
      · exact (swAt_modSw_ne _ _ _ _ hm).trans ((hsw m).trans (hother m hm))
      · rw [hq, look_alter_self, if_neg Bool.false_ne_true]
        rfl
      · rw [hq, look_alter_ne _ _ _ _ _ hj]
      · rw [hclean hce hue]
        rfl
  case token =>
    intro n _ hp hr hb hl hwaits
    have hex := execControlTokenArrival_now hu hk ht
    obtain ⟨⟨hfr, hothers⟩, hlatch⟩ := tokenArrive_idle (s := modSu u (fun x => { x with tokOut := r }) s) hr hb (by rw [hp]; exact hl) (by rw [hp]; exact hwaits)
    rw [hp, BitVec.ofNat_toNat, BitVec.setWidth_eq] at hlatch
    generalize tokenArrive n w.toNat (modSu u (fun x => { x with tokOut := r }) s) = t at hex hfr hothers hlatch
    have hsu : ∀ m, suAt t m = suAt (modSu u (fun x => { x with tokOut := r }) s) m := fun m => by
      rw [hfr]
      rfl
    refine ⟨t, hex, ?_, fun m hm => (hsu m).trans (suAt_modSu_ne _ _ _ _ hm), (hsu u).trans (suAt_modSu_self _ _ _), hothers, hlatch⟩
    rw [hfr]
    rfl
  case table =>
    intro n x d i e hr hv ht he hz
    refine ⟨excUp u 3 1 (modSu u (fun y => { y with
      tokOut := addToken (s.now + 2) (tokenWord pos 4 1 (look 0 (swAt s n).tokens (1024 * x.2.2 + i)).toNat) y.tokOut }) s), ?_, rfl, ?_, fun m hm => ?_, ?_⟩
    · rw [show exec (.tokenTableEmit u pos) s = execTokenTableEmit u pos s from rfl, execTokenTableEmit, onSite_of_kind hu hk]
      exact congrArg Host.Outcome.next (if_pos ⟨hpos, hrun, hr, hv, ht, he, hz⟩)
    · exact sameSwitches_excUp u 3 1 _
    · rw [excUp, suAt_modSw, suAt_modSu_ne _ _ _ _ hm]
    · rw [excUp, suAt_modSw, suAt_modSu_self]
end

section
/-! Page selections, the fell mark and credits (R88, R97, R102, R105, R108-R110, R116): O19. -/
namespace Sys2Proof.Machine

/-! ## A page selection (R88, R108, R116) -/

theorem look_foldl_alter_range {α : Type} [DecidableEq α] (d : α) (t : Tab α) (f : α → α) (n k : Nat) :
    look d ((List.range n).foldl (fun t i => alter d t i f) t) k = if k < n then f (look d t k) else look d t k := by
  induction n with
  | zero => rfl
  | succ n ih =>
    rw [List.range_succ, List.foldl_concat]
    by_cases e : k = n
    · subst e
      rw [look_alter_self, ih, if_neg (Nat.lt_irrefl k), if_pos (Nat.lt_succ_self k)]
    · rw [look_alter_ne _ _ _ _ _ e, ih]
      exact if_congr (by omega) rfl rfl

section
variable (pg t : Nat) (w : Switch)

theorem outp_setPage {p : Nat} (hp : p < 5) : look default (w.setPage pg t).outp p = { look default w.outp p with page := pg, since := t } := by
  simp only [Switch.setPage, look_foldl_alter_range, if_pos hp]

theorem stopped_setPage : (w.setPage pg t).stopped = w.stopped := by simp only [Switch.setPage]

end

/-- The pull plans of a site, at the page of its switch's port L. -/
def planPaged (pg t : Nat) (m : Mm) : Mm := { m with page := pg, since := t }

/-- The pull plans of an MM site follow the selection (R116). -/
def plansPaged (pg n : Nat) (s : State) : State := if kindOf n = .mm then modMm n (planPaged pg s.now) s else s

/-- A new page whose entry meets a reduce result, raised at its port (R89). -/
def collisionsRaised (n : Nat) (s : State) : State :=
  each ((List.range 5).filter fun p => collides (swAt s n) p s.now) (fun p s => reportPort 0x4514 n p true s) s

/-- A page selection at one site of the heddle. -/
def sitePaged (pg n : Nat) (s : State) : State :=
  if (swAt s n).stopped then s else collisionsRaised n (plansPaged pg n (modSw n (fun w => w.setPage pg s.now) s))

theorem selectPage_eq (h pg : Nat) (s : State) : selectPage h pg s = each (heddleSites h) (sitePaged pg) s := rfl

theorem reported_reportPort {code : Nat} (n p : Nat) (out : Bool) (s : State) (hc : codeClass code = 4) : Reported s (reportPort code n p out s) := by
  unfold reportPort
  exact report_defect_frame _ _ hc

theorem reported_collisionsRaised (n : Nat) (s : State) : Reported s (collisionsRaised n s) := by
  unfold collisionsRaised
  generalize (List.range 5).filter (fun p => collides (swAt s n) p s.now) = l
  induction l generalizing s with
  | nil => rfl
  | cons p l ih => exact (reported_reportPort n p true s rfl).trans (ih _)

section
variable (pg n : Nat) (s : State)

theorem plansPaged_frame : plansPaged pg n s = { s with mm := (plansPaged pg n s).mm } := by
  unfold plansPaged
  split <;> rfl

theorem mmAt_plansPaged (m : Nat) : mmAt (plansPaged pg n s) m = if m = n ∧ kindOf m = .mm then planPaged pg s.now (mmAt s m) else mmAt s m := by
  unfold plansPaged
  by_cases hk : kindOf n = .mm
  · rw [if_pos hk]
    by_cases e : m = n
    · subst e
      rw [mmAt_modMm_self, if_pos ⟨rfl, hk⟩]
    · rw [mmAt_modMm_ne _ _ _ _ e, if_neg fun h => e h.1]
  · rw [if_neg hk, if_neg fun h : m = n ∧ kindOf m = .mm => hk (h.1 ▸ h.2)]

end

/-- What a page selection at the sites l changes: the ports of their switches, and their pull plans, but not where a halt has stopped them. -/
structure SitesPaged (pg : Nat) (l : List Nat) (s t : State) : Prop where
  frame : t = { s with sw := t.sw, mm := t.mm, ports := t.ports, counts := t.counts, areas := t.areas }
  switch : ∀ m, swAt t m = if m ∈ l ∧ (swAt s m).stopped = false then (swAt s m).setPage pg s.now else swAt s m
  plan : ∀ m, mmAt t m = if m ∈ l ∧ (swAt s m).stopped = false ∧ kindOf m = .mm then planPaged pg s.now (mmAt s m) else mmAt s m

theorem SitesPaged.now {pg : Nat} {l : List Nat} {s t : State} (h : SitesPaged pg l s t) : t.now = s.now := by rw [h.frame]

theorem SitesPaged.stopped {pg : Nat} {l : List Nat} {s t : State} (h : SitesPaged pg l s t) (m : Nat) : (swAt t m).stopped = (swAt s m).stopped := by
  rw [h.switch m]
  split
  · exact stopped_setPage ..
  · rfl

theorem sitesPaged_one (pg n : Nat) (s : State) : SitesPaged pg [n] s (sitePaged pg n s) := by
  unfold sitePaged
  split
  · next hst =>
    have hout : ∀ m, m ∈ [n] → ¬ (swAt s m).stopped = false := fun m hm h => by
      rw [List.mem_singleton.mp hm, hst] at h
      exact Bool.noConfusion h
    exact ⟨rfl, fun m => (if_neg fun h => hout m h.1 h.2).symm, fun m => (if_neg fun h => hout m h.1 h.2.1).symm⟩
  · next hst =>
    have hst : (swAt s n).stopped = false := by simpa using hst
    have hf := plansPaged_frame pg n (modSw n (fun w => w.setPage pg s.now) s)
    have hmm := mmAt_plansPaged pg n (modSw n (fun w => w.setPage pg s.now) s)
    generalize plansPaged pg n (modSw n (fun w => w.setPage pg s.now) s) = q at hf hmm
    have hr := reported_collisionsRaised n q
    generalize collisionsRaised n q = t at hr
    constructor
    case frame => rw [hr, hf, modSw]
    case switch =>
      intro m
      have hm : swAt t m = swAt (modSw n (fun w => w.setPage pg s.now) s) m := by
        rw [hr.swAt_eq, hf]
        rfl
      rw [hm]
      by_cases e : m = n
      · subst e
        rw [swAt_modSw_self, if_pos ⟨List.mem_singleton.mpr rfl, hst⟩]
      · rw [swAt_modSw_ne _ _ _ _ e, if_neg fun h => e (List.mem_singleton.mp h.1)]
    case plan =>
      intro m
      have hm : mmAt t m = mmAt q m := by rw [mmAt, hr.mm_eq, mmAt]
      rw [hm, hmm m]
      by_cases e : m = n
      · subst e
        simp only [List.mem_singleton, hst, true_and, modSw_now, mmAt_modSw]
      · simp only [List.mem_singleton, e, false_and, if_false, mmAt_modSw]

theorem sitesPaged_each (pg : Nat) {l : List Nat} (hl : l.Nodup) (s : State) : SitesPaged pg l s (each l (sitePaged pg) s) := by
  induction l generalizing s with
  | nil => exact ⟨rfl, fun m => (if_neg fun h => nomatch h.1).symm, fun m => (if_neg fun h => nomatch h.1).symm⟩
  | cons n l ih =>
    obtain ⟨hn, hl⟩ := List.nodup_cons.mp hl
    have h1 := sitesPaged_one pg n s
    have h2 := ih hl (sitePaged pg n s)
    have ht : each (n :: l) (sitePaged pg) s = each l (sitePaged pg) (sitePaged pg n s) := rfl
    rw [ht]
    generalize each l (sitePaged pg) (sitePaged pg n s) = t at h2
    generalize sitePaged pg n s = q at h1 h2
    constructor
    case frame =>
      rw [h2.frame, h1.frame]
    case switch =>
      intro m
      rw [h2.switch m, h1.stopped, h1.now, h1.switch m]
      by_cases e : m = n
      · subst e
        simp only [hn, false_and, if_false, List.mem_cons, List.not_mem_nil, or_false, true_and]
      · simp only [List.mem_cons, List.not_mem_nil, e, false_or, false_and, if_false]
    case plan =>
      intro m
      rw [h2.plan m, h1.stopped, h1.now, h1.plan m]
      by_cases e : m = n
      · subst e
        simp only [hn, false_and, if_false, List.mem_cons, List.not_mem_nil, or_false, true_and]
      · simp only [List.mem_cons, List.not_mem_nil, e, false_or, false_and, if_false]

theorem heddleSites_nodup (h : Nat) : (heddleSites h).Nodup := by
  refine List.Nodup.map_on (fun p hp q hq e => ?_) List.nodup_range
  rw [List.mem_range] at hp hq
  unfold siteOf at e
  omega

theorem mem_heddleSites_heddleOf (n : Nat) : n ∈ heddleSites (heddleOf n) := by
  refine List.mem_map.mpr ⟨posOf n, List.mem_range.mpr ?_, ?_⟩
  · unfold posOf
    omega
  · unfold siteOf posOf heddleOf siteX siteY
    omega

/-- The SU's timer queue once the page selection has left it. -/
def pageLeaves (t pg : Nat) (u : Su) : Su := { u with timers := u.timers.erase (t, .page pg), barrier := none }

theorem execPageTakeEffect_now {n pg : Nat} {s : State} (hn : sitePresent s.member n = true) (hk : kindOf n = .su) (hs : (swAt s n).stopped = false)
    (hp : nextPage (suAt s n) = some (s.now, pg, false)) :
    exec (.pageTakeEffect n) s = .next (selectPage (heddleOf n) pg (modSu n (pageLeaves s.now pg) (excUp n 4 1 s))) := by
  rw [show exec (.pageTakeEffect n) s = execPageTakeEffect n s from rfl, execPageTakeEffect, onSite_of_kind hn hk]
  simp only [hp, hs, Bool.false_eq_true, if_false, runTo_past (Nat.le_refl s.now)]
  rfl

/-! ## The fell mark (R88, R96, R97, R116, R199) -/

/-- A port after the change to bank b at ACLK t (R88). -/
def OutPort.felled (b t : Nat) (o : OutPort) : OutPort := { o with bank := b, page := 0, since := t, fell := none, fellDone := true }

/-- The output port p of switch n, changed to bank b. -/
def portFelled (n p b t : Nat) (s : State) : State := modSw n (fun w => { w with outp := alter default w.outp p (OutPort.felled b t) }) s

/-- The site's own bank follows port L (R116, R199). -/
def siteFelled (n b t : Nat) (s : State) : State :=
  match kindOf n with
  | .mm => modMm n (fun m => { m with bank := b, page := 0, since := t }) s
  | .mx => modMx n (fun m => { m with seq := { m.seq with bank := b } }) s
  | .sf => modSf n (fun m => { m with seq := { m.seq with bank := b } }) s
  | .su => s

/-- The records of the area's draft in bank b. -/
def recsOfBank (n b : Nat) (s : State) : List Rec :=
  match areaOfSite s n with | some a => (look default (areaAt s a).drafts b).recs | none => []

theorem outp_portFelled_self (n p b t : Nat) (s : State) :
    look default (swAt (portFelled n p b t s) n).outp p = (look default (swAt s n).outp p).felled b t := by
  rw [portFelled, swAt_modSw_self, look_alter_self]

/-- With no reduce result in the output now, its new page meets none (R89). -/
theorem collides_portFelled {n p b t : Nat} {s : State} (h : (look default (swAt s n).outp p).redAt ≠ some t) :
    collides (swAt (portFelled n p b t s) n) p t = false := by
  have e : ((look default (swAt (portFelled n p b t s) n).outp p).redAt == some t) = false := by
    rw [outp_portFelled_self]
    exact beq_eq_false_iff_ne.mpr h
  rw [collides, resultLeaves, e, Bool.false_and, Bool.false_and]

theorem switchBank_link {n p b t : Nat} {s : State} (hp : p ≠ 4) (h : (look default (swAt s n).outp p).redAt ≠ some t) :
    switchBank n p b t s = portFelled n p b t s := by
  have hc := collides_portFelled (b := b) h
  unfold portFelled OutPort.felled at *
  simp only [switchBank, hc, Bool.false_eq_true, if_false, if_pos hp]

theorem switchBank_site {n b t : Nat} {s : State} (h : (look default (swAt s n).outp 4).redAt ≠ some t) :
    switchBank n 4 b t s = swapSite (recsOfBank n b (portFelled n 4 b t s)) n (siteFelled n b t (portFelled n 4 b t s)) := by
  have hc := collides_portFelled (b := b) h
  unfold portFelled OutPort.felled at *
  simp only [switchBank, hc, Bool.false_eq_true, if_false, ne_eq, not_true_eq_false]
  rfl

theorem execFellBankSwitch_now {n p b : Nat} {s : State} (hn : sitePresent s.member n = true)
    (hf : (look default (swAt s n).outp p).fell = some (s.now, b)) : exec (.fellBankSwitch n p) s = .next (switchBank n p b s.now s) := by
  rw [show exec (.fellBankSwitch n p) s = execFellBankSwitch n p s from rfl, execFellBankSwitch, atSite, hn, guardUnit_true]
  simp only [hf, runTo_past (Nat.le_refl s.now)]

/-- A change of an MM site keeps the bank and the page its pull plans are at. -/
def PlanKept (m y : Mm) : Prop := y.bank = m.bank ∧ y.page = m.page ∧ y.since = m.since

theorem PlanKept.trans {m y z : Mm} (h : PlanKept m y) (k : PlanKept y z) : PlanKept m z := by
  obtain ⟨h1, h2, h3⟩ := h
  obtain ⟨k1, k2, k3⟩ := k
  exact ⟨k1.trans h1, k2.trans h2, k3.trans h3⟩

theorem planKept_foldl {α : Type} {l : List α} {f : Mm → α → Mm} (hf : ∀ y x, PlanKept y (f y x)) (m : Mm) : PlanKept m (l.foldl f m) := by
  induction l generalizing m with
  | nil => exact ⟨rfl, rfl, rfl⟩
  | cons x l ih => exact (hf m x).trans (ih _)

theorem planKept_regrant (c : Nat → Bool) (m : Mm) : PlanKept m (m.regrant c) :=
  planKept_foldl (fun y i => by split <;> exact ⟨rfl, rfl, rfl⟩) m

theorem planKept_newCreels (c : Nat → Bool) (t : Tab Creel) (m : Mm) : PlanKept m (Mm.regrant c { m with creels := t }) :=
  PlanKept.trans (y := { m with creels := t }) ⟨rfl, rfl, rfl⟩ (planKept_regrant ..)

theorem foldl_keeps {α β γ : Type} {l : List α} {f : β → α → β} (g : β → γ) (hf : ∀ y x, g (f y x) = g y) (m : β) : g (l.foldl f m) = g m := by
  induction l generalizing m with
  | nil => rfl
  | cons x l ih => exact (ih _).trans (hf m x)

theorem seq_validate (l : List Nat) (x : Mx) : (validate l x).seq = x.seq := by
  unfold validate
  exact foldl_keeps Mx.seq (by intro _ _; rfl) x

theorem seq_mxExtent (e : Config.Extent) (x : Mx) : (mxExtent e x).seq = x.seq := by
  unfold mxExtent
  repeat' split
  · rfl
  · rfl
  · rfl
  · exact foldl_keeps Mx.seq (fun y i => seq_validate _ y) _

/-- A swap into a draft's records changes memories, creels, rings and seeds of the site: not its bank, nor what its pull plans and its program are at. -/
def BankKept (n : Nat) (s t : State) : Prop :=
  t = { s with mm := t.mm, mx := t.mx, sf := t.sf } ∧ PlanKept (mmAt s n) (mmAt t n) ∧ (mxAt t n).seq = (mxAt s n).seq ∧ (sfAt t n).seq = (sfAt s n).seq

theorem BankKept.refl (n : Nat) (s : State) : BankKept n s s := ⟨rfl, ⟨rfl, rfl, rfl⟩, rfl, rfl⟩

theorem BankKept.trans {n : Nat} {s q t : State} (h : BankKept n s q) (k : BankKept n q t) : BankKept n s t := by
  obtain ⟨hf, hp, hx, hs⟩ := h
  obtain ⟨kf, kp, kx, ks⟩ := k
  refine ⟨?_, hp.trans kp, kx.trans hx, ks.trans hs⟩
  rw [hf] at kf
  exact kf

theorem bankKept_modMm {n : Nat} {g : Mm → Mm} (s : State) (hg : ∀ m, PlanKept m (g m)) : BankKept n s (modMm n g s) :=
  ⟨rfl, by rw [mmAt_modMm_self]; exact hg _, rfl, rfl⟩

theorem bankKept_modMx {n : Nat} {g : Mx → Mx} (s : State) (hg : ∀ x, (g x).seq = x.seq) : BankKept n s (modMx n g s) :=
  ⟨rfl, ⟨rfl, rfl, rfl⟩, by rw [mxAt_modMx_self]; exact hg _, rfl⟩

theorem bankKept_modSf {n : Nat} {g : Sf → Sf} (s : State) (hg : ∀ x, (g x).seq = x.seq) : BankKept n s (modSf n g s) :=
  ⟨rfl, ⟨rfl, rfl, rfl⟩, rfl, by rw [sfAt_modSf_self]; exact hg _⟩

theorem bankKept_applyInit (n : Nat) (d : List Byte) (s : State) : BankKept n s (applyInit n d s) := by
  unfold applyInit
  split
  · exact .refl n s
  · split
    · exact bankKept_modMx _ fun x => foldl_keeps Mx.seq (fun y e => seq_mxExtent e y) _
    · exact bankKept_modSf _ fun x => foldl_keeps Sf.seq (by intro _ _; rfl) _
    · exact bankKept_modMm _ fun m => planKept_foldl (by intro y e; exact planKept_foldl (by intro _ _; exact ⟨rfl, rfl, rfl⟩) y) m
    · exact .refl n s

theorem bankKept_swapSite (l : List Rec) (n : Nat) (s : State) : BankKept n s (swapSite l n s) := by
  unfold swapSite
  extract_lets _ s1
  have h1 : BankKept n s s1 := by
    unfold s1
    split
    · exact bankKept_modMm _ fun m => planKept_newCreels ..
    · exact bankKept_modMx _ fun _ => rfl
    · exact bankKept_modSf _ fun _ => rfl
    · exact .refl n s
  split
  · exact h1.trans (bankKept_applyInit ..)
  · exact h1

section
variable (n b t : Nat) (s : State)

theorem siteFelled_frame : siteFelled n b t s = { s with mm := (siteFelled n b t s).mm, mx := (siteFelled n b t s).mx, sf := (siteFelled n b t s).sf } := by
  unfold siteFelled
  split <;> rfl

theorem mmAt_siteFelled (h : kindOf n = .mm) : mmAt (siteFelled n b t s) n = { mmAt s n with bank := b, page := 0, since := t } := by
  simp only [siteFelled, h, mmAt_modMm_self]

theorem seq_siteFelled_mx (h : kindOf n = .mx) : (mxAt (siteFelled n b t s) n).seq = { (mxAt s n).seq with bank := b } := by
  simp only [siteFelled, h, mxAt_modMx_self]

theorem seq_siteFelled_sf (h : kindOf n = .sf) : (sfAt (siteFelled n b t s) n).seq = { (sfAt s n).seq with bank := b } := by
  simp only [siteFelled, h, sfAt_modSf_self]

end

/-! ## Credits (R102, R105, R109, R110) -/

/-- The oldest credit of loop k is back; one fewer of those still out has hung. -/
def creditBack (k : Nat) (r : List (Nat × Nat)) (q : Attach) : Attach :=
  { q with flying := put [] q.flying k r, hung := alter 0 q.hung k (· - 1) }

/-- One more of the oldest credits of loop k has hung. -/
def creditHung (k : Nat) (q : Attach) : Attach := { q with hung := alter 0 q.hung k (· + 1) }

/-- A round trip that began at ACLK e, counted at site n if it was slow (R105). -/
def tripCounted (k e n : Nat) (s : State) : State := if loopBound k < s.now - e then count 0x1523 n 1 s else s

theorem tripCounted_frame (k e n : Nat) (s : State) : tripCounted k e n s = { s with counts := (tripCounted k e n s).counts } := by
  unfold tripCounted
  split <;> rfl

theorem counted_tripCounted (k e n : Nat) (s : State) :
    counted (tripCounted k e n s) 0x1523 n = counted s 0x1523 n + if loopBound k < s.now - e then 1 else 0 := by
  unfold tripCounted
  split
  · exact counted_count_self ..
  · rfl

theorem execCreditReturn_oldest {a k e l : Nat} {r : List (Nat × Nat)} {s : State} (ha : attPresent s.member a = true)
    (hf : look [] (attAt s a).flying k = (e, l) :: r) :
    exec (.creditReturn a k) s = .next (tripCounted k e (edgeSite a l).1 (modAtt a (creditBack k r) s)) := by
  rw [show exec (.creditReturn a k) s = execCreditReturn a k s from rfl, execCreditReturn, atAtt, ha, guardUnit_true]
  simp only [hf]
  rfl

theorem execWrpCreditHang_late {a k e l : Nat} {r : List (Nat × Nat)} {s : State} (ha : attPresent s.member a = true)
    (hf : (look [] (attAt s a).flying k).drop (look 0 (attAt s a).hung k) = (e, l) :: r) (he : e + 80000 ≤ s.now) :
    ∃ out, exec (.wrpCreditHang a k) s = .next (reportEdge 0x3522 (edgeSite a l).1 (edgeSite a l).2 out (modAtt a (creditHung k) s)) := by
  refine ⟨(creditPort a k l).2.2, ?_⟩
  rw [show exec (.wrpCreditHang a k) s = execWrpCreditHang a k s from rfl, execWrpCreditHang, atAtt, ha, guardUnit_true]
  simp only [hf, runTo_past he]
  rfl

/-- A code that fails a step fails the run of its area's step (R434). -/
theorem curStep_report_fails {code b : Nat} {r : Report349} {s : State} {st : Step} (hc : codeClass code = 3) (hf : failsStep code = true)
    (hb : r.area = some b) (hs : curStep s b = some st) : ∃ x, curStep (report code r s) b = some x ∧ x.failed = true := by
  have hq : curStep (reportNoted code r s) b = some st := by
    rw [curStep, areaAt_reportNoted]
    exact hs
  obtain ⟨-, y, hy, hfailed, -⟩ := failStep_running (code := code) hb hq
  rw [report_fails hc]
  exact ⟨y, hy, by rw [hfailed, hf, Bool.or_true]⟩

theorem counted_reportEdge {code : Nat} (n p : Nat) (out : Bool) (s : State) (hc : codeClass code = 3) (hcode : 0x1903 < code) :
    counted (reportEdge code n p out s) code n = counted s code n + 1 := by
  unfold reportEdge
  exact counted_report_fails _ s hc hcode

theorem curStep_reportEdge {code n b : Nat} {s : State} {st : Step} (p : Nat) (out : Bool) (hc : codeClass code = 3) (hf : failsStep code = true)
    (hb : areaOfSite s n = some b) (hs : curStep s b = some st) : ∃ x, curStep (reportEdge code n p out s) b = some x ∧ x.failed = true := by
  unfold reportEdge
  exact curStep_report_fails hc hf hb hs

end Sys2Proof.Machine

open Sys2Proof Sys2Proof.Machine

/-- Settles O19: a selection at each site of the heddle, a port at its new bank, a credit back, a credit that hangs. -/
theorem pagesTakeEffectAndCreditsReturn : Obligations.PagesTakeEffectAndCreditsReturn := by
  refine ⟨fun n s hn => ⟨fun hk hs pg hp => ?page, fun p b hp hf hred => ?link, fun b hf hred => ?site⟩, fun a k e l r s ha => ⟨fun hf => ?back, fun hf he => ?hung⟩⟩
  case page =>
    have hex := execPageTakeEffect_now hn hk hs hp
    rw [selectPage_eq] at hex
    have h := sitesPaged_each pg (heddleSites_nodup (heddleOf n)) (modSu n (pageLeaves s.now pg) (excUp n 4 1 s))
    generalize each (heddleSites (heddleOf n)) (sitePaged pg) (modSu n (pageLeaves s.now pg) (excUp n 4 1 s)) = t at hex h
    have hsame : sameSwitches s (modSu n (pageLeaves s.now pg) (excUp n 4 1 s)) := sameSwitches_excUp n 4 1 s
    have hstop : ∀ m, (swAt (modSu n (pageLeaves s.now pg) (excUp n 4 1 s)) m).stopped = (swAt s m).stopped := fun m => by rw [hsame m]
    have hrun : ∀ m, (swAt s m).stopped = true → ¬ (swAt (modSu n (pageLeaves s.now pg) (excUp n 4 1 s)) m).stopped = false := fun m hr c =>
      Bool.noConfusion (hr.symm.trans ((hstop m).symm.trans c))
    refine ⟨t, hex, ?_, ?_, h.now, ?_, fun m hm hr p hp => ?_, fun m hm hr hmm => ?_, fun m hm hr => ⟨?_, ?_⟩, fun m hm => ⟨?_, ?_⟩⟩
    · rw [h.frame]
      rfl
    · rw [h.frame]
      rfl
    · have hsu : suAt t n = suAt (modSu n (pageLeaves s.now pg) (excUp n 4 1 s)) n := by
        rw [h.frame]
        rfl
      rw [hsu, suAt_modSu_self]
      rfl
    · rw [h.switch m, if_pos ⟨hm, (hstop m).trans hr⟩, outp_setPage _ _ _ hp]
      exact ⟨rfl, rfl⟩
    · rw [h.plan m, if_pos ⟨hm, (hstop m).trans hr, hmm⟩]
      exact ⟨rfl, rfl⟩
    · rw [h.switch m, if_neg fun c => hrun m hr c.2, hsame m]
    · rw [h.plan m, if_neg fun c => hrun m hr c.2.1]
      rfl
    · have hne : m ≠ n := by
        rintro rfl
        exact hm (mem_heddleSites_heddleOf m)
      rw [h.switch m, if_neg fun c => hm c.1, swAt_modSu, excUp, swAt_modSw_ne _ _ _ _ hne]
    · rw [h.plan m, if_neg fun c => hm c.1]
      rfl
  case link =>
    have hex := execFellBankSwitch_now hn hf
    rw [switchBank_link (by omega) hred] at hex
    refine ⟨_, hex, ⟨rfl, fun m hm => swAt_modSw_ne _ _ _ _ hm⟩, ?_, fun q hq => ?_, outp_portFelled_self n p b s.now s⟩
    · rw [portFelled, swAt_modSw_self]
    · rw [portFelled, swAt_modSw_self, look_alter_ne _ _ _ _ _ hq]
  case site =>
    have hex := execFellBankSwitch_now hn hf
    rw [switchBank_site hred] at hex
    obtain ⟨hfr, ⟨hb1, hp1, hs1⟩, hmx, hsf⟩ :=
      bankKept_swapSite (recsOfBank n b (portFelled n 4 b s.now s)) n (siteFelled n b s.now (portFelled n 4 b s.now s))
    generalize swapSite (recsOfBank n b (portFelled n 4 b s.now s)) n (siteFelled n b s.now (portFelled n 4 b s.now s)) = t at hex hfr hb1 hp1 hs1 hmx hsf
    have hq := siteFelled_frame n b s.now (portFelled n 4 b s.now s)
    refine ⟨t, hex, ?_, ?_, fun hk => ?_, fun hk => ?_, fun hk => ?_⟩
    · rw [hfr, hq]
      rfl
    · have hsw : swAt t n = swAt (portFelled n 4 b s.now s) n := by
        rw [hfr, hq]
        rfl
      rw [hsw]
      exact outp_portFelled_self n 4 b s.now s
    · rw [hb1, hp1, hs1, mmAt_siteFelled _ _ _ _ hk]
      exact ⟨rfl, rfl, rfl⟩
    · rw [hmx, seq_siteFelled_mx _ _ _ _ hk]
      rfl
    · rw [hsf, seq_siteFelled_sf _ _ _ _ hk]
      rfl
  case back =>
    have hex := execCreditReturn_oldest ha hf
    have hfr := tripCounted_frame k e (edgeSite a l).1 (modAtt a (creditBack k r) s)
    have hcount := counted_tripCounted k e (edgeSite a l).1 (modAtt a (creditBack k r) s)
    generalize tripCounted k e (edgeSite a l).1 (modAtt a (creditBack k r) s) = t at hex hfr hcount
    have hatt : ∀ b, attAt t b = attAt (modAtt a (creditBack k r) s) b := fun b => by
      rw [hfr]
      rfl
    have hself : attAt t a = creditBack k r (attAt s a) := (hatt a).trans (attAt_modAtt_self ..)
    refine ⟨t, hex, ?_, fun b hb => (hatt b).trans (attAt_modAtt_ne _ _ _ _ hb), ?_, ?_, ?_, fun j hj => ⟨?_, ?_⟩, hcount⟩
    · rw [hfr]
      rfl
    · rw [hself]
      rfl
    · rw [hself, creditBack, look_put_self]
    · rw [hself, creditBack, look_alter_self]
    · rw [hself, creditBack, look_put_ne _ _ _ _ _ hj]
    · rw [hself, creditBack, look_alter_ne _ _ _ _ _ hj]
  case hung =>
    obtain ⟨out, hex⟩ := execWrpCreditHang_late ha hf he
    have hnoted := noted_reportEdge (code := 0x3522) (edgeSite a l).1 (edgeSite a l).2 out (modAtt a (creditHung k) s) (.inl rfl)
    have hatt : ∀ b, attAt _ b = attAt (modAtt a (creditHung k) s) b := hnoted.attAt_eq
    refine ⟨_, hex, hnoted.sw_eq, hnoted.now_eq, fun b hb => ?_, ?_, ?_, counted_reportEdge _ _ _ _ rfl (by decide), fun b st hb hs => ?_⟩
    · rw [hatt, attAt_modAtt_ne _ _ _ _ hb]
    · rw [hatt, attAt_modAtt_self]
      rfl
    · rw [hatt, attAt_modAtt_self]
      simp only [creditHung, look_alter_self]
    · exact curStep_reportEdge _ _ rfl rfl hb hs
end

section
/-! SUPPORT. The parts of an MM site: little-endian bytes, rows and their code, creels, sub-banks; what a change of one leaves of the others. -/
namespace Sys2Proof.Machine

/-! ## Little-endian bytes (R46) -/

theorem leNat_append (l k : List Byte) : leNat (l ++ k) = leNat l + 256 ^ l.length * leNat k := by
  induction l with
  | nil => simp [leNat]
  | cons b l ih =>
    rw [List.cons_append, leNat, ih, leNat, List.length_cons, pow_succ]
    ring

theorem leNat_lt (l : List Byte) : leNat l < 256 ^ l.length := by
  induction l with
  | nil => exact Nat.one_pos
  | cons b l ih =>
    have hb := b.isLt
    rw [leNat, List.length_cons, pow_succ]
    omega

theorem leNat_drop (l : List Byte) (k : Nat) : leNat (l.drop k) = leNat l / 256 ^ k := by
  induction k generalizing l with
  | zero => simp
  | succ k ih =>
    cases l with
    | nil => simp [leNat]
    | cons b l =>
      have hb := b.isLt
      rw [List.drop_succ_cons, ih, leNat, pow_succ', ← Nat.div_div_eq_div_mul]
      congr 1
      omega

theorem leNat_take (l : List Byte) (k : Nat) : leNat (l.take k) = leNat l % 256 ^ k := by
  conv_rhs => rw [← List.take_append_drop k l, leNat_append]
  by_cases h : k ≤ l.length
  · rw [List.length_take_of_le h, Nat.add_mul_mod_self_left, Nat.mod_eq_of_lt]
    exact (leNat_lt _).trans_eq (by rw [List.length_take_of_le h])
  · have hlt := leNat_lt (l.take k)
    rw [List.drop_eq_nil_of_le (by omega), leNat, Nat.mul_zero, Nat.add_zero, Nat.mod_eq_of_lt]
    exact hlt.trans_le (Nat.pow_le_pow_right (by decide) (List.length_take_le ..))

theorem leBytes_leNat (l : List Byte) : leBytes l.length (leNat l) = l := by
  induction l with
  | nil => rfl
  | cons b l ih =>
    have hb := b.isLt
    rw [List.length_cons, leBytes, leNat, show (b.toNat + 256 * leNat l) / 256 = leNat l by omega, ih]
    congr 1
    apply BitVec.eq_of_toNat_eq
    rw [BitVec.toNat_ofNat]
    omega

/-- The bytes of a field depend on its own bits only. -/
theorem leBytes_mod (n x : Nat) : leBytes n (x % 256 ^ n) = leBytes n x := by
  induction n generalizing x with
  | zero => rfl
  | succ n ih =>
    rw [leBytes, leBytes, ← ih (x / 256), pow_succ', Nat.mod_mul_right_div_self, ih]
    congr 1
    apply BitVec.eq_of_toNat_eq
    rw [BitVec.toNat_ofNat, BitVec.toNat_ofNat, show 2 ^ 8 = 256 from rfl, Nat.mod_mul_right_mod]

/-- Chunk k of equal chunks. -/
theorem take_drop_flatMap_range {α : Type} {n w k : Nat} (f : Nat → List α) (hf : ∀ i, i < n → (f i).length = w) (hk : k < n) :
    (((List.range n).flatMap f).drop (w * k)).take w = f k := by
  induction n with
  | zero => exact absurd hk (Nat.not_lt_zero k)
  | succ n ih =>
    have hlen : ((List.range n).flatMap f).length = w * n := by
      rw [List.length_flatMap, List.map_congr_left fun i hi => hf i (Nat.lt_succ_of_lt (List.mem_range.mp hi)), List.map_const', List.length_range,
        List.sum_replicate, smul_eq_mul, Nat.mul_comm]
    rw [List.range_succ, List.flatMap_append, List.flatMap_singleton]
    rcases Nat.lt_succ_iff_lt_or_eq.mp hk with h | rfl
    · have hw : w * k + w ≤ w * n := by
        rw [← Nat.mul_succ]
        exact Nat.mul_le_mul_left w h
      rw [List.drop_append_of_le_length (by omega), List.take_append_of_le_length (by rw [List.length_drop]; omega)]
      exact ih (fun i hi => hf i (Nat.lt_succ_of_lt hi)) h
    · rw [← hlen, List.drop_left, ← hf k (Nat.lt_succ_self k), List.take_length]

/-! ## Stores of bytes and of code states -/

theorem bytesAt_eq_map (m : Tab Byte) (a n : Nat) : bytesAt m a n = (List.range n).map fun i => look 0 m (a + i) := by
  induction n generalizing a with
  | zero => rfl
  | succ n ih =>
    rw [bytesAt, ih, List.range_succ_eq_map]
    simp [Function.comp_def, Nat.add_assoc, Nat.add_comm 1]

theorem length_bytesAt (m : Tab Byte) (a n : Nat) : (bytesAt m a n).length = n := by
  rw [bytesAt_eq_map, List.length_map, List.length_range]

/-- Bytes i to i + k - 1 of those from a. -/
theorem take_drop_bytesAt (m : Tab Byte) {a n i k : Nat} (h : i + k ≤ n) : ((bytesAt m a n).drop i).take k = bytesAt m (a + i) k := by
  apply List.ext_getElem
  · simp only [List.length_take, List.length_drop, length_bytesAt]
    omega
  · intro j _ _
    simp only [bytesAt_eq_map, List.getElem_take, List.getElem_drop, List.getElem_map, List.getElem_range, Nat.add_assoc]

theorem look_putCodes (t : Tab CellCode) (a j : Nat) (l : List CellCode) :
    look .good (putCodes t a l) j = if a ≤ j ∧ j < a + l.length then l.getD (j - a) .good else look .good t j := by
  induction l generalizing t a with
  | nil => exact (if_neg fun h => absurd h (by simp only [List.length_nil]; omega)).symm
  | cons c l ih =>
    rw [putCodes, ih, look_put]
    by_cases h : j = a
    · subst h
      simp
    · by_cases hin : a + 1 ≤ j ∧ j < a + 1 + l.length
      · rw [if_pos hin, if_pos (by simp only [List.length_cons]; omega), show j - a = (j - (a + 1)) + 1 by omega, List.getD_cons_succ]
      · rw [if_neg hin, if_neg h, if_neg (by simp only [List.length_cons]; omega)]

theorem putCodes_read_back (t : Tab CellCode) (a : Nat) (l : List CellCode) :
    ((List.range l.length).map fun c => look .good (putCodes t a l) (a + c)) = l := by
  apply List.ext_getElem
  · rw [List.length_map, List.length_range]
  · intro i _ hi
    rw [List.getElem_map, List.getElem_range, look_putCodes, if_pos (by omega), Nat.add_sub_cancel_left, List.getD_eq_getElem _ _ hi]

/-! ## Rows (R111, R136-R142) -/

section
variable (m : Mm) (b r : Nat)

theorem length_mmRow : (mmRow m b r).length = 64 := length_bytesAt ..

theorem length_mmCells : (mmCells m b r).length = 4 := by rw [mmCells, List.length_map, List.length_range]

/-- Cell c of a row, as the store holds it. -/
theorem cell_mmRow (p : Nat) : ((mmRow m b r).drop (16 * (p % 4))).take 16 = bytesAt m.mem (mmRowAddr m b r + 16 * (p % 4)) 16 :=
  take_drop_bytesAt _ (by omega)

/-- Codes written to a row are read back. -/
theorem mmCells_putCodes {y : Mm} {l : List CellCode} (hr : y.remap = m.remap) (hl : l.length = 4) (hc : y.code = putCodes m.code (mmRowAddr m b r / 16) l) :
    mmCells y b r = l := by
  have ha : mmRowAddr y b r = mmRowAddr m b r := by unfold mmRowAddr physRow remapVal; rw [hr]
  have h := putCodes_read_back m.code (mmRowAddr m b r / 16) l
  rw [mmCells, ha, hc]
  rwa [hl] at h

/-! With no corruption armed (R141) a read finds the row as it is stored. -/

variable {m} (h : m.inj = none)
include h

theorem injSymbols_unarmed (c : Nat) : injSymbols m b r c = [] := by simp only [injSymbols, h]

theorem injUsed_unarmed : injUsed m b r = none := by simp only [injUsed, h]

theorem rowOutcomes_unarmed : rowOutcomes m b r = mmCells m b r := by
  have hd : ∀ c : CellCode, decodeCell c 0 = c := by rintro (_ | _ | _ | _) <;> rfl
  simp only [rowOutcomes, injSymbols_unarmed b r h, List.length_nil, hd, mmCells, zip_map_range, List.map_map, Function.comp_def]

theorem rowData_unarmed : rowData m b r = mmRow m b r := by
  have e := leBytes_leNat (mmRow m b r)
  rw [length_mmRow] at e
  simp only [rowData, injSymbols_unarmed b r h, List.foldl_nil, ite_self]
  change leBytes 64 (leNat (mmRow m b r) ^^^ 0) = _
  rwa [Nat.xor_zero]

end

/-! ## Creels and sub-banks (R121, R145) -/

section
variable (m : Mm)

@[simp] theorem subAt_modSub_self (b : Nat) (f : SubBank → SubBank) : subAt (modSub b f m) b = f (subAt m b) := look_alter_self ..
theorem subAt_modSub_ne {b k : Nat} (f : SubBank → SubBank) (h : k ≠ b) : subAt (modSub b f m) k = subAt m k := look_alter_ne _ _ _ _ _ h
@[simp] theorem creelAt_modCreel_self (i : Nat) (f : Creel → Creel) : creelAt (modCreel i f m) i = f (creelAt m i) := look_alter_self ..
theorem creelAt_modCreel_ne {i k : Nat} (f : Creel → Creel) (h : k ≠ i) : creelAt (modCreel i f m) k = creelAt m k := look_alter_ne _ _ _ _ _ h
@[simp] theorem creelAt_modSub (b k : Nat) (f : SubBank → SubBank) : creelAt (modSub b f m) k = creelAt m k := rfl

end

/-! ## Changes of one MM site -/

theorem onlyMm.refl (n : Nat) (s : State) : onlyMm n s s := ⟨rfl, fun _ _ => rfl⟩

theorem onlyMm.trans {n : Nat} {s q t : State} (h : onlyMm n s q) (k : onlyMm n q t) : onlyMm n s t := by
  obtain ⟨hf, ho⟩ := h
  obtain ⟨kf, ko⟩ := k
  refine ⟨?_, fun m hm => (ko m hm).trans (ho m hm)⟩
  rw [hf] at kf
  exact kf

theorem onlyMm_modMm (n : Nat) (g : Mm → Mm) (s : State) : onlyMm n s (modMm n g s) := ⟨rfl, fun _ hm => mmAt_modMm_ne _ _ _ _ hm⟩

theorem onlyMm.modMm {n : Nat} {s t : State} (h : onlyMm n s t) (g : Mm → Mm) : onlyMm n s (modMm n g t) := h.trans (onlyMm_modMm n g t)

theorem onlyMm.now {n : Nat} {s t : State} (h : onlyMm n s t) : t.now = s.now := by rw [h.1]

/-- A clean row read with no corruption armed: its bytes, not sour; the site stays as it is. -/
theorem mmRead_clean {n b r : Nat} {s : State} (hc : mmCells (mmAt s n) b r = List.replicate 4 .good) (hi : (mmAt s n).inj = none) :
    ∃ t, mmRead n b r s = (mmRow (mmAt s n) b r, false, t) ∧ onlyMm n s t ∧ mmAt t n = mmAt s n := by
  refine ⟨modMm n (fun m => { m with inj := injUsed m b r }) s, ?_, onlyMm_modMm .., ?_⟩
  · simp only [mmRead, rowOutcomes_unarmed b r hi, rowData_unarmed b r hi, hc]
    rfl
  · rw [mmAt_modMm_self, injUsed_unarmed b r hi, ← hi]

end Sys2Proof.Machine
end

section
/-! Pushes and pulls of creels (R112-R115, R117, R121, R124): O21. -/
namespace Sys2Proof.Machine

/-! ## Deliveries at an MM site (R97, R114) -/

section
variable {n tag : Nat} {s : State} {d : Deliv} {rest : List Deliv}

/-- A delivery with its tag waits for no token. -/
theorem headDeliv_tagged (hd : (swAt s n).deliv = d :: rest) (ht : d.tag = some tag) : headDeliv s n = some d := by
  simp only [headDeliv, hd, awaitsTag, ht, List.head?_cons, Option.filter_some, Option.isNone_some, Bool.and_false, Bool.false_and, Bool.not_false, if_true]

theorem takeDeliv_now (n : Nat) (h : d.due = s.now) : takeDeliv n d s = deliveryTaken n s := by
  rw [takeDeliv, runTo_past (Nat.le_of_eq h)]
  rfl

theorem mmTake_tagged {p : Option Nat → Bool} (hr : siteRuns s n = true) (hd : (swAt s n).deliv = d :: rest) (hdue : d.due = s.now) (ht : d.tag = some tag)
    (hp : p (some tag) = true) : mmTake n p s = mmHandle n d (deliveryTaken n s) := by
  simp only [mmTake, headDeliv_tagged hd ht, ht, hp, takeDeliv_now n hdue, siteRuns_deliveryTaken, hr, if_true]

end

/-! ## A free sub-bank (R119, R124, R146) -/

section
variable {n b i : Nat} {push : Bool} {s : State} (h : (subAt (mmAt s n) b).lastSched ≠ some s.now)
include h

theorem schedNow_free : schedNow s n b = false := beq_eq_false_iff_ne.mpr h

theorem partner_free : partner s n b i push = none := by
  simp only [partner, accessesNow, schedNow_free h, Bool.false_eq_true, if_false]

theorem testedCreel_free : testedCreel s n b i push = creelAt (mmAt s n) i := by simp only [testedCreel, partner_free h]

theorem mmBlocked_free (hp : (subAt (mmAt s n) b).power = 0) : mmBlocked n b i push s = none := by
  simp only [mmBlocked, hp, schedNow_free h, ne_eq, not_true_eq_false, if_false, Bool.false_and, Bool.false_eq_true]

end

theorem modMm_congr {n : Nat} {f g : Mm → Mm} {s : State} (h : f (mmAt s n) = g (mmAt s n)) : modMm n f s = modMm n g s := by
  unfold mmAt at h
  unfold modMm alter
  rw [h]

/-! ## A push (R114, R115, R121, R124) -/

/-- The transfer l lands at TAIL of creel i. -/
def cellsPushed (i : Nat) (l : List Byte) (sour : Bool) (m : Mm) : Mm :=
  let c := creelAt m i
  modCreel i (fun x => x.pushed (crPadv c.desc)) (mmWrite (crSub c.desc) (crRow c.desc c.tail) (c.tail % 4) (l.take (16 * crPadv c.desc)) sour m)

/-- Where creel i has its next cell written. -/
def tailAddr (m : Mm) (i : Nat) : Nat :=
  let c := creelAt m i
  mmRowAddr m (crSub c.desc) (crRow c.desc c.tail) + 16 * (c.tail % 4)

section
variable (i : Nat) (l : List Byte) (sour : Bool) (m : Mm)

@[simp] theorem creelAt_cellsPushed_self : creelAt (cellsPushed i l sour m) i = (creelAt m i).pushed (crPadv (creelAt m i).desc) :=
  creelAt_modCreel_self ..

theorem creelAt_cellsPushed_ne {k : Nat} (h : k ≠ i) : creelAt (cellsPushed i l sour m) k = creelAt m k := creelAt_modCreel_ne _ _ h

variable {l} (hl : l.length = 64) (hp : crPadv (creelAt m i).desc ≤ 4)
include hl hp

theorem length_transfer : (l.take (16 * crPadv (creelAt m i).desc)).length = 16 * crPadv (creelAt m i).desc := List.length_take_of_le (by omega)

theorem bytesAt_cellsPushed :
    bytesAt (cellsPushed i l sour m).mem (tailAddr m i) (16 * crPadv (creelAt m i).desc) = l.take (16 * crPadv (creelAt m i).desc) := by
  have h := bytesAt_putBytes_self m.mem (tailAddr m i) (l.take (16 * crPadv (creelAt m i).desc))
  rwa [length_transfer i m hl hp] at h

theorem look_cellsPushed {j : Nat} (h : ¬ (tailAddr m i ≤ j ∧ j < tailAddr m i + 16 * crPadv (creelAt m i).desc)) :
    look 0 (cellsPushed i l sour m).mem j = look 0 m.mem j := by
  refine (look_putBytes ..).trans (if_neg ?_)
  rwa [length_transfer i m hl hp]

end

/-- A push of a clean half into a creel with room, its sub-bank free. -/
theorem mmPush_stored {n i : Nat} {half : List Byte} {s : State} (hp : (subAt (mmAt s n) (crSub (creelAt (mmAt s n) i).desc)).power = 0)
    (hs : (subAt (mmAt s n) (crSub (creelAt (mmAt s n) i).desc)).lastSched ≠ some s.now)
    (hroom : crPadv (creelAt (mmAt s n) i).desc ≤ crFree (creelAt (mmAt s n) i)) :
    mmPush n i half false s = excUp n 4 1 (modMm n (cellsPushed i half false)
      (markSched n (crSub (creelAt (mmAt s n) i).desc) true (crRow (creelAt (mmAt s n) i).desc (creelAt (mmAt s n) i).tail) i s)) := by
  simp only [mmPush, mmBlocked_free hs hp, testedCreel_free hs, Nat.not_lt.mpr hroom, Bool.false_eq_true, if_false]
  congr 1
  refine modMm_congr ?_
  simp only [cellsPushed, markSched, mmAt_modMm_self, creelAt_modSub]

/-- A flit whose tag pushes one half, clean, into a creel that takes pushes. -/
theorem mmPushFlit_half {n tag i : Nat} {hi : Bool} {f : Flit} {s : State} (h9 : bit tag 9 = hi) (h8 : bit tag 8 = !hi)
    (hi' : i = if hi then bits tag 7 4 else bits tag 3 0) (hf : f.sour = 0) (hm : crMode (creelAt (mmAt s n) i).desc = 1 ∨ crMode (creelAt (mmAt s n) i).desc = 3) :
    mmPushFlit n tag f s = mmPush n i (if hi then (rowBytes f.data).drop 64 else (rowBytes f.data).take 64) false s := by
  have hl : lowSour f = false := by rw [lowSour, hf]; rfl
  have hh : highSour f = false := by rw [highSour, hf]; rfl
  have hmode : (crMode (creelAt (mmAt s n) i).desc == 0 || crMode (creelAt (mmAt s n) i).desc == 2) = false := by
    rcases hm with e | e <;> rw [e] <;> rfl
  have hnames : pushNames tag = [i] := by
    subst hi'
    cases hi <;> simp [pushNames, h9, h8]
  simp only [mmPushFlit, hnames, List.find?_singleton, hmode, Bool.false_eq_true, if_false, h9, h8, Bool.and_not_self, Bool.false_and, hl, hh]
  rw [hi']
  cases hi <;> rfl

/-! ## A pull (R112, R117, R121, R124) -/

/-- CADV cells of the row from HEAD's on, and zeros to the end of the half. -/
def pulledHalf (m : Mm) (i : Nat) : List Byte :=
  let c := creelAt m i
  let cells := ((mmRow m (crSub c.desc) (crRow c.desc c.head)).drop (16 * (c.head % 4))).take (16 * crCadv c.desc)
  cells ++ List.replicate (64 - cells.length) 0

/-- Site n's creel i has given CADV cells; the other creels, the bytes and their code stay, and so do the other sites. -/
structure Pulled (n i : Nat) (s t : State) : Prop where
  frame : t = { s with mm := t.mm, sw := t.sw }
  sites : ∀ k, k ≠ n → mmAt t k = mmAt s k ∧ swAt t k = swAt s k
  fly : (swAt t n).fly = (swAt s n).fly
  mem : (mmAt t n).mem = (mmAt s n).mem
  code : (mmAt t n).code = (mmAt s n).code
  head : (creelAt (mmAt t n) i).head = ptrAdd (crCap (creelAt (mmAt s n) i).desc) (creelAt (mmAt s n) i).head (crCadv (creelAt (mmAt s n) i).desc)
  tail : (creelAt (mmAt t n) i).tail = (creelAt (mmAt s n) i).tail
  others : ∀ k, k ≠ i → creelAt (mmAt t n) k = creelAt (mmAt s n) k

theorem Pulled.excUp {n i : Nat} {s t : State} (h : Pulled n i s t) (j k : Nat) : Pulled n i s (excUp n j k t) := by
  obtain ⟨hf, ho, hfly, hm, hc, hh, ht, hk⟩ := h
  refine ⟨?_, fun m hm => ⟨(ho m hm).1, (swAt_modSw_ne _ _ _ _ hm).trans (ho m hm).2⟩, (fly_excUp n j k t n).trans hfly, hm, hc, hh, ht, hk⟩
  rw [hf]
  rfl

theorem mmPull_clean {n i : Nat} {s : State} (hp : (subAt (mmAt s n) (crSub (creelAt (mmAt s n) i).desc)).power = 0)
    (hs : (subAt (mmAt s n) (crSub (creelAt (mmAt s n) i).desc)).lastSched ≠ some s.now) (hm : crMode (creelAt (mmAt s n) i).desc ≠ 0)
    (hocc : crCadv (creelAt (mmAt s n) i).desc
      ≤ if crMode (creelAt (mmAt s n) i).desc = 3 then crCommitted (creelAt (mmAt s n) i) else crOcc (creelAt (mmAt s n) i))
    (hc : mmCells (mmAt s n) (crSub (creelAt (mmAt s n) i).desc) (crRow (creelAt (mmAt s n) i).desc (creelAt (mmAt s n) i).head) = List.replicate 4 .good)
    (hi : (mmAt s n).inj = none) : ∃ t, mmPull n i s = (pulledHalf (mmAt s n) i, false, t) ∧ Pulled n i s t := by
  have hno : ¬ (crMode (creelAt (mmAt s n) i).desc = 0 ∨ (if crMode (creelAt (mmAt s n) i).desc = 3 then crCommitted (creelAt (mmAt s n) i)
      else crOcc (creelAt (mmAt s n) i)) < crCadv (creelAt (mmAt s n) i).desc) := fun h => h.elim hm (Nat.not_lt.mpr hocc)
  simp only [mmPull, mmBlocked_free hs hp, testedCreel_free hs, partner_free hs, hno, if_false]
  generalize hq : markSched n (crSub (creelAt (mmAt s n) i).desc) false (crRow (creelAt (mmAt s n) i).desc (creelAt (mmAt s n) i).head) i s = q
  have hqs : onlyMm n s q := hq ▸ onlyMm_modMm ..
  have hqm : ∃ f, mmAt q n = modSub (crSub (creelAt (mmAt s n) i).desc) f (mmAt s n) := ⟨_, by rw [← hq, markSched, mmAt_modMm_self]⟩
  obtain ⟨f, hqm⟩ := hqm
  obtain ⟨t, ht, hqt, htm⟩ := mmRead_clean (n := n) (b := crSub (creelAt (mmAt s n) i).desc) (r := crRow (creelAt (mmAt s n) i).desc (creelAt (mmAt s n) i).head)
    (s := q) (by rw [hqm]; exact hc) (by rw [hqm]; exact hi)
  rw [ht]
  refine ⟨_, by rw [hqm]; rfl, Pulled.excUp ?_ 3 1⟩
  have hst := hqs.trans hqt
  generalize (match areaOfSite q n with | some a => (match curStep q a with | some k => k.k | none => 0) | none => 0) = k
  constructor
  case frame => rw [modMm, hst.1]
  case sites =>
    intro m hm
    refine ⟨(mmAt_modMm_ne _ _ _ _ hm).trans (hst.2 m hm), ?_⟩
    rw [swAt_modMm, hst.1]
    rfl
  case fly =>
    rw [swAt_modMm, hst.1]
    rfl
  case mem =>
    rw [mmAt_modMm_self, modCreel, htm, hqm]
    rfl
  case code =>
    rw [mmAt_modMm_self, modCreel, htm, hqm]
    rfl
  case head => rw [mmAt_modMm_self, creelAt_modCreel_self, htm, hqm, creelAt_modSub]
  case tail => rw [mmAt_modMm_self, creelAt_modCreel_self, htm, hqm, creelAt_modSub]
  case others =>
    intro m hm
    rw [mmAt_modMm_self, creelAt_modCreel_ne _ _ hm, htm, hqm, creelAt_modSub]

/-- A pull entry for one half sends it beside a half of zeros. -/
theorem pullEntry_half {n e : Nat} {hi : Bool} {l : List Byte} {s t : State} (h5 : bit e 5 = !hi) (h4 : bit e 4 = hi)
    (hp : mmPull n (if hi then bits e 9 6 else bits e 13 10) s = (l, false, t)) :
    pullEntry n e s = inject n s.now
      { data := rowOf (if hi then List.replicate 64 0 ++ l else l ++ List.replicate 64 0), sour := 0 } (excUp n 5 1 t) := by
  cases hi with
  | false =>
    simp only [Bool.false_eq_true, if_false] at hp
    simp only [pullEntry, h5, h4, Bool.not_false, Bool.not_true, Bool.and_false, Bool.false_and, Bool.false_eq_true, if_false, if_true, hp]
    rfl
  | true =>
    simp only [if_true] at hp
    simp only [pullEntry, h5, h4, Bool.not_false, Bool.not_true, Bool.and_true, Bool.false_and, Bool.and_false, Bool.false_eq_true, if_false, if_true, hp]
    rfl

end Sys2Proof.Machine

open Sys2Proof Sys2Proof.Machine

/-- Settles O21: a push lands by cellsPushed, a pull reads its row clean and moves HEAD. -/
theorem creelsPushAndPull : Obligations.CreelsPushAndPull := by
  refine ⟨fun n tag i hi s d rest hn hk hr hd hdue ht hkind h9 h8 hi' hf => ?push, fun n hi s hn hk hr => ?pull⟩
  case push =>
    intro m c b hmode hpow hsched hroom a half hpadv
    have hex : exec (.mmDelivery n) s = .next (mmPush n i half false (deliveryTaken n s)) := by
      rw [show exec (.mmDelivery n) s = execMmDelivery n s from rfl, execMmDelivery, onSite_of_kind hn hk,
        mmTake_tagged hr hd hdue ht rfl, mmHandle]
      simp only [ht, hkind, if_true]
      rw [mmPushFlit_half (s := deliveryTaken n s) h9 h8 hi' hf hmode]
    rw [mmPush_stored (s := deliveryTaken n s) hpow hsched hroom] at hex
    have hhalf : half.length = 64 := by
      have hlen := length_rowBytes d.flit.data
      cases hi
      · exact (List.length_take ..).trans (by rw [hlen]; rfl)
      · exact (List.length_drop ..).trans (by rw [hlen])
    refine ⟨_, hex, rfl, fun k hkn => ?_, ?_⟩
    · exact (mmAt_modMm_ne _ _ _ _ hkn).trans (mmAt_modMm_ne _ _ _ _ hkn)
    · intro y
      obtain ⟨f, hy⟩ : ∃ f, y = cellsPushed i half false (modSub b f m) := ⟨_, by
        change mmAt (modMm n _ _) n = _
        rw [mmAt_modMm_self, markSched, mmAt_modMm_self]
        rfl⟩
      rw [hy]
      exact ⟨rfl, bytesAt_cellsPushed i _ (modSub b f m) hhalf hpadv, fun j hj => look_cellsPushed i _ (modSub b f m) hhalf hpadv hj,
        creelAt_cellsPushed_self .., fun k hki => creelAt_cellsPushed_ne _ _ _ _ hki⟩
  case pull =>
    intro m e i c b row hkind h5 h4 hsp hmode hocc _ hpow hsched hcells hinj cells half zero
    obtain ⟨t, hpull, ht⟩ := mmPull_clean (i := i) hpow hsched hmode hocc hcells hinj
    have hex : exec (.pullEntryExec n) s = .next (pullEntry n e s) := by
      rw [show exec (.pullEntryExec n) s = execPullEntryExec n s from rfl, execPullEntryExec, onSite_of_kind hn hk]
      have hsp : sparseLeaves (mmAt s n) s.now = false := hsp
      simp only [hr, Bool.not_true, Bool.false_eq_true, if_false, hsp, Bool.false_and]
      exact congrArg Host.Outcome.next (if_pos hkind)
    rw [pullEntry_half h5 h4 hpull] at hex
    have hu := ht.excUp 5 1
    generalize excUp n 5 1 t = u at hex hu
    refine ⟨_, hex, ?_, fun k hkn => ⟨(hu.sites k hkn).1, (swAt_modSw_ne _ _ _ _ hkn).trans (hu.sites k hkn).2⟩, ?_, hu.mem, hu.code, hu.head, hu.tail, hu.others⟩
    · rw [inject, modSw, hu.frame]
    · rw [inject, swAt_modSw_self, hu.fly]
      rfl
end

section
/-! DMA operations, scrub and write-back (R129-R135, R137, R140): O22. -/
namespace Sys2Proof.Machine

/-! ## Arrival of an operation (R131) -/

/-- An operation is in sub-bank b's queue. -/
def queued (b : Nat) (o : DmaOp) : Mm → Mm := modSub b fun x => { x with dmaq := x.dmaq ++ [o] }

theorem dmaArrive_queued {n : Nat} {f : Flit} {s : State} (ho : (dmaOpOf f).op ≠ 0)
    (hp : (subAt (mmAt s n) (crSub (creelAt (mmAt s n) (dmaOpOf f).creel).desc)).power = 0)
    (hq : (subAt (mmAt s n) (crSub (creelAt (mmAt s n) (dmaOpOf f).creel).desc)).dmaq.length < 4) :
    onlyMm n s (dmaArrive n f s) ∧ ∃ g, mmAt (dmaArrive n f s) n
      = queued (crSub (creelAt (mmAt s n) (dmaOpOf f).creel).desc) { dmaOpOf f with arr := s.now } { mmAt s n with granted := g } := by
  simp only [dmaArrive, if_neg ho]
  generalize ht : modMm n (fun m => { m with granted := alter 0 m.granted (bits (flitHdr f) 31 28) (· - bits (flitHdr f) 47 32) }) s = t
  have hts : onlyMm n s t := ht ▸ onlyMm_modMm ..
  obtain ⟨g, hg⟩ : ∃ g, mmAt t n = { mmAt s n with granted := g } := ⟨_, by rw [← ht, mmAt_modMm_self]⟩
  have hcreel : creelAt (mmAt t n) (dmaOpOf f).creel = creelAt (mmAt s n) (dmaOpOf f).creel := by rw [hg]; rfl
  have hsub : ∀ b, subAt (mmAt t n) b = subAt (mmAt s n) b := fun b => by rw [hg]; rfl
  rw [hcreel, hsub, if_neg fun h => h.2 hp, if_neg (Nat.not_le.mpr hq)]
  refine ⟨hts.modMm _, g, ?_⟩
  rw [mmAt_modMm_self, hg, hts.now]
  rfl

theorem execDmaOpArrival_taken {n : Nat} {s : State} {d : Deliv} {rest : List Deliv} (hn : sitePresent s.member n = true) (hk : kindOf n = .mm)
    (hr : siteRuns s n = true) (hd : (swAt s n).deliv = d :: rest) (hdue : d.due = s.now) (ht : d.tag = some 0x400) :
    exec (.dmaOpArrival n) s = .next (dmaArrive n d.flit (deliveryTaken n s)) := by
  rw [show exec (.dmaOpArrival n) s = execDmaOpArrival n s from rfl, execDmaOpArrival, onSite_of_kind hn hk]
  simp only [headDeliv_tagged hd ht, ht, hr, and_self, if_true, takeDeliv_now n hdue]

/-! ## An access of lower priority (R112, R133) -/

/-- Sub-bank b has made its access of ACLK u. -/
def aclkTaken (b u : Nat) : Mm → Mm := modSub b fun x => { x with lowNext := u + 1 }

/-- The last ACLK is free for an access that may be made since ACLK e, before now. -/
theorem lowAccess_last {n b e : Nat} {s : State} (he : e < s.now) (hl : (subAt (mmAt s n) b).lowNext < s.now)
    (hs : ∀ u, (subAt (mmAt s n) b).lastSched = some u → u + 1 < s.now) : lowAccess n b e s = some (modMm n (aclkTaken b (s.now - 1)) s) := by
  have hpos : 0 < s.now := Nat.zero_lt_of_lt he
  have hfree : (subAt (mmAt s n) b).lastSched ≠ some (s.now - 1) := fun h => by
    have := hs _ h
    omega
  have hlast : (subAt (mmAt s n) b).lastSched.getD 0 < s.now := by
    cases h : (subAt (mmAt s n) b).lastSched with
    | none => exact hpos
    | some u => exact Nat.lt_of_succ_lt (hs u h)
  simp only [lowAccess, hpos, Nat.le_sub_one_of_lt he, Nat.le_sub_one_of_lt hl, hfree, hlast, decide_true, Bool.and_self, ne_eq, not_false_eq_true, and_self, if_true]
  rfl

theorem power_aclkTaken (b k u : Nat) (m : Mm) : (subAt (aclkTaken b u m) k).power = (subAt m k).power := by
  by_cases h : k = b
  · subst h
    rw [aclkTaken, subAt_modSub_self]
  · rw [aclkTaken, subAt_modSub_ne _ _ h]

/-! ## Service of a queue's head (R130, R131, R134, R135) -/

/-- The operation o of a creel of sub-bank b is the head of its queue, and the last ACLK is free for its service. -/
structure HeadDue (n b : Nat) (o : DmaOp) (rest : List DmaOp) (s : State) : Prop where
  site : sitePresent s.member n = true
  kind : kindOf n = .mm
  sub : b < 4
  queue : (subAt (mmAt s n) b).dmaq = o :: rest
  low : (subAt (mmAt s n) b).lowNext < s.now
  arrived : o.arr < s.now
  sched : ∀ u, (subAt (mmAt s n) b).lastSched = some u → u + 1 < s.now
  own : crSub (creelAt (mmAt s n) o.creel).desc = b

/-- The state in which the operation is served. -/
def atService (n b : Nat) (s : State) : State := modMm n (aclkTaken b (s.now - 1)) s

theorem mmAt_atService (n b : Nat) (s : State) : mmAt (atService n b s) n = aclkTaken b (s.now - 1) (mmAt s n) := mmAt_modMm_self ..

theorem onlyMm_atService (n b : Nat) (s : State) : onlyMm n s (atService n b s) := onlyMm_modMm ..

theorem creelAt_atService (n b : Nat) (s : State) (i : Nat) : creelAt (mmAt (atService n b s) n) i = creelAt (mmAt s n) i := by
  rw [mmAt_atService, aclkTaken, creelAt_modSub]

theorem mmCells_atService (n b : Nat) (s : State) (k r : Nat) : mmCells (mmAt (atService n b s) n) k r = mmCells (mmAt s n) k r := by
  rw [mmAt_atService]
  rfl

theorem HeadDue.power {n b : Nat} {o : DmaOp} {rest : List DmaOp} {s : State} (h : HeadDue n b o rest s) (hp : (subAt (mmAt s n) b).power = 0) :
    (subAt (mmAt (atService n b s) n) (crSub (creelAt (mmAt (atService n b s) n) o.creel).desc)).power = 0 := by
  rw [creelAt_atService, h.own, mmAt_atService, power_aclkTaken, hp]

/-- x stays of the head that has been served; but for the queues, the site is as the service left it. -/
theorem HeadDue.service {n b : Nat} {o : DmaOp} {rest : List DmaOp} {s t : State} {x : Option DmaOp} (h : HeadDue n b o rest s)
    (hserve : dmaServe n o (atService n b s) = (t, x)) (ht : onlyMm n (atService n b s) t) :
    ∃ u, exec (.dmaQueueService n b) s = .next u ∧ onlyMm n s u ∧ (subAt (mmAt u n) b).dmaq = x.toList ++ rest
      ∧ mmAt u n = { mmAt t n with subs := (mmAt u n).subs } := by
  refine ⟨modMm n (modSub b fun y => { y with dmaq := x.toList ++ rest }) t, ?_, ((onlyMm_atService n b s).trans ht).modMm _, ?_, ?_⟩
  · rw [show exec (.dmaQueueService n b) s = execDmaQueueService n b s from rfl, execDmaQueueService, onSite_of_kind h.site h.kind]
    unfold atService at hserve
    simp only [Nat.mod_eq_of_lt h.sub, h.queue, lowAccess_last h.arrived h.low h.sched, hserve]
  · rw [mmAt_modMm_self, subAt_modSub_self]
  · rw [mmAt_modMm_self]
    rfl

/-- An answer waits in the return queue. -/
def answered (r : DmaRet) (m : Mm) : Mm := { m with retq := m.retq ++ [r] }

/-- The push of a DMA operation takes its credit (R132). -/
def elasticPushed (i : Nat) (l : List Byte) (sour : Bool) (m : Mm) : Mm := { cellsPushed i l sour m with granted := alter 0 m.granted i (· - 1) }

/-- Where a read begins, and which cells it has so far. -/
def readStart (c : Creel) (o : DmaOp) : HalfRead :=
  o.half.getD { ptr := ptrAdd (crCap c.desc) c.head o.arg, vis := crCommitted c - o.arg, cells := [], sour := 0 }

theorem readStart_new {c : Creel} {o : DmaOp} (h : o.half = none) :
    readStart c o = { ptr := ptrAdd (crCap c.desc) c.head o.arg, vis := crCommitted c - o.arg, cells := [], sour := 0 } := by
  rw [readStart, h]
  rfl

/-- The rows, one or two, in which the four cells from pointer p lie. -/
def readRows (c : Creel) (p : Nat) : List Nat := ((readPtrs c p).map (crRow c.desc)).eraseDups

section
variable {n : Nat} {s : State} {o : DmaOp}

theorem dmaServe_push (h1 : o.op = 1) (hm : crMode (creelAt (mmAt s n) o.creel).desc = 2)
    (hp : (subAt (mmAt s n) (crSub (creelAt (mmAt s n) o.creel).desc)).power = 0)
    (hroom : crPadv (creelAt (mmAt s n) o.creel).desc ≤ crFree (creelAt (mmAt s n) o.creel)) (hb : s.bulk = []) :
    dmaServe n o s = (modMm n (elasticPushed o.creel (leBytes 64 o.data.toNat) (decide (o.sour ≠ 0))) s, none) := by
  simp only [dmaServe, if_pos h1, hm, ne_eq, not_true_eq_false, if_false, hp, Nat.not_lt.mpr hroom, bulkPush, modMm_bulk, hb, List.find?_nil]
  rfl

theorem dmaServe_refused (h2 : o.op = 2) (hh : o.half = none) (hq : (mmAt s n).retq.length < 4) (hst : dmaStatus (creelAt (mmAt s n) o.creel) o ≠ 0) :
    dmaServe n o s = (modMm n (answered (retOf o 2 (dmaStatus (creelAt (mmAt s n) o.creel) o) 0 0)) s, none) := by
  have h1 : ¬ o.op = 1 := by omega
  simp only [dmaServe, if_neg h1, Nat.not_le.mpr hq, if_false, hh, Option.isNone_none, and_true, if_pos hst]
  rfl

theorem dmaServe_drain (h3 : o.op = 3) (hq : (mmAt s n).retq.length < 4) (hst : dmaStatus (creelAt (mmAt s n) o.creel) o = 0) :
    dmaServe n o s = (modMm n (answered (retOf o 1 0 0 0)) (modMm n (modCreel o.creel (Creel.drained o.arg)) s), none) := by
  have h1 : ¬ o.op = 1 := by omega
  have h2 : ¬ o.op = 2 := by omega
  simp only [dmaServe, if_neg h1, Nat.not_le.mpr hq, if_false, hst, ne_eq, not_true_eq_false, false_and, if_neg h2]
  rfl

/-- A read makes one access; its first where the cells lie in two rows leaves the rest waiting. -/
theorem dmaServe_read (h2 : o.op = 2) (hq : (mmAt s n).retq.length < 4) (hst : o.half.isNone = true → dmaStatus (creelAt (mmAt s n) o.creel) o = 0)
    (hp : (subAt (mmAt s n) (crSub (creelAt (mmAt s n) o.creel).desc)).power = 0) {h : HalfRead} {t : State}
    (hrow : dmaRow n (creelAt (mmAt s n) o.creel) ((readRows (creelAt (mmAt s n) o.creel) (readStart (creelAt (mmAt s n) o.creel) o).ptr).getD (b2n o.half.isSome) 0)
      (readStart (creelAt (mmAt s n) o.creel) o) s = (h, t)) :
    dmaServe n o s = if o.half.isNone = true ∧ (readRows (creelAt (mmAt s n) o.creel) (readStart (creelAt (mmAt s n) o.creel) o).ptr).length = 2
      then (t, some { o with half := some h })
      else (modMm n (answered (retOf o 1 0 (BitVec.ofNat 512 (leNat h.cells)) h.sour)) t, none) := by
  have h1 : ¬ o.op = 1 := by omega
  have hno : ¬ (dmaStatus (creelAt (mmAt s n) o.creel) o ≠ 0 ∧ o.half.isNone = true) := fun h => h.1 (hst h.2)
  simp only [readStart, readRows] at hrow
  simp only [dmaServe, if_neg h1, Nat.not_le.mpr hq, if_false, if_neg hno, if_pos h2, hp, ne_eq, not_true_eq_false, hrow]
  rfl

end

/-- A cell of a read: the cell at pointer p of the creel where it is visible, zeros where it lies past CTAIL (R130). -/
def readCell (m : Mm) (b : Nat) (d : W64) (vis k p : Nat) : List Byte :=
  if k < vis then bytesAt m.mem (mmRowAddr m b (crRow d p) + 16 * (p % 4)) 16 else List.replicate 16 0

theorem length_readCell (m : Mm) (b : Nat) (d : W64) (vis k p : Nat) : (readCell m b d vis k p).length = 16 := by
  unfold readCell
  split
  · exact length_bytesAt ..
  · exact List.length_replicate

/-- What one access to row r of a creel's cells makes of a read. -/
def readAccess (m : Mm) (c : Creel) (r : Nat) (h : HalfRead) : HalfRead :=
  { h with cells := h.cells ++ (((List.zip (List.range 4) (readPtrs c h.ptr)).filter fun x => decide (crRow c.desc x.2 = r)).flatMap
    fun x => readCell m (crSub c.desc) c.desc h.vis x.1 x.2) }

/-- One access of a read, of clean rows: the cells of its row join those read, none sour; the site stays as it is. -/
theorem dmaRow_clean {n r : Nat} {c : Creel} {h : HalfRead} {s : State} (hc : mmCells (mmAt s n) (crSub c.desc) r = List.replicate 4 .good) (hi : (mmAt s n).inj = none) :
    ∃ t, dmaRow n c r h s = (readAccess (mmAt s n) c r h, t) ∧ onlyMm n s t ∧ mmAt t n = mmAt s n := by
  obtain ⟨t, ht, hst, hm⟩ := mmRead_clean (b := crSub c.desc) (r := r) hc hi
  have hsour : ∀ (l : List (Nat × Nat)) (k : Nat), l.foldl (fun acc _ => acc) k = k := fun _ k => foldl_keeps id (fun _ _ => rfl) k
  by_cases hv : (((List.zip (List.range 4) (readPtrs c h.ptr)).filter fun x => decide (crRow c.desc x.2 = r)).any fun x => decide (x.1 < h.vis)) = true
  · refine ⟨t, ?_, hst, hm⟩
    simp only [dmaRow, hv, if_true, ht, Bool.false_eq_true, and_false, if_false, hsour]
    congr 2
    refine congrArg (h.cells ++ ·) (List.flatMap_congr fun x hx => ?_)
    obtain ⟨-, hr⟩ := List.mem_filter.mp hx
    rw [readCell, of_decide_eq_true hr, cell_mmRow]
  · refine ⟨s, ?_, .refl n s, rfl⟩
    simp only [dmaRow, hv, Bool.false_eq_true, and_false, if_false, hsour]
    congr 2
    refine congrArg (h.cells ++ ·) (List.flatMap_congr fun x hx => ?_)
    have hx : ¬ x.1 < h.vis := fun hlt => hv (List.any_eq_true.mpr ⟨x, hx, decide_eq_true hlt⟩)
    rw [readCell, if_neg hx, if_neg hx]

/-- The row that a read accesses next. -/
def readRow (c : Creel) (o : DmaOp) : Nat := (readRows c (readStart c o).ptr).getD (b2n o.half.isSome) 0

/-- A read of clean rows makes its access: the first of two stays in the queue, the last answers with the data. -/
theorem HeadDue.read {n b : Nat} {o : DmaOp} {rest : List DmaOp} {s : State} (h : HeadDue n b o rest s) (h2 : o.op = 2) (hq : (mmAt s n).retq.length < 4)
    (hst : o.half.isNone = true → dmaStatus (creelAt (mmAt s n) o.creel) o = 0) (hp : (subAt (mmAt s n) b).power = 0) (hi : (mmAt s n).inj = none)
    (hgood : ∀ r, mmCells (mmAt s n) b r = List.replicate 4 .good) :
    let c := creelAt (mmAt s n) o.creel
    let x := readAccess (mmAt s n) c (readRow c o) (readStart c o)
    let r := retOf o 1 0 (BitVec.ofNat 512 (leNat x.cells)) x.sour
    let first := o.half.isNone = true ∧ (readRows c (readStart c o).ptr).length = 2
    ∃ u, exec (.dmaQueueService n b) s = .next u ∧ onlyMm n s u
      ∧ (first → (subAt (mmAt u n) b).dmaq = { o with half := some x } :: rest ∧ mmAt u n = { mmAt s n with subs := (mmAt u n).subs })
      ∧ (¬ first → (subAt (mmAt u n) b).dmaq = rest ∧ mmAt u n = { answered r (mmAt s n) with subs := (mmAt u n).subs }) := by
  intro c x r first
  have hc := creelAt_atService n b s o.creel
  have hm := mmAt_atService n b s
  obtain ⟨t, hrow, ht, htm⟩ := dmaRow_clean (n := n) (r := readRow c o) (c := c) (h := readStart c o) (s := atService n b s)
    (by rw [mmCells_atService, h.own]; exact hgood _) (by rw [hm]; exact hi)
  have hx : readAccess (mmAt (atService n b s) n) c (readRow c o) (readStart c o) = x := by
    rw [hm]
    rfl
  have hserve := dmaServe_read (n := n) (s := atService n b s) (o := o) (h := x) (t := t) h2 (by rw [hm]; exact hq) (by rw [hc]; exact hst) (h.power hp)
    (by rw [hc, ← hx]; exact hrow)
  rw [hc] at hserve
  rw [hm] at htm
  by_cases hfirst : first
  · rw [if_pos hfirst] at hserve
    obtain ⟨u, hex, hu, hdmaq, hmu⟩ := h.service hserve ht
    rw [htm] at hmu
    exact ⟨u, hex, hu, fun _ => ⟨hdmaq, hmu⟩, fun hno => absurd hfirst hno⟩
  · rw [if_neg hfirst] at hserve
    obtain ⟨u, hex, hu, hdmaq, hmu⟩ := h.service hserve (ht.modMm _)
    rw [mmAt_modMm_self, htm] at hmu
    exact ⟨u, hex, hu, fun hyes => absurd hyes hfirst, fun _ => ⟨hdmaq, hmu⟩⟩

/-- Four cells in one row are read by one access. -/
theorem readRows_one {c : Creel} {p : Nat} (h : ∀ k, k < 4 → crRow c.desc (ptrAdd (crCap c.desc) p k) = crRow c.desc (ptrAdd (crCap c.desc) p 0)) :
    readRows c p = [crRow c.desc (ptrAdd (crCap c.desc) p 0)] := by
  have e : (readPtrs c p).map (crRow c.desc) = List.replicate 4 (crRow c.desc (ptrAdd (crCap c.desc) p 0)) :=
    List.eq_replicate_iff.mpr ⟨rfl, fun x hx => by
      obtain ⟨y, hy, rfl⟩ := List.mem_map.mp hx
      obtain ⟨k, hk, rfl⟩ := List.mem_map.mp hy
      exact h k (List.mem_range.mp hk)⟩
  simp [readRows, e, List.replicate_succ, List.eraseDups_cons]

/-- The cells of one row, all four, in creel order. -/
theorem cells_oneRow {α : Type} {c : Creel} {p : Nat} (g : Nat → Nat → List α)
    (h : ∀ k, k < 4 → crRow c.desc (ptrAdd (crCap c.desc) p k) = crRow c.desc (ptrAdd (crCap c.desc) p 0)) :
    (((List.zip (List.range 4) (readPtrs c p)).filter fun x => decide (crRow c.desc x.2 = crRow c.desc (ptrAdd (crCap c.desc) p 0))).flatMap fun x => g x.1 x.2)
      = (List.range 4).flatMap fun k => g k (ptrAdd (crCap c.desc) p k) := by
  have e : List.zip (List.range 4) (readPtrs c p) = (List.range 4).map fun k => (k, ptrAdd (crCap c.desc) p k) := rfl
  rw [e, List.filter_eq_self.mpr, List.flatMap_map]
  intro x hx
  obtain ⟨k, hk, rfl⟩ := List.mem_map.mp hx
  exact decide_eq_true (h k (List.mem_range.mp hk))

/-- Field k of 16 bytes in four cells. -/
theorem cell_of_data {l : List Byte} (hl : l.length = 64) (k : Nat) :
    (BitVec.ofNat 512 (leNat l)).toNat / 2 ^ (128 * k) % 2 ^ 128 = leNat ((l.drop (16 * k)).take 16) := by
  have hlt := leNat_lt l
  rw [hl] at hlt
  rw [BitVec.toNat_ofNat, Nat.mod_eq_of_lt (hlt.trans_eq (by rw [show (256 : Nat) = 2 ^ 8 from rfl, ← pow_mul])), leNat_take, leNat_drop, show (256 : Nat) = 2 ^ 8 from rfl, ← pow_mul, ← pow_mul,
    ← Nat.mul_assoc]

/-- A read whose four cells lie in one row has them after its one access. -/
theorem cells_readAccess_one {m : Mm} {c : Creel} {o : DmaOp} (hh : o.half = none)
    (h : ∀ k, k < 4 → crRow c.desc (ptrAdd (crCap c.desc) (ptrAdd (crCap c.desc) c.head o.arg) k)
      = crRow c.desc (ptrAdd (crCap c.desc) (ptrAdd (crCap c.desc) c.head o.arg) 0)) :
    (readAccess m c (readRow c o) (readStart c o)).cells = (List.range 4).flatMap fun k =>
      readCell m (crSub c.desc) c.desc (crCommitted c - o.arg) k (ptrAdd (crCap c.desc) (ptrAdd (crCap c.desc) c.head o.arg) k) := by
  have hstart := readStart_new (c := c) hh
  have hrow : readRow c o = crRow c.desc (ptrAdd (crCap c.desc) (ptrAdd (crCap c.desc) c.head o.arg) 0) := by
    rw [readRow, hstart, readRows_one h, hh]
    rfl
  rw [readAccess, hrow, hstart, List.nil_append]
  exact cells_oneRow (readCell m (crSub c.desc) c.desc (crCommitted c - o.arg)) h

theorem length_flatMap_readCell (m : Mm) (b : Nat) (d : W64) (vis : Nat) (g : Nat → Nat) :
    ((List.range 4).flatMap fun k => readCell m b d vis k (g k)).length = 64 := by
  simp only [List.length_flatMap, length_readCell]
  rfl

/-! ## The edge's slot (R129, R132) -/

/-- The operation that the edge sends next, with the credits left of its loop: the oldest, where it may. -/
def slotOp (m : Mm) (credits : Nat) : Option DmaOp :=
  match m.edgeq with
  | e :: _ => if edgeMay m e.op && decide (0 < credits) then some e.op else none
  | [] => none

/-- The header of an operation (R130). -/
def opHeader (o : DmaOp) : Nat := o.op + o.creel * 4 + o.arg * 64 + o.tag * 2 ^ 21

/-- A flit of the edge's slot: the operation, else a blank. -/
def slotFlit : Option DmaOp → Flit
  | some o => dmaFlit (opHeader o) o.data o.sour
  | none => dmaFlit 0 0 0

/-- The slot's flit leaves attachment a by link l; an operation takes a credit. -/
def slotSent (k now l : Nat) (x : Option DmaOp) (q : Attach) : Attach :=
  (if x.isSome then takeCredit k now l else id) { q with outE := q.outE ++ [{ flit := slotFlit x, link := l, arr := now }] }

theorem cretCreel_none {m : Mm} (h : m.recalled = 0) : cretCreel m = none := by
  refine List.find?_eq_none.mpr fun i _ => ?_
  simp [h, bit]

/-- With no recalled sub-bank the slot carries no credits back. -/
theorem execEdgeDmaSlot_sends {a n l : Nat} {s : State} (hp : attPresent s.member a = true) (hn : sitePresent s.member n = true)
    (hl : (mmAt s n).lane = some (a, l)) (hr : (mmAt s n).recalled = 0) (hroom : (attAt s a).outE.length < 256 - (attAt s a).sOut) :
    ∃ t, exec (.edgeDmaSlot a n) s = .next (modAtt a (slotSent (laneLoop a true) s.now l (slotOp (mmAt s n) (creditsLeft (attAt s a) (laneLoop a true)))) t)
      ∧ onlyMm n s t
      ∧ (mmAt t n).edgeq = if (slotOp (mmAt s n) (creditsLeft (attAt s a) (laneLoop a true))).isSome then (mmAt s n).edgeq.drop 1 else (mmAt s n).edgeq := by
  rw [show exec (.edgeDmaSlot a n) s = execEdgeDmaSlot a n s from rfl, execEdgeDmaSlot, hp, hn, Bool.and_self, guardUnit_true]
  simp only [hl, ne_eq, not_true_eq_false, if_false, cretCreel_none hr, hroom, decide_true, Bool.not_true, Bool.false_eq_true, slotOp,
    Option.getD_none, Nat.zero_mul, Nat.add_zero]
  by_cases hmay : ∃ e r, (mmAt s n).edgeq = e :: r ∧ (edgeMay (mmAt s n) e.op && decide (0 < creditsLeft (attAt s a) (laneLoop a true))) = true
  · obtain ⟨e, r, hq, hmay⟩ := hmay
    simp only [hq, hmay, if_true, Option.isSome_some]
    by_cases h1 : e.op.op = 1
    · simp only [if_pos h1]
      exact ⟨_, rfl, (onlyMm_modMm ..).modMm _, by rw [mmAt_modMm_self, mmAt_modMm_self, hq]⟩
    · simp only [if_neg h1]
      exact ⟨_, rfl, onlyMm_modMm .., by rw [mmAt_modMm_self, hq]⟩
  · by_cases hq : (mmAt s n).edgeq = []
    · simp only [hq]
      exact ⟨_, rfl, onlyMm_modMm .., by rw [mmAt_modMm_self]; exact hq⟩
    · obtain ⟨e, r, hq⟩ := List.exists_cons_of_ne_nil hq
      have hno : ¬ (edgeMay (mmAt s n) e.op && decide (0 < creditsLeft (attAt s a) (laneLoop a true))) = true := fun h => hmay ⟨e, r, hq, h⟩
      simp only [hq, if_neg hno]
      exact ⟨_, rfl, onlyMm_modMm .., by rw [mmAt_modMm_self]; exact hq⟩

theorem outE_slotSent (k now l : Nat) (x : Option DmaOp) (q : Attach) :
    (slotSent k now l x q).outE = q.outE ++ [{ flit := slotFlit x, link := l, arr := now }] := by cases x <;> rfl

theorem flying_slotSent (k now l : Nat) (o : DmaOp) (q : Attach) : look [] (slotSent k now l (some o) q).flying k = look [] q.flying k ++ [(now, l)] := by
  simp only [slotSent, Option.isSome_some, if_true, takeCredit, look_alter_self]

theorem dmaFlit_blank : dmaFlit 0 0 0 = { data := 0, sour := 0, loose := true } := by simp [dmaFlit]

/-- The header of a DMA flit lies above its 64 bytes. -/
theorem flitHdr_dmaFlit (h : Nat) (d : BitVec 512) (sour : Nat) : flitHdr (dmaFlit h d sour) = h % 2 ^ 128 := by
  have hd : (d.toNat + h * 2 ^ 512) / 2 ^ 512 = h := by
    rw [Nat.add_mul_div_right _ _ (by positivity), Nat.div_eq_of_lt d.isLt, Nat.zero_add]
  rw [flitHdr, dmaFlit, bits, BitVec.toNat_ofNat, Nat.pow_add 2 512 512, Nat.mod_mul_right_div_self, hd]
  exact Nat.mod_mod_of_dvd _ (pow_dvd_pow 2 (by decide))

/-! ## Write-back and scrub (R137, R140) -/

/-- A cell as its row's write-back leaves it. -/
def fixedCell (c : CellCode) : CellCode := if c = .ce then .good else c

theorem mmCells_fixCells (b r : Nat) (m : Mm) : mmCells (fixCells b r m) b r = (mmCells m b r).map fixedCell :=
  mmCells_putCodes m b r rfl (by rw [List.length_map, length_mmCells]) rfl

theorem any_code {l : List CellCode} {x : CellCode} : l.any (· == x) = true ↔ x ∈ l := by
  rw [List.any_beq', List.contains_iff_mem]

/-- The oldest corrected row of sub-bank b is written back. -/
def writtenBack (b r : Nat) (rest : List Nat) (m : Mm) : Mm := modSub b (fun x => { x with writeBack := rest }) (fixCells b r m)

section
variable {n b : Nat} {s : State} (hn : sitePresent s.member n = true) (hk : kindOf n = .mm) (hl : (subAt (mmAt s n) b).lowNext < s.now)
  (hs : ∀ u, (subAt (mmAt s n) b).lastSched = some u → u + 1 < s.now)
include hn hk hl hs

theorem execEccWriteBack_first {r : Nat} {rest : List Nat} (hw : writeBackSub s n = some b) (hq : (subAt (mmAt s n) b).writeBack = r :: rest) :
    exec (.eccWriteBack n) s = .next (modMm n (writtenBack b r rest) (modMm n (aclkTaken b (s.now - 1)) s)) := by
  rw [show exec (.eccWriteBack n) s = execEccWriteBack n s from rfl, execEccWriteBack, onSite_of_kind hn hk]
  simp only [hw, hq, lowAccess_last (Nat.zero_lt_of_lt hl) hl hs]
  rfl

/-- The scrub has read row r of sub-bank b. -/
def rowScrubbed (b r w : Nat) (m : Mm) : Mm :=
  modSub b (fun x => { x with scrubRow := (r + 1) % 6144, scrubWin := w }) { m with inj := injUsed m b r }

/-- What the scrub makes of a row with an uncorrectable cell (R140). -/
def scrubSoured (n b r : Nat) (data : List Byte) (sour : Bool) (s : State) : State :=
  let t := modMm n (mmWrite b r 0 data true) s
  if sour then t else count 0x1203 n 1 (modMm n (modSub b fun x => { x with scrubUe := satAdd 0xFF x.scrubUe 1 }) t)

/-- What it makes of another row, k cells of which it corrects. -/
def scrubFixed (n b r k : Nat) (s : State) : State :=
  modMm n (fun m => modSub b (fun x => { x with writeBack := x.writeBack.erase r }) (fixCells b r m)) (mmCorrected n b r k s)

theorem execMmScrub_free (hb : b < 4) (hf : subFree s n b = true) (hi : (mmAt s n).inj = none) :
    ∃ w k, exec (.mmScrub n b) s = .next
      (let q := modMm n (rowScrubbed b (subAt (mmAt s n) b).scrubRow w) (modMm n (aclkTaken b (s.now - 1)) s)
       if (mmCells (mmAt s n) b (subAt (mmAt s n) b).scrubRow).any (· == .ue)
       then scrubSoured n b (subAt (mmAt s n) b).scrubRow (mmRow (mmAt s n) b (subAt (mmAt s n) b).scrubRow)
         ((mmCells (mmAt s n) b (subAt (mmAt s n) b).scrubRow).any (· == .sour)) q
       else scrubFixed n b (subAt (mmAt s n) b).scrubRow k q) := by
  have hm : mmAt (modMm n (aclkTaken b (s.now - 1)) s) n = aclkTaken b (s.now - 1) (mmAt s n) := mmAt_modMm_self ..
  have hr : (subAt (aclkTaken b (s.now - 1) (mmAt s n)) b).scrubRow = (subAt (mmAt s n) b).scrubRow := by rw [aclkTaken, subAt_modSub_self]
  refine ⟨scrubWindow s.pick, ((mmCells (mmAt s n) b (subAt (mmAt s n) b).scrubRow).filter (· == .ce)).length, ?_⟩
  rw [show exec (.mmScrub n b) s = execMmScrub n b s from rfl, execMmScrub, onSite_of_kind hn hk]
  simp only [Nat.mod_eq_of_lt hb, hf, Bool.not_true, Bool.false_eq_true, if_false, lowAccess_last (Nat.zero_lt_of_lt hl) hl hs, hm, hr,
    rowOutcomes_unarmed (m := aclkTaken b (s.now - 1) (mmAt s n)) b _ hi, rowData_unarmed (m := aclkTaken b (s.now - 1) (mmAt s n)) b _ hi]
  rfl

end

/-- Row r of sub-bank b waits for the write-back of k corrected cells. -/
def rowCorrected (b r k : Nat) : Mm → Mm :=
  modSub b fun x => { x with ce := satAdd 0xFFFF x.ce k, writeBack := if x.writeBack.contains r then x.writeBack else x.writeBack ++ [r] }

/-- Corrected cells are counted, and their row waits; the watch list takes no part in the sites. -/
theorem mmAt_mmCorrected (n b r : Nat) {k : Nat} (hk : k ≠ 0) (s : State) (j : Nat) :
    mmAt (mmCorrected n b r k s) j = mmAt (modMm n (rowCorrected b r k) s) j := by
  have he : ∀ q, (each (List.range k) (fun _ s => watchTrigger 0x2201 16 (.site n) (riskEvent 0x2201 (powerRegion n) (count 0x2201 n 1 s))) q).mm = q.mm :=
    foldl_keeps State.mm fun y _ => by
      dsimp only
      rw [linkNoted_watchTrigger]
      rfl
  simp only [mmCorrected, if_neg hk]
  exact congrArg (look default · j) (he _)

theorem mmCorrected_site (n b r k : Nat) (s : State) :
    (∀ j, j ≠ n → mmAt (mmCorrected n b r k s) j = mmAt s j) ∧ mmAt (mmCorrected n b r k s) n = { mmAt s n with subs := (mmAt (mmCorrected n b r k s) n).subs }
      ∧ (subAt (mmAt (mmCorrected n b r k s) n) b).scrubRow = (subAt (mmAt s n) b).scrubRow := by
  by_cases hk : k = 0
  · subst hk
    exact ⟨fun _ _ => rfl, rfl, rfl⟩
  · simp only [mmAt_mmCorrected n b r hk, mmAt_modMm_self]
    refine ⟨fun j hj => mmAt_modMm_ne _ _ _ _ hj, rfl, ?_⟩
    rw [rowCorrected, subAt_modSub_self]

section
variable (n b r : Nat) (s : State)

theorem scrubSoured_effect {data : List Byte} (sour : Bool) :
    let t := scrubSoured n b r data sour s
    (∀ j, j ≠ n → mmAt t j = mmAt s j) ∧ (subAt (mmAt t n) b).scrubRow = (subAt (mmAt s n) b).scrubRow
      ∧ mmCells (mmAt t n) b r = List.replicate 4 .sour ∧ counted t 0x1203 n = counted s 0x1203 n + if sour then 0 else 1 := by
  have hw : mmCells (mmWrite b r 0 data true (mmAt s n)) b r = List.replicate 4 .sour := mmCells_putCodes (mmAt s n) b r rfl rfl rfl
  cases sour with
  | true =>
    refine ⟨fun j hj => mmAt_modMm_ne _ _ _ _ hj, ?_, ?_, rfl⟩
    · rw [scrubSoured, if_pos rfl, mmAt_modMm_self]
      rfl
    · rw [scrubSoured, if_pos rfl, mmAt_modMm_self, hw]
  | false =>
    refine ⟨fun j hj => (mmAt_modMm_ne _ _ _ _ hj).trans (mmAt_modMm_ne _ _ _ _ hj), ?_, ?_, counted_count_self ..⟩
    · rw [scrubSoured, if_neg Bool.noConfusion, mmAt_count, mmAt_modMm_self, mmAt_modMm_self, subAt_modSub_self]
      rfl
    · rw [scrubSoured, if_neg Bool.noConfusion, mmAt_count, mmAt_modMm_self, mmAt_modMm_self]
      exact hw

theorem scrubFixed_effect (k : Nat) :
    let t := scrubFixed n b r k s
    (∀ j, j ≠ n → mmAt t j = mmAt s j) ∧ (subAt (mmAt t n) b).scrubRow = (subAt (mmAt s n) b).scrubRow
      ∧ (mmAt t n).mem = (mmAt s n).mem ∧ mmCells (mmAt t n) b r = (mmCells (mmAt s n) b r).map fixedCell := by
  obtain ⟨hother, hself, hrow⟩ := mmCorrected_site n b r k s
  refine ⟨fun j hj => (mmAt_modMm_ne _ _ _ _ hj).trans (hother j hj), ?_, ?_, ?_⟩
  · rw [scrubFixed, mmAt_modMm_self, subAt_modSub_self]
    exact hrow
  · rw [scrubFixed, mmAt_modMm_self, hself]
    rfl
  · rw [scrubFixed, mmAt_modMm_self]
    refine (mmCells_fixCells b r (mmAt (mmCorrected n b r k s) n)).trans ?_
    rw [hself]
    rfl

end

end Sys2Proof.Machine

open Sys2Proof Sys2Proof.Machine

/-- Settles O22: an operation arrives and is served by dmaServe, the edge's slot sends slotFlit, and a row is corrected in place. -/
theorem dmaMovesAndRowsAreCorrected : Obligations.DmaMovesAndRowsAreCorrected := by
  refine ⟨fun n s hn hk hr => ⟨fun d rest hd hdue ht => ?arrival, fun b o rest hb hq hl ha hs => ?service, fun a l hp hlane hrec hroom => ?edge⟩,
    fun n b s hn hk hb => ?rows⟩
  case arrival =>
    intro o b hop hpow hlen
    obtain ⟨hf, g, hm⟩ := dmaArrive_queued (s := deliveryTaken n s) hop hpow hlen
    refine ⟨_, execDmaOpArrival_taken hn hk hr hd hdue ht, ?_, ?_, ?_, ?_, hf.2⟩
    · rw [hf.1]
      rfl
    · rw [hm]
      exact congrArg SubBank.dmaq (subAt_modSub_self ..)
    · rw [hm]
      rfl
    · rw [hm]
      rfl
  case service =>
    intro c a at_ hsub
    have h : HeadDue n b o rest s := ⟨hn, hk, hb, hq, hl, ha, hs, hsub⟩
    have hc := creelAt_atService n b s o.creel
    have hm := mmAt_atService n b s
    refine ⟨fun h1 hmode hp hroom hpadv hbulk => ?push, fun h2 hh hlen hst => ?refused, fun h2 hh hlen hst hp hi hgood htwo => ?half,
      fun x h2 hh hlen hp hi hgood => ?second, fun h2 hh hlen hst hp hi hgood hone => ?read, fun h3 hlen hst => ?drain⟩
    case push =>
      obtain ⟨u, hex, hu, hdmaq, hmu⟩ := h.service (dmaServe_push h1 (by rw [hc]; exact hmode) (h.power hp) (by rw [hc]; exact hroom) hbulk) (onlyMm_modMm ..)
      rw [mmAt_modMm_self, hm] at hmu
      have hdata : (leBytes 64 o.data.toNat).length = 64 := length_leBytes ..
      have hmem : (mmAt u n).mem = (cellsPushed o.creel (leBytes 64 o.data.toNat) (decide (o.sour ≠ 0)) (mmAt s n)).mem := by
        rw [hmu]
        rfl
      have htail : tailAddr (mmAt s n) o.creel = a := by rw [tailAddr, h.own]
      refine ⟨u, hex, hu, hdmaq, ?_, fun j hj => ?_, ?_⟩
      · rw [hmem, ← htail]
        exact bytesAt_cellsPushed _ _ _ hdata hpadv
      · rw [hmem]
        rw [← htail] at hj
        exact look_cellsPushed _ _ _ hdata hpadv hj
      · rw [hmu]
        exact congrArg Creel.tail (creelAt_cellsPushed_self ..)
    case refused =>
      obtain ⟨u, hex, hu, hdmaq, hmu⟩ := h.service (dmaServe_refused h2 hh (by rw [hm]; exact hlen) (by rw [hc]; exact hst)) (onlyMm_modMm ..)
      rw [mmAt_modMm_self, hm] at hmu
      exact ⟨u, hex, hu, hdmaq, by rw [hmu]; rfl, by rw [hmu]; rfl, by rw [hmu]; rfl⟩
    case half =>
      obtain ⟨u, hex, hu, hfirst, -⟩ := h.read h2 hlen (fun _ => hst) hp hi hgood
      have hstart := readStart_new (c := c) hh
      obtain ⟨hdmaq, hmu⟩ := hfirst ⟨by rw [hh]; rfl, by rw [hstart]; exact htwo⟩
      refine ⟨u, _, hex, hu, hdmaq, by rw [hmu], by rw [hmu], ?_, ?_⟩
      · exact congrArg HalfRead.ptr hstart
      · exact congrArg HalfRead.vis hstart
    case second =>
      obtain ⟨u, hex, hu, -, hlast⟩ := h.read h2 hlen (fun hn => by rw [hh] at hn; exact absurd hn Bool.noConfusion) hp hi hgood
      obtain ⟨hdmaq, hmu⟩ := hlast fun hf => by rw [hh] at hf; exact absurd hf.1 Bool.noConfusion
      exact ⟨u, _, hex, hu, hdmaq, by rw [hmu]; rfl, by rw [hmu]; rfl, rfl, rfl, rfl, rfl⟩
    case read =>
      have hcells := cells_readAccess_one (m := mmAt s n) hh hone
      have hlen64 := length_flatMap_readCell (mmAt s n) (crSub c.desc) c.desc (crCommitted c - o.arg)
        fun k => ptrAdd (crCap c.desc) (ptrAdd (crCap c.desc) c.head o.arg) k
      have hstart := readStart_new (c := c) hh
      obtain ⟨u, hex, hu, -, hlast⟩ := h.read h2 hlen (fun _ => hst) hp hi hgood
      obtain ⟨hdmaq, hmu⟩ := hlast fun hf => by
        obtain ⟨-, h2⟩ := hf
        rw [hstart, readRows_one hone] at h2
        simp at h2
      refine ⟨u, _, hex, hu, hdmaq, by rw [hmu]; rfl, by rw [hmu]; rfl, by rw [hmu]; rfl, rfl, rfl, rfl, rfl, ?_, fun k hk => ?_⟩
      · exact congrArg HalfRead.sour hstart
      · simp only [retOf]
        rw [hcells, cell_of_data hlen64, take_drop_flatMap_range _ (fun _ _ => length_readCell ..) hk, readCell, h.own]
        by_cases hv : o.arg + k < crCommitted c
        · rw [if_pos hv, if_pos (Nat.lt_sub_iff_add_lt'.mpr hv)]
        · rw [if_neg hv, if_neg fun hlt => hv (Nat.lt_sub_iff_add_lt'.mp hlt)]
          rfl
    case drain =>
      obtain ⟨u, hex, hu, hdmaq, hmu⟩ := h.service (dmaServe_drain h3 (by rw [hm]; exact hlen) (by rw [hc]; exact hst)) ((onlyMm_modMm ..).modMm _)
      rw [mmAt_modMm_self, mmAt_modMm_self, hm] at hmu
      refine ⟨u, hex, hu, hdmaq, by rw [hmu]; rfl, ?_, by rw [hmu]; rfl⟩
      rw [hmu]
      exact congrArg Creel.head (creelAt_modCreel_self ..)
  case edge =>
    obtain ⟨t, hex, ht, hq⟩ := execEdgeDmaSlot_sends hp hn hlane hrec hroom
    have hatt : ∀ k, attAt t k = attAt s k := fun k => by
      rw [ht.1]
      rfl
    refine ⟨_, slotFlit (slotOp (mmAt s n) (creditsLeft (attAt s a) (laneLoop a true))), hex, ?_, fun k hka => (attAt_modAtt_ne _ _ _ _ hka).trans (hatt k), ?_, fun hno => ?_, fun e r he hmay hcr => ?_⟩
    · rw [ht.1]
      rfl
    · rw [attAt_modAtt_self, outE_slotSent, hatt]
    · have hx : slotOp (mmAt s n) (creditsLeft (attAt s a) (laneLoop a true)) = none := by
        unfold slotOp
        rcases hno with h | h
        · rw [h]
        · simp only [h, Nat.lt_irrefl, decide_false, Bool.and_false, Bool.false_eq_true, if_false]
          split <;> rfl
      rw [hx] at hq ⊢
      exact ⟨dmaFlit_blank, hq⟩
    · have hx : slotOp (mmAt s n) (creditsLeft (attAt s a) (laneLoop a true)) = some e.op := by
        unfold slotOp
        rw [he]
        exact if_pos (by rw [hmay, decide_eq_true hcr]; rfl)
      rw [hx] at hq ⊢
      refine ⟨hq.trans (by rw [he]; rfl), ?_, ?_⟩
      · rw [attAt_modAtt_self, hatt]
        exact flying_slotSent ..
      · rw [slotFlit, flitHdr_dmaFlit]
        exact Nat.mod_mod_of_dvd _ (pow_dvd_pow 2 (by decide))
  case rows =>
    intro m hl hs
    refine ⟨fun r rest hw hq => ?writeBack, fun hf hi => ?scrub⟩
    case writeBack =>
      refine ⟨_, execEccWriteBack_first hn hk hl hs hw hq, (onlyMm_modMm ..).modMm _, ?_, ?_, ?_⟩
      · rw [mmAt_modMm_self, writtenBack, subAt_modSub_self]
      · rw [mmAt_modMm_self, mmAt_modMm_self]
        rfl
      · rw [mmAt_modMm_self, mmAt_modMm_self]
        exact mmCells_fixCells b r (aclkTaken b (s.now - 1) (mmAt s n))
    case scrub =>
      obtain ⟨w, k, hex⟩ := execMmScrub_free hn hk hl hs hb hf hi
      intro r
      generalize hq : modMm n (rowScrubbed b (subAt (mmAt s n) b).scrubRow w) (modMm n (aclkTaken b (s.now - 1)) s) = q at hex
      have hqs : onlyMm n s q := hq ▸ (onlyMm_modMm ..).modMm _
      have hqm : mmAt q n = rowScrubbed b r w (aclkTaken b (s.now - 1) (mmAt s n)) := by rw [← hq, mmAt_modMm_self, mmAt_modMm_self]
      have hqr : (subAt (mmAt q n) b).scrubRow = (r + 1) % 6144 := by rw [hqm, rowScrubbed, subAt_modSub_self]
      have hqc : counted q 0x1203 n = counted s 0x1203 n := by rw [← hq]; rfl
      refine ⟨_, hex, ?_⟩
      by_cases hue : CellCode.ue ∈ mmCells m b r
      · rw [if_pos (any_code.mpr hue), if_pos hue]
        obtain ⟨ho, hr, hc, hcount⟩ := scrubSoured_effect n b r q (data := mmRow m b r) ((mmCells m b r).any (· == .sour))
        refine ⟨hr.trans hqr, fun j hj => (ho j hj).trans (hqs.2 j hj), hc, hcount.trans ?_⟩
        rw [hqc]
        exact congrArg _ (if_congr any_code rfl rfl)
      · rw [if_neg fun h => hue (any_code.mp h), if_neg hue]
        obtain ⟨ho, hr, hmem, hc⟩ := scrubFixed_effect n b r q k
        refine ⟨hr.trans hqr, fun j hj => (ho j hj).trans (hqs.2 j hj), hmem.trans ?_, hc.trans ?_⟩
        · rw [hqm]
          rfl
        · rw [hqm]
          rfl
end

section
/-! SUPPORT. Register writes through an indirect window (R363-R367, R380), and stores changed key by key. -/
namespace Sys2Proof.Machine

/-! ## What an index names (R367) -/

section
variable {s : State} {n off : Nat} (hr : siteReach s n = true)
include hr

theorem idxUnit_site (ho : off < 0x1000) : idxUnit s off n = .site n off := by
  have h28 : off / 2 ^ 28 = 0 := Nat.div_eq_of_lt (by omega)
  have hmod : off % 2 ^ 28 = off := Nat.mod_eq_of_lt (by omega)
  have h24 : off / 2 ^ 24 = 0 := Nat.div_eq_of_lt (by omega)
  have hres : bits off 23 16 = 0 := by
    rw [bits, Nat.div_eq_of_lt (by omega), Nat.zero_mod]
  have hst : within 0x1000 0xAFFF off = false := by
    rw [within, decide_eq_false (by omega), Bool.false_and]
  simp only [idxUnit, h28, hmod, h24, hres, hr, hst, if_true, ne_eq, not_true_eq_false, if_false, Bool.false_and, Bool.not_false, Bool.and_self]

end

theorem idxUnit_port {s : State} {p : Nat} (hp : portPresent s.member p = true) (h : p < 32) (site : Nat) : idxUnit s (portIdx p + 4) site = .port p 4 := by
  have hd : (portIdx p + 4) / 2 ^ 28 = 2 := by unfold portIdx; omega
  have ho : (portIdx p + 4) % 2 ^ 28 / 2 ^ 20 = p := by unfold portIdx; omega
  have hl : (portIdx p + 4) % 2 ^ 28 % 2 ^ 20 = 4 := by unfold portIdx; omega
  simp only [idxUnit, hd, ho, hl, hp, Nat.reduceEqDiff, if_false, if_true]

theorem idxUnit_hub {s : State} {o : Nat} (h : o < 2 ^ 28) (site : Nat) : idxUnit s (hubIdx + o) site = .hub o := by
  have hd : (hubIdx + o) / 2 ^ 28 = 5 := by unfold hubIdx; omega
  have ho : (hubIdx + o) % 2 ^ 28 = o := by unfold hubIdx; omega
  simp only [idxUnit, hd, ho, Nat.reduceEqDiff, if_false, if_true]

/-! ## A write of one register through a window (R360, R380) -/

/-- The IDX_STAT bits that a write sets. -/
def refusalStat : Option RegCode → Nat
  | none => 0
  | some c => c.stat

theorem note_zero (t : Nat) (x : Window) : Window.note t 0 x = x := by simp only [Window.note, Nat.or_zero, noteSet, if_true]

theorem idxWrite_eq {s : State} {idx site v : Nat} {w64 : Bool} {u : IdxUnit} (hu : idxUnit s idx site = u) (ha : u ≠ .absent) (hb : u ≠ .bad)
    (hm : misaligned idx w64 (unitReg s u).width true = false) :
    idxWrite idx site w64 v s = (refusalStat (writeUnit u v s).1, (writeUnit u v s).2) := by
  simp only [idxWrite, hu, if_neg ha, hb, hm, Bool.false_eq_true, or_self, if_false]
  rcases writeUnit u v s with ⟨_ | c, t⟩ <;> rfl

theorem throughWindow_eq {s : State} {w idx site v : Nat} {u : IdxUnit} (hu : idxUnit s idx site = u) (ha : u ≠ .absent) (hb : u ≠ .bad)
    (hm : misaligned idx false (unitReg s u).width true = false) :
    throughWindow w idx site v s = modWin w (Window.note s.up (refusalStat (writeUnit u v s).1)) (writeUnit u v s).2 := by
  rw [throughWindow, idxWrite_eq hu ha hb hm]

/-- A window's access has ended in u: IDX_STAT of window w shows the outcome c, but for the windows the state is t. -/
structure Shown (w : Nat) (c : Option RegCode) (s t u : State) : Prop where
  frame : u = { t with wins := u.wins }
  stat : (winAt u w).stat = (winAt s w).stat ||| refusalStat c
  others : ∀ k, k ≠ w → winAt u k = winAt s k

theorem shown_modWin {s t : State} (h : t.wins = s.wins) (w up : Nat) (c : Option RegCode) : Shown w c s t (modWin w (Window.note up (refusalStat c)) t) := by
  have hw : ∀ k, winAt t k = winAt s k := fun k => by rw [winAt, winAt, h]
  refine ⟨rfl, ?_, fun k hk => (winAt_modWin_ne _ _ _ _ hk).trans (hw k)⟩
  rw [winAt_modWin_self, hw]
  rfl

theorem Shown.stat_eq {w : Nat} {s t u : State} (h : Shown w none s t u) : (winAt u w).stat = (winAt s w).stat := h.stat.trans (Nat.or_zero _)

theorem Shown.mmAt_eq {w : Nat} {c : Option RegCode} {s t u : State} (h : Shown w c s t u) (k : Nat) : mmAt u k = mmAt t k := by
  rw [h.frame]
  rfl

/-- A register of a site written through window w. -/
theorem siteWindow_shown {w n off v : Nat} {s t : State} {c : Option RegCode} (hw : w < 4) (hr : siteReach s n = true) (ho : off < 0x1000)
    (hm : misaligned off false (siteReg s n off).width true = false) (hwrite : writeSite n off v s = (c, t)) (ht : t.wins = s.wins) :
    ∃ u, siteWindow w n off v s = .next u ∧ Shown w c s t u := by
  refine ⟨_, ?_, shown_modWin ht w s.up c⟩
  rw [siteWindow, decide_eq_true hw, guardUnit_true, throughWindow_eq (idxUnit_site hr ho) (by simp) (by simp) hm]
  change Host.Outcome.next (modWin w (Window.note s.up (refusalStat (writeSite n off v s).1)) (writeSite n off v s).2) = _
  rw [hwrite]

theorem mm_word_aligned {n off : Nat} {s : State} (hk : kindOf n = .mm) (ho : off = 0x200 ∨ off = 0x300 ∨ off = 0x3C0 ∨ off = 0x87C) :
    misaligned off false (siteReg s n off).width true = false := by
  rw [siteReg, hk]
  rcases ho with rfl | rfl | rfl | rfl <;> rfl

/-- What a write of an MM site's register through window w may change. -/
def mmWindow (n w : Nat) (s u : State) : Prop :=
  u = { s with mm := u.mm, wins := u.wins } ∧ (∀ k, k ≠ n → mmAt u k = mmAt s k) ∧ (∀ k, k ≠ w → winAt u k = winAt s k)

theorem Shown.mmWindow {w n : Nat} {c : Option RegCode} {s t u : State} (h : Shown w c s t u) (ht : onlyMm n s t) : mmWindow n w s u := by
  refine ⟨?_, fun k hk => (h.mmAt_eq k).trans (ht.2 k hk), h.others⟩
  rw [h.frame, ht.1]

theorem onlyMm.wins {n : Nat} {s t : State} (h : onlyMm n s t) : t.wins = s.wins := by rw [h.1]

/-! ## Stores changed key by key -/

section
variable {α : Type} [DecidableEq α] (d : α)

theorem look_foldl_put {l : List Nat} (v : Nat → α) (t : Tab α) (k : Nat) :
    look d (l.foldl (fun t i => put d t i (v i)) t) k = if k ∈ l then v k else look d t k := by
  induction l generalizing t with
  | nil => rfl
  | cons i l ih =>
    rw [List.foldl_cons, ih, look_put]
    by_cases hk : k ∈ l
    · rw [if_pos hk, if_pos (List.mem_cons_of_mem _ hk)]
    · by_cases hi : k = i
      · subst hi
        rw [if_neg hk, if_pos rfl, if_pos List.mem_cons_self]
      · rw [if_neg hk, if_neg hi, if_neg (by simp [hi, hk])]

theorem look_foldl_alter {l : List Nat} (hl : l.Nodup) (f : α → α) (t : Tab α) (k : Nat) :
    look d (l.foldl (fun t i => alter d t i f) t) k = if k ∈ l then f (look d t k) else look d t k := by
  induction l generalizing t with
  | nil => rfl
  | cons i l ih =>
    obtain ⟨hi, hl⟩ := List.nodup_cons.mp hl
    rw [List.foldl_cons, ih hl]
    by_cases hk : k = i
    · subst hk
      rw [if_neg hi, look_alter_self, if_pos List.mem_cons_self]
    · rw [look_alter_ne _ _ _ _ _ hk]
      exact if_congr (by simp [hk]) rfl rfl

end

theorem look_foldl_modCreel {l : List Nat} (hl : l.Nodup) (f : Creel → Creel) (m : Mm) (k : Nat) :
    creelAt (l.foldl (fun m i => modCreel i f m) m) k = if k ∈ l then f (creelAt m k) else creelAt m k := by
  have h : ∀ m : Mm, (l.foldl (fun m i => modCreel i f m) m).creels = l.foldl (fun t i => alter default t i f) m.creels := by
    clear hl
    induction l with
    | nil => exact fun _ => rfl
    | cons i l ih => exact fun m => ih _
  rw [creelAt, h, look_foldl_alter _ hl]
  rfl

/-- Creels changed one after another: the rest of the site stays. -/
theorem foldl_modCreel_frame (l : List Nat) (f : Creel → Creel) (m : Mm) :
    l.foldl (fun m i => modCreel i f m) m = { m with creels := (l.foldl (fun m i => modCreel i f m) m).creels } := by
  induction l generalizing m with
  | nil => rfl
  | cons i l ih =>
    rw [List.foldl_cons, ih]
    rfl

theorem filter_range_nodup (n : Nat) (p : Nat → Bool) : ((List.range n).filter p).Nodup := List.nodup_range.filter p

end Sys2Proof.Machine
end

section
/-! Sub-bank power (R145-R149, R373): O23. -/
namespace Sys2Proof.Machine

theorem toPick_past {p : Nat} {s : State} (h : 8 * p ≤ s.now) : toPick p s = s := runTo_past h

theorem mem_elasticOf {m : Mm} {b i : Nat} : i ∈ elasticOf m b ↔ i < 16 ∧ crMode (creelAt m i).desc = 2 ∧ crSub (creelAt m i).desc = b := by
  simp only [elasticOf, List.mem_filter, List.mem_range, Bool.and_eq_true, beq_iff_eq]

/-! ## A requested state is taken (R147, R148) -/

/-- TAIL as the creel's sub-bank leaves ON is kept (R148). -/
def Creel.tailRecorded (c : Creel) : Creel := { c with offTail := match c.offTail with | none => some c.tail | t => t }

theorem offTail_tailRecorded (c : Creel) : c.tailRecorded.offTail ≠ none := by
  cases h : c.offTail <;> simp [Creel.tailRecorded, h]

/-- The sub-bank in state st, its request done. -/
def SubBank.taken (st : Nat) (x : SubBank) : SubBank := { x with power := st, req := none, waits := false, lost := x.lost || decide (st = 2) }

/-- Sub-bank b takes the state st; the elastic creels l are its own. -/
def subChanged (b st : Nat) (l : List Nat) (m : Mm) : Mm :=
  let y := l.foldl (fun m i => modCreel i Creel.tailRecorded m) (modSub b (SubBank.taken st) m)
  { y with grants := l.foldl (fun g i => put 0 g i 0) y.grants, granted := l.foldl (fun g i => put 0 g i 0) y.granted }

theorem subChange_request {n b st e : Nat} {s : State} (h : (subAt (mmAt s n) b).req = some (st, e)) :
    subChange n b s = modMm n (subChanged b st (elasticOf (mmAt s n) b)) s := by
  simp only [subChange, h]
  rfl

section
variable (b st : Nat) (l : List Nat) (m : Mm)

theorem subs_subChanged : (subChanged b st l m).subs = (modSub b (SubBank.taken st) m).subs := by
  rw [subChanged, foldl_modCreel_frame]

theorem subAt_subChanged_self : subAt (subChanged b st l m) b = (subAt m b).taken st := by
  rw [subAt, subs_subChanged]
  exact subAt_modSub_self ..

theorem subAt_subChanged_ne {k : Nat} (h : k ≠ b) : subAt (subChanged b st l m) k = subAt m k := by
  rw [subAt, subs_subChanged]
  exact subAt_modSub_ne _ _ h

theorem mem_subChanged : (subChanged b st l m).mem = m.mem := by
  rw [subChanged, foldl_modCreel_frame]
  rfl

variable {l}

theorem offTail_subChanged (hl : l.Nodup) {i : Nat} (h : i ∈ l) : (creelAt (subChanged b st l m) i).offTail ≠ none := by
  have e : creelAt (subChanged b st l m) i = (creelAt m i).tailRecorded :=
    (look_foldl_modCreel hl Creel.tailRecorded (modSub b (SubBank.taken st) m) i).trans (if_pos h)
  rw [e]
  exact offTail_tailRecorded _

theorem grants_subChanged {i : Nat} (h : i ∈ l) : look 0 (subChanged b st l m).grants i = 0 :=
  (look_foldl_put 0 (fun _ => 0) _ i).trans (if_pos h)

end

/-- What the state change does at its site. -/
theorem subChange_takes {n b st e : Nat} {s : State} {o : Out} (ho : o = .next (subChange n b s)) (hreq : (subAt (mmAt s n) b).req = some (st, e)) :
    ∃ t, o = .next t ∧ onlyMm n s t ∧ subAt (mmAt t n) b = (subAt (mmAt s n) b).taken st
      ∧ (∀ k, k ≠ b → subAt (mmAt t n) k = subAt (mmAt s n) k) ∧ (mmAt t n).mem = (mmAt s n).mem
      ∧ ∀ i, i < 16 → crMode (creelAt (mmAt s n) i).desc = 2 → crSub (creelAt (mmAt s n) i).desc = b →
          (creelAt (mmAt t n) i).offTail ≠ none ∧ look 0 (mmAt t n).grants i = 0 := by
  have hm : mmAt (subChange n b s) n = subChanged b st (elasticOf (mmAt s n) b) (mmAt s n) := by rw [subChange_request hreq, mmAt_modMm_self]
  refine ⟨_, ho, by rw [subChange_request hreq]; exact onlyMm_modMm .., ?_, fun k hkb => ?_, ?_, fun i hi hmode hsub => ⟨?_, ?_⟩⟩
  · rw [hm]
    exact subAt_subChanged_self ..
  · rw [hm]
    exact subAt_subChanged_ne _ _ _ _ hkb
  · rw [hm]
    exact mem_subChanged ..
  · rw [hm]
    exact offTail_subChanged _ _ _ (filter_range_nodup ..) (mem_elasticOf.mpr ⟨hi, hmode, hsub⟩)
  · rw [hm]
    exact grants_subChanged _ _ _ (mem_elasticOf.mpr ⟨hi, hmode, hsub⟩)

theorem execSubbankStateChange_boundary {n b st e : Nat} {s : State} (hn : sitePresent s.member n = true) (hk : kindOf n = .mm) (hb : b < 4) (hp : s.now % 8 = 0)
    (hreq : (subAt (mmAt s n) b).req = some (st, e)) (hc : creditsOut (mmAt s n) b = 0) :
    exec (.subbankStateChange n b) s = .next (subChange n b s) := by
  rw [show exec (.subbankStateChange n b) s = execSubbankStateChange n b s from rfl, execSubbankStateChange, onSite_of_kind hn hk]
  simp only [Nat.mod_eq_of_lt hb, hreq, hc, Option.isSome_some, decide_true, Bool.and_self, if_true, toPick_past (show 8 * ((s.now + 7) / 8) ≤ s.now by omega)]

theorem execSubbankForceTimeout_late {n b st e : Nat} {s : State} (hn : sitePresent s.member n = true) (hk : kindOf n = .mm) (hb : b < 4)
    (hreq : (subAt (mmAt s n) b).req = some (st, e)) (he : 8 * (e / 8 + 200) ≤ s.now) : exec (.subbankForceTimeout n b) s = .next (subChange n b s) := by
  rw [show exec (.subbankForceTimeout n b) s = execSubbankForceTimeout n b s from rfl, execSubbankForceTimeout, onSite_of_kind hn hk]
  simp only [Nat.mod_eq_of_lt hb, hreq, toPick_past he]

/-! ## A return to ON (R145, R148, R149) -/

/-- Grains written sour and recorded TAILs forgotten: the rest of the site stays, its creels but for that. -/
structure Late (m y : Mm) : Prop where
  frame : y = { m with mem := y.mem, code := y.code, creels := y.creels }
  creel : ∀ k, creelAt y k = { creelAt m k with offTail := (creelAt y k).offTail }

theorem Late.refl (m : Mm) : Late m m := ⟨rfl, fun _ => rfl⟩

theorem Late.trans {m y z : Mm} (h : Late m y) (k : Late y z) : Late m z := by
  refine ⟨?_, fun i => ?_⟩
  · rw [k.frame, h.frame]
  · rw [k.creel i, h.creel i]

theorem late_foldl {α : Type} {l : List α} {f : Mm → α → Mm} (hf : ∀ y x, Late y (f y x)) (m : Mm) : Late m (l.foldl f m) := by
  induction l generalizing m with
  | nil => exact .refl m
  | cons x l ih => exact (hf m x).trans (ih _)

theorem late_forgetTail (i : Nat) (m : Mm) : Late m (modCreel i (fun c => { c with offTail := none }) m) := by
  refine ⟨rfl, fun k => ?_⟩
  by_cases h : k = i
  · subst h
    rw [creelAt_modCreel_self]
  · rw [creelAt_modCreel_ne _ _ h]

theorem late_sourLate (i : Nat) (m : Mm) : Late m (sourLate i m) := by
  unfold sourLate
  dsimp only
  split
  · exact .refl m
  · refine Late.trans ?_ (late_forgetTail i _)
    refine late_foldl (fun _ _ => ?_) m
    exact ⟨rfl, fun _ => rfl⟩

/-- The contents of a sub-bank as it comes back: sour where they are lost, and what came late. -/
def contentsBack (b : Nat) (lost : Bool) (m : Mm) : Mm :=
  let y := if lost then m.wipe b else m
  (elasticOf y b).foldl (fun m i => sourLate i m) y

theorem late_contentsBack (b : Nat) (lost : Bool) (m : Mm) : Late m (contentsBack b lost m) := by
  refine Late.trans (y := if lost then m.wipe b else m) ?_ (late_foldl (fun y i => late_sourLate i y) _)
  cases lost
  · exact .refl m
  · exact ⟨rfl, fun _ => rfl⟩

theorem contentsBack_lost {b : Nat} {m : Mm} (h : elasticOf m b = []) : contentsBack b true m = m.wipe b := by
  have hw : elasticOf (m.wipe b) b = [] := h
  simp only [contentsBack, if_true, hw, List.foldl_nil]

theorem Late.elasticOf {m y : Mm} (h : Late m y) (b : Nat) : elasticOf y b = elasticOf m b := by
  unfold Machine.elasticOf
  refine List.filter_congr fun i _ => ?_
  rw [h.creel i]

/-- The credits granted for a creel afresh (R149). -/
def freshGrant (c : Creel) : Nat := (crFree c - uncommitted c) / crPadv c.desc

theorem Late.freshGrant {m y : Mm} (h : Late m y) (i : Nat) : freshGrant (creelAt y i) = freshGrant (creelAt m i) := by
  rw [h.creel i]
  rfl

/-- Sub-bank b is ON again, with fresh credits for its elastic creels. -/
def subOn (b : Nat) (m : Mm) : Mm :=
  let y := modSub b (fun x => { x with power := 0, waking := none, lost := false }) m
  let z := (elasticOf y b).foldl (fun m i => modCreel i Creel.fresh m) y
  { z with recalled := z.recalled &&& (15 - 2 ^ b)
           credits := (elasticOf z b).foldl (fun g i => put 0 g i 0) z.credits
           grants := (elasticOf y b).foldl (fun g i => put 0 g i (freshGrant (creelAt y i))) y.grants }

section
variable (b : Nat) (m : Mm)

theorem subs_subOn : (subOn b m).subs = (modSub b (fun x => { x with power := 0, waking := none, lost := false }) m).subs := by
  unfold subOn
  dsimp only
  rw [foldl_modCreel_frame]

theorem subAt_subOn_self : subAt (subOn b m) b = { subAt m b with power := 0, waking := none, lost := false } := by
  rw [subAt, subs_subOn]
  exact subAt_modSub_self ..

theorem subAt_subOn_ne {k : Nat} (h : k ≠ b) : subAt (subOn b m) k = subAt m k := by
  rw [subAt, subs_subOn]
  exact subAt_modSub_ne _ _ h

theorem recalled_subOn {b : Nat} (hb : b < 4) : bit (subOn b m).recalled b = false := by
  have h : Nat.testBit (15 - 2 ^ b) b = false := by
    have : ∀ b, b < 4 → Nat.testBit (15 - 2 ^ b) b = false := by decide
    exact this b hb
  rw [bit_eq_testBit, subOn, Nat.testBit_and, h, Bool.and_false]

theorem grants_subOn {i : Nat} (h : i ∈ elasticOf m b) : look 0 (subOn b m).grants i = freshGrant (creelAt m i) :=
  (look_foldl_put 0 (fun i => freshGrant (creelAt m i)) _ i).trans (if_pos h)

theorem mmCells_subOn (k r : Nat) : mmCells (subOn b m) k r = mmCells m k r := by
  unfold subOn
  dsimp only
  rw [foldl_modCreel_frame]
  rfl

end

theorem execSubbankReturnOn_due {n b e : Nat} {s : State} (hn : sitePresent s.member n = true) (hk : kindOf n = .mm) (hb : b < 4)
    (hw : (subAt (mmAt s n) b).waking = some e) (he : (e + 7) / 8 + (if (subAt (mmAt s n) b).power = 2 then 800 else 20) ≤ s.now / 8) :
    exec (.subbankReturnOn n b) s
      = .next (modMm n (fun m => subOn b (contentsBack b (decide ((subAt (mmAt s n) b).power = 2) || (subAt (mmAt s n) b).lost) m)) s) := by
  rw [show exec (.subbankReturnOn n b) s = execSubbankReturnOn n b s from rfl, execSubbankReturnOn, onSite_of_kind hn hk]
  have hpick : 8 * ((e + 7) / 8 + (if decide ((subAt (mmAt s n) b).power = 2) = true then 800 else 20)) ≤ s.now := by
    simp only [decide_eq_true_eq]
    omega
  simp only [Nat.mod_eq_of_lt hb, hw, toPick_past hpick]
  rfl

/-! ## Rows of a sub-bank whose contents are lost (R148) -/

theorem look_append_of_ne {α : Type} {d : α} {t u : Tab α} {k : Nat} (h : ∀ x ∈ t, x.1 ≠ k) : look d (t ++ u) k = look d u k := by
  induction t with
  | nil => rfl
  | cons x t ih =>
    obtain ⟨hx, ht⟩ := List.forall_mem_cons.mp h
    rw [List.cons_append, look, if_neg hx.symm, ih ht]

theorem look_append_of_mem {α : Type} {d v : α} {t u : Tab α} {k : Nat} (hk : ∃ x ∈ t, x.1 = k) (hv : ∀ x ∈ t, x.2 = v) : look d (t ++ u) k = v := by
  induction t with
  | nil =>
    obtain ⟨x, hx, -⟩ := hk
    exact absurd hx List.not_mem_nil
  | cons x t ih =>
    obtain ⟨hx, ht⟩ := List.forall_mem_cons.mp hv
    rw [List.cons_append, look]
    split
    · exact hx
    · next hne =>
      refine ih ?_ ht
      obtain ⟨y, hy, hyk⟩ := hk
      rcases List.mem_cons.mp hy with rfl | hy
      · exact absurd hyk.symm hne
      · exact ⟨y, hy, hyk⟩

theorem look_fillTab {α : Type} (d v : α) (t : Tab α) {lo n k : Nat} (h1 : lo ≤ k) (h2 : k < lo + n) : look d (fillTab lo n v t) k = v := by
  rw [fillTab, List.append_assoc, look_append_of_ne]
  · refine look_append_of_mem ⟨(lo + (k - lo), v), List.mem_map.mpr ⟨k - lo, List.mem_range.mpr (by omega), rfl⟩, by simp only; omega⟩ fun x hx => ?_
    obtain ⟨i, -, rfl⟩ := List.mem_map.mp hx
    rfl
  · intro x hx
    have := of_decide_eq_true (List.mem_filter.mp hx).2
    omega

theorem physRow_lt (m : Mm) (b : Nat) {r : Nat} (h : r < 6144) : physRow m b r < 6176 := by
  unfold physRow
  split
  · next e he =>
    have := List.mem_range.mp (List.mem_of_find?_eq_some he)
    omega
  · omega

theorem mmCells_wipe (m : Mm) (b : Nat) {r : Nat} (h : r < 6144) : mmCells (m.wipe b) b r = List.replicate 4 .sour := by
  have hp := physRow_lt (m.wipe b) b h
  refine List.eq_replicate_iff.mpr ⟨length_mmCells .., fun x hx => ?_⟩
  obtain ⟨c, hc, rfl⟩ := List.mem_map.mp hx
  have hc := List.mem_range.mp hc
  have ha : mmRowAddr (m.wipe b) b r / 16 = (6176 * b + physRow (m.wipe b) b r) * 4 := by
    rw [mmRowAddr]
    omega
  rw [ha]
  exact look_fillTab _ _ _ (by omega) (by omega)

/-! ## MM_PWR through a window (R146, R147, R373) -/

theorem filter_range_eq_single {b : Nat} {p : Nat → Bool} (hb : b < 4) (h : ∀ k, k < 4 → p k = decide (k = b)) : (List.range 4).filter p = [b] := by
  have e : ∀ b, b < 4 → (List.range 4).filter (fun k => decide (k = b)) = [b] := by decide
  rw [List.filter_congr fun k hk => h k (List.mem_range.mp hk), e b hb]

theorem filter_range_eq_nil {p : Nat → Bool} (h : ∀ k, k < 4 → p k = false) : (List.range 4).filter p = [] :=
  List.filter_eq_nil_iff.mpr fun k hk => by rw [h k (List.mem_range.mp hk)]; exact Bool.noConfusion

/-- The sub-bank asked to leave ON for state st, waiting (R146). -/
def SubBank.asked (st now : Nat) (x : SubBank) : SubBank := { x with req := some (st, now), waits := true, waking := none }

/-- Sub-bank b is asked to leave ON, and its RECALL is to be sent (R147). -/
def leaveAsked (b st now : Nat) (m : Mm) : Mm := { modSub b (SubBank.asked st now) m with recallSet := m.recallSet ||| 2 ^ b }

theorem recallSet_leaveAsked (b st now : Nat) (m : Mm) : bit (leaveAsked b st now m).recallSet b = true := by
  rw [bit_eq_testBit, leaveAsked, Nat.testBit_or, Nat.testBit_two_pow_self, Bool.or_true]

theorem subRequest_leave {n b st : Nat} {s : State} (hst : st = 1 ∨ st = 2) (hp : (subAt (mmAt s n) b).power = 0) :
    subRequest n b st s = modMm n (leaveAsked b st s.now) s := by
  have h0 : st ≠ 0 := by omega
  simp only [subRequest, if_neg h0, hp, if_neg h0.symm, if_true]
  rfl

section
variable {n v : Nat} {s : State} (hlive : siteLive s n = false)
include hlive

/-- With no job at the site MM_PWR is written: its requests, then its FORCE bits. -/
theorem writeMmPwr_idle (hw : ∀ k, k < 4 → bits v (2 * k + 1) (2 * k) ≠ 3) : writeMmPwr n v s = wrote
    (each ((List.range 4).filter fun b => bit v (8 + b)) (fun b s => subChange n b s)
      (each ((List.range 4).filter fun b => decide (bits v (2 * b + 1) (2 * b) ≠ subTarget (subAt (mmAt s n) b)))
        (fun b s => subRequest n b (bits v (2 * b + 1) (2 * b)) s) (modMm n (fun m => { m with pwrReq := v % 256 }) s))) := by
  have h3 : ((List.range 4).any fun b => bits v (2 * b + 1) (2 * b) == 3) = false :=
    any_range_eq_false fun k hk => beq_eq_false_iff_ne.mpr (hw k hk)
  have hu : ∀ l : List Nat, l.any (subUsed s n) = false := fun l => List.any_eq_false.mpr fun b _ => by
    rw [subUsed, hlive, Bool.false_and]
    exact Bool.noConfusion
  simp only [writeMmPwr, h3, hu, Bool.false_eq_true, if_false]

/-- One sub-bank, ON like the others, is asked for state st. -/
theorem writeMmPwr_leave {b st : Nat} (hb : b < 4) (hst : st = 1 ∨ st = 2) (hv : v = st * 2 ^ (2 * b))
    (hon : ∀ k, k < 4 → (subAt (mmAt s n) k).waking = none ∧ (subAt (mmAt s n) k).power = 0 ∧ (subAt (mmAt s n) k).req = none) :
    writeMmPwr n v s = wrote (modMm n (leaveAsked b st s.now) (modMm n (fun m => { m with pwrReq := v % 256 }) s)) := by
  have hwant : ∀ k, k < 4 → bits v (2 * k + 1) (2 * k) = if k = b then st else 0 := by
    have h : ∀ st, st < 3 → ∀ b, b < 4 → ∀ k, k < 4 → bits (st * 2 ^ (2 * b)) (2 * k + 1) (2 * k) = if k = b then st else 0 := by decide
    rw [hv]
    exact h st (by omega) b hb
  have hforce : ∀ k, k < 4 → bit v (8 + k) = false := by
    have h : ∀ st, st < 3 → ∀ b, b < 4 → ∀ k, k < 4 → bit (st * 2 ^ (2 * b)) (8 + k) = false := by decide
    rw [hv]
    exact h st (by omega) b hb
  have htarget : ∀ k, k < 4 → subTarget (subAt (mmAt s n) k) = 0 := fun k hk => by
    obtain ⟨hw, hp, hr⟩ := hon k hk
    simp only [subTarget, hr, hw, hp, Option.isSome_none, Bool.false_eq_true, if_false]
  have hchanged : ((List.range 4).filter fun k => decide (bits v (2 * k + 1) (2 * k) ≠ subTarget (subAt (mmAt s n) k))) = [b] :=
    filter_range_eq_single hb fun k hk => by
      rw [hwant k hk, htarget k hk]
      refine decide_eq_decide.mpr ?_
      split <;> omega
  rw [writeMmPwr_idle hlive fun k hk => by rw [hwant k hk]; split <;> omega, hchanged, filter_range_eq_nil hforce]
  have hreq := subRequest_leave (n := n) (b := b) (s := modMm n (fun m => { m with pwrReq := v % 256 }) s) hst
    (by rw [mmAt_modMm_self]; exact (hon b hb).2.1)
  change wrote (subRequest n b (bits v (2 * b + 1) (2 * b)) _) = _
  rw [hwant b hb, if_pos rfl, hreq]
  rfl

end

/-- The targets of the four sub-banks, as MM_PWR spells them. -/
theorem targets_packed (T : Nat → Nat) : (List.range 4).foldl (fun v b => v + T b * 2 ^ (2 * b)) 0 = T 0 + T 1 * 4 + T 2 * 16 + T 3 * 64 := by
  simp [List.range_succ]

/-- A word of four targets with the FORCE bit of one sub-bank. -/
theorem forceWord {T : Nat → Nat} {b v : Nat} (hb : b < 4) (hT : ∀ k, k < 4 → T k < 4)
    (hv : v = bits (2 ^ (8 + b)) 11 8 * 2 ^ 8 + (T 0 + T 1 * 4 + T 2 * 16 + T 3 * 64)) :
    (∀ k, k < 4 → bits v (2 * k + 1) (2 * k) = T k) ∧ ∀ k, k < 4 → bit v (8 + k) = decide (k = b) := by
  have hbits : bits (2 ^ (8 + b)) 11 8 = 2 ^ b := by
    have : ∀ b, b < 4 → bits (2 ^ (8 + b)) 11 8 = 2 ^ b := by decide
    exact this b hb
  have h0 := hT 0 (by decide)
  have h1 := hT 1 (by decide)
  have h2 := hT 2 (by decide)
  have h3 := hT 3 (by decide)
  rw [hbits] at hv
  refine ⟨fun k hk => ?_, fun k hk => ?_⟩
  · generalize 2 ^ b = q at hv
    interval_cases k <;> simp only [bits] <;> omega
  · have hhi : v / 2 ^ 8 = 2 ^ b := by omega
    have h : ∀ b, b < 4 → ∀ k, k < 4 → bit (2 ^ b) k = decide (k = b) := by decide
    rw [bit, pow_add, ← Nat.div_div_eq_div_mul, hhi]
    exact h b hb k hk

/-- Forcing sub-bank b's request beside the targets in force performs it at once. -/
theorem writeMmPwr_force {n b st e v : Nat} {s : State} (hlive : siteLive s n = false) (hb : b < 4) (hst : st = 1 ∨ st = 2)
    (hreq : (subAt (mmAt s n) b).req = some (st, e)) (hwake : ∀ k, k < 4 → (subAt (mmAt s n) k).waking = none)
    (hothers : ∀ k, k ≠ b → k < 4 → (subAt (mmAt s n) k).req = none ∧ (subAt (mmAt s n) k).power < 3)
    (hv : v = bits (2 ^ (8 + b)) 11 8 * 2 ^ 8 + (List.range 4).foldl (fun v k => v + subTarget (subAt (mmAt s n) k) * 2 ^ (2 * k)) 0) :
    writeMmPwr n v s = wrote (subChange n b (modMm n (fun m => { m with pwrReq := v % 256 }) s)) := by
  have hT : ∀ k, k < 4 → subTarget (subAt (mmAt s n) k) < 3 := fun k hk => by
    by_cases h : k = b
    · subst h
      simp only [subTarget, hreq]
      omega
    · obtain ⟨hr, hp⟩ := hothers k h hk
      simpa only [subTarget, hr, hwake k hk, Option.isSome_none, Bool.false_eq_true, if_false] using hp
  rw [targets_packed (fun k => subTarget (subAt (mmAt s n) k))] at hv
  obtain ⟨hwant, hforce⟩ := forceWord hb (fun k hk => Nat.lt_succ_of_lt (hT k hk)) hv
  rw [writeMmPwr_idle hlive fun k hk => by rw [hwant k hk]; exact Nat.ne_of_lt (hT k hk), filter_range_eq_single hb hforce,
    filter_range_eq_nil fun k hk => decide_eq_false fun h => h (hwant k hk)]
  rfl

theorem execMmPwrForce_window (w n v : Nat) (s : State) : exec (.mmPwrForce w n v) s
    = siteWindow w n 0x300 (bits v 11 8 * 2 ^ 8 + (List.range 4).foldl (fun v k => v + subTarget (subAt (mmAt s n) k) * 2 ^ (2 * k)) 0) s := by
  rw [show exec (.mmPwrForce w n v) s = execMmPwrForce w n v s from rfl, execMmPwrForce, siteWindow, guardUnit, guardUnit]

section
variable {w n b st : Nat} {s : State} (hw : w < 4) (hr : siteReach s n = true) (hk : kindOf n = .mm) (hlive : siteLive s n = false)
  (hb : b < 4) (hst : st = 1 ∨ st = 2) (hwake : ∀ k, k < 4 → (subAt (mmAt s n) k).waking = none)
include hw hr hk hlive hb hst hwake

theorem execMmPwrRequest_leave (hon : ∀ k, k < 4 → (subAt (mmAt s n) k).power = 0 ∧ (subAt (mmAt s n) k).req = none) :
    ∃ t, exec (.mmPwrRequest (some w) n (st * 2 ^ (2 * b))) s = .next t
      ∧ Shown w none s (modMm n (leaveAsked b st s.now) (modMm n (fun m => { m with pwrReq := st * 2 ^ (2 * b) % 256 }) s)) t := by
  have hword : st * 2 ^ (2 * b) % 256 = st * 2 ^ (2 * b) := by
    have h : ∀ st, st < 3 → ∀ b, b < 4 → st * 2 ^ (2 * b) % 256 = st * 2 ^ (2 * b) := by decide
    exact h st (by omega) b hb
  have hwrite : writeSite n 0x300 (st * 2 ^ (2 * b)) s
      = wrote (modMm n (leaveAsked b st s.now) (modMm n (fun m => { m with pwrReq := st * 2 ^ (2 * b) % 256 }) s)) := by
    rw [show writeSite n 0x300 (st * 2 ^ (2 * b)) s = writeMmPwr n (st * 2 ^ (2 * b)) s by rw [writeSite, hk]; rfl]
    exact writeMmPwr_leave hlive hb hst rfl fun k h => ⟨hwake k h, hon k h⟩
  obtain ⟨t, ht, hshown⟩ := siteWindow_shown hw hr (by decide) (mm_word_aligned hk (by decide)) hwrite rfl
  refine ⟨t, ?_, hshown⟩
  rw [← ht]
  exact congrArg (fun v => siteWindow w n 0x300 v s) hword

theorem execMmPwrForce_pending {e : Nat} (hreq : (subAt (mmAt s n) b).req = some (st, e))
    (hothers : ∀ k, k ≠ b → k < 4 → (subAt (mmAt s n) k).req = none ∧ (subAt (mmAt s n) k).power < 3) :
    ∃ t v, exec (.mmPwrForce w n (2 ^ (8 + b))) s = .next t
      ∧ Shown w none s (subChange n b (modMm n (fun m => { m with pwrReq := v }) s)) t := by
  have hv : ∀ v, writeSite n 0x300 v s = writeMmPwr n v s := fun v => by
    rw [writeSite, hk]
    rfl
  obtain ⟨t, ht, hshown⟩ := siteWindow_shown hw hr (by decide) (mm_word_aligned hk (by decide))
    ((hv _).trans (writeMmPwr_force hlive hb hst hreq hwake hothers rfl)) (by rw [subChange_request (by rw [mmAt_modMm_self]; exact hreq)]; rfl)
  exact ⟨t, _, (execMmPwrForce_window ..).trans ht, hshown⟩

end

end Sys2Proof.Machine

open Sys2Proof Sys2Proof.Machine

/-- Settles O23: a request is taken by subChanged, a sub-bank returns by contentsBack and subOn, and MM_PWR asks or forces one. -/
theorem subBankPowerChangesOnRequest : Obligations.SubBankPowerChangesOnRequest := by
  refine ⟨fun n b s hn hk hb hp => ⟨fun st e hreq => ?taken, fun e hw he => ?back⟩, fun w n b st s hw hr hk hlive hb hst hwake => ⟨fun hon => ?ask, fun e hreq hothers => ?force⟩⟩
  case taken =>
    exact ⟨fun hc => subChange_takes (execSubbankStateChange_boundary hn hk hb hp hreq hc) hreq,
      fun he => subChange_takes (execSubbankForceTimeout_late hn hk hb hreq he) hreq⟩
  case back =>
    have hex := execSubbankReturnOn_due hn hk hb hw he
    generalize hl : (decide ((subAt (mmAt s n) b).power = 2) || (subAt (mmAt s n) b).lost) = lost at hex
    generalize hq : modMm n _ s = q at hex
    have hm : mmAt q n = subOn b (contentsBack b lost (mmAt s n)) := by rw [← hq, mmAt_modMm_self]
    have hlate := late_contentsBack b lost (mmAt s n)
    have hsub : ∀ k, subAt (contentsBack b lost (mmAt s n)) k = subAt (mmAt s n) k := fun k => by
      rw [subAt, hlate.frame]
      rfl
    refine ⟨q, hex, hq ▸ onlyMm_modMm .., ?_, ?_, fun k hkb => ?_, ?_, fun i hi hmode hsubi => ?_, fun hlost r hr hnone => ?_⟩
    · rw [hm, subAt_subOn_self]
    · rw [hm, subAt_subOn_self]
    · rw [hm, subAt_subOn_ne _ _ hkb, hsub]
    · rw [hm]
      exact recalled_subOn _ hb
    · rw [hm, grants_subOn _ _ (by rw [hlate.elasticOf]; exact mem_elasticOf.mpr ⟨hi, hmode, hsubi⟩), hlate.freshGrant]
      rfl
    · have hl : lost = true := by
        rw [← hl]
        rcases hlost with h | h
        · rw [decide_eq_true h, Bool.true_or]
        · rw [h, Bool.or_true]
      rw [hm, mmCells_subOn, hl, contentsBack_lost hnone, mmCells_wipe _ _ hr]
  case ask =>
    obtain ⟨t, ht, hshown⟩ := execMmPwrRequest_leave hw hr hk hlive hb hst hwake hon
    obtain ⟨hframe, hsites, -⟩ := hshown.mmWindow ((onlyMm_modMm ..).trans (onlyMm_modMm ..))
    have hm : mmAt t n = leaveAsked b st s.now { mmAt s n with pwrReq := st * 2 ^ (2 * b) % 256 } := by
      rw [hshown.mmAt_eq, mmAt_modMm_self, mmAt_modMm_self]
    refine ⟨t, ht, hframe, hshown.stat_eq, hsites, ?_, fun k hkb _ => ?_, ?_, ?_⟩
    · rw [hm]
      exact subAt_modSub_self ..
    · rw [hm]
      exact subAt_modSub_ne _ _ hkb
    · rw [hm]
      exact recallSet_leaveAsked ..
    · rw [hm]
      rfl
  case force =>
    obtain ⟨t, v, ht, hshown⟩ := execMmPwrForce_pending hw hr hk hlive hb hst hwake hreq hothers
    rw [subChange_request (by rw [mmAt_modMm_self]; exact hreq)] at hshown
    obtain ⟨hframe, hsites, -⟩ := hshown.mmWindow ((onlyMm_modMm ..).trans (onlyMm_modMm ..))
    generalize elasticOf _ b = l at hshown
    have hm : mmAt t n = subChanged b st l { mmAt s n with pwrReq := v } := by
      rw [hshown.mmAt_eq, mmAt_modMm_self, mmAt_modMm_self]
    have htaken : subAt (mmAt t n) b = (subAt (mmAt s n) b).taken st := by
      rw [hm]
      exact subAt_subChanged_self ..
    refine ⟨t, ht, hframe, hshown.stat_eq, hsites, ?_, ?_, ?_⟩
    · rw [htaken]
      rfl
    · rw [htaken]
      rfl
    · rw [hm]
      exact mem_subChanged ..
end

section
/-! Windows on an MM site (R122, R141, R150, R363-R366, R377, R380): O36. -/
namespace Sys2Proof.Machine

/-! ## Data accesses: a creel's descriptor through IDX_DATA (R363-R365) -/

/-- With STRIDE 8 a data access moves INDEX to the next 64-bit register (R365). -/
theorem advance_stride8 {x : Window} (h3 : bit x.ctrl 3 = false) (h2 : x.ctrl % 4 = 2) (ha : x.addr + 8 < 2 ^ 28) : x.advance = { x with addr := x.addr + 8 } := by
  have h : x.addr / 2 ^ 28 * 2 ^ 28 + (x.addr % 2 ^ 28 + 8) % 2 ^ 28 = x.addr + 8 := by omega
  simp only [Window.advance, h3, Bool.false_eq_true, if_false, h2]
  exact congrArg (fun a => { x with addr := a }) h

section
variable {n c : Nat} {s : State} (hk : kindOf n = .mm) (hc : c < 16)
include hk hc

theorem siteReg_creel : siteReg s n (0x100 + 8 * c) = r64 (creelAt (mmAt s n) c).desc.toNat := by
  have hlow : ¬ 0x1000 ≤ 0x100 + 8 * c := by omega
  have hexc : within 0x600 0x617 (0x100 + 8 * c) = false := by
    rw [within, decide_eq_false (by omega), Bool.false_and]
  have hin : within 0x100 0x17F (0x100 + 8 * c) = true := by
    rw [within, decide_eq_true (by omega), decide_eq_true (by omega), Bool.and_self]
  have hcreel : (0x100 + 8 * c - 0x100) / 8 = c := by omega
  simp only [siteReg, if_neg hlow, hexc, Bool.false_eq_true, if_false, hk, mmReg, hin, if_true, hcreel]

theorem creel_aligned (write : Bool) : misaligned (0x100 + 8 * c) true (siteReg s n (0x100 + 8 * c)).width write = false := by
  rw [siteReg_creel hk hc, misaligned, decide_eq_false (by omega : ¬ (0x100 + 8 * c) % 4 ≠ 0), decide_eq_false (by omega : ¬ (0x100 + 8 * c) % 8 ≠ 0)]
  rfl

theorem idxRead_creel (hr : siteReach s n = true) : idxRead (0x100 + 8 * c) n true s = (0, some (creelAt (mmAt s n) c).desc.toNat, s) := by
  have hdata : within 0x840 0x87F (0x100 + 8 * c) = false := by
    rw [within, decide_eq_false (by omega), Bool.false_and]
  have htri : within 0x400 0x5FF (0x100 + 8 * c) = false := by
    rw [within, decide_eq_false (by omega), Bool.false_and]
  have hal : misaligned (0x100 + 8 * c) true (unitReg s (.site n (0x100 + 8 * c))).width false = false := creel_aligned hk hc false
  simp only [idxRead, idxUnit_site hr (show 0x100 + 8 * c < 0x1000 by omega), hal, hdata, htri, unitTri, Bool.and_false, Bool.false_and, Bool.false_eq_true, reduceCtorEq,
    and_false, or_self, if_false, if_true]
  change (0, some (siteReg s n (0x100 + 8 * c)).val, s) = _
  rw [siteReg_creel hk hc]
  rfl

theorem writeSite_creel (hlive : siteLive s n = false) (d : Nat) : writeSite n (0x100 + 8 * c) d s =
    if creelWriteOk (BitVec.ofNat 64 d) then wrote (modMm n (modCreel c fun x => { x with staged := BitVec.ofNat 64 (d / 2 ^ 26 * 2 ^ 26) }) s) else refused .range s := by
  have hlow : ¬ 0x1000 ≤ 0x100 + 8 * c := by omega
  have hin : within 0x100 0x17F (0x100 + 8 * c) = true := by
    rw [within, decide_eq_true (by omega), decide_eq_true (by omega), Bool.and_self]
  have hcreel : (0x100 + 8 * c - 0x100) / 8 = c := by omega
  simp only [writeSite, if_neg hlow, hk, hin, if_true, hcreel, hlive, unlessLive, Bool.not_false, Bool.true_and, Bool.false_eq_true, if_false]
  cases creelWriteOk (BitVec.ofNat 64 d) <;> rfl

end

/-- Creel c of MM site n has a word staged. -/
def creelStaged (n c d : Nat) : State → State := modMm n (modCreel c fun x => { x with staged := BitVec.ofNat 64 (d / 2 ^ 26 * 2 ^ 26) })

theorem idxWrite_creel {n c : Nat} {s : State} (hr : siteReach s n = true) (hk : kindOf n = .mm) (hc : c < 16) (hlive : siteLive s n = false) (d : Nat) :
    idxWrite (0x100 + 8 * c) n true d s = if creelWriteOk (BitVec.ofNat 64 d) then (0, creelStaged n c d s) else (1, s) := by
  have hw : writeUnit (.site n (0x100 + 8 * c)) d s = writeSite n (0x100 + 8 * c) d s := rfl
  rw [idxWrite_eq (idxUnit_site hr (by omega)) (by simp) (by simp) (creel_aligned hk hc true), hw, writeSite_creel hk hc hlive]
  split <;> rfl

section
variable {w n c p : Nat} {s : State} (hr : siteReach s n = true) (hk : kindOf n = .mm) (hc : c < 16)
  (ha : (winAt s w).addr = 0x100 + 8 * c) (hsite : (winAt s w).site = n) (h64 : bit (winAt s w).ctrl 2 = true)
include hr hk hc ha hsite h64

theorem idxDataRead_creel : idxDataRead p w s = modPort p (fun x => { x with readData := (creelAt (mmAt s n) c).desc.toNat % 2 ^ 32 })
    (modWin w (fun x => Window.advance { x with lo := (creelAt (mmAt s n) c).desc.toNat % 2 ^ 32, hi := (creelAt (mmAt s n) c).desc.toNat / 2 ^ 32 }) s) := by
  have hv : (creelAt (mmAt s n) c).desc.toNat / 2 ^ 32 % 2 ^ 32 = (creelAt (mmAt s n) c).desc.toNat / 2 ^ 32 := by
    have := (creelAt (mmAt s n) c).desc.isLt
    omega
  simp only [idxDataRead, ha, hsite, h64, idxRead_creel hk hc hr, note_zero, hv, if_true]

theorem execIdxDataRead_creel (hw : w < 4) (hp : p < 2) (h2 : (winAt s w).ctrl % 4 = 2) (h3 : bit (winAt s w).ctrl 3 = false) :
    ∃ t, exec (.idxDataRead p w) s = .next t ∧ t = { s with wins := t.wins, ports := t.ports }
      ∧ (portAt t p).readData = (creelAt (mmAt s n) c).desc.toNat % 2 ^ 32
      ∧ winAt t w = { winAt s w with lo := (creelAt (mmAt s n) c).desc.toNat % 2 ^ 32, hi := (creelAt (mmAt s n) c).desc.toNat / 2 ^ 32, addr := 0x108 + 8 * c }
      ∧ ∀ k, k ≠ w → winAt t k = winAt s k := by
  have hex : exec (.idxDataRead p w) s = .next (idxDataRead p w s) := by
    rw [show exec (.idxDataRead p w) s = execIdxDataRead p w s from rfl, execIdxDataRead, decide_eq_true hp, decide_eq_true hw, Bool.and_self, guardUnit_true]
  refine ⟨_, hex, ?_⟩
  rw [idxDataRead_creel hr hk hc ha hsite h64]
  refine ⟨rfl, ?_, ?_, fun k hkw => ?_⟩
  · rw [portAt_modPort_self]
  · rw [winAt_modPort, winAt_modWin_self, advance_stride8 (by exact h3) (by exact h2) (by simp only [ha]; omega)]
    have haddr : (winAt s w).addr + 8 = 0x108 + 8 * c := by omega
    simp only [haddr]
  · rw [winAt_modPort, winAt_modWin_ne _ _ _ _ hkw]

theorem idxDataWrite_creel (hlive : siteLive s n = false) {u : Nat} (hu : u < 2 ^ 32) : idxDataWrite w u s =
    if creelWriteOk (BitVec.ofNat 64 (u + (winAt s w).hi * 2 ^ 32))
    then modWin w (fun x => Window.advance { x with lo := u }) (creelStaged n c (u + (winAt s w).hi * 2 ^ 32) s)
    else modWin w (fun x => (Window.note s.up 1 { x with lo := u }).advance) s := by
  rw [idxDataWrite]
  simp only [ha, hsite, h64, if_true, Nat.mod_eq_of_lt hu]
  rw [idxWrite_creel hr hk hc hlive]
  split
  · simp only [note_zero]
  · rfl

theorem execIdxDataWrite_creel (hw : w < 4) (hp : p < 2) (h2 : (winAt s w).ctrl % 4 = 2) (h3 : bit (winAt s w).ctrl 3 = false) (hlive : siteLive s n = false) {u : Nat} (hu : u < 2 ^ 32) :
    ∃ t, exec (.idxDataWrite p w u) s = .next t ∧ mmWindow n w s t
      ∧ winAt t w = { winAt s w with lo := u, addr := 0x108 + 8 * c
                                     stat := if creelWriteOk (BitVec.ofNat 64 (u + (winAt s w).hi * 2 ^ 32)) then (winAt s w).stat else (winAt s w).stat ||| 1
                                     hwSet := if creelWriteOk (BitVec.ofNat 64 (u + (winAt s w).hi * 2 ^ 32)) then (winAt s w).hwSet else noteSet s.up 1 (winAt s w).hwSet }
      ∧ creelAt (mmAt t n) c = (if creelWriteOk (BitVec.ofNat 64 (u + (winAt s w).hi * 2 ^ 32))
          then { creelAt (mmAt s n) c with staged := BitVec.ofNat 64 ((u + (winAt s w).hi * 2 ^ 32) / 2 ^ 26 * 2 ^ 26) } else creelAt (mmAt s n) c)
      ∧ ∀ k, k ≠ c → creelAt (mmAt t n) k = creelAt (mmAt s n) k := by
  have hex : exec (.idxDataWrite p w u) s = .next (idxDataWrite w u s) := by
    rw [show exec (.idxDataWrite p w u) s = execIdxDataWrite p w u s from rfl, execIdxDataWrite, decide_eq_true hp, decide_eq_true hw, Bool.and_self, guardUnit_true]
  have haddr : (winAt s w).addr + 8 = 0x108 + 8 * c := by omega
  refine ⟨_, hex, ?_⟩
  rw [idxDataWrite_creel hr hk hc ha hsite h64 hlive hu]
  cases creelWriteOk (BitVec.ofNat 64 (u + (winAt s w).hi * 2 ^ 32))
  · simp only [Bool.false_eq_true, if_false]
    refine ⟨⟨rfl, fun _ _ => rfl, fun k hk => winAt_modWin_ne _ _ _ _ hk⟩, ?_, rfl, fun _ _ => rfl⟩
    rw [winAt_modWin_self, advance_stride8 (by exact h3) (by exact h2) (by simp only [Window.note, ha]; omega)]
    simp only [Window.note, haddr]
  · simp only [if_true]
    refine ⟨⟨rfl, fun k hk => mmAt_modMm_ne _ _ _ _ hk, fun k hk => winAt_modWin_ne _ _ _ _ hk⟩, ?_, ?_, fun k hkc => ?_⟩
    · rw [winAt_modWin_self, advance_stride8 (by exact h3) (by exact h2) (by simp only [creelStaged, winAt_modMm, ha]; omega)]
      simp only [creelStaged, winAt_modMm, haddr]
    · rw [mmAt_modWin, creelStaged, mmAt_modMm_self, creelAt_modCreel_self]
    · rw [mmAt_modWin, creelStaged, mmAt_modMm_self, creelAt_modCreel_ne _ _ hkc]

end

theorem advance_lo (x : Window) : x.advance.lo = x.lo := by
  unfold Window.advance
  split <;> rfl

theorem advance_stat (x : Window) : x.advance.stat = x.stat := by
  unfold Window.advance
  split <;> rfl

/-- A read that is abandoned shows all ones and TMO, and is counted (R366). -/
theorem execIdxAccessTimeout_read {w : Nat} (s : State) (hw : w < 4) : ∃ t, exec (.idxAccessTimeout w none) s = .next t
    ∧ t = { s with wins := t.wins, counts := t.counts } ∧ (winAt t w).lo = 2 ^ 32 - 1 ∧ bit (winAt t w).stat 1 = true
    ∧ counted t 0x1D06 hubIdx = counted s 0x1D06 hubIdx + 1 := by
  refine ⟨_, by rw [show exec (.idxAccessTimeout w none) s = execIdxAccessTimeout w none s from rfl, execIdxAccessTimeout, decide_eq_true hw, guardUnit_true], rfl, ?_, ?_, ?_⟩
  · rw [winAt_count, winAt_modWin_self, winAt_modWin_self, advance_lo]
    rfl
  · rw [winAt_count, winAt_modWin_self, winAt_modWin_self, advance_stat, bit_eq_testBit]
    change ((winAt s w).stat ||| 2).testBit 1 = true
    rw [Nat.testBit_or, show (2 : Nat).testBit 1 = true from rfl, Bool.or_true]
  · rw [counted_count_self]
    rfl

/-! ## Staged descriptors (R122, R377) -/

/-- The creels that v selects, changed. -/
def creelsSelected (v : Nat) (f : Creel → Creel) (m : Mm) : Mm := ((List.range 16).filter (bit v)).foldl (fun m i => modCreel i f m) m

theorem creelAt_creelsSelected (v : Nat) (f : Creel → Creel) (m : Mm) {i : Nat} (hi : i < 16) :
    creelAt (creelsSelected v f m) i = if bit v i then f (creelAt m i) else creelAt m i :=
  (look_foldl_modCreel (filter_range_nodup ..) f m i).trans (if_congr (by simp [hi]) rfl rfl)

theorem mem_creelsSelected (v : Nat) (f : Creel → Creel) (m : Mm) : (creelsSelected v f m).mem = m.mem := by
  rw [creelsSelected, foldl_modCreel_frame]

/-- The descriptors that MM_STAGE asks for. -/
def stagedDescs (m : Mm) (v : Nat) : List W64 := (List.range 16).map fun i => if bit v i then (creelAt m i).staged else (creelAt m i).desc

theorem writeMmStage_idle {n : Nat} {s : State} (hlive : siteLive s n = false) (v : Nat) : writeMmStage n v s =
    if creelSetOk (stagedDescs (mmAt s n) v) then wrote (modMm n (creelsSelected v fun c => c.apply c.staged) s)
    else refused .rej (modMm n (creelsSelected v fun c => { c with staged := c.desc }) s) := by
  simp only [writeMmStage, hlive, Bool.false_eq_true, if_false]
  rfl

section
variable {w n : Nat} {s : State} (hw : w < 4) (hr : siteReach s n = true) (hk : kindOf n = .mm)
include hw hr hk

theorem execMmStageApply_window (hlive : siteLive s n = false) (v : Nat) : ∃ t, exec (.mmStageApply w n v) s = .next t ∧ mmWindow n w s t ∧ (mmAt t n).mem = (mmAt s n).mem
    ∧ (creelSetOk (stagedDescs (mmAt s n) v) = true → (winAt t w).stat = (winAt s w).stat
        ∧ ∀ i, i < 16 → creelAt (mmAt t n) i = if bit v i then (creelAt (mmAt s n) i).apply (creelAt (mmAt s n) i).staged else creelAt (mmAt s n) i)
    ∧ (creelSetOk (stagedDescs (mmAt s n) v) = false → (winAt t w).stat = (winAt s w).stat ||| 32
        ∧ ∀ i, i < 16 → creelAt (mmAt t n) i = if bit v i then { creelAt (mmAt s n) i with staged := (creelAt (mmAt s n) i).desc } else creelAt (mmAt s n) i) := by
  have hwrite : writeSite n 0x200 v s = _ := (by rw [writeSite, hk]; rfl : writeSite n 0x200 v s = writeMmStage n v s).trans (writeMmStage_idle hlive v)
  have hal := mm_word_aligned (s := s) (off := 0x200) hk (by decide)
  cases hok : creelSetOk (stagedDescs (mmAt s n) v)
  · rw [hok] at hwrite
    obtain ⟨t, ht, hshown⟩ := siteWindow_shown hw hr (by decide) hal hwrite rfl
    refine ⟨t, ht, hshown.mmWindow (onlyMm_modMm ..), ?_, fun h => Bool.noConfusion h, fun _ => ⟨hshown.stat, fun i hi => ?_⟩⟩
    · rw [hshown.mmAt_eq, mmAt_modMm_self, mem_creelsSelected]
    · rw [hshown.mmAt_eq, mmAt_modMm_self, creelAt_creelsSelected _ _ _ hi]
  · rw [hok] at hwrite
    obtain ⟨t, ht, hshown⟩ := siteWindow_shown hw hr (by decide) hal hwrite rfl
    refine ⟨t, ht, hshown.mmWindow (onlyMm_modMm ..), ?_, fun _ => ⟨hshown.stat_eq, fun i hi => ?_⟩, fun h => Bool.noConfusion h⟩
    · rw [hshown.mmAt_eq, mmAt_modMm_self, mem_creelsSelected]
    · rw [hshown.mmAt_eq, mmAt_modMm_self, creelAt_creelsSelected _ _ _ hi]

/-! ## MM_INJ (R141) -/

/-- The corruption that a word of MM_INJ arms. -/
def injOf (v : Nat) : Inj := { sub := bits v 30 29, row := bits v 28 16, cell := bits v 15 14, sym1 := bits v 13 8, sym2 := bits v 7 2, two := bit v 1 }

theorem execMmInjWrite_window {v : Nat} (h1 : bits v 13 8 ≤ 35) (h2 : bit v 1 = true → bits v 7 2 ≤ 35) (hrow : bits v 28 16 ≤ 6143) (harm : bit v 31 = true) :
    ∃ t, exec (.mmInjWrite w n v) s = .next t ∧ mmWindow n w s t
      ∧ (s.sec.dbgEn.val ≠ 0 → mmAt t n = { mmAt s n with inj := some (injOf v) })
      ∧ (s.sec.dbgEn.val = 0 → mmAt t n = mmAt s n ∧ (winAt t w).stat = (winAt s w).stat ||| 16) := by
  have hwrite : writeSite n 0x3C0 v s = writeMmInj n v s := by
    rw [writeSite, hk]
    rfl
  have hal := mm_word_aligned (s := s) (off := 0x3C0) hk (by decide)
  by_cases hd : s.sec.dbgEn.val = 0
  · have hlocked : writeMmInj n v s = refused .locked s := by
      rw [writeMmInj, if_pos hd]
    obtain ⟨t, ht, hshown⟩ := siteWindow_shown hw hr (by decide) hal (hwrite.trans hlocked) rfl
    exact ⟨t, ht, hshown.mmWindow (.refl n s), fun h => absurd hd h, fun _ => ⟨hshown.mmAt_eq n, hshown.stat⟩⟩
  · have harmed : writeMmInj n v s = wrote (modMm n (fun m => { m with inj := some (injOf v) }) s) := by
      have hrange : ¬ (35 < bits v 13 8 ∨ (bit v 1 = true ∧ 35 < bits v 7 2) ∨ 6143 < bits v 28 16) := by
        rintro (h | ⟨hb, h⟩ | h)
        · omega
        · exact absurd (h2 hb) (by omega)
        · omega
      rw [writeMmInj, if_neg hd, if_neg hrange, harm]
      rfl
    obtain ⟨t, ht, hshown⟩ := siteWindow_shown hw hr (by decide) hal (hwrite.trans harmed) rfl
    refine ⟨t, ht, hshown.mmWindow (onlyMm_modMm ..), fun _ => ?_, fun h => absurd h hd⟩
    rw [hshown.mmAt_eq, mmAt_modMm_self]

end

/-! ## MM_RDATA (R150, R378) -/

/-- Reading the row that MM_RADDR names leaves its words in MM_RDATA. -/
def rowShown (m : Mm) : Mm := { m with rsour := false, rdata := rowWords (mmRow m (raSub m) (raRow m)) }

theorem mmQuietRead_clean {n b r : Nat} {s : State} (hc : mmCells (mmAt s n) b r = List.replicate 4 .good) (hi : (mmAt s n).inj = none) :
    ∃ t, mmQuietRead n b r s = (mmRow (mmAt s n) b r, false, t) ∧ onlyMm n s t ∧ mmAt t n = mmAt s n := by
  refine ⟨modMm n (fun m => { m with inj := injUsed m b r }) s, ?_, onlyMm_modMm .., ?_⟩
  · simp only [mmQuietRead, rowOutcomes_unarmed b r hi, rowData_unarmed b r hi, hc]
    rfl
  · rw [mmAt_modMm_self, injUsed_unarmed b r hi, ← hi]

theorem optRuns_idle {s : State} {a : Option Nat} (h : optJob s a = false) : optRuns s a = false := by
  cases a with
  | none => rfl
  | some a =>
    have h : hasJob s a = false := h
    exact (Bool.or_eq_false_iff.mp h).1

section
variable {n : Nat} {s : State} (hlive : siteLive s n = false) (hp : (subAt (mmAt s n) (raSub (mmAt s n))).power = 0)
  (hc : mmCells (mmAt s n) (raSub (mmAt s n)) (raRow (mmAt s n)) = List.replicate 4 .good) (hi : (mmAt s n).inj = none)
include hlive hp

section
include hc hi

theorem readRdata_clean : ∃ t, readRdata n s = wrote t ∧ onlyMm n s t ∧ mmAt t n = rowShown (mmAt s n) := by
  obtain ⟨q, hq, hqs, hqm⟩ := mmQuietRead_clean hc hi
  refine ⟨modMm n (fun m => { m with rsour := false, rdata := rowWords (mmRow (mmAt s n) (raSub (mmAt s n)) (raRow (mmAt s n))) }) q, ?_, hqs.modMm _, ?_⟩
  · have hp : ¬ (subAt (mmAt s n) (raSub (mmAt s n))).power ≠ 0 := fun h => h hp
    simp only [readRdata, optRuns_idle (show optJob s (areaOfSite s n) = false from hlive), Bool.false_eq_true, if_false, if_neg hp, hq]
  · rw [mmAt_modMm_self, hqm]
    rfl

theorem execMmRdataRead_clean {w : Nat} (hw : w < 4) (hr : siteReach s n = true) (hk : kindOf n = .mm) :
    ∃ t, exec (.mmRdataRead w n) s = .next t ∧ mmWindow n w s t ∧ mmAt t n = rowShown (mmAt s n) := by
  obtain ⟨q, hq, hqs, hqm⟩ := readRdata_clean hlive hp hc hi
  have hreg : siteReg s n 0x840 = r32 (look 0 (mmAt s n).rdata 0).toNat := by
    rw [siteReg, hk]
    rfl
  have hread : ∃ v, idxRead 0x840 n false s = (0, some v, q) := by
    have hu := idxUnit_site hr (show 0x840 < 0x1000 by decide)
    have hal : misaligned 0x840 false (unitReg s (.site n 0x840)).width false = false := by
      rw [show unitReg s (.site n 0x840) = siteReg s n 0x840 from rfl, hreg]
      rfl
    have hdata : within 0x840 0x87F 0x840 = true := rfl
    have htri : within 0x400 0x5FF 0x840 = false := rfl
    refine ⟨(if (unitReg s (.site n 0x840)).width = 64 then (unitReg q (.site n 0x840)).val / 2 ^ (32 * (0x840 / 4 % 2)) % 2 ^ 32 else (unitReg q (.site n 0x840)).val), ?_⟩
    simp only [idxRead, hu, hal, hk, hdata, htri, hq, wrote, unitTri, each, List.foldl_nil, decide_true, Bool.and_self, if_true, reduceCtorEq, and_false,
      Bool.false_eq_true, or_self, if_false]
  obtain ⟨v, hread⟩ := hread
  have hshown : Shown w none s q (modWin w (Window.note s.up 0) q) := shown_modWin hqs.wins w s.up none
  refine ⟨_, ?_, hshown.mmWindow hqs, (hshown.mmAt_eq n).trans hqm⟩
  rw [show exec (.mmRdataRead w n) s = execMmRdataRead w n s from rfl, execMmRdataRead, decide_eq_true hw, guardUnit_true, hread]

end

/-- The row that a write of MM_RDATA_15 stores: the 15 words before it, and the word. -/
def rdataBytes (m : Mm) (v : Nat) : List Byte := ((List.range 15).flatMap fun i => leBytes 4 (look 0 m.rdata i).toNat) ++ leBytes 4 v

omit hlive hp in
theorem rdataBytes_put (m : Mm) (v : Nat) : (List.range 16).flatMap (fun i => leBytes 4 (look 0 (put 0 m.rdata 15 (BitVec.ofNat 32 v)) i).toNat) = rdataBytes m v := by
  have hv : leBytes 4 (BitVec.ofNat 32 v).toNat = leBytes 4 v := leBytes_mod 4 v
  rw [List.range_succ, List.flatMap_append, List.flatMap_singleton, look_put, if_pos rfl, hv, rdataBytes]
  refine congrArg (· ++ leBytes 4 v) (List.flatMap_congr fun i hi => ?_)
  have := List.mem_range.mp hi
  rw [look_put, if_neg (by omega)]

omit hlive hp in
theorem length_rdataBytes (m : Mm) (v : Nat) : (rdataBytes m v).length = 64 := by
  simp [rdataBytes, List.length_flatMap, length_leBytes]

theorem writeRdata_last (v : Nat) : writeRdata n 15 v s
    = wrote (modMm n (mmWrite (raSub (mmAt s n)) (raRow (mmAt s n)) 0 (rdataBytes (mmAt s n) v) false) (modMm n (fun m => { m with rdata := put 0 m.rdata 15 (BitVec.ofNat 32 v) }) s)) := by
  have hsub : ∀ m : Mm, raSub { m with rdata := put 0 m.rdata 15 (BitVec.ofNat 32 v) } = raSub m := fun _ => rfl
  have hrow : ∀ m : Mm, raRow { m with rdata := put 0 m.rdata 15 (BitVec.ofNat 32 v) } = raRow m := fun _ => rfl
  have hpow : ∀ (m : Mm) (b : Nat), subAt { m with rdata := put 0 m.rdata 15 (BitVec.ofNat 32 v) } b = subAt m b := fun _ _ => rfl
  simp only [writeRdata, hlive, Bool.false_eq_true, if_false, mmAt_modMm_self, hsub, hrow, hpow, hp, ne_eq, not_true_eq_false, or_self, rdataBytes_put]

theorem execMmRdataWrite_last {w : Nat} (hw : w < 4) (hr : siteReach s n = true) (hk : kindOf n = .mm) (v : Nat) :
    ∃ t, exec (.mmRdataWrite w n v) s = .next t ∧ mmWindow n w s t
      ∧ bytesAt (mmAt t n).mem (mmRowAddr (mmAt s n) (raSub (mmAt s n)) (raRow (mmAt s n))) 64 = rdataBytes (mmAt s n) v
      ∧ ∀ j, ¬ (mmRowAddr (mmAt s n) (raSub (mmAt s n)) (raRow (mmAt s n)) ≤ j ∧ j < mmRowAddr (mmAt s n) (raSub (mmAt s n)) (raRow (mmAt s n)) + 64) →
          look 0 (mmAt t n).mem j = look 0 (mmAt s n).mem j := by
  have hwrite : writeSite n 0x87C v s = writeRdata n 15 v s := by
    rw [writeSite, hk]
    rfl
  obtain ⟨t, ht, hshown⟩ := siteWindow_shown hw hr (by decide) (mm_word_aligned hk (by decide)) (hwrite.trans (writeRdata_last hlive hp v)) rfl
  have hmem : (mmAt t n).mem = putBytes (mmAt s n).mem (mmRowAddr (mmAt s n) (raSub (mmAt s n)) (raRow (mmAt s n))) (rdataBytes (mmAt s n) v) := by
    rw [hshown.mmAt_eq, mmAt_modMm_self, mmAt_modMm_self]
    rfl
  have hlen := length_rdataBytes (mmAt s n) v
  refine ⟨t, ht, hshown.mmWindow ((onlyMm_modMm ..).modMm _), ?_, fun j hj => ?_⟩
  · have hback := bytesAt_putBytes_self (mmAt s n).mem (mmRowAddr (mmAt s n) (raSub (mmAt s n)) (raRow (mmAt s n))) (rdataBytes (mmAt s n) v)
    rwa [hlen, ← hmem] at hback
  · rw [hmem, look_putBytes, hlen, if_neg hj]

end

end Sys2Proof.Machine
end

section
/-! XS_STAGE, SHT_CTL and FAB_ROUTE through a window (R290, R310, R373, R492): O36. -/
namespace Sys2Proof.Machine

/-! ## Ring descriptors (R373, R492) -/

section
variable {n : Nat} (g : Tab Ring → Tab Ring) (s : State)

theorem modRings_frame : modRings n g s = { s with mx := (modRings n g s).mx, sf := (modRings n g s).sf } := by
  unfold modRings
  split <;> rfl

theorem mxAt_modRings_ne {k : Nat} (h : k ≠ n) : mxAt (modRings n g s) k = mxAt s k := by
  unfold modRings
  split
  · exact mxAt_modMx_ne _ _ _ _ h
  · rfl

theorem sfAt_modRings_ne {k : Nat} (h : k ≠ n) : sfAt (modRings n g s) k = sfAt s k := by
  unfold modRings
  split
  · rfl
  · exact sfAt_modSf_ne _ _ _ _ h

theorem mxAt_modRings_self : mxAt (modRings n g s) n = { mxAt s n with rings := (mxAt (modRings n g s) n).rings } := by
  unfold modRings
  split
  · rw [mxAt_modMx_self]
  · rfl

theorem sfAt_modRings_self : sfAt (modRings n g s) n = { sfAt s n with rings := (sfAt (modRings n g s) n).rings } := by
  unfold modRings
  split
  · rfl
  · rw [sfAt_modSf_self]

theorem siteRings_modRings : siteRings (modRings n g s) n = g (siteRings s n) := by
  unfold modRings siteRings
  split
  · rw [mxAt_modMx_self]
  · rw [sfAt_modSf_self]

end

/-- What a write of an MX or SF site's rings through window w may change. -/
def ringsWindow (n : Nat) (s t : State) : Prop :=
  t = { s with mx := t.mx, sf := t.sf, wins := t.wins } ∧ (∀ k, k ≠ n → mxAt t k = mxAt s k ∧ sfAt t k = sfAt s k)
    ∧ mxAt t n = { mxAt s n with rings := (mxAt t n).rings } ∧ sfAt t n = { sfAt s n with rings := (sfAt t n).rings }

section
variable {w n : Nat} {c : Option RegCode} {g : Tab Ring → Tab Ring} {s u : State} (h : Shown w c s (modRings n g s) u)
include h

theorem Shown.ringsWindow : ringsWindow n s u := by
  have hmx : ∀ k, mxAt u k = mxAt (modRings n g s) k := fun k => by
    rw [h.frame]
    rfl
  have hsf : ∀ k, sfAt u k = sfAt (modRings n g s) k := fun k => by
    rw [h.frame]
    rfl
  refine ⟨?_, fun k hk => ⟨(hmx k).trans (mxAt_modRings_ne g s hk), (hsf k).trans (sfAt_modRings_ne g s hk)⟩, ?_, ?_⟩
  · rw [h.frame, modRings_frame]
  · rw [hmx]
    exact mxAt_modRings_self g s
  · rw [hsf]
    exact sfAt_modRings_self g s

theorem Shown.siteRings : siteRings u n = g (siteRings s n) := by
  rw [← siteRings_modRings g s, h.frame]
  rfl

end

/-- The rings of l, changed. -/
def ringsSelected (l : List Nat) (f : Ring → Ring) (t : Tab Ring) : Tab Ring := l.foldl (fun t i => alter default t i f) t

/-- The descriptors that XS_STAGE asks for. -/
def stagedRingDescs (n v : Nat) (s : State) : List W64 :=
  (List.range (ringCount n)).map fun i => if bit v i then (look default (siteRings s n) i).staged else (look default (siteRings s n) i).desc

section
variable {n v : Nat}

/-- A word of as many bits as a site has rings selects its own rings only. -/
theorem selected_lt (hv : v < 2 ^ ringCount n) {i : Nat} (h : bit v i = true) : i < ringCount n := by
  refine Nat.lt_of_not_le fun hle => ?_
  rw [bit_eq_testBit, Nat.testBit_lt_two_pow (Nat.lt_of_lt_of_le hv (Nat.pow_le_pow_right (by decide) hle))] at h
  exact Bool.noConfusion h

theorem ringCount_le (n : Nat) : ringCount n ≤ 16 := by
  unfold ringCount
  split <;> decide

theorem writeXsStage_idle {s : State} (hlive : siteLive s n = false) (hv : v < 2 ^ ringCount n) : writeXsStage n v s =
    if ringSetOk (ringRows n) (stagedRingDescs n v s) then wrote (modRings n (ringsSelected ((List.range 16).filter (bit v)) fun x => x.apply x.staged) s)
    else refused .rej (modRings n (ringsSelected ((List.range 16).filter (bit v)) fun x => { x with staged := x.desc }) s) := by
  have hmem : ∀ i ∈ (List.range 16).filter (bit v), decide (i < ringCount n) = true := fun i hi => decide_eq_true (selected_lt hv (List.mem_filter.mp hi).2)
  have hown : ((List.range 16).filter (bit v)).filter (fun i => decide (i < ringCount n)) = (List.range 16).filter (bit v) := List.filter_eq_self.mpr hmem
  simp only [writeXsStage, hlive, Bool.false_eq_true, if_false, List.all_eq_true.mpr hmem, hown, Bool.true_and]
  rfl

theorem look_ringsSelected (f : Ring → Ring) (t : Tab Ring) {i : Nat} (hi : i < ringCount n) :
    look default (ringsSelected ((List.range 16).filter (bit v)) f t) i = if bit v i then f (look default t i) else look default t i := by
  have h16 := ringCount_le n
  refine (look_foldl_alter default (filter_range_nodup ..) f t i).trans (if_congr ?_ rfl rfl)
  rw [List.mem_filter, List.mem_range]
  exact and_iff_right (by omega)

theorem execXsStageApply_window {w : Nat} {s : State} (hw : w < 4) (hr : siteReach s n = true) (hk : kindOf n = .mx ∨ kindOf n = .sf) (hlive : siteLive s n = false)
    (hv : v < 2 ^ ringCount n) : ∃ t, exec (.xsStageApply w n v) s = .next t ∧ ringsWindow n s t
      ∧ (ringSetOk (ringRows n) (stagedRingDescs n v s) = true → (winAt t w).stat = (winAt s w).stat ∧ ∀ i, i < ringCount n →
          look default (siteRings t n) i
            = if bit v i then (look default (siteRings s n) i).apply (look default (siteRings s n) i).staged else look default (siteRings s n) i)
      ∧ (ringSetOk (ringRows n) (stagedRingDescs n v s) = false → (winAt t w).stat = (winAt s w).stat ||| 32 ∧ ∀ i, i < ringCount n →
          look default (siteRings t n) i
            = if bit v i then { look default (siteRings s n) i with staged := (look default (siteRings s n) i).desc } else look default (siteRings s n) i) := by
  have hstage : writeSite n 0x200 v s = writeXsStage n v s := by
    rw [writeSite]
    rcases hk with hk | hk <;> rw [hk] <;> rfl
  have hwrite := hstage.trans (writeXsStage_idle hlive hv)
  have hal : misaligned 0x200 false (siteReg s n 0x200).width true = false := by
    rw [siteReg]
    rcases hk with hk | hk <;> rw [hk] <;> rfl
  have hwins : ∀ g, (modRings n g s).wins = s.wins := fun g => by rw [modRings_frame]
  cases hok : ringSetOk (ringRows n) (stagedRingDescs n v s)
  · rw [hok] at hwrite
    obtain ⟨t, ht, hshown⟩ := siteWindow_shown hw hr (by decide) hal hwrite (hwins _)
    refine ⟨t, ht, hshown.ringsWindow, fun h => Bool.noConfusion h, fun _ => ⟨hshown.stat, fun i hi => ?_⟩⟩
    rw [hshown.siteRings, look_ringsSelected _ _ hi]
  · rw [hok] at hwrite
    obtain ⟨t, ht, hshown⟩ := siteWindow_shown hw hr (by decide) hal hwrite (hwins _)
    refine ⟨t, ht, hshown.ringsWindow, fun _ => ⟨hshown.stat_eq, fun i hi => ?_⟩, fun h => Bool.noConfusion h⟩
    rw [hshown.siteRings, look_ringsSelected _ _ hi]

end

/-! ## SHT_CTL (R290) -/

theorem downReported_frame (b : Bool) (u : Nat) (s : State) : (if b then reportUnit 0x1714 u s else s)
    = { s with ports := (if b then reportUnit 0x1714 u s else s).ports, counts := (if b then reportUnit 0x1714 u s else s).counts } := by
  cases b
  · rfl
  · exact report_frame _ _ fun c h _ => by rw [show codeClass 0x1714 = 1 from rfl]; omega

/-- A port that goes down keeps SHT_CTL and is in state 0; but for the port, its record and its count nothing changes. -/
theorem portDown_effect (p : Nat) (s : State) : ∃ f : Shuttle → Shuttle, (∀ x, (f x).ctl = x.ctl ∧ (f x).state = 0)
    ∧ portDown p s = { modSht p f s with ports := (portDown p s).ports, counts := (portDown p s).counts } := by
  refine ⟨?f, ?kept, ?frame⟩
  case frame => exact downReported_frame ..
  case kept => exact fun _ => ⟨rfl, rfl⟩

/-- The two bits of SHT_CTL as a write of v leaves them. -/
def ctlWritten (p v : Nat) : State → State := modSht p fun x => { x with ctl := v % 4 }

theorem writeShtCtl_idle {p v : Nat} {s : State} (hlive : optJob s (areaOfAtt s (32 + p)) = false) : ∃ t, writeShtCtl p v s = wrote t ∧ t.wins = s.wins
    ∧ (∀ q, q ≠ p → shtAt t q = shtAt s q) ∧ (shtAt t p).ctl = v % 4 ∧ t.mm = s.mm ∧ t.now = s.now
    ∧ (bit v 0 = false → shtAt t p = { shtAt s p with ctl := v % 4 }) ∧ (bit v 0 = true → (shtAt t p).state = 0) := by
  have hself : shtAt (ctlWritten p v s) p = { shtAt s p with ctl := v % 4 } := shtAt_modSht_self ..
  have hne : ∀ k, k ≠ p → shtAt (ctlWritten p v s) k = shtAt s k := fun k hk => shtAt_modSht_ne _ _ _ _ hk
  by_cases h : bit v 0 = true ∧ (shtAt (ctlWritten p v s) p).state ≠ 0
  · obtain ⟨f, hf, hdown⟩ := portDown_effect p (ctlWritten p v s)
    have hsht : ∀ k, shtAt (portDown p (ctlWritten p v s)) k = shtAt (modSht p f (ctlWritten p v s)) k := fun k => by
      rw [hdown]
      rfl
    obtain ⟨hctl, hstate⟩ := hf (shtAt (ctlWritten p v s) p)
    refine ⟨portDown p (ctlWritten p v s), ?_, by rw [hdown]; rfl, fun k hk => ?_, ?_, by rw [hdown]; rfl, by rw [hdown]; rfl, fun hb => ?_, fun _ => ?_⟩
    · rw [writeShtCtl, hlive]
      exact congrArg wrote (if_pos h)
    · rw [hsht, shtAt_modSht_ne _ _ _ _ hk, hne k hk]
    · rw [hsht, shtAt_modSht_self, hctl, hself]
    · rw [hb] at h
      exact Bool.noConfusion h.1
    · rw [hsht, shtAt_modSht_self, hstate]
  · refine ⟨ctlWritten p v s, ?_, rfl, hne, by rw [hself], rfl, rfl, fun _ => hself, fun hb => ?_⟩
    · rw [writeShtCtl, hlive]
      exact congrArg wrote (if_neg h)
    · exact Decidable.not_not.mp fun hs => h ⟨hb, hs⟩

theorem execShtCtlWrite_window {w p v : Nat} {s : State} (hw : w < 4) (hpres : portPresent s.member p = true) (hp : p < 32) (hlive : optJob s (areaOfAtt s (32 + p)) = false) :
    ∃ t, exec (.shtCtlWrite w p v) s = .next t ∧ (∀ q, q ≠ p → shtAt t q = shtAt s q) ∧ (shtAt t p).ctl = v % 4 ∧ t.mm = s.mm ∧ t.now = s.now
      ∧ (bit v 0 = false → shtAt t p = { shtAt s p with ctl := v % 4 }) ∧ (bit v 0 = true → (shtAt t p).state = 0) := by
  obtain ⟨t, ht, -, hother, hctl, hmm, hnow, hkept, hdown⟩ := writeShtCtl_idle (v := v) hlive
  have hal : misaligned (portIdx p + 4) false (unitReg s (.port p 4)).width true = false := by
    rw [misaligned, decide_eq_false (by unfold portIdx; omega : ¬ (portIdx p + 4) % 4 ≠ 0)]
    rfl
  have hwrite : writeUnit (.port p 4) v s = wrote t := ht
  refine ⟨modWin w (Window.note s.up 0) t, ?_, hother, hctl, hmm, hnow, hkept, hdown⟩
  rw [show exec (.shtCtlWrite w p v) s = execShtCtlWrite w p v s from rfl, execShtCtlWrite, decide_eq_true hw, guardUnit_true,
    throughWindow_eq (idxUnit_port hpres hp 0) (by simp) (by simp) hal, hwrite]
  rfl

/-! ## FAB_ROUTE (R310) -/

theorem hub_route {d : Nat} (hd : d < 4096) (v : Nat) (s : State) :
    writeUnit (.hub (0x4000 + 4 * d)) v s = wrote (writeRoute d v s) ∧ (unitReg s (.hub (0x4000 + 4 * d))).width = 32 := by
  have hout : ∀ lo hi : Nat, hi < 0x4000 + 4 * d → within lo hi (0x4000 + 4 * d) = false := fun lo hi h => by
    rw [within, decide_eq_false (p := 0x4000 + 4 * d ≤ hi) (by omega), Bool.and_false]
  have hin : within 0x4000 0x7FFF (0x4000 + 4 * d) = true := by
    rw [within, decide_eq_true (by omega), decide_eq_true (by omega), Bool.and_self]
  have hd' : (0x4000 + 4 * d - 0x4000) / 4 = d := by omega
  have hne : ∀ k : Nat, k < 0x4000 → 0x4000 + 4 * d ≠ k := fun k hk => by omega
  refine ⟨?_, ?_⟩
  · simp only [writeUnit, writeHub, hout 0x2000 0x207F (by omega), hin, hd', if_neg (hne 0x3004 (by decide)), Bool.false_eq_true, false_and, if_false, if_true]
  · simp only [unitReg, hubReg, hout 0x1008 0x100F (by omega), hout 0x2000 0x207F (by omega), hout 0x3100 0x32FF (by omega), hin, Bool.false_eq_true, if_false, if_true,
      if_neg (hne 0x1000 (by decide)), if_neg (hne 0x1010 (by decide)), if_neg (hne 0x3000 (by decide)), if_neg (hne 0x3004 (by decide)), if_neg (hne 0x3008 (by decide)), r32]

theorem writeRoute_frame (d v : Nat) (s : State) : writeRoute d v s = { s with fab := { s.fab with route := (writeRoute d v s).fab.route } } := by
  unfold writeRoute
  split <;> rfl

theorem writeRoute_own {d : Nat} (v : Nat) {s : State} (h : d = 0xFFF ∨ (idAssigned s = true ∧ d = devId s)) : writeRoute d v s = s := if_pos h

theorem rtAt_writeRoute {d : Nat} (v : Nat) {s : State} (h : ¬ (d = 0xFFF ∨ (idAssigned s = true ∧ d = devId s))) (k : Nat) :
    rtAt (writeRoute d v s) k = if k = d then bits v 31 30 * 2 ^ 30 + bits v 26 16 * 2 ^ 16 else rtAt s k := by
  rw [writeRoute, if_neg h]
  exact look_put ..

theorem execFabRouteWrite_window {w d : Nat} (s : State) (hw : w < 4) (v : Nat) (hd : d < 4096) : ∃ t, exec (.fabRouteWrite w d v) s = .next t
    ∧ t = { s with fab := { s.fab with route := t.fab.route }, wins := t.wins } ∧ ∀ k, rtAt t k = rtAt (writeRoute d v s) k := by
  obtain ⟨hwrite, hwidth⟩ := hub_route hd v s
  have hu : idxUnit s (hubIdx + 0x4000 + 4 * d) 0 = .hub (0x4000 + 4 * d) := by
    rw [Nat.add_assoc]
    exact idxUnit_hub (by omega) 0
  have hal : misaligned (hubIdx + 0x4000 + 4 * d) false (unitReg s (.hub (0x4000 + 4 * d))).width true = false := by
    rw [hwidth, misaligned, decide_eq_false (by unfold hubIdx; omega : ¬ (hubIdx + 0x4000 + 4 * d) % 4 ≠ 0)]
    rfl
  refine ⟨modWin w (Window.note s.up 0) (writeRoute d v s), ?_, ?_, fun _ => rfl⟩
  · rw [show exec (.fabRouteWrite w d v) s = execFabRouteWrite w d v s from rfl, execFabRouteWrite, decide_eq_true hw, decide_eq_true hd, Bool.and_self, guardUnit_true,
      throughWindow_eq hu (by simp) (by simp) hal, hwrite]
    rfl
  · rw [writeRoute_frame]
    rfl

end Sys2Proof.Machine
end

section
/-! Votes of triplicated fields and shadows (R372, R375, R376): O36. -/
namespace Sys2Proof.Machine

/-! ## Votes (R372) -/

/-- The triplicated fields of the device as a whole. -/
def coreField (f : TriField) : Prop := f = .secLock ∨ f = .pmax ∨ f = .pmin ∨ f = .cap ∨ f = .prio ∨ f = .fabId ∨ f = .dbgEn

theorem mem_coreFields {f : TriField} (h : f ∈ [TriField.secLock, .pmax, .pmin, .cap, .prio, .fabId, .dbgEn]) : coreField f := by
  simpa only [coreField, List.mem_cons, List.not_mem_nil, or_false] using h

theorem agree_of (v : Nat) : (Tri.of v).agree = true := by
  rw [Tri.of, Tri.agree, decide_eq_true rfl]
  rfl

theorem val_of (v : Nat) : (Tri.of v).val = v := by
  simp only [Tri.of, Tri.val, Nat.and_self, Nat.or_self]

/-- A field after its vote. -/
def votedTri (k : Tri) : Tri := if k.agree then k else k.voted

theorem agree_votedTri (k : Tri) : (votedTri k).agree = true := by
  unfold votedTri
  split
  · assumption
  · exact agree_of _

theorem val_votedTri (k : Tri) : (votedTri k).val = k.val := by
  unfold votedTri
  split
  · rfl
  · exact val_of _

theorem triGet_triPut_self {f : TriField} (hf : coreField f) (k : Tri) (s : State) : triGet (triPut k f s) f = k := by
  rcases hf with rfl | rfl | rfl | rfl | rfl | rfl | rfl <;> rfl

theorem triGet_triPut_ne {f g : TriField} (hf : coreField f) (hg : g ≠ f) (k : Tri) (s : State) : triGet (triPut k g s) f = triGet s f := by
  cases g <;> rcases hf with rfl | rfl | rfl | rfl | rfl | rfl | rfl <;> simp_all [triPut, triGet, modArea, modMm, modStack]

/-- A vote's report: a host port's record, and counts. -/
theorem reportSplit_frame (u : Nat) (s : State) :
    reportUnit 0x1D11 u s = { s with ports := (reportUnit 0x1D11 u s).ports, counts := (reportUnit 0x1D11 u s).counts } :=
  report_frame _ _ fun c h _ => by rw [show codeClass 0x1D11 = 1 from rfl]; omega

/-- A vote of differing copies rewrites them; beside that it changes counts and what the host reads of it. -/
theorem voteOne_differ {f : TriField} {s : State} (h : (triGet s f).agree = false) : voteOne f s
    = { triPut (triGet s f).voted f s with ports := (voteOne f s).ports, counts := (voteOne f s).counts, ras := (voteOne f s).ras } := by
  unfold voteOne
  simp only [h, Bool.false_eq_true, if_false]
  split
  · rw [reportSplit_frame]
    rfl
  · rfl

theorem triGet_core {f : TriField} (hf : coreField f) {s t : State} (hsec : t.sec = s.sec) (hpwr : t.pwr = s.pwr) (htime : t.time = s.time) (hfab : t.fab = s.fab) :
    triGet t f = triGet s f := by
  rcases hf with rfl | rfl | rfl | rfl | rfl | rfl | rfl <;> simp only [triGet, hsec, hpwr, htime, hfab]

theorem triGet_voteOne {f : TriField} (hf : coreField f) (g : TriField) (s : State) :
    triGet (voteOne g s) f = if g = f then votedTri (triGet s f) else triGet s f := by
  cases h : (triGet s g).agree
  · have hv : triGet (voteOne g s) f = triGet (triPut (triGet s g).voted g s) f := by
      rw [voteOne_differ h]
      exact triGet_core hf rfl rfl rfl rfl
    rw [hv]
    split
    · next hgf =>
      subst hgf
      rw [triGet_triPut_self hf, votedTri, h]
      rfl
    · next hgf => exact triGet_triPut_ne hf hgf _ _
  · have hv : voteOne g s = s := by
      unfold voteOne
      exact if_pos h
    rw [hv]
    split
    · next hgf =>
      subst hgf
      exact (if_pos h).symm
    · rfl

/-! ### What a vote leaves -/

theorem triPut_keeps (k : Tri) (f : TriField) (s : State) : (triPut k f s).now = s.now ∧ (triPut k f s).sw = s.sw ∧ (triPut k f s).mx = s.mx := by
  cases f <;> exact ⟨rfl, rfl, rfl⟩

theorem voteOne_keeps (f : TriField) (s : State) : (voteOne f s).now = s.now ∧ (voteOne f s).sw = s.sw ∧ (voteOne f s).mx = s.mx := by
  cases h : (triGet s f).agree
  · rw [voteOne_differ h]
    exact triPut_keeps ..
  · unfold voteOne
    rw [if_pos h]
    exact ⟨rfl, rfl, rfl⟩

theorem mm_voteOne {f : TriField} (hf : coreField f) (s : State) : (voteOne f s).mm = s.mm := by
  cases h : (triGet s f).agree
  · rw [voteOne_differ h]
    rcases hf with rfl | rfl | rfl | rfl | rfl | rfl | rfl <;> rfl
  · unfold voteOne
    rw [if_pos h]

/-! ### Its count -/

theorem counted_reportSplit (u : Nat) (hu : u = hubIdx) (s : State) : counted (reportUnit 0x1D11 u s) 0x2D10 hubIdx = counted s 0x2D10 hubIdx := by
  subst hu
  have hne : countKey 0x2D10 hubIdx ≠ countKey 0x1D11 hubIdx := by decide
  have hclass : codeClass 0x1D11 = 1 := rfl
  simp only [reportUnit, report, hclass, Nat.reduceEqDiff, or_self, if_false]
  split
  · exact (counted_each_pushRecord _ (by decide) (recordPorts_lt _ _)).trans (counted_count_ne _ hne)
  · exact counted_count_ne _ hne

theorem counted_triPut {f : TriField} (hf : coreField f) (k : Tri) (s : State) (c u : Nat) : counted (triPut k f s) c u = counted s c u := by
  rcases hf with rfl | rfl | rfl | rfl | rfl | rfl | rfl <;> rfl

theorem counted_voteOne {f : TriField} (hf : coreField f) (s : State) :
    counted (voteOne f s) 0x2D10 hubIdx = if (triGet s f).agree then counted s 0x2D10 hubIdx else counted s 0x2D10 hubIdx + 1 := by
  have hu : triUnit f = hubIdx := by
    rcases hf with rfl | rfl | rfl | rfl | rfl | rfl | rfl <;> rfl
  unfold voteOne
  dsimp only
  split
  · rfl
  · have hcount : ∀ q : State, counted (count 0x2D10 (triUnit f) 1 q) 0x2D10 hubIdx = counted q 0x2D10 hubIdx + 1 := fun q => by
      rw [hu, counted_count_self]
    split
    · rw [counted_reportSplit _ hu]
      exact (hcount _).trans (congrArg (· + 1) (counted_triPut hf _ s _ _))
    · exact (hcount _).trans (congrArg (· + 1) (counted_triPut hf _ s _ _))

theorem execTriplicatedRead_core {f : TriField} (hf : coreField f) (s : State) : exec (.triplicatedRead f) s = .next (voteOne f s) := by
  have hv : votedBy s f = [f] := by
    rcases hf with rfl | rfl | rfl | rfl | rfl | rfl | rfl <;> rfl
  rw [show exec (.triplicatedRead f) s = .next (vote f s) from rfl, vote, hv]
  rfl

/-! ### The sweep -/

theorem each_voteOne_keeps (l : List TriField) (s : State) : (each l voteOne s).now = s.now ∧ (each l voteOne s).sw = s.sw ∧ (each l voteOne s).mx = s.mx := by
  induction l generalizing s with
  | nil => exact ⟨rfl, rfl, rfl⟩
  | cons g l ih =>
    obtain ⟨hnow, hsw, hmx⟩ := ih (voteOne g s)
    obtain ⟨know, ksw, kmx⟩ := voteOne_keeps g s
    exact ⟨hnow.trans know, hsw.trans ksw, hmx.trans kmx⟩

/-- Votes keep a field's value, and copies that agree. -/
theorem each_voteOne_value {f : TriField} (hf : coreField f) (l : List TriField) (s : State) :
    (triGet (each l voteOne s) f).val = (triGet s f).val ∧ (f ∈ l ∨ (triGet s f).agree = true → (triGet (each l voteOne s) f).agree = true) := by
  induction l generalizing s with
  | nil => exact ⟨rfl, fun h => h.resolve_left List.not_mem_nil⟩
  | cons g l ih =>
    obtain ⟨hval, hagree⟩ := ih (voteOne g s)
    have hone := triGet_voteOne hf g s
    by_cases hg : g = f
    · rw [if_pos hg] at hone
      exact ⟨by rw [each, List.foldl_cons]; exact hval.trans (by rw [hone, val_votedTri]), fun _ => hagree (.inr (by rw [hone]; exact agree_votedTri _))⟩
    · rw [if_neg hg] at hone
      refine ⟨hval.trans (by rw [hone]), fun h => hagree (h.imp (fun hm => ?_) fun ha => by rw [hone]; exact ha)⟩
      exact (List.mem_cons.mp hm).resolve_left (Ne.symm hg)

theorem core_mem_triAll {f : TriField} (hf : f ∈ [TriField.secLock, .pmax, .pmin, .cap, .prio, .fabId, .dbgEn]) (s : State) : f ∈ triAll s := by
  simp only [triAll, List.mem_append]
  exact .inl (.inl (.inl (.inl hf)))

/-! ## Shadows (R375, R376) -/

/-- Of the shadowed blocks only PWR is pending. -/
theorem pendingBlocks_pwr {s : State} (hcap : s.pwr.shadowCap.isSome = true) (hthrot : s.pwr.shadowThrot = none) (hpmon : ∀ kv ∈ s.mod.pmon, kv.2.shadow = none) :
    pendingBlocks s = [4] := by
  have hnone : ∀ i, (s.mod.pmon.any fun kv => decide (kv.1 / 16 = i) && kv.2.shadow.isSome) = false := fun i =>
    List.any_eq_false.mpr fun kv hkv => by simp [hpmon kv hkv]
  simp [pendingBlocks, hcap, hthrot, hnone]

theorem execShadowApply_pwr {s : State} (hjobs : (areaList s).filter (jobRuns s) = []) (hp : pendingBlocks s = [4]) :
    exec .shadowApply s = .next (applyPwr (toPick (look 0 s.mod.shadowAt 4 + 1) s)) := by
  have hpick : applyPick s 4 = some (look 0 s.mod.shadowAt 4 + 1) := by
    simp only [applyPick, applyPoints, hjobs, List.isEmpty_nil, if_true]
  have hle : decide (look 0 s.mod.shadowAt 4 + 1 ≤ max (look 0 s.mod.shadowAt 4 + 1) s.pick) = true := decide_eq_true (Nat.le_max_left ..)
  rw [show exec .shadowApply s = execShadowApply s from rfl, execShadowApply, hp]
  simp only [List.filterMap_cons, List.filterMap_nil, hpick, Option.map_some, List.foldl_cons, List.foldl_nil, List.filter_cons, List.filter_nil, hle, if_true, List.map_cons, List.map_nil]
  rfl

/-- The limits with their shadow in force. -/
def limitsApplied (p : Power) : Power :=
  match p.shadowLim with
  | some x => { p with pmax := Tri.of x.1, pmin := Tri.of x.2, shadowLim := none }
  | none => p

/-- PWR's shadows in force, before the effective cap is found anew. -/
def pwrApplied (c : Nat) (b : State) : State := { b with pwr := { limitsApplied b.pwr with cap := Tri.of c, shadowCap := none } }

theorem limitsApplied_frame (p : Power) :
    limitsApplied p = { p with pmax := (limitsApplied p).pmax, pmin := (limitsApplied p).pmin, shadowLim := none } := by
  cases h : p.shadowLim
  · simp only [limitsApplied, h]
    rw [← h]
  · simp only [limitsApplied, h]

theorem applyPwr_eq {b : State} {c : Nat} (hc : b.pwr.shadowCap = some c) : applyPwr b = recap (pwrApplied c b) := by
  have h : (limitsApplied b.pwr).shadowCap = some c := by
    rw [limitsApplied_frame]
    exact hc
  unfold applyPwr
  change recap { b with pwr := match (limitsApplied b.pwr).shadowCap with
    | some c => { limitsApplied b.pwr with cap := Tri.of c, shadowCap := none }
    | none => limitsApplied b.pwr } = _
  rw [h]
  rfl

theorem effCap_pwrApplied (c : Nat) (b : State) : effCap (pwrApplied c b) = min (min c (feedCap b)) (min (coolCap b) (groupCap b)) := by
  rw [effCap, pwrApplied, limitsApplied_frame, val_of]
  rfl

theorem effInForce_pwrApplied (c : Nat) (b : State) : effInForce (pwrApplied c b) = effInForce b := by
  rw [pwrApplied, limitsApplied_frame]
  rfl

theorem applyPwr_effect {b : State} {c : Nat} (hc : b.pwr.shadowCap = some c) : applyPwr b = { b with pwr := (applyPwr b).pwr } ∧ (applyPwr b).pwr.cap = Tri.of c
    ∧ (applyPwr b).pwr.shadowCap = none ∧ (applyPwr b).pwr.shadowLim = none
    ∧ (∀ x, b.pwr.shadowLim = some x → (applyPwr b).pwr.pmax = Tri.of x.1 ∧ (applyPwr b).pwr.pmin = Tri.of x.2)
    ∧ (b.pwr.shadowLim = none → (applyPwr b).pwr.pmax = b.pwr.pmax ∧ (applyPwr b).pwr.pmin = b.pwr.pmin)
    ∧ (applyPwr b).pwr.effDue = some (b.pick + 1, min (min c (feedCap b)) (min (coolCap b) (groupCap b))) ∧ effInForce (applyPwr b) = effInForce b := by
  have hmax : (applyPwr b).pwr.pmax = (limitsApplied b.pwr).pmax := by
    rw [applyPwr_eq hc]
    rfl
  have hmin : (applyPwr b).pwr.pmin = (limitsApplied b.pwr).pmin := by
    rw [applyPwr_eq hc]
    rfl
  refine ⟨rfl, ?_, ?_, ?_, fun x hx => ?_, fun hx => ?_, ?_, ?_⟩
  · rw [applyPwr_eq hc]
    rfl
  · rw [applyPwr_eq hc]
    rfl
  · rw [applyPwr_eq hc, recap, pwrApplied, limitsApplied_frame]
  · rw [hmax, hmin, limitsApplied, hx]
    exact ⟨rfl, rfl⟩
  · rw [hmax, hmin, limitsApplied, hx]
    exact ⟨rfl, rfl⟩
  · rw [← effCap_pwrApplied, applyPwr_eq hc]
    rfl
  · rw [applyPwr_eq hc, effInForce_recap, effInForce_pwrApplied]

end Sys2Proof.Machine

open Sys2Proof Sys2Proof.Machine

/-- Settles O36: a window's access is its unit's register access, with the outcome noted; each kind of register write, vote and shadow has its lemma above. -/
theorem windowsVotesAndShadows : Obligations.WindowsVotesAndShadows := by
  refine ⟨fun w n s hw hr hk hlive => ⟨fun p c hp hc ha hsite h64 h2 h3 => ⟨?dataRead, fun u _ hu => ?dataWrite⟩, ?timeout, fun v _ => ?stage, fun v h1 h2 hrow harm => ?inject,
      fun hraddr hpow hclean hinj => ⟨?rowRead, fun v => ?rowWrite⟩⟩,
    fun w s hw => ⟨fun n v hr hk hlive hv => ?rings, fun p v hpres hp hlive => ?port, fun d v hd => ?route⟩,
    fun s => ⟨fun f hf => ?vote, ?sweep, fun c hjobs hcap hthrot hpmon => ?shadow⟩⟩
  case dataRead => exact execIdxDataRead_creel hr hk hc ha hsite h64 hw hp h2 h3
  case dataWrite => exact execIdxDataWrite_creel hr hk hc ha hsite h64 hw hp h2 h3 hlive hu
  case timeout => exact execIdxAccessTimeout_read s hw
  case stage => exact execMmStageApply_window hw hr hk hlive v
  case inject => exact execMmInjWrite_window hw hr hk h1 h2 hrow harm
  case rowRead => exact execMmRdataRead_clean hlive hpow hclean hinj hw hr hk
  case rowWrite => exact execMmRdataWrite_last hlive hpow hw hr hk v
  case rings =>
    obtain ⟨t, ht, ⟨hframe, hsites, hmx, hsf⟩, hok, hrej⟩ := execXsStageApply_window hw hr hk hlive hv
    exact ⟨t, ht, hframe, hsites, hmx, hsf, hok, hrej⟩
  case port => exact execShtCtlWrite_window hw hpres hp hlive
  case route =>
    obtain ⟨t, ht, hframe, hrt⟩ := execFabRouteWrite_window s hw v hd
    refine ⟨t, ht, hframe, fun k hkd => ?_, fun hfff hown => ?_, fun hown => ?_⟩
    · by_cases h : d = 0xFFF ∨ (idAssigned s = true ∧ d = devId s)
      · rw [hrt, writeRoute_own v h]
      · rw [hrt, rtAt_writeRoute v h, if_neg hkd]
    · have h : ¬ (d = 0xFFF ∨ (idAssigned s = true ∧ d = devId s)) := fun h => h.elim hfff fun ⟨ha, hd⟩ => hown ha hd
      rw [hrt, rtAt_writeRoute v h, if_pos rfl]
    · rw [hrt, writeRoute_own v hown]
  case vote =>
    obtain ⟨hnow, -, hmx⟩ := voteOne_keeps f s
    have hself : triGet (voteOne f s) f = votedTri (triGet s f) := (triGet_voteOne hf f s).trans (if_pos rfl)
    refine ⟨voteOne f s, execTriplicatedRead_core hf s, hself, ?_, fun g hg hgf => ?_, counted_voteOne hf s, mm_voteOne hf s, hmx, hnow⟩
    · rw [hself]
      exact agree_votedTri _
    · rw [triGet_voteOne hg, if_neg hgf.symm]
  case sweep =>
    obtain ⟨hnow, hsw, hmx⟩ := each_voteOne_keeps (triAll s) s
    refine ⟨each (triAll s) voteOne s, rfl, fun f hf => ?_, hnow, hsw, hmx⟩
    obtain ⟨hval, hagree⟩ := each_voteOne_value (mem_coreFields hf) (triAll s) s
    exact ⟨hagree (.inl (core_mem_triAll hf s)), hval⟩
  case shadow => exact fun hb => ⟨_, execShadowApply_pwr hjobs (pendingBlocks_pwr hcap hthrot hpmon), applyPwr_effect hb⟩
end

section
/-! SUPPORT. The issue of MX words (R153, R154): what a word may change, and what it leaves of its site. -/
namespace Sys2Proof.Machine

/-! ## What an MX word may change -/

/-- From r to q only MX site n and exact-mode counts differ: the site is x. -/
def MxHas (n : Nat) (r q : State) (x : Mx) : Prop := onlyMx n r q ∧ mxAt q n = x

section
variable {n : Nat} {r q : State} {x : Mx}

theorem MxHas.excUp (h : MxHas n r q x) (i k : Nat) : MxHas n r (excUp n i k q) x := by
  obtain ⟨⟨hr, hmx, hsw⟩, hx⟩ := h
  refine ⟨⟨?_, hmx, fun m => ?_⟩, hx⟩
  · rw [hr]
    rfl
  · rw [sameSwitches_excUp n i k q m, hsw m]

theorem MxHas.issued (n : Nat) (r : State) : MxHas n r (Machine.excUp n 5 1 r) (mxAt r n) :=
  ⟨⟨rfl, fun _ _ => rfl, sameSwitches_excUp n 5 1 r⟩, rfl⟩

theorem MxHas.now_eq (h : MxHas n r q x) : q.now = r.now := by
  rw [h.1.1]

theorem MxHas.modMx (h : MxHas n r q x) (g : Mx → Mx) : MxHas n r (modMx n g q) (g x) := by
  obtain ⟨⟨hr, hmx, hsw⟩, hx⟩ := h
  refine ⟨⟨?_, fun m hm => (mxAt_modMx_ne _ _ _ _ hm).trans (hmx m hm), hsw⟩, ?_⟩
  · rw [hr]
    rfl
  · rw [mxAt_modMx_self, hx]

/-- The next word follows d ACLK later (R154). -/
theorem MxHas.mxNext (h : MxHas n r q x) (d : Nat) : MxHas n r (mxNext n d q) { x with seq := x.seq.advance (r.now + d) } := by
  rw [Machine.mxNext, h.now_eq]
  exact h.modMx _

end

/-- A word that stands at the program address ends as what it does from its issue on. -/
theorem mxEnds_issue {op n : Nat} {w : W64} {s r : State} {f : State → State} {x y : Mx} (hi : mxCanIssue n w s) (hr : mxAtIssue n s = r)
    (hx : mxAt r n = x) (ho : wOp w = op) (hf : ∀ q, MxHas n r q x → MxHas n r (f q) y) : mxEnds (mxIssue op n w f s) n r y := by
  subst hr hx
  exact ⟨_, mxIssue_run hi ho, hf _ (.issued ..)⟩

end Sys2Proof.Machine
end

section
/-! MX sequencer and register words (R155, R159, R163, R164, R237): O2. -/
namespace Sys2Proof.Machine

/-! ## Sequencers (R164) and rings (R159) -/

theorem enter_open {q : Seq} (h : q.loops.length < 4) (e k t : Nat) :
    q.enter e k t = some { q with loops := { start := q.pc + 1, last := e, left := k } :: q.loops, pc := q.pc + 1, next := t } :=
  if_neg (Nat.not_le.mpr h)

theorem enter_full {q : Seq} (h : 4 ≤ q.loops.length) (e k t : Nat) : q.enter e k t = none := if_pos h

theorem release_held {g : Ring} {k : Nat} (h : k ≤ ringOcc g) : g.release k = some { g with rptr := ptrAdd (rgLenM1 g.desc + 1) g.rptr k } :=
  if_neg (Nat.not_lt.mpr h)

/-! ## The words -/

section
variable {n : Nat} {w : W64} {s r : State} {x : Mx} (hi : mxCanIssue n w s) (hr : mxAtIssue n s = r) (hx : mxAt r n = x)
include hi hr hx

theorem execMxEnd_ends (ho : wOp w = 0x01) :
    mxEnds (execMxEnd n w s) n r { x with seq := { x.seq with running := false, loops := [], next := r.now + 1 } } := by
  refine mxEnds_issue hi hr hx ho fun q hq => ?_
  rw [hq.now_eq]
  exact hq.modMx _

theorem execMxWpk_ends (ho : wOp w = 0x03) (he : r.now + 1 ≤ 8 * (x.seq.step + bits w.toNat 31 0) + bits w.toNat 34 32) :
    mxEnds (execMxWpk n w s) n r { x with seq := x.seq.advance (8 * (x.seq.step + bits w.toNat 31 0) + bits w.toNat 34 32) } := by
  refine mxEnds_issue hi hr hx ho fun q hq => ?_
  simp only [hq.2, hq.now_eq, if_neg (Nat.not_lt.mpr he)]
  have hn := hq.mxNext (8 * (x.seq.step + bits w.toNat 31 0) + bits w.toNat 34 32 - r.now)
  rwa [Nat.add_sub_cancel' (by omega)] at hn

theorem execMxLoop_ends (ho : wOp w = 0x04) (hl : x.seq.loops.length < 4) :
    mxEnds (execMxLoop n w s) n r { x with seq := { x.seq with
      loops := { start := x.seq.pc + 1, last := bits w.toNat 7 0, left := bits w.toNat 23 8 + 1 } :: x.seq.loops
      pc := x.seq.pc + 1
      next := r.now + 1 } } := by
  refine mxEnds_issue hi hr hx ho fun q hq => ?_
  simp only [hq.2, hq.now_eq, enter_open hl]
  exact hq.modMx _

/-- A word that changes registers of its site goes on to the next word in the next ACLK. -/
theorem mxEnds_write {op : Nat} (ho : wOp w = op) (g : Mx → Mx) :
    mxEnds (mxIssue op n w (fun s => mxNext n 1 (modMx n g s)) s) n r { g x with seq := (g x).seq.advance (r.now + 1) } :=
  mxEnds_issue hi hr hx ho fun _ hq => (hq.modMx g).mxNext 1

theorem execSetm_ends (ho : wOp w = 0x05) (hm : modeCodesOk (BitVec.ofNat 32 w.toNat) = true) :
    mxEnds (execSetm n w s) n r { x with seq := x.seq.advance (r.now + 1), mode := BitVec.ofNat 32 w.toNat } := by
  refine mxEnds_issue hi hr hx ho fun q hq => ?_
  simp only [hm, if_true]
  exact (hq.modMx _).mxNext 1

theorem execRel_ends {g : Ring} (ho : wOp w = 0x09) (hg : look default x.rings (bits w.toNat 43 40) = g) (hk : bits w.toNat 10 0 ≤ ringOcc g) :
    mxEnds (execRel n w s) n r { x with
      seq := x.seq.advance (r.now + 1)
      rings := put default x.rings (bits w.toNat 43 40) { g with rptr := ptrAdd (rgLenM1 g.desc + 1) g.rptr (bits w.toNat 10 0) } } := by
  refine mxEnds_issue hi hr hx ho fun q hq => ?_
  simp only [hq.2, hg, release_held hk]
  exact (hq.modMx _).mxNext 1

end

end Sys2Proof.Machine

open Sys2Proof Sys2Proof.Machine

/-- Settles O2: each word is one change of its site after the issue. -/
theorem mxSequencerAndRegisterWords : Obligations.MxSequencerAndRegisterWords := by
  refine ⟨fun n w s hi => ⟨?nop, ?end_, ?wait, ?wpk, ?loop⟩, fun n w s hi => ⟨?setm, ?seta, ?adda, ?setf, ?setau, ?rel⟩⟩
  case nop => exact fun ho => mxEnds_issue hi rfl rfl ho fun _ hq => hq.mxNext 1
  case end_ => exact fun ho => execMxEnd_ends hi rfl rfl ho
  case wait => exact fun ho => mxEnds_issue hi rfl rfl ho fun _ hq => hq.mxNext _
  case wpk => exact fun ho he => execMxWpk_ends hi rfl rfl ho he
  case loop => exact fun ho hl => execMxLoop_ends hi rfl rfl ho hl
  case setm => exact fun ho hm => execSetm_ends hi rfl rfl ho hm
  case seta => exact fun ho => mxEnds_write hi rfl rfl ho fun x => { x with a := put 0 x.a (wAR w) (BitVec.ofNat 18 w.toNat) }
  case adda => exact fun ho => mxEnds_write hi rfl rfl ho fun x => { x with a := alter 0 x.a (wAR w) (· + BitVec.ofNat 18 w.toNat) }
  case setf => exact fun ho => mxEnds_write hi rfl rfl ho fun x => { x with mult := BitVec.ofNat 32 w.toNat }
  case setau => exact fun ho => mxEnds_write hi rfl rfl ho fun x => { x with skip := { x.skip with thr := BitVec.ofNat 32 w.toNat } }
  case rel => exact fun ho hk => execRel_ends hi rfl rfl ho rfl hk
end

section
/-! SUPPORT. What the acts due at an MX site do to its stores (R160, R165, R237), bit by bit and byte by byte. -/
namespace Sys2Proof.Machine

/-! ## Bits -/

theorem bit_toNat {w : Nat} (v : BitVec w) (i : Nat) : bit v.toNat i = v.getLsbD i := by
  rw [bit_eq_testBit, BitVec.testBit_toNat]

theorem bit_setBit {w : Nat} (v : BitVec w) (k : Nat) {i : Nat} (hi : i < w) : bit (v ||| BitVec.ofNat w (2 ^ k)).toNat i = (bit v.toNat i || decide (k = i)) := by
  rw [bit_toNat, bit_toNat, BitVec.getLsbD_or, BitVec.getLsbD_ofNat, Nat.testBit_two_pow]
  simp [hi]

theorem bit_clearBit {w : Nat} (v : BitVec w) {k i : Nat} (hk : k < w) (hi : i < w) :
    bit (BitVec.ofNat w (v.toNat &&& (2 ^ w - 1 - 2 ^ k))).toNat i = (bit v.toNat i && !decide (k = i)) := by
  have hlt : 2 ^ k < 2 ^ w := Nat.pow_lt_pow_right (by decide) hk
  rw [bit_toNat, bit_toNat, BitVec.getLsbD_ofNat, Nat.testBit_and, BitVec.testBit_toNat, Nat.sub_sub, Nat.add_comm 1, Nat.testBit_two_pow_sub_succ hlt,
    Nat.testBit_two_pow]
  simp [hi]

theorem eq_zero_of_bits {w : Nat} {v : BitVec w} (h : ∀ i, i < w → bit v.toNat i = false) : v = 0 :=
  BitVec.eq_of_getLsbD_eq fun i hi => by
    rw [← bit_toNat, h i hi]
    exact BitVec.getLsbD_zero.symm

theorem bits_pair_eq_three (x k : Nat) : bits x (k + 1) k = 3 ↔ bit x k = true ∧ bit x (k + 1) = true := by
  have h : x / 2 ^ (k + 1) = x / 2 ^ k / 2 := by rw [Nat.pow_succ, Nat.div_div_eq_div_mul]
  simp only [bits, bit, h, beq_iff_eq, show k + 1 + 1 - k = 2 by omega]
  omega

/-! ## Valid bits (R165) -/

theorem invalidate_frame (l : List Nat) (x : Mx) : invalidate l x = { x with valid := (invalidate l x).valid, ldcRows := (invalidate l x).ldcRows } := by
  induction l generalizing x with
  | nil => rfl
  | cons b l ih => exact ih _

theorem bit_valid_invalidate {l : List Nat} (hl : ∀ c ∈ l, c < 64) (x : Mx) {b : Nat} (hb : b < 64) :
    bit (invalidate l x).valid.toNat b = (bit x.valid.toNat b && !l.contains b) := by
  induction l generalizing x with
  | nil => simp [invalidate]
  | cons c l ih =>
    obtain ⟨hc, hl⟩ := List.forall_mem_cons.mp hl
    refine (ih hl _).trans ?_
    rw [bit_clearBit x.valid hc hb, List.contains_cons, Bool.and_assoc, Bool.not_or]
    congr 3
    simp [Bool.beq_eq_decide_eq, eq_comm]

theorem mem_blocksOf_lt {m : W32} {o n b : Nat} (h : b ∈ blocksOf m o n) : b < 64 := List.mem_range.mp (List.mem_of_mem_filter h)

/-! ## Stores written from a key on -/

theorem look_foldl_put_from {α : Type} [DecidableEq α] (d : α) (t : Tab α) (a n : Nat) (g : Nat → α) (k : Nat) :
    look d ((List.range n).foldl (fun t j => put d t (a + j) (g j)) t) k = if a ≤ k ∧ k < a + n then g (k - a) else look d t k := by
  have h := look_foldl_put d (l := (List.range n).map (a + ·)) (fun i => g (i - a)) t k
  simp only [List.foldl_map, Nat.add_sub_cancel_left] at h
  refine h.trans (if_congr ?_ rfl rfl)
  simp only [List.mem_map, List.mem_range]
  exact ⟨fun ⟨j, hj, e⟩ => by omega, fun hk => ⟨k - a, by omega, by omega⟩⟩

theorem bytesAt_putRow (m s : Tab Byte) (a o : Nat) : bytesAt (putBytes m o (bytesAt s a 128)) o 128 = bytesAt s a 128 := by
  have h := bytesAt_putBytes_self m o (bytesAt s a 128)
  rwa [length_bytesAt] at h

theorem look_putRow_ne (m s : Tab Byte) {a o k : Nat} (h : ¬ (o ≤ k ∧ k < o + 128)) : look 0 (putBytes m o (bytesAt s a 128)) k = look 0 m k := by
  rw [look_putBytes, length_bytesAt, if_neg h]

/-! ## The acts -/

/-- A row of LDS (R165). -/
theorem perform_lds (x : Mx) (a lane row : Nat) (m : W32) (hr : row < 8) :
    let y := MxAct.perform x (.lds a lane row m)
    y = { x with lanes := y.lanes, lsour := y.lsour, valid := y.valid, ldcRows := y.ldcRows }
    ∧ laneBytes y lane (128 * row) 128 = bytesAt x.mem a 128
    ∧ (∀ i o, o < 1024 → ¬ (i = lane ∧ 128 * row ≤ o ∧ o < 128 * (row + 1)) → look 0 y.lanes (1024 * i + o) = look 0 x.lanes (1024 * i + o))
    ∧ ∀ b, b < 64 → bit y.valid.toNat b = (bit x.valid.toNat b && !(blocksOf m (128 * row) 128).contains b) := by
  simp only [MxAct.perform, ldsRow]
  refine ⟨?_, ?_, fun i o ho h => ?_, fun b hb => ?_⟩
  · rw [invalidate_frame]
  · rw [invalidate_frame]
    exact bytesAt_putRow ..
  · rw [invalidate_frame]
    exact look_putRow_ne _ _ (by omega)
  · exact bit_valid_invalidate (fun _ => mem_blocksOf_lt) _ hb

/-- A row of LDSS (R165). -/
theorem perform_ldss (x : Mx) (a k : Nat) :
    let y := MxAct.perform x (.ldss a k)
    y = { x with scales := y.scales, ssour := y.ssour, valid := y.valid, ldcRows := y.ldcRows } ∧ y.valid = 0
    ∧ bytesAt y.scales (128 * k) 128 = bytesAt x.mem a 128 ∧ ∀ j, ¬ (128 * k ≤ j ∧ j < 128 * (k + 1)) → look 0 y.scales j = look 0 x.scales j := by
  simp only [MxAct.perform, ldssRow]
  refine ⟨?_, eq_zero_of_bits fun b hb => ?_, ?_, fun j hj => ?_⟩
  · rw [invalidate_frame]
  · rw [bit_valid_invalidate (fun _ => List.mem_range.mp) _ hb, List.contains_iff_mem.mpr (List.mem_range.mpr hb), Bool.not_true, Bool.and_false]
  · rw [invalidate_frame]
    exact bytesAt_putRow ..
  · rw [invalidate_frame]
    exact look_putRow_ne _ _ (by omega)

/-- Check row k written, before its block is judged valid. -/
def checkRowPut (a k : Nat) (x : Mx) : Mx :=
  { x with check := (List.range 16).foldl (fun t j => put 0 t (16 * k + j) (BitVec.ofNat 64 (leNat (bytesAt x.mem (a + 8 * j) 8)))) x.check
           ldcRows := x.ldcRows ||| BitVec.ofNat 128 (2 ^ k) }

theorem valid_checkRowPut (a k : Nat) (x : Mx) : (checkRowPut a k x).valid = x.valid := by
  rw [checkRowPut]

/-- Block b is valid from now on where both of its check rows are written. -/
def judgeBlock (b : Nat) (x : Mx) : Mx := if bits x.ldcRows.toNat (b * 2 + 1) (b * 2) = 3 then validate [b] x else x

theorem judgeBlock_frame (b : Nat) (x : Mx) : judgeBlock b x = { x with valid := (judgeBlock b x).valid } := by
  unfold judgeBlock
  split <;> rfl

theorem bit_valid_judgeBlock (b : Nat) (x : Mx) {c : Nat} (hc : c < 64) :
    bit (judgeBlock b x).valid.toNat c = (bit x.valid.toNat c || (decide (c = b) && bit x.ldcRows.toNat (2 * c) && bit x.ldcRows.toNat (2 * c + 1))) := by
  have hpair := bits_pair_eq_three x.ldcRows.toNat (b * 2)
  have hvalid : bit (validate [b] x).valid.toNat c = (bit x.valid.toNat c || decide (b = c)) := bit_setBit x.valid b hc
  rw [← Bool.and_eq_true] at hpair
  unfold judgeBlock
  by_cases hcb : c = b
  · subst hcb
    rw [Nat.mul_comm 2, decide_eq_true rfl, Bool.true_and]
    split
    · next h => rw [hvalid, hpair.mp h, decide_eq_true rfl]
    · next h => rw [Bool.eq_false_iff.mpr fun hc => h (hpair.mpr hc), Bool.or_false]
  · rw [decide_eq_false hcb, Bool.false_and, Bool.false_and, Bool.or_false]
    split
    · rw [hvalid, decide_eq_false (Ne.symm hcb), Bool.or_false]
    · rfl

theorem ldcRow_eq (a k : Nat) (x : Mx) : ldcRow a k x = judgeBlock (k / 2) (checkRowPut a k x) := by
  delta ldcRow judgeBlock checkRowPut
  rfl

theorem ldcRow_frame (a k : Nat) (x : Mx) : ∃ v, ldcRow a k x = { checkRowPut a k x with valid := v } :=
  ⟨_, (ldcRow_eq a k x).trans (judgeBlock_frame _ _)⟩

theorem check_ldcRow (a k : Nat) (x : Mx) : (ldcRow a k x).check = (checkRowPut a k x).check := by
  obtain ⟨v, h⟩ := ldcRow_frame a k x
  rw [h]

theorem ldcRows_ldcRow (a k : Nat) (x : Mx) : (ldcRow a k x).ldcRows = (checkRowPut a k x).ldcRows := by
  obtain ⟨v, h⟩ := ldcRow_frame a k x
  rw [h]

theorem bit_ldcRows_ldcRow (a k : Nat) (x : Mx) {j : Nat} (hj : j < 128) :
    bit (ldcRow a k x).ldcRows.toNat j = (bit x.ldcRows.toNat j || decide (k = j)) := by
  rw [ldcRows_ldcRow]
  exact bit_setBit x.ldcRows k hj

/-- A block is valid where it was, or where both of its check rows are written. -/
theorem bit_valid_ldcRow (a k : Nat) (x : Mx) {b : Nat} (hb : b < 64) : bit (ldcRow a k x).valid.toNat b = (bit x.valid.toNat b
    || (decide (b = k / 2) && bit (ldcRow a k x).ldcRows.toNat (2 * b) && bit (ldcRow a k x).ldcRows.toNat (2 * b + 1))) := by
  rw [ldcRows_ldcRow, ldcRow_eq, bit_valid_judgeBlock _ _ hb, valid_checkRowPut]

/-- A row of LDC (R165). -/
theorem perform_ldc (x : Mx) (a k : Nat) (hk : k < 128) :
    let y := MxAct.perform x (.ldc a k)
    y = { x with check := y.check, valid := y.valid, ldcRows := y.ldcRows }
    ∧ (∀ j, j < 16 → look 0 y.check (16 * k + j) = BitVec.ofNat 64 (leNat (bytesAt x.mem (a + 8 * j) 8)))
    ∧ (∀ j, ¬ (16 * k ≤ j ∧ j < 16 * (k + 1)) → look 0 y.check j = look 0 x.check j)
    ∧ bit y.ldcRows.toNat k = true ∧ (∀ j, j < 128 → j ≠ k → bit y.ldcRows.toNat j = bit x.ldcRows.toNat j)
    ∧ ∀ b, b < 64 → bit y.valid.toNat b = (bit x.valid.toNat b || (decide (b = k / 2) && bit y.ldcRows.toNat (2 * b) && bit y.ldcRows.toNat (2 * b + 1))) := by
  simp only [MxAct.perform]
  refine ⟨?_, fun j hj => ?_, fun j hj => ?_, ?_, fun j hj hne => ?_, fun b hb => bit_valid_ldcRow a k x hb⟩
  · obtain ⟨v, h⟩ := ldcRow_frame a k x
    rw [h, checkRowPut]
  · rw [check_ldcRow, checkRowPut, look_foldl_put_from, if_pos (by omega), Nat.add_sub_cancel_left]
  · rw [check_ldcRow, checkRowPut, look_foldl_put_from, if_neg (by omega)]
  · rw [bit_ldcRows_ldcRow a k x hk, decide_eq_true rfl, Bool.or_true]
  · rw [bit_ldcRows_ldcRow a k x hj, decide_eq_false hne.symm, Bool.or_false]

/-- A block of GENC (R70, R165). -/
theorem perform_genc (x : Mx) (k : Nat) (m : W32) :
    let y := MxAct.perform x (.genc k m)
    y = { x with check := y.check, valid := y.valid } ∧ (∀ j, j < 32 → look 0 y.check (32 * k + j) = checkWeight (blockLanes x m k) j)
    ∧ (∀ j, ¬ (32 * k ≤ j ∧ j < 32 * (k + 1)) → look 0 y.check j = look 0 x.check j)
    ∧ ∀ b, b < 64 → bit y.valid.toNat b = (bit x.valid.toNat b || decide (b = k)) := by
  refine ⟨rfl, fun j hj => ?_, fun j hj => ?_, fun b hb => ?_⟩
  · refine (look_foldl_put_from ..).trans ?_
    rw [if_pos (by omega), Nat.add_sub_cancel_left]
  · exact (look_foldl_put_from ..).trans (if_neg (by omega))
  · refine (bit_setBit x.valid k hb).trans ?_
    simp only [eq_comm]

/-! ## Accumulators loaded from a row (R491) -/

/-- The entries that the r-th half row from a gives the sixteen lanes. -/
def loadedAccs (x : Mx) (a r : Nat) : List Acc := (List.range 16).map fun i =>
  { window := false, v := BitVec.ofNat 96 (leNat (bytesAt x.mem (a + 4 * (16 * r + i)) 4)), sour := look false x.gsour (a / 64 + r) }

theorem accRow_succ (a e k : Nat) (x : Mx) : accRow a e (k + 1) x = putAccs (e + k) (loadedAccs (accRow a e k x) a k) (accRow a e k x) := by
  simp only [accRow, loadedAccs, List.range_succ, List.foldl_append, List.foldl_cons, List.foldl_nil]

theorem accRow_frame (a e k : Nat) (x : Mx) : accRow a e k x = { x with acc := (accRow a e k x).acc } := by
  induction k with
  | zero => rfl
  | succ k ih =>
    rw [accRow_succ, putAccs_frame]
    generalize accRow a e k x = y at ih ⊢
    generalize (putAccs (e + k) (loadedAccs y a k) y).acc = A
    rw [ih]

theorem loadedAccs_accRow (a e k r : Nat) (x : Mx) : loadedAccs (accRow a e k x) a r = loadedAccs x a r := by rw [accRow_frame]; rfl

theorem accsAt_accRow {a e k j : Nat} (hk : e + k ≤ 256) (hj : j < 256) (x : Mx) :
    accsAt (accRow a e k x) j = if e ≤ j ∧ j < e + k then loadedAccs x a (j - e) else accsAt x j := by
  induction k with
  | zero =>
    rw [if_neg (by omega)]
    rfl
  | succ k ih =>
    rw [accRow_succ, loadedAccs_accRow, accsAt_putAccs (by rw [loadedAccs, List.length_map, List.length_range]) (by omega) hj, ih (by omega)]
    by_cases h : j = e + k
    · rw [if_pos h, if_pos (by omega), h, Nat.add_sub_cancel_left]
    · rw [if_neg h]
      exact if_congr (by omega) rfl rfl

/-- No act ends or begins an SPMAC. -/
theorem spmac_perform (x : Mx) (a : MxAct) : (a.perform x).spmac = x.spmac := by
  cases a with
  | row a f => simp only [MxAct.perform, mxPutRow]
  | lds a l r m =>
    simp only [MxAct.perform, ldsRow]
    rw [invalidate_frame]
  | ldss a q =>
    simp only [MxAct.perform, ldssRow]
    rw [invalidate_frame]
  | ldc a q =>
    obtain ⟨v, h⟩ := ldcRow_frame a q x
    simp only [MxAct.perform]
    rw [h, checkRowPut]
  | ldk a => simp only [MxAct.perform]
  | acc a e k => rw [MxAct.perform, accRow_frame]
  | mac t sc a => simp only [MxAct.perform]
  | zero e k => rw [MxAct.perform, zeroAccs_frame]
  | genc b m => simp only [MxAct.perform, genBlock, validate, List.foldl_cons, List.foldl_nil]
  | rowchk => rfl

end Sys2Proof.Machine
end

section
/-! Loads of MX sites (R160, R165, R237): O3. -/
namespace Sys2Proof.Machine

/-! ## The words -/

theorem MxHas.loadActs {n : Nat} {r q : State} {x : Mx} (h : MxHas n r q x) (k : Nat) (f : Nat → MxAct) :
    MxHas n r (loadActs n k f q) { x with loadTill := r.now + k + 1, acts := x.acts ++ dueActs (r.now + 1) k x.seq.pc f, seq := x.seq.advance (r.now + 1) } := by
  rw [Machine.loadActs, h.now_eq]
  exact (h.modMx _).mxNext 1

section
variable {n : Nat} {w : W64} {s r : State} {x : Mx} (hi : mxCanIssue n w s) (hr : mxAtIssue n s = r) (hx : mxAt r n = x)
include hi hr hx

theorem execLds_ends {a l0 nl rpl row0 : Nat} (ho : wOp w = 0x10) (ha : aReg x (wAR w) = a) (hl0 : bits w.toNat 15 12 = l0)
    (hnl : bits w.toNat 11 8 + 1 = nl) (hrpl : bits w.toNat 7 4 + 1 = rpl) (hrow : bits w.toNat 2 0 = row0) (hl : x.loadTill ≤ r.now) (hg : x.genTill ≤ r.now)
    (hok : rowsOk a (nl * rpl) = true) (h16 : l0 + nl ≤ 16) (h8 : row0 + rpl ≤ 8) (hz : hazLanes x r.now (128 * row0) (128 * rpl) = false) :
    mxEnds (execLds n w s) n r { x with
      loadTill := r.now + nl * rpl + 1
      acts := x.acts ++ dueActs (r.now + 1) (nl * rpl) x.seq.pc fun q => .lds (a + 128 * q) (l0 + q / rpl) (row0 + q % rpl) x.mode
      seq := x.seq.advance (r.now + 1) } := by
  refine mxEnds_issue hi hr hx ho fun q hq => ?_
  simp only [hq.2, hq.now_eq, ha, hl0, hnl, hrpl, hrow, Nat.not_lt.mpr hl, Nat.not_lt.mpr hg, Nat.not_lt.mpr h16, Nat.not_lt.mpr h8, hok, hz, or_self, if_false,
    decide_false, Bool.not_true, Bool.or_self, Bool.false_eq_true]
  exact hq.loadActs ..

theorem execLdss_ends {a k : Nat} (ho : wOp w = 0x11) (ha : aReg x (wAR w) = a) (hk : bits w.toNat 6 4 + 1 = k) (hl : x.loadTill ≤ r.now)
    (hg : x.genTill ≤ r.now) (hok : rowsOk a k = true) (h8 : bits w.toNat 2 0 + k ≤ 8) (hz : hazScales x r.now = false) :
    mxEnds (execLdss n w s) n r { x with
      loadTill := r.now + k + 1
      acts := x.acts ++ dueActs (r.now + 1) k x.seq.pc fun i => .ldss (a + 128 * i) (bits w.toNat 2 0 + i)
      seq := x.seq.advance (r.now + 1) } := by
  refine mxEnds_issue hi hr hx ho fun q hq => ?_
  simp only [hq.2, hq.now_eq, ha, hk, Nat.not_lt.mpr hl, Nat.not_lt.mpr hg, Nat.not_lt.mpr h8, hok, hz, or_self, if_false, decide_false, Bool.not_true,
    Bool.or_self, Bool.false_eq_true]
  exact hq.loadActs ..

theorem execLdc_ends {a k : Nat} (ho : wOp w = 0x12) (ha : aReg x (wAR w) = a) (hk : bits w.toNat 14 8 + 1 = k) (hl : x.loadTill ≤ r.now)
    (hok : rowsOk a k = true) (h128 : bits w.toNat 6 0 + k ≤ 128) :
    mxEnds (execLdc n w s) n r { x with
      loadTill := r.now + k + 1
      acts := x.acts ++ dueActs (r.now + 1) k x.seq.pc fun i => .ldc (a + 128 * i) (bits w.toNat 6 0 + i)
      seq := x.seq.advance (r.now + 1) } := by
  refine mxEnds_issue hi hr hx ho fun q hq => ?_
  simp only [hq.2, hq.now_eq, ha, hk, Nat.not_lt.mpr hl, Nat.not_lt.mpr h128, hok, if_false, decide_false, Bool.not_true, Bool.or_self, Bool.false_eq_true]
  exact hq.loadActs ..

theorem execLdk_ends {a : Nat} (ho : wOp w = 0x14) (ha : aReg x (wAR w) = a) (hl : x.loadTill ≤ r.now) (hok : rowsOk a 1 = true) :
    mxEnds (execLdk n w s) n r { x with
      loadTill := r.now + 2
      acts := x.acts ++ dueActs (r.now + 1) 1 x.seq.pc fun _ => .ldk a
      seq := x.seq.advance (r.now + 1) } := by
  refine mxEnds_issue hi hr hx ho fun q hq => ?_
  simp only [hq.2, hq.now_eq, ha, Nat.not_lt.mpr hl, hok, if_false, Bool.not_true, Bool.false_eq_true]
  exact hq.loadActs ..

theorem execGenc_ends {k : Nat} (ho : wOp w = 0x13) (hk : bits w.toNat 13 8 + 1 = k) (hl : x.loadTill ≤ r.now) (hg : x.genTill ≤ r.now)
    (h64 : bits w.toNat 5 0 + k ≤ 64) :
    mxEnds (execGenc n w s) n r { x with
      genTill := r.now + k + 1
      acts := x.acts ++ dueActs (r.now + 1) k x.seq.pc fun i => .genc (bits w.toNat 5 0 + i) x.mode
      seq := x.seq.advance (r.now + 1) } := by
  refine mxEnds_issue hi hr hx ho fun q hq => ?_
  simp only [hq.2, hq.now_eq, hk, Nat.not_lt.mpr hl, Nat.not_lt.mpr hg, Nat.not_lt.mpr h64, or_self, if_false]
  exact (hq.modMx fun y => { y with
    genTill := r.now + k + 1, acts := y.acts ++ dueActs (r.now + 1) k y.seq.pc fun i => .genc (bits w.toNat 5 0 + i) y.mode }).mxNext 1

end

/-! ## The acts due in one ACLK (R160, log 23) -/

/-- The banks that the acts due access, each with the instruction of the act. -/
def actRows (l : List MxDue) : List (Nat × Option Nat) := l.filterMap fun d => d.act.addr.map fun a => (a / 65536, d.pc)

/-- Do two of them access bank b? -/
def actsClash (l : List MxDue) (b : Nat) : Bool := decide (2 ≤ ((actRows l).filter fun y => decide (y.1 = b)).length)

/-- Every bank that two of them access raises MX_BANK_CLASH. -/
def clashesRaised (n : Nat) (l : List MxDue) (s : State) : State :=
  each ((List.range 3).filter (actsClash l)) (fun b => reportProg 0x4111 n ((((actRows l).filter fun y => decide (y.1 = b)).filterMap Prod.snd).getLast?.getD 0)) s

/-- Those whose bank no other accesses. -/
def actsAlone (l : List MxDue) : List MxDue := l.filter fun d => match d.act.addr with | some a => !actsClash l (a / 65536) | none => true

/-- An act that is performed. -/
def actDone (n : Nat) (d : MxDue) (s : State) : State := mxRaise n d (modMx n (fun x => d.act.perform x) s)

/-- The acts due in ACLK u have left the site's queue. -/
def actsTaken (u n : Nat) (s : State) : State := modMx n (fun x => { x with acts := x.acts.filter fun d => !(decide (d.at_ = u) && !mxHeld s n d) }) s

theorem spClock_idle (u n : Nat) {s : State} (h : (mxAt s n).spmac = none) : spClock u n s = s := by rw [spClock, h]

theorem spEnd_idle (u : Nat) {x : Mx} (h : x.spmac = none) : spEnd u x = x := by rw [spEnd, h]

theorem spRow_idle (u : Nat) {x : Mx} (h : x.spmac = none) : x.spRow u = none := by rw [Mx.spRow, h]

section
variable {u n : Nat} {s : State} {l : List MxDue} (hsp : (mxAt s n).spmac = none) (hl : ((mxAt s n).acts.filter fun e => decide (e.at_ = u)) = l)
  (hheld : ∀ e ∈ l, mxHeld s n e = false)
include hl hheld

theorem actsDue_eq : ((mxAt s n).acts.filter fun d => decide (d.at_ = u) && !mxHeld s n d) = l := by
  simp only [Bool.and_comm (decide _), ← List.filter_filter, hl]
  exact List.filter_eq_self.mpr fun e he => by rw [hheld e he, Bool.not_false]

theorem mxAt_actsTaken : mxAt (actsTaken u n s) n = { mxAt s n with acts := (mxAt s n).acts.filter fun e => !decide (e.at_ = u) } := by
  have hkeep : ∀ e ∈ (mxAt s n).acts, (!(decide (e.at_ = u) && !mxHeld s n e)) = !decide (e.at_ = u) := fun e he => by
    by_cases h : e.at_ = u
    · rw [hheld e (hl ▸ List.mem_filter.mpr ⟨he, decide_eq_true h⟩), Bool.not_false, Bool.and_true]
    · rw [decide_eq_false h, Bool.false_and]
  rw [actsTaken, mxAt_modMx_self, List.filter_congr hkeep]

include hsp

theorem mxClock_acts (hne : l ≠ []) : mxClock u n s = modMx n (spEnd u) (each (actsAlone l) (actDone n) (clashesRaised n l (actsTaken u n s))) := by
  have hsp' : (mxAt (actsTaken u n s) n).spmac = none := by
    rw [mxAt_actsTaken hl hheld]
    exact hsp
  have hspc : spClock u n (actsTaken u n s) = actsTaken u n s := spClock_idle u n hsp'
  unfold mxClock
  simp only [actsDue_eq hl hheld]
  rw [if_neg (by simp [hne])]
  rw [← actsTaken, hspc]
  simp only [hsp', spRow_idle u hsp', Option.toList_none, List.map_nil, List.append_nil]
  rfl

end

/-! ### What the reports and the acts change -/

theorem reported_reportProg {code : Nat} (n p : Nat) (s : State) (hc : codeClass code = 4) : Reported s (reportProg code n p s) := report_defect_frame _ _ hc

/-- A schedule defect is counted once at its unit. -/
theorem counted_report_halts {code : Nat} (r : Report349) (s : State) (hc : codeClass code = 4) (hcode : 0x1903 < code) :
    counted (report code r s) code r.unit = counted s code r.unit + 1 := by
  rw [report_halts hc, haltArea_frame]
  exact counted_reportNoted r s hcode

theorem counted_reportProg {code : Nat} (n p : Nat) (s : State) (hc : codeClass code = 4) (hcode : 0x1903 < code) :
    counted (reportProg code n p s) code n = counted s code n + 1 := counted_report_halts _ s hc hcode

theorem LinkNoted.mxAt_eq {s q : State} (h : LinkNoted s q) (m : Nat) : mxAt q m = mxAt s m := by
  rw [h]
  rfl

theorem linkNoted_noteSour (a h : Option Nat) (s : State) : LinkNoted s (noteSour a h s) := by
  unfold noteSour
  split
  · rfl
  · split <;> rfl

theorem linkNoted_mxRaise (n : Nat) (d : MxDue) (s : State) : LinkNoted s (mxRaise n d s) := by
  unfold mxRaise
  split
  · split
    · rfl
    · exact linkNoted_noteSour ..
  · exact (noted_report _ s (.inl rfl)).linkNoted.trans (linkNoted_watchTrigger ..)
  · rfl

theorem mxAt_actDone (n : Nat) (d : MxDue) (s : State) : mxAt (actDone n d s) n = d.act.perform (mxAt s n) := by
  rw [actDone, (linkNoted_mxRaise ..).mxAt_eq, mxAt_modMx_self]

/-! ### One act alone, and two that clash -/

theorem actsClash_single (d : MxDue) (b : Nat) : actsClash [d] b = false := by
  have h : (actRows [d]).length ≤ 1 := List.length_filterMap_le _ [d]
  exact decide_eq_false (Nat.not_le.mpr (Nat.lt_of_le_of_lt (List.length_filter_le ..) (Nat.lt_succ_of_le h)))

theorem clashesRaised_single (n : Nat) (d : MxDue) (s : State) : clashesRaised n [d] s = s := by
  have h : (List.range 3).filter (actsClash [d]) = [] := List.filter_eq_nil_iff.mpr fun b _ => ne_true_of_eq_false (actsClash_single d b)
  rw [clashesRaised, h]
  rfl

theorem actsAlone_single (d : MxDue) : actsAlone [d] = [d] := by
  refine List.filter_eq_self.mpr fun e _ => ?_
  split
  · rw [actsClash_single, Bool.not_false]
  · rfl

section
variable {d e : MxDue} {a b : Nat} (hd : d.act.addr = some a) (he : e.act.addr = some b) (hab : a / 65536 = b / 65536)
include hd he hab

theorem actsClash_pair (k : Nat) : actsClash [d, e] k = decide (a / 65536 = k) := by
  simp only [actsClash, actRows, List.filterMap_cons, List.filterMap_nil, hd, he, Option.map_some, ← hab]
  by_cases h : a / 65536 = k <;> simp [h]

theorem actsAlone_pair : actsAlone [d, e] = [] := by
  simp [actsAlone, hd, he, actsClash_pair hd he hab, hab]

theorem clashesRaised_pair (n : Nat) (s : State) (ha : a < 196608) : ∃ p, clashesRaised n [d, e] s = reportProg 0x4111 n p s := by
  have hk : (List.range 3).filter (actsClash [d, e]) = [a / 65536] := by
    have hfin : ∀ b < 3, (List.range 3).filter (fun k => decide (b = k)) = [b] := by decide
    rw [List.filter_congr fun k _ => actsClash_pair hd he hab k, hfin _ (by omega)]
  exact ⟨_, by rw [clashesRaised, hk]; rfl⟩

end

section
variable {u n : Nat} {s : State} (hsp : (mxAt s n).spmac = none)
include hsp

theorem mxClock_single {d : MxDue} (hl : ((mxAt s n).acts.filter fun e => decide (e.at_ = u)) = [d]) (hheld : mxHeld s n d = false) :
    mxAt (mxClock u n s) n = d.act.perform { mxAt s n with acts := (mxAt s n).acts.filter fun e => !decide (e.at_ = u) } := by
  have hheld' : ∀ e ∈ [d], mxHeld s n e = false := List.forall_mem_singleton.mpr hheld
  rw [mxClock_acts hsp hl hheld' (List.cons_ne_nil _ _), actsAlone_single, clashesRaised_single, mxAt_modMx_self]
  change spEnd u (mxAt (actDone n d _) n) = _
  rw [mxAt_actDone, mxAt_actsTaken hl hheld', spEnd_idle]
  rw [spmac_perform]
  exact hsp

theorem mxClock_pair {d e : MxDue} {a b : Nat} (hl : ((mxAt s n).acts.filter fun e => decide (e.at_ = u)) = [d, e])
    (hheld : ∀ c ∈ [d, e], mxHeld s n c = false) (hd : d.act.addr = some a) (he : e.act.addr = some b) (hab : a / 65536 = b / 65536) (ha : a < 196608) :
    mxAt (mxClock u n s) n = { mxAt s n with acts := (mxAt s n).acts.filter fun e => !decide (e.at_ = u) }
    ∧ counted (mxClock u n s) 0x4111 n = counted s 0x4111 n + 1 := by
  obtain ⟨p, hp⟩ := clashesRaised_pair hd he hab n (actsTaken u n s) ha
  rw [mxClock_acts hsp hl hheld (List.cons_ne_nil _ _), actsAlone_pair hd he hab, hp]
  constructor
  · rw [mxAt_modMx_self]
    change spEnd u (mxAt (reportProg 0x4111 n p _) n) = _
    rw [(reported_reportProg n p _ rfl).mxAt_eq, mxAt_actsTaken hl hheld, spEnd_idle]
    exact hsp
  · exact counted_reportProg (code := 0x4111) n p _ rfl (by decide)

end

end Sys2Proof.Machine

open Sys2Proof Sys2Proof.Machine

/-- Settles O3: each load is one change of its site after the issue, each act one change of its stores, and what falls due in an ACLK is that act, or the
report of the bank two of them share. -/
theorem mxLoadsFillTheLanes : Obligations.MxLoadsFillTheLanes := by
  refine ⟨⟨?lds, ?ldsRow⟩, ?loads, ?rows, ?clock⟩
  case lds =>
    intro n w s hi ho r x a l0 nl rpl row0
    exact fun hl hg hok h16 h8 hz => execLds_ends hi rfl rfl ho rfl rfl rfl rfl rfl hl hg hok h16 h8 hz
  case ldsRow => exact fun x a lane row m _ hr => perform_lds x a lane row m hr
  case loads =>
    intro n w s hi r x a q n7 n3 n6 due hl
    refine ⟨fun ho hg hok h8 hz => execLdss_ends hi rfl rfl ho rfl rfl hl hg hok h8 hz, fun ho hok h128 => execLdc_ends hi rfl rfl ho rfl rfl hl hok h128,
      fun ho hok => execLdk_ends hi rfl rfl ho rfl hl hok, fun ho hg h64 => execGenc_ends hi rfl rfl ho rfl hl hg h64⟩
  case rows => exact fun x a k m => ⟨fun _ => perform_ldss x a k, perform_ldc x a k, rfl, fun _ => perform_genc x k m⟩
  case clock =>
    intro u n s l x x' hsp hl hheld
    refine ⟨fun d hd _ => ?one, fun d e a b hde ha hb hab ha3 => ?two⟩
    case one => 
      subst hd
      exact mxClock_single hsp hl (hheld d (List.mem_singleton_self d))
    case two =>
      subst hde
      exact mxClock_pair hsp hl hheld ha hb hab ha3
end

section
/-! MAC and its block entries (R62-R69, R166, R238, R239): O4. -/
namespace Sys2Proof.Machine

/-! ## The word (R166) -/

/-- The array takes up intervals of consumption. -/
theorem MxHas.arrayBusy {n : Nat} {r q : State} {x : Mx} (h : MxHas n r q x) (l : List (Nat × Nat)) :
    MxHas n r (arrayBusy n l q) { x with busy := x.busy ++ l } := (h.modMx _).excUp 3 _

/-- No accumulator of a MAC is held by a word of the output unit. -/
theorem outs_free {x : Mx} {t m0 k : Nat} (h : ∀ u ∈ x.outs, u.2.2 ≤ t ∨ m0 + k ≤ u.1 ∨ u.1 + u.2.1 ≤ m0) :
    (x.outs.any fun u => decide (t < u.2.2) && decide (u.1 < m0 + k) && decide (m0 < u.1 + u.2.1)) = false := by
  refine List.any_eq_false.mpr fun u hu => ?_
  have := h u hu
  simp only [Bool.and_eq_true, decide_eq_true_eq]
  omega

/-- With CHK set, every block of a MAC has valid check weights. -/
theorem blocks_checked {c : Bool} {v kb b0 : Nat} (h : c = true → ∀ b, b < kb → bit v (b0 + b) = true) :
    (c && (List.range kb).any fun b => !bit v (b0 + b)) = false := by
  cases c with
  | false => rfl
  | true =>
    rw [Bool.true_and]
    refine List.any_eq_false.mpr fun b hb => ?_
    rw [h rfl b (List.mem_range.mp hb)]
    decide

section
variable {n : Nat} {w : W64} {s r : State} {x : Mx} (hi : mxCanIssue n w s) (hr : mxAtIssue n s = r) (hx : mxAt r n = x)
include hi hr hx

theorem execMac_ends {skips audit : List Bool} {o : MacOp} (ho : wOp w = 0x20)
    (hs : (if bit w.toNat 47 then macSkips x.skip.mask (bits w.toNat 31 24) (bits w.toNat 23 16 + 1) else List.replicate (bits w.toNat 23 16 + 1) false) = skips)
    (ha : macAudits x.skip.skipped skips = audit) (hm : macOf x w r.now (macStall r n (bits w.toNat 51 48)) skips audit = o)
    (hfree : x.arrTill ≤ r.now) (hc : macChecks x o = true) (hout : ∀ u ∈ x.outs, u.2.2 ≤ r.now ∨ o.m0 + o.n ≤ u.1 ∨ u.1 + u.2.1 ≤ o.m0)
    (hv : mCHK o.mode = true → ∀ b, b < o.kb → bit x.valid.toNat (o.b0 + b) = true) :
    mxEnds (execMac n w s) n r { x with
      macs := x.macs ++ [o], arrTill := o.busyEnd, busy := x.busy ++ o.consumes
      acts := x.acts ++ macReads o, seq := x.seq.advance (r.now + 1)
      skip := { x.skip with skipped := x.skip.skipped + (skips.filter id).length, audited := x.skip.audited + (audit.filter id).length } } := by
  refine mxEnds_issue hi hr hx ho fun q hq => ?_
  have hstall : macStall q n (bits w.toNat 51 48) = macStall r n (bits w.toNat 51 48) := by rw [hq.1.1]; rfl
  simp only [hq.2, hq.now_eq, hstall, hs, ha, hm, Nat.not_lt.mpr hfree, hc, outs_free hout, blocks_checked hv, if_false, Bool.not_true, Bool.false_eq_true]
  exact ((hq.modMx fun x => { x with
    macs := x.macs ++ [o]
    arrTill := o.busyEnd
    acts := x.acts ++ macReads o
    skip := { x.skip with skipped := x.skip.skipped + (skips.filter id).length, audited := x.skip.audited + (audit.filter id).length } }).arrayBusy _).mxNext 1

end

/-- A row read goes to its MAC (R166, R168). -/
theorem perform_mac (x : Mx) (t a : Nat) (sc : Bool) :
    let y := MxAct.perform x (.mac t sc a)
    y = { x with macs := y.macs } ∧ y.macs.length = x.macs.length
    ∧ ∀ (i : Nat) (o : MacOp), x.macs[i]? = some o → y.macs[i]? = some (if o.t = t then { o with rows := o.rows ++ [x.readRow sc a] } else o) := by
  simp only [MxAct.perform, List.length_map, true_and]
  intro i o h
  rw [List.getElem?_map, h]
  rfl

/-! ## A block enters (R62-R69, R166, R238, R239) -/

/-- From r to t site n becomes x; beyond it only counts, reports and what follows them differ. -/
structure MxEntered (n : Nat) (r t : State) (x : Mx) : Prop where
  rest : t = { r with mx := t.mx, sw := t.sw, counts := t.counts, ports := t.ports, areas := t.areas, su := t.su, ras := t.ras }
  others : ∀ m, m ≠ n → mxAt t m = mxAt r m
  site : mxAt t n = x

section
variable {n : Nat} {r t : State} {x : Mx}

theorem MxEntered.refl (n : Nat) (r : State) : MxEntered n r r (mxAt r n) := ⟨rfl, fun _ _ => rfl, rfl⟩

theorem MxEntered.modMx (h : MxEntered n r t x) (g : Mx → Mx) : MxEntered n r (modMx n g t) (g x) where
  rest := by
    rw [h.rest]
    rfl
  others m hm := (mxAt_modMx_ne _ _ _ _ hm).trans (h.others m hm)
  site := by rw [mxAt_modMx_self, h.site]

theorem MxEntered.excUp (h : MxEntered n r t x) (i k : Nat) : MxEntered n r (excUp n i k t) x where
  rest := by
    rw [h.rest]
    rfl
  others := h.others
  site := h.site

theorem MxEntered.count (h : MxEntered n r t x) (c u k : Nat) : MxEntered n r (count c u k t) x where
  rest := by
    rw [h.rest]
    rfl
  others := h.others
  site := h.site

theorem MxEntered.linkNoted {q : State} (h : MxEntered n r t x) (k : LinkNoted t q) : MxEntered n r q x where
  rest := by
    rw [k, h.rest]
  others m hm := (k.mxAt_eq m).trans (h.others m hm)
  site := (k.mxAt_eq n).trans h.site

theorem MxEntered.now_eq (h : MxEntered n r t x) : t.now = r.now := by rw [h.rest]

end

theorem linkNoted_blockReports (n pc : Nat) (b : BlockOut) (s : State) : LinkNoted s (blockReports n pc b s) := by
  have hcount : ∀ (c : Bool) (code : Nat) (q : State), LinkNoted q (if c then count code n 1 q else q) := fun c code q => by split <;> rfl
  have hrow : ∀ q, LinkNoted q (if b.rowchk then watchTrigger 0x3101 2 (.site n) (reportProg 0x3101 n pc q) else q) := fun q => by
    split
    · exact (noted_report _ _ (.inl rfl)).linkNoted.trans (linkNoted_watchTrigger ..)
    · rfl
  exact (((hcount b.na 0x1102 s).trans (hcount b.spread 0x1103 _)).trans (hcount b.nan 0x1105 _)).trans (hrow _)

/-- The oldest MAC goes on, or leaves with its last block. -/
def macAdvanced (done : Bool) (t : Nat) (o : MacOp) (x : Mx) : Mx :=
  if done then { x with macs := x.macs.drop 1, macsDone := (x.macsDone.filter fun y => decide (t < y.readable)) ++ [o] }
  else { x with macs := o :: x.macs.drop 1 }

theorem macAdvanced_frame (done : Bool) (t : Nat) (o : MacOp) (x : Mx) :
    macAdvanced done t o x = { x with macs := (macAdvanced done t o x).macs, macsDone := (macAdvanced done t o x).macsDone } := by
  unfold macAdvanced
  split <;> rfl

theorem length_macs_macAdvanced {done : Bool} {o' : MacOp} {rest : List MacOp} {x : Mx} (t : Nat) (o : MacOp) (h : x.macs = o' :: rest) :
    (macAdvanced done t o x).macs.length = if done then rest.length else rest.length + 1 := by
  cases done <;> simp [macAdvanced, h]

theorem length_accs_doBlock {x : Mx} {o : MacOp} {accs : List Acc} (g : Nat) (upset : List Int) (h : accs.length = 16) :
    (doBlock x o g upset accs).accs.length = 16 := by
  simp only [doBlock]
  split <;> simp [h]

theorem MxEntered.macAdvanced {n : Nat} {r t : State} {x : Mx} (h : MxEntered n r t x) (done : Bool) (o : MacOp) :
    MxEntered n r (Machine.modMx n (Machine.macAdvanced done t.now o) t) (Machine.macAdvanced done r.now o x) := by
  rw [h.now_eq]
  exact h.modMx _

/-- An audit that misses is counted. -/
theorem MxEntered.missed {n : Nat} {r t : State} {x : Mx} (h : MxEntered n r t x) (c : Bool) :
    ∃ y, MxEntered n r (if c then Machine.count 0x1118 n 1
      (Machine.modMx n (fun x => { x with skip := { x.skip with misses := x.skip.misses + 1 } }) t) else t) y ∧ y = { x with skip := y.skip } := by
  split
  · exact ⟨_, (h.modMx _).count 0x1118 n 1, rfl⟩
  · exact ⟨x, h, rfl⟩

/-- A block of a vector that is skipped leaves the accumulators; any other puts its results into one of them. -/
theorem blockEntry_enters (n : Nat) {o : MacOp} (upset : List Int) {r : State} {x : Mx} (hx : mxAt r n = x)
    (hau : o.audit.getD (o.next / o.kb) false = true → o.skips.getD (o.next / o.kb) false = true) :
    ∃ o' y, MxEntered n r (blockEntry n o upset r) (macAdvanced (decide (o.n * o.kb ≤ o.next + 1)) r.now o' y)
      ∧ if o.skips.getD (o.next / o.kb) false then y = { x with skip := y.skip }
        else y = putAccs (o.m0 + o.next / o.kb) (doBlock x o o.next upset (accsAt x (o.m0 + o.next / o.kb))).accs x := by
  have h0 : MxEntered n r r x := hx ▸ .refl n r
  unfold blockEntry
  simp only [hx]
  cases hskip : o.skips.getD (o.next / o.kb) false with
  | false =>
    have haudit : o.audit.getD (o.next / o.kb) false = false := Bool.eq_false_iff.mpr fun h => by rw [hau h] at hskip; exact Bool.noConfusion hskip
    simp only [haudit, Bool.false_and, Bool.false_eq_true, if_false]
    have h1 := ((h0.modMx (putAccs (o.m0 + o.next / o.kb) (doBlock x o o.next upset (accsAt x (o.m0 + o.next / o.kb))).accs)).linkNoted
      (linkNoted_blockReports n o.pc (doBlock x o o.next upset (accsAt x (o.m0 + o.next / o.kb))) _)).excUp 4 1
    exact ⟨_, _, h1.macAdvanced _ (o.trimmed (o.next + 1)), rfl⟩
  | true =>
    cases haudit : o.audit.getD (o.next / o.kb) false with
    | false =>
      simp only [Bool.not_false, Bool.and_true, if_true]
      exact ⟨_, x, h0.macAdvanced _ (o.trimmed (o.next + 1)), rfl⟩
    | true =>
      simp only [Bool.not_true, Bool.and_false, Bool.false_eq_true, if_false, if_true]
      have h1 := h0.linkNoted (linkNoted_blockReports n o.pc (doBlock x o o.next upset (if o.next % o.kb = 0 then List.replicate 16 default else o.auditAcc)) r)
      obtain ⟨y, h2, hy⟩ := h1.missed (decide (o.next % o.kb + 1 = o.kb) && auditMiss x.skip.thr
        (doBlock x o o.next upset (if o.next % o.kb = 0 then List.replicate 16 default else o.auditAcc)).accs)
      exact ⟨_, y, h2.macAdvanced _ _, hy⟩

theorem execMacBlockEntry_enters {n : Nat} {upset : List Int} {s r : State} {o' o : MacOp} {rest' rest : List MacOp} (hp : sitePresent s.member n = true)
    (hk : kindOf n = .mx) (hruns : siteRuns s n = true) (hclamp : s.pwr.clamp = none) (hmacs' : (mxAt s n).macs = o' :: rest')
    (hdroop : droopHolds s n o' = false) (hr : runTo (o'.entryAt o'.next) s = r) (hmacs : (mxAt r n).macs = o :: rest)
    (hheld : arrayHeld r n (o.lastUse o.next) = false) : execMacBlockEntry n upset s = .next (blockEntry n o upset r) := by
  rw [execMacBlockEntry, onSite_of_kind hp hk]
  simp only [hmacs', hruns, hclamp, hdroop, hr, hmacs, hheld, Option.isNone_none, Bool.not_false, Bool.and_self, if_true, Bool.false_eq_true, if_false]

/-- What the entry of a block makes of its site. -/
theorem macEntered_site {o o'' : MacOp} {rest : List MacOp} {x y z : Mx} {done : Bool} {t : Nat} {upset : List Int} (hmacs : x.macs = o :: rest)
    (hm0 : o.m0 + o.n ≤ 256) (hnext : o.next < o.n * o.kb) (hdone : decide (o.n * o.kb ≤ o.next + 1) = done)
    (hy : if o.skips.getD (o.next / o.kb) false then y = { x with skip := y.skip }
        else y = putAccs (o.m0 + o.next / o.kb) (doBlock x o o.next upset (accsAt x (o.m0 + o.next / o.kb))).accs x)
    (hz : macAdvanced done t o'' y = z) :
    z = { x with acc := z.acc, macs := z.macs, macsDone := z.macsDone, skip := z.skip }
    ∧ (if o.skips.getD (o.next / o.kb) false then z.acc = x.acc
        else accsAt z (o.m0 + o.next / o.kb) = (doBlock x o o.next upset (accsAt x (o.m0 + o.next / o.kb))).accs
          ∧ ∀ e, e ≠ o.m0 + o.next / o.kb → e < 256 → accsAt z e = accsAt x e)
    ∧ z.macs.length = if o.next + 1 = o.n * o.kb then rest.length else rest.length + 1 := by
  have hframe : z = { y with macs := z.macs, macsDone := z.macsDone } := hz ▸ macAdvanced_frame done t o'' y
  have hv : o.next / o.kb < o.n := Nat.div_lt_of_lt_mul (Nat.mul_comm .. ▸ hnext)
  have hyrest : y = { x with acc := y.acc, skip := y.skip } := by
    split at hy
    · rw [hy]
    · rw [hy, putAccs]
  refine ⟨?_, ?_, ?_⟩
  · rw [hframe, hyrest]
  · split at hy
    · next h =>
      rw [if_pos h, hframe, hy]
    · next h =>
      have hacc : ∀ e, accsAt z e = accsAt y e := fun e => by rw [hframe]; rfl
      have hput := fun {e : Nat} (he : e < 256) => accsAt_putAccs (e := o.m0 + o.next / o.kb)
        (length_accs_doBlock (x := x) (o := o) o.next upset (accs := accsAt x (o.m0 + o.next / o.kb)) (by simp [accsAt])) (by omega) he x
      rw [if_neg h]
      simp only [hacc, hy]
      exact ⟨(hput (by omega)).trans (if_pos rfl), fun e hne he => (hput he).trans (if_neg hne)⟩
  · rw [← hz, length_macs_macAdvanced t o'' (by rw [hyrest]; exact hmacs), ← hdone]
    simp only [decide_eq_true_eq]
    exact if_congr (by omega) rfl rfl

end Sys2Proof.Machine

open Sys2Proof Sys2Proof.Machine

/-- Settles O4: the word is one change of its site after the issue, and a block's entry is a change of one accumulator, or of none, with the MACs in
progress. -/
theorem macRunsItsBlocks : Obligations.MacRunsItsBlocks := by
  refine ⟨⟨?word, perform_mac⟩, ?entry⟩
  case word =>
    intro n w s hi ho r x v skips audit o busy hfree hc hout hv
    obtain ⟨t, ht, ⟨hrest, hothers, hsw⟩, hx⟩ := execMac_ends hi rfl rfl ho rfl rfl rfl hfree hc hout hv
    exact ⟨t, ht, hrest, hothers, hsw, hx⟩
  case entry =>
    intro n upset s o' o rest' rest hp hk hruns hclamp hmacs' hdroop r x hmacs _ hm0 hnext hau v hheld
    obtain ⟨o'', y, ht, hy⟩ := blockEntry_enters n upset (r := r) (x := x) rfl hau
    refine ⟨_, execMacBlockEntry_enters hp hk hruns hclamp hmacs' hdroop rfl hmacs hheld, ht.now_eq, ?_, ?_, ?_, ht.others, ?_⟩
    · rw [ht.rest]
    · rw [ht.rest]
    · rw [ht.rest]
    · rw [ht.site]
      exact macEntered_site hmacs hm0 hnext rfl hy rfl
end

section
/-! ACC and SPMAC (R164, R167, R228-R230, R491): O5. -/
namespace Sys2Proof.Machine

/-- Taking a free value, where one is taken, moves the counter of free values alone. -/
theorem MxHas.freeTaken {n : Nat} {r q : State} {x : Mx} (h : MxHas n r q x) (c : Bool) :
    (if c then freshValue q else (0, q)).1 = (if c then (freshValue r).1 else 0)
    ∧ MxHas n { r with freeCtr := r.freeCtr + b2n c } (if c then freshValue q else (0, q)).2 x := by
  obtain ⟨⟨hr, hmx, hsw⟩, hx⟩ := h
  cases c with
  | false => exact ⟨rfl, ⟨hr, hmx, hsw⟩, hx⟩
  | true =>
    refine ⟨?_, ⟨?_, hmx, hsw⟩, hx⟩
    · rw [hr]
      rfl
    · rw [hr]
      rfl

section
variable {n : Nat} {w : W64} {s r : State} {x : Mx} (hi : mxCanIssue n w s) (hr : mxAtIssue n s = r) (hx : mxAt r n = x)
include hi hr hx

/-- As `mxEnds_issue`, for a word that also changes the state beside its site: from r to r'. -/
theorem mxEnds_issue_beside {op : Nat} {f : State → State} {r' : State} {y : Mx} (ho : wOp w = op) (hf : ∀ q, MxHas n r q x → MxHas n r' (f q) y) :
    mxEnds (mxIssue op n w f s) n r' y := by
  subst hr hx
  exact ⟨_, mxIssue_run hi ho, hf _ (.issued ..)⟩

/-! ## ACC (R167, R491) -/

theorem execAcc_ends {a m0 k op busy : Nat} (ho : wOp w = 0x23) (ha : aReg x (wAR w) = a) (hm : bits w.toNat 31 24 = m0) (hk : bits w.toNat 23 16 + 1 = k)
    (hop : bits w.toNat 9 8 = op) (hb : (if op = 0 then (k + 15) / 16 else (k + 1) / 2) = busy) (h2 : op < 2) (hfree : x.outTill ≤ r.now) (h256 : m0 + k ≤ 256)
    (hz : hazAcc x r.now m0 k = false) (hrows : op = 1 → rowsOk a ((k + 1) / 2) = true) :
    mxEnds (execAcc n w s) n r { x with
      outTill := r.now + busy
      outs := (x.outs.filter fun u => decide (r.now < u.2.2)) ++ (List.range busy).map fun q =>
        (m0 + (if op = 0 then 16 else 2) * q, min (if op = 0 then 16 else 2) (k - (if op = 0 then 16 else 2) * q), r.now + 2 + q)
      acts := x.acts ++ dueActs (r.now + 1) busy x.seq.pc fun q =>
        if op = 0 then .zero (m0 + 16 * q) (min 16 (k - 16 * q)) else .acc (a + 128 * q) (m0 + 2 * q) (min 2 (k - 2 * q))
      seq := x.seq.advance (r.now + 1) } := by
  have hrow : (decide (op = 1) && !rowsOk a busy) = false := by
    by_cases h : op = 1
    · rw [← hb, if_neg (by omega), hrows h, Bool.not_true, Bool.and_false]
    · rw [decide_eq_false h, Bool.false_and]
  refine mxEnds_issue hi hr hx ho fun q hq => ?_
  simp only [hq.2, hq.now_eq, ha, hm, hk, hop, hb, Nat.not_lt.mpr (Nat.le_of_lt_succ h2), Nat.not_lt.mpr hfree, Nat.not_lt.mpr h256, hrow, hz, if_false, or_self,
    Bool.false_eq_true]
  exact (hq.modMx fun x => { x with
    outTill := r.now + busy
    outs := (x.outs.filter fun u => decide (r.now < u.2.2)) ++ (List.range busy).map fun q =>
      (m0 + (if op = 0 then 16 else 2) * q, min (if op = 0 then 16 else 2) (k - (if op = 0 then 16 else 2) * q), r.now + 2 + q)
    acts := x.acts ++ dueActs (r.now + 1) busy x.seq.pc fun q =>
      if op = 0 then .zero (m0 + 16 * q) (min 16 (k - 16 * q)) else .acc (a + 128 * q) (m0 + 2 * q) (min 2 (k - 2 * q)) }).mxNext 1

/-! ## SPMAC (R228-R230) -/

theorem execSpmac_ends {nlog nf : Nat} {free : Bool} (ho : wOp w = 0x24) (hn : bits w.toNat 34 32 = nlog) (hf : bits w.toNat 13 0 + 1 = nf)
    (hc : mCHK x.mode = free) (h4 : nlog ≤ 4) (ha : x.arrTill ≤ r.now) (hot : x.outTill ≤ r.now) (hm : spModeOk x.mode = true) :
    mxEnds (execSpmac n w s) n { r with freeCtr := r.freeCtr + b2n free } { x with
      spmac := some { t := r.now, pc := x.seq.pc, mode := x.mode, ring := bits w.toNat 43 40, nlog := nlog, nf := nf
                      upset := if free then (freshValue r).1 else 0, at_ := r.now, freed := 0, flit := default }
      arrTill := r.now + nf * 2 ^ nlog + 2, outTill := r.now + 4 + nf * 2 ^ nlog
      busy := x.busy ++ [(r.now + 2, nf * 2 ^ nlog)], seq := x.seq.advance (r.now + 1) } := by
  refine mxEnds_issue_beside hi hr hx ho fun q hq => ?_
  obtain ⟨hv, hq'⟩ := hq.freeTaken free
  simp only [hq.2, hq.now_eq, hn, hf, hc, hv, Nat.not_lt.mpr h4, Nat.not_lt.mpr ha, Nat.not_lt.mpr hot, hm, or_self, if_false, Bool.not_true, Bool.false_eq_true]
  exact ((hq'.modMx fun x => { x with
    spmac := some { t := r.now, pc := x.seq.pc, mode := x.mode, ring := bits w.toNat 43 40, nlog := nlog, nf := nf
                    upset := if free then (freshValue r).1 else 0, at_ := r.now, freed := 0, flit := default }
    arrTill := r.now + nf * 2 ^ nlog + 2
    outTill := r.now + 4 + nf * 2 ^ nlog }).arrayBusy [(r.now + 2, nf * 2 ^ nlog)]).mxNext 1

end

/-- Entries that fall due are cleared, or get a half row of SRAM each (R167, R491). -/
theorem perform_zero_acc (x : Mx) {a e k : Nat} (hk : e + k ≤ 256) :
    let y := MxAct.perform x (.zero e k)
    let z := MxAct.perform x (.acc a e k)
    y = { x with acc := y.acc } ∧ z = { x with acc := z.acc }
    ∧ (∀ j, e ≤ j → j < e + k → accsAt y j = List.replicate 16 { window := false, v := 0, sour := false })
    ∧ (∀ j i, e ≤ j → j < e + k → i < 16 → (accsAt z j).getD i default =
        { window := false, v := BitVec.ofNat 96 (leNat (bytesAt x.mem (a + 64 * (j - e) + 4 * i) 4)), sour := look false x.gsour (a / 64 + (j - e)) })
    ∧ ∀ j, ¬ (e ≤ j ∧ j < e + k) → j < 256 → accsAt y j = accsAt x j ∧ accsAt z j = accsAt x j := by
  simp only [MxAct.perform]
  refine ⟨zeroAccs_frame .., accRow_frame .., fun j h1 h2 => ?_, fun j i h1 h2 hi => ?_, fun j hj h => ⟨?_, ?_⟩⟩
  · exact (accsAt_zeroAccs hk (by omega) x).trans (if_pos ⟨h1, h2⟩)
  · rw [accsAt_accRow hk (by omega), if_pos ⟨h1, h2⟩, loadedAccs, getD_map_range _ _ hi, show a + 4 * (16 * (j - e) + i) = a + 64 * (j - e) + 4 * i by omega]
  · exact (accsAt_zeroAccs hk h x).trans (if_neg hj)
  · exact (accsAt_accRow hk h x).trans (if_neg hj)

end Sys2Proof.Machine

open Sys2Proof Sys2Proof.Machine

/-- Settles O5: each word is one change of its site after the issue (SPMAC also takes a free value under CHK), each act one change of its accumulators. -/
theorem accAndSpmacComplete : Obligations.AccAndSpmacComplete := by
  refine ⟨⟨?acc, fun x a e k hk => perform_zero_acc x hk⟩, ?spmac⟩
  case acc =>
    intro n w s hi ho r x a m0 k op busy each_ part h2 hfree h256 hz hrows
    exact execAcc_ends hi rfl rfl ho rfl rfl rfl rfl rfl h2 hfree h256 hz hrows
  case spmac =>
    intro n w s hi ho r x nlog nf free op h4 ha hot hm
    obtain ⟨t, ht, ⟨hrest, hothers, hsw⟩, hx⟩ := execSpmac_ends hi rfl rfl ho rfl rfl rfl h4 ha hot hm
    exact ⟨t, ht, hothers, hrest, hsw, hx⟩
end

section
/-! SF sequencer and scalar words (R155, R170, R180): O8. -/
namespace Sys2Proof.Machine

/-! ## What a word without a unit may change -/

/-- From r to q only SF site n and exact-mode counts differ, and the count of a code there: the site is f. -/
def SfHas (code n : Nat) (r q : State) (f : Sf) : Prop := onlySf code n r q ∧ sfAt q n = f

section
variable {code n : Nat} {r q : State} {f : Sf}

theorem SfHas.now_eq (h : SfHas code n r q f) : q.now = r.now := onlySf.now_eq h.1

theorem SfHas.modSf (h : SfHas code n r q f) (g : Sf → Sf) : SfHas code n r (modSf n g q) (g f) := by
  refine ⟨h.1.modSf, ?_⟩
  rw [sfAt_modSf_self, h.2]

/-- The next word follows d ACLK later (R154). -/
theorem SfHas.sfNext (h : SfHas code n r q f) (d : Nat) : SfHas code n r (sfNext n d q) { f with seq := f.seq.advance (r.now + d) } := by
  rw [Machine.sfNext, h.now_eq]
  exact h.modSf _

/-- A taken branch costs two ACLK (R155). -/
theorem SfHas.sfJump (h : SfHas code n r q f) (w : W64) : SfHas code n r (sfJump n w q) { f with seq := { f.seq with pc := bits w.toNat 9 0, next := r.now + 2 } } := by
  rw [Machine.sfJump, h.now_eq]
  exact h.modSf _

/-- A result that clashes with none due becomes pending (R154, R172). -/
theorem SfHas.sfResult (h : SfHas code n r q f) {lat : Nat} {dst : SfDst} (mask : W32) (val : Vec) (hf : sfNoClash f r lat dst) :
    SfHas code n r (sfResult n lat dst mask val q) { f with wb := f.wb ++ [sfPending r lat dst mask val] } :=
  SfPends.sfResult (l := []) ⟨h.1, by rw [h.2, List.append_nil]⟩ hf (List.forall_mem_nil _)

end

/-- A word that stands at the program address ends as what it does from its issue on. -/
theorem sfEnds_issue {code op n : Nat} {w : W64} {s r : State} {g : State → State} {f y : Sf} (hi : sfCanIssue n w s) (hr : sfAtIssue n s = r)
    (hx : sfAt r n = f) (ho : wOp w = op) (hg : ∀ q, SfHas code n r q f → SfHas code n r (g q) y) : sfEnds code (sfIssue op n w g s) n r y := by
  subst hr hx
  exact ⟨_, sfIssue_run hi ho, hg _ ⟨onlySf.excUp _, rfl⟩⟩

/-- A site that goes on to the next word with one scalar result of latency 1 pending. -/
def Sf.scalarPending (f : Sf) (r : State) (w : W64) (v : W32) : Sf :=
  { f with seq := f.seq.advance (r.now + 1), wb := f.wb ++ [sfPending r 1 (.s (sfVD w % 16)) (BitVec.allOnes 32) (vecOf v)] }

/-! ## The words -/

section
variable {n : Nat} {w : W64} {s r : State} {f : Sf} (hi : sfCanIssue n w s) (hr : sfAtIssue n s = r) (hx : sfAt r n = f)
include hi hr hx

theorem execSfEnd_ends (ho : wOp w = 0x01) (hl : f.seq.loops = []) :
    sfEnds 0 (execSfEnd n w s) n r { f with seq := { f.seq with running := false, loops := [], next := r.now + 1 } } := by
  refine sfEnds_issue hi hr hx ho fun q hq => ?_
  simp only [hq.2, hq.now_eq, hl, List.isEmpty_nil, if_true]
  exact hq.modSf _

theorem execSfWpk_ends {e : Nat} (ho : wOp w = 0x03) (hw : 8 * (f.seq.step + sfImm w) + sfPM w = e) (he : r.now + 1 ≤ e) :
    sfEnds 0 (execSfWpk n w s) n r { f with seq := f.seq.advance e } := by
  refine sfEnds_issue hi hr hx ho fun q hq => ?_
  simp only [hq.2, hq.now_eq, hw, if_neg (Nat.not_lt.mpr he)]
  have hn := hq.sfNext (e - r.now)
  rwa [Nat.add_sub_cancel' (by omega)] at hn

theorem execSfLoop_ends (ho : wOp w = 0x04) (hl : f.seq.loops.length < 4) :
    sfEnds 0 (execSfLoop n w s) n r { f with seq := { f.seq with
      loops := { start := f.seq.pc + 1, last := bits w.toNat 9 0, left := bits w.toNat 25 10 + 1 } :: f.seq.loops
      pc := f.seq.pc + 1
      next := r.now + 1 } } := by
  refine sfEnds_issue hi hr hx ho fun q hq => ?_
  simp only [hq.2, hq.now_eq, enter_open hl]
  exact hq.modSf _

theorem execBz_ends (ho : wOp w = 0x06) : sfEnds 0 (execBz n w s) n r
    { f with seq := if sfS f (sfVA w) = 0 then { f.seq with pc := bits w.toNat 9 0, next := r.now + 2 } else f.seq.advance (r.now + 1) } := by
  refine sfEnds_issue hi hr hx ho fun q hq => ?_
  rw [hq.2]
  split
  · exact hq.sfJump w
  · exact hq.sfNext 1

theorem execBnz_ends (ho : wOp w = 0x07) : sfEnds 0 (execBnz n w s) n r
    { f with seq := if sfS f (sfVA w) = 0 then f.seq.advance (r.now + 1) else { f.seq with pc := bits w.toNat 9 0, next := r.now + 2 } } := by
  refine sfEnds_issue hi hr hx ho fun q hq => ?_
  rw [hq.2]
  split
  · exact hq.sfNext 1
  · exact hq.sfJump w

/-- A word with one scalar result of latency 1. -/
theorem sfEnds_scalar {op : Nat} {v : W32} {g : State → State} (ho : wOp w = op) (hc : sfNoClash f r 1 (.s (sfVD w % 16)))
    (hg : ∀ q, sfAt q n = f → q.now = r.now → g q = sfNext n 1 (sfScalar n w v q)) : sfEnds 0 (sfIssue op n w g s) n r (f.scalarPending r w v) := by
  refine sfEnds_issue hi hr hx ho fun q hq => ?_
  rw [hg q hq.2 hq.now_eq]
  exact (hq.sfResult _ _ hc).sfNext 1

theorem execSadd_ends (ho : wOp w = 0x09) (hc : sfNoClash f r 1 (.s (sfVD w % 16))) : sfEnds 0 (execSadd n w s) n r
    (f.scalarPending r w (sfS f (sfVA w) + if sfBS w then sfS f (sfVB w) else BitVec.ofNat 32 (sfImm w))) :=
  sfEnds_scalar hi hr hx ho hc fun q hq _ => by rw [hq]

theorem execSmovv_ends (ho : wOp w = 0x0A) (hc : sfNoClash f r 1 (.s (sfVD w % 16))) : sfEnds 0 (execSmovv n w s) n r
    (f.scalarPending r w (laneOf (sfV f (sfVA w)).data (bits w.toNat 4 0))) :=
  sfEnds_scalar hi hr hx ho hc fun q hq _ => by rw [hq]

theorem execGetpk_ends (ho : wOp w = 0x0B) (hc : sfNoClash f r 1 (.s (sfVD w % 16))) : sfEnds 0 (execGetpk n w s) n r
    (f.scalarPending r w (BitVec.ofNat 32 (r.now / 8 - f.seq.step))) :=
  sfEnds_scalar hi hr hx ho hc fun q hq hn => by rw [hq, State.pick, hn]

end

end Sys2Proof.Machine

open Sys2Proof Sys2Proof.Machine

/-- Settles O8: each word is one change of its site after the issue. -/
theorem sfSequencerAndScalarWords : Obligations.SfSequencerAndScalarWords := by
  refine ⟨fun n w s hi => ⟨?nop, ?end_, ?wait, ?wpk, ?loop, ?br, ?bz, ?bnz⟩, ?scalar⟩
  case nop => exact fun ho => sfEnds_issue hi rfl rfl ho fun _ hq => hq.sfNext 1
  case end_ => exact fun ho hl => execSfEnd_ends hi rfl rfl ho hl
  case wait => exact fun ho => sfEnds_issue hi rfl rfl ho fun _ hq => hq.sfNext _
  case wpk => exact fun ho he => execSfWpk_ends hi rfl rfl ho rfl he
  case loop => exact fun ho hl => execSfLoop_ends hi rfl rfl ho hl
  case br => exact fun ho => sfEnds_issue hi rfl rfl ho fun _ hq => hq.sfJump w
  case bz => exact fun ho => execBz_ends hi rfl rfl ho
  case bnz => exact fun ho => execBnz_ends hi rfl rfl ho
  case scalar =>
    intro n w s hi r f dst yields hc
    exact ⟨fun ho => sfEnds_scalar hi rfl rfl ho hc fun _ _ _ => rfl, fun ho => execSadd_ends hi rfl rfl ho hc, fun ho => execSmovv_ends hi rfl rfl ho hc,
      fun ho => execGetpk_ends hi rfl rfl ho hc⟩
end

section
/-! SF compares and conversions (R51-R54, R170, R171): O10. -/
namespace Sys2Proof.Machine

/-! ## Lanes and flags -/

/-- The number whose 32-bit digits are the lanes, lane 0 lowest. -/
theorem digit_foldr (l : List W32) {i : Nat} (hi : i < l.length) :
    BitVec.ofNat 32 ((l.foldr (fun x acc => x.toNat + 2 ^ 32 * acc) 0) / 2 ^ (32 * i)) = l[i] := by
  induction l generalizing i with
  | nil => exact absurd hi (Nat.not_lt_zero i)
  | cons x l ih =>
    cases i with
    | zero =>
      refine BitVec.eq_of_toNat_eq ?_
      simp [Nat.mod_eq_of_lt x.isLt]
    | succ i =>
      have hdiv : (x.toNat + 2 ^ 32 * l.foldr (fun x acc => x.toNat + 2 ^ 32 * acc) 0) / 2 ^ 32 = l.foldr (fun x acc => x.toNat + 2 ^ 32 * acc) 0 := by
        rw [Nat.add_mul_div_left _ _ (by decide), Nat.div_eq_of_lt x.isLt, Nat.zero_add]
      rw [List.foldr_cons, show 32 * (i + 1) = 32 + 32 * i by omega, Nat.pow_add, ← Nat.div_div_eq_div_mul, hdiv]
      exact ih (Nat.lt_of_succ_lt_succ hi)

theorem laneOf_ofLanes (g : Nat → W32) {i : Nat} (hi : i < 32) : laneOf (ofLanes ((List.range 32).map g)) i = g i := by
  have hd := digit_foldr ((List.range 32).map g) (i := i) (by simpa using hi)
  rw [List.getElem_map, List.getElem_range] at hd
  rw [← hd]
  refine BitVec.eq_of_getLsbD_eq fun j hj => ?_
  simp only [laneOf, ofLanes, BitVec.getLsbD_ofNat, BitVec.toNat_ofNat, Nat.testBit_div_two_pow, Nat.testBit_mod_two_pow]
  rw [decide_eq_true (show j + 32 * i < 1024 by omega), Bool.true_and]

/-- The number whose bits are flags. -/
def flagBits (c : Nat → Bool) (k : Nat) : Nat := (List.range k).foldl (fun x i => x + b2n (c i) * 2 ^ i) 0

theorem flagBits_succ (c : Nat → Bool) (k : Nat) : flagBits c (k + 1) = 2 ^ k * b2n (c k) + flagBits c k := by
  rw [flagBits, List.range_succ, List.foldl_append, List.foldl_cons, List.foldl_nil, ← flagBits, Nat.add_comm, Nat.mul_comm]

theorem flagBits_lt (c : Nat → Bool) (k : Nat) : flagBits c k < 2 ^ k := by
  induction k with
  | zero => exact Nat.one_pos
  | succ k ih =>
    rw [flagBits_succ, Nat.pow_succ]
    cases c k
    · simpa [b2n] using by omega
    · simpa [b2n] using by omega

theorem bit_flagBits (c : Nat → Bool) {k i : Nat} (hi : i < k) : bit (flagBits c k) i = c i := by
  induction k with
  | zero => exact absurd hi (Nat.not_lt_zero i)
  | succ k ih =>
    rw [flagBits_succ, bit_eq_testBit, Nat.testBit_two_pow_mul_add _ (flagBits_lt c k)]
    by_cases h : i < k
    · rw [if_pos h, ← bit_eq_testBit, ih h]
    · rw [if_neg h, show i = k by omega, Nat.sub_self]
      cases c k <;> rfl

/-! ## FCMP, ICMP and SEL (R170, R171) -/

section
variable {n : Nat} {w : W64} {s r : State} {f : Sf} (hi : sfCanIssue n w s) (hr : sfAtIssue n s = r) (hx : sfAt r n = f)
include hi hr hx

theorem sfCompare_ends {op lat top : Nat} (cmp : Nat → W32 → W32 → Bool) (ho : wOp w = op) (hfree : f.vecTill ≤ r.now) (ht : bits w.toNat 2 0 ≤ top)
    (hc : sfNoClash f r lat (.p (sfVD w % 8))) :
    ∃ x : W32, (∀ i, i < 32 → bit x.toNat i = cmp (bits w.toNat 2 0) (laneOf (sfV f (sfVA w)).data i) (laneOf (sfB f w).data i))
      ∧ sfEnds 0 (sfCompare op lat top cmp n w s) n r (sfAfter f r .vec 1 [sfPending r lat (.p (sfVD w % 8)) (sfP f (sfPM w)) (vecOf x)]) := by
  subst hr hx
  refine ⟨BitVec.ofNat 32 (flagBits (fun i => cmp (bits w.toNat 2 0) (laneOf (sfV (sfAt (sfAtIssue n s) n) (sfVA w)).data i)
    (laneOf (sfB (sfAt (sfAtIssue n s) n) w).data i)) 32), fun i hi => ?_, ?_⟩
  · rw [BitVec.toNat_ofNat, Nat.mod_eq_of_lt (flagBits_lt ..), bit_flagBits _ hi]
  · rw [sfCompare, if_neg (Nat.not_lt.mpr ht)]
    refine sfUnit_ends_one hi ho hfree hc fun q hq => ?_
    simp only [hq, sfV_hold, sfB_hold, sfMask, sfP_hold]
    rfl

theorem execSel_ends (ho : wOp w = 0x23) (hfree : f.vecTill ≤ r.now) (hc : sfNoClash f r 2 (.v (sfVD w))) :
    sfEnds 0 (execSel n w s) n r (sfAfter f r .vec 1 [sfPending r 2 (.v (sfVD w)) (BitVec.allOnes 32)
      { data := mergeLanes (sfP f (sfPM w)) (sfB f w).data (sfV f (sfVA w)).data, sour := (sfV f (sfVA w)).sour ||| (sfB f w).sour }]) := by
  subst hr hx
  refine sfUnit_ends_one hi ho hfree hc fun q hq => ?_
  simp only [hq, sfV_hold, sfB_hold, sfMask, sfP_hold]

end

/-! ## CVT and CVTMX (R51-R54) -/

/-- From r to q only SF site n and exact-mode counts differ, and the counts of saturations and NaNs there: the site is f. -/
structure SfConverts (n : Nat) (r q : State) (f : Sf) : Prop where
  rest : q = { r with sf := q.sf, sw := q.sw, counts := q.counts }
  others : ∀ m, m ≠ n → sfAt q m = sfAt r m
  switches : sameSwitches r q
  counts : ∀ k, k ≠ countKey 0x1301 n → k ≠ countKey 0x1302 n → look 0 q.counts k = look 0 r.counts k
  site : sfAt q n = f

section
variable {n : Nat} {r q : State} {f : Sf}

theorem SfConverts.now_eq (h : SfConverts n r q f) : q.now = r.now := by rw [h.rest]

theorem SfConverts.modSf (h : SfConverts n r q f) (g : Sf → Sf) : SfConverts n r (modSf n g q) (g f) where
  rest := by
    rw [h.rest]
    rfl
  others m hm := (sfAt_modSf_ne _ _ _ _ hm).trans (h.others m hm)
  switches := h.switches
  counts := h.counts
  site := by rw [sfAt_modSf_self, h.site]

/-- Only the counts of saturations and NaNs change beside the site. -/
theorem SfConverts.count {code : Nat} (h : SfConverts n r q f) (hc : code = 0x1301 ∨ code = 0x1302) (k : Nat) :
    SfConverts n r (if k = 0 then q else count code n k q) f where
  rest := by
    split
    · exact h.rest
    · rw [h.rest]
      rfl
  others m hm := by split <;> exact h.others m hm
  switches := by split <;> exact h.switches
  counts j h1 h2 := by
    split
    · exact h.counts j h1 h2
    · refine (look_alter_ne _ _ _ _ (· + k) ?_).trans (h.counts j h1 h2)
      rcases hc with rfl | rfl
      · exact h1
      · exact h2
  site := by split <;> exact h.site

theorem SfConverts.sfResult {lat : Nat} {dst : SfDst} (h : SfConverts n r q f) (mask : W32) (val : Vec) (hf : sfNoClash f r lat dst) :
    SfConverts n r (sfResult n lat dst mask val q) { f with wb := f.wb ++ [sfPending r lat dst mask val] } := by
  have hclash : ((sfAt q n).wb.any fun x => decide (x.due = q.now + lat - 1) && decide (x.dst = dst)) = false := by
    rw [h.site, h.now_eq]
    exact List.any_eq_false.mpr fun x hm => by simpa using hf x hm
  rw [Machine.sfResult, hclash, Bool.and_false, if_neg Bool.false_ne_true, h.now_eq]
  exact h.modSf _

theorem SfConverts.sfNext (h : SfConverts n r q f) (d : Nat) : SfConverts n r (sfNext n d q) { f with seq := f.seq.advance (r.now + d) } := by
  rw [Machine.sfNext, h.now_eq]
  exact h.modSf _

end

/-- An instruction on a free unit ends as what it does once it holds the unit, and the next word follows. -/
theorem sfUnit_has {op busy n : Nat} {u : SfUnit} {w : W64} {s r : State} {f y : Sf} {g : State → State} (hi : sfCanIssue n w s) (hr : sfAtIssue n s = r)
    (hx : sfAt r n = f) (ho : wOp w = op) (ht : f.till u ≤ r.now)
    (hg : ∀ q, SfConverts n r q (f.hold u (r.now + busy)) → SfConverts n r (g q) y) :
    ∃ t, sfUnit op u busy n w g s = .next t ∧ SfConverts n r t { y with seq := y.seq.advance (r.now + 1) } := by
  have h0 : SfConverts n r (excUp n 3 1 r) f := ⟨rfl, fun _ _ => rfl, sameSwitches_excUp n 3 1 r, fun _ _ _ => rfl, hx⟩
  rw [sfUnit, sfIssue_run hi ho, hr]
  generalize excUp n 3 1 r = q at h0 ⊢
  rw [h0.now_eq, h0.site, if_neg (Nat.not_lt.mpr ht)]
  exact ⟨_, rfl, (hg _ (h0.modSf _)).sfNext 1⟩

section
variable {n : Nat} {w : W64} {s r : State} {f : Sf} (hi : sfCanIssue n w s) (hr : sfAtIssue n s = r) (hx : sfAt r n = f)
include hi hr hx

theorem execCvt_ends {a : Vec} {fr fo rm : Nat} {ov : Bool} {nums : List Num} {c : List Nat × Nat × W32} (ho : wOp w = 0x28) (ha : sfV f (sfVA w) = a)
    (hfr : bits w.toNat 3 0 = fr) (hfo : bits w.toNat 7 4 = fo) (hrm : bits w.toNat 9 8 = rm) (hov : bit w.toNat 10 = ov)
    (hn : (List.range 32).map (fun i => decodeNum fr (elemAt (fmtWidth fr) a.data.toNat i)) = nums)
    (hc : (if cvtWidens fr fo then convertAll fo 0 true nums f.sr else convertAll fo rm ov nums f.sr) = c)
    (hfree : f.vecTill ≤ r.now) (h11 : fr ≤ 11) (h11' : fo ≤ 11) (h3 : rm ≠ 3) (hcl : sfNoClash f r 4 (.v (sfVD w))) :
    ∃ t, execCvt n w s = .next t ∧ SfConverts n r t (sfAfter { f with rm := rm, ov := ov, sr := c.2.2 } r .vec 1
      [sfPending r 4 (.v (sfVD w)) (sfP f (sfPM w)) { data := BitVec.ofNat 1024 (packCodes (fmtWidth fo) c.1), sour := a.sour }]) := by
  simp only [execCvt, hfr, hfo, hrm, hov, Nat.not_lt.mpr h11, Nat.not_lt.mpr h11', h3, or_self, if_false]
  refine sfUnit_has (y := { f with
    vecTill := r.now + 1, rm := rm, ov := ov, sr := c.2.2
    wb := f.wb ++ [sfPending r 4 (.v (sfVD w)) (sfP f (sfPM w)) { data := BitVec.ofNat 1024 (packCodes (fmtWidth fo) c.1), sour := a.sour }] })
    hi hr hx ho hfree fun q hq => ?_
  change SfConverts n r q { f with vecTill := r.now + 1 } at hq
  have hav : sfV { f with vecTill := r.now + 1, rm := rm, ov := ov } (sfVA w) = a := ha
  have hmask : sfMask { f with vecTill := r.now + 1, rm := rm, ov := ov } w = sfP f (sfPM w) := rfl
  simp only [hq.site, hav, hmask, hn, hc]
  exact (((hq.modSf fun _ => { f with vecTill := r.now + 1, rm := rm, ov := ov, sr := c.2.2 }).count (.inl rfl) c.2.1).count (.inr rfl) _).sfResult _ _ hcl

theorem execCvtmx_ends {a : Vec} {fo : Nat} {b : Nat × List Nat × Nat × W32} (ho : wOp w = 0x29) (ha : sfV f (sfVA w) = a) (hfo : bits w.toNat 3 0 = fo)
    (hb : toBlock fo f.rm f.ov ((lanesOf a.data).map ofF32) f.sr = b) (hfree : f.vecTill ≤ r.now) (hmx : isMxOut fo = true)
    (hcl : sfNoClash f r 6 (.v (sfVD w))) (hcl' : sfNoClash f r 6 (.s (sfVC w % 16))) :
    ∃ t, execCvtmx n w s = .next t ∧ SfConverts n r t (sfAfter { f with sr := b.2.2.2 } r .vec 2
      [sfPending r 6 (.v (sfVD w)) (sfP f (sfPM w)) { data := BitVec.ofNat 1024 (packCodes (fmtWidth fo) b.2.1), sour := anySour a.sour },
        sfPending r 6 (.s (sfVC w % 16)) (BitVec.allOnes 32) (vecOf (BitVec.ofNat 32 b.1))]) := by
  simp only [execCvtmx, hfo, hmx, Bool.not_true, Bool.false_eq_true, if_false]
  refine sfUnit_has (y := { f with
    vecTill := r.now + 2, sr := b.2.2.2
    wb := f.wb ++ [sfPending r 6 (.v (sfVD w)) (sfP f (sfPM w)) { data := BitVec.ofNat 1024 (packCodes (fmtWidth fo) b.2.1), sour := anySour a.sour },
      sfPending r 6 (.s (sfVC w % 16)) (BitVec.allOnes 32) (vecOf (BitVec.ofNat 32 b.1))] }) hi hr hx ho hfree fun q hq => ?_
  change SfConverts n r q { f with vecTill := r.now + 2 } at hq
  have hav : sfV { f with vecTill := r.now + 2 } (sfVA w) = a := ha
  have hmask : sfMask { f with vecTill := r.now + 2 } w = sfP f (sfPM w) := rfl
  simp only [hq.site, hav, hmask, hb]
  have h1 := (((hq.modSf fun f => { f with sr := b.2.2.2 }).count (.inl rfl) b.2.2.1).count (.inr rfl)
    ((List.zip (lanesOf a.data) b.2.1).filter fun x => !f32Nan x.1 && (decodeNum fo x.2).isNan).length).sfResult (sfP f (sfPM w))
      { data := BitVec.ofNat 1024 (packCodes (fmtWidth fo) b.2.1), sour := anySour a.sour } hcl
  have h2 := h1.sfResult (lat := 6) (dst := .s (sfVC w % 16)) (BitVec.allOnes 32) (vecOf (BitVec.ofNat 32 b.1)) fun x hx hd => by
    rcases List.mem_append.mp hx with hx | hx
    · exact hcl' x hx hd
    · rw [List.mem_singleton.mp hx]
      exact SfDst.noConfusion
  simp only [List.append_assoc, List.cons_append, List.nil_append] at h2
  exact h2

end

end Sys2Proof.Machine

open Sys2Proof Sys2Proof.Machine

/-- Settles O10: a compare is an instruction with one result, its flags; SEL merges lanes; a conversion also moves the registers of R51 and R54 and two counts. -/
theorem sfComparesAndConversions : Obligations.SfComparesAndConversions := by
  refine ⟨?compares, ?conversions⟩
  case compares =>
    intro n w s hi r f a b flags hfree
    refine ⟨fun ho ht hc => sfCompare_ends hi rfl rfl fCmp ho hfree ht hc, fun ho ht hc => sfCompare_ends hi rfl rfl iCmp ho hfree ht hc,
      fun ho hc => ⟨_, fun i hi => laneOf_ofLanes _ hi, execSel_ends hi rfl rfl ho hfree hc⟩⟩
  case conversions =>
    intro n w s hi r f a fr fo rm ov nums c b hfree
    refine ⟨fun ho h11 h11' h3 hc => ?_, fun ho hmx hc hc' => ?_⟩
    · obtain ⟨t, ht, hrest, hothers, hsw, hcounts, hsite⟩ := execCvt_ends hi rfl rfl ho rfl rfl rfl rfl rfl rfl rfl hfree h11 h11' h3 hc
      exact ⟨t, ht, hrest, hothers, hsw, hcounts, hsite⟩
    · obtain ⟨t, ht, hrest, hothers, hsw, hcounts, hsite⟩ := execCvtmx_ends hi rfl rfl ho rfl rfl rfl hfree hmx hc hc'
      exact ⟨t, ht, hrest, hothers, hsw, hcounts, hsite⟩
end

section
/-! SU words (R178, R180, R185): O13. -/
namespace Sys2Proof.Machine

/-! ## What an SU word may change -/

/-- From r to q only SU n and exact-mode counts differ: the SU is u. -/
def SuHas (n : Nat) (r q : State) (u : Su) : Prop := onlySu n r q ∧ suAt q n = u

section
variable {n : Nat} {r q : State} {u : Su}

theorem SuHas.issued (n : Nat) (r : State) : SuHas n r (excUp n 5 1 r) (suAt r n) := ⟨⟨rfl, fun _ _ => rfl, sameSwitches_excUp n 5 1 r⟩, rfl⟩

theorem SuHas.now_eq (h : SuHas n r q u) : q.now = r.now := by rw [h.1.1]

theorem SuHas.mm_eq (h : SuHas n r q u) : q.mm = r.mm := by rw [h.1.1]

theorem SuHas.modSu (h : SuHas n r q u) (g : Su → Su) : SuHas n r (modSu n g q) (g u) := by
  obtain ⟨⟨hr, hsu, hsw⟩, hx⟩ := h
  refine ⟨⟨?_, fun m hm => (suAt_modSu_ne _ _ _ _ hm).trans (hsu m hm), hsw⟩, ?_⟩
  · rw [hr]
    rfl
  · rw [suAt_modSu_self, hx]

/-- The next word follows at ACLK t (R154). -/
theorem SuHas.suNextAt (h : SuHas n r q u) (t : Nat) : SuHas n r (suNextAt n t q) { u with seq := u.seq.advance t } := h.modSu _

/-- The next word follows in the next ACLK (R154). -/
theorem SuHas.suNext (h : SuHas n r q u) : SuHas n r (suNext n q) { u with seq := u.seq.advance (r.now + 1) } := by
  rw [Machine.suNext, h.now_eq]
  exact h.suNextAt _

/-- A timed action that is not late joins a queue of less than eight (R178, R180). -/
theorem SuHas.suTimed (h : SuHas n r q u) {late : Bool} (hl : late = false) (h8 : u.timers.length < 8) (t : Nat) (a : Timed) (g : Su → Su) :
    SuHas n r (suTimed n t late a (Machine.modSu n g) q)
      { g { u with timers := u.timers ++ [(t, a)] } with seq := (g { u with timers := u.timers ++ [(t, a)] }).seq.advance (r.now + 1) } := by
  rw [Machine.suTimed, hl, if_neg Bool.false_ne_true, h.2, if_neg (Nat.not_le.mpr h8)]
  exact ((h.modSu _).modSu g).suNext

/-- A condition joins less than eight (R178). -/
theorem SuHas.suCond (h : SuHas n r q u) (h8 : u.conds.length < 8) (c : Cond) :
    SuHas n r (suCond n c q) { u with seq := u.seq.advance (r.now + 1), conds := u.conds ++ [c] } := by
  rw [Machine.suCond, h.2, if_neg (Nat.not_le.mpr h8)]
  exact (h.modSu fun u => { u with conds := u.conds ++ [c] }).suNext

end

/-- A word that stands at the program address ends as what it does from its issue on. -/
theorem suEnds_issue {op n : Nat} {w : W64} {s r : State} {f : State → State} {u y : Su} (hi : suCanIssue n w s) (hr : suAtIssue n s = r)
    (hx : suAt r n = u) (ho : wOp w = op) (hf : ∀ q, SuHas n r q u → SuHas n r (f q) y) : suEnds (suIssue op n w f s) n r y := by
  subst hr hx
  exact ⟨_, suIssue_run hi ho, hf _ (.issued ..)⟩

/-! ## The words -/

section
variable {n : Nat} {w : W64} {s r : State} {u : Su} (hi : suCanIssue n w s) (hr : suAtIssue n s = r) (hx : suAt r n = u)
include hi hr hx

theorem execWt_ends {e : Nat} (ho : wOp w = 0x03) (he : suEffective u w = e) (ht : r.now + 1 ≤ e) :
    suEnds (execWt n w s) n r { u with seq := u.seq.advance e } := by
  refine suEnds_issue hi hr hx ho fun q hq => ?_
  simp only [hq.2, hq.now_eq, he, if_neg (Nat.not_lt.mpr ht)]
  exact hq.suNextAt e

theorem execSuLoop_ends (ho : wOp w = 0x04) (hl : u.seq.loops.length < 4) :
    suEnds (execSuLoop n w s) n r { u with seq := { u.seq with
      loops := { start := u.seq.pc + 1, last := bits w.toNat 8 0, left := bits w.toNat 24 9 + 1 } :: u.seq.loops
      pc := u.seq.pc + 1
      next := r.now + 1 } } := by
  refine suEnds_issue hi hr hx ho fun q hq => ?_
  simp only [hq.2, hq.now_eq, enter_open hl]
  exact hq.modSu _

theorem execSuBr_ends (ho : wOp w = 0x05) : suEnds (execSuBr n w s) n r { u with seq := { u.seq with pc := bits w.toNat 8 0, next := r.now + 2 } } := by
  refine suEnds_issue hi hr hx ho fun q hq => ?_
  rw [hq.now_eq]
  exact hq.modSu _

theorem execSuWait_ends (ho : wOp w = 0x02) : suEnds (execSuWait n w s) n r { u with seq := u.seq.advance (r.now + bits w.toNat 31 0 + 1) } := by
  refine suEnds_issue hi hr hx ho fun q hq => ?_
  rw [hq.now_eq]
  exact hq.suNextAt _

/-- A word that changes registers of its SU goes on to the next word in the next ACLK. -/
theorem suEnds_write {op : Nat} (ho : wOp w = op) (g : Su → Su) :
    suEnds (suIssue op n w (fun s => suNext n (modSu n g s)) s) n r { g u with seq := (g u).seq.advance (r.now + 1) } :=
  suEnds_issue hi hr hx ho fun _ hq => (hq.modSu g).suNext

theorem execGo_ends {e : Nat} (ho : wOp w = 0x10) (h8 : u.timers.length < 8) (he : suEffective u w = e) (ht : r.now + 2 ≤ e) :
    suEnds (execGo n w s) n r { u with
      seq := u.seq.advance (r.now + 1), timers := u.timers ++ [(e - 2, .go (bits w.toNat 15 0) (bits w.toNat 25 16))], goMask := u.goMask ||| bits w.toNat 15 0
      starts := u.starts ++ ((List.range 16).filter (bit (bits w.toNat 15 0))).map fun p => (e, siteOf (heddleOf n) p, bits w.toNat 25 16, u.seq.pc) } := by
  refine suEnds_issue hi hr hx ho fun q hq => ?_
  simp only [hq.2, hq.now_eq, he]
  exact hq.suTimed (decide_eq_false (Nat.not_lt.mpr ht)) h8 _ _ _

theorem execPage_ends {t : Nat} (ho : wOp w = 0x11) (h8 : u.timers.length < 8) (he : suEffective u w / 8 * 8 = t) (ht : r.now + 2 ≤ t) :
    suEnds (execPage n w s) n r { u with seq := u.seq.advance (r.now + 1), timers := u.timers ++ [(t, .page (bits w.toNat 5 0))] } := by
  refine suEnds_issue hi hr hx ho fun q hq => ?_
  simp only [hq.2, hq.now_eq, he, suTimed, decide_eq_false (Nat.not_lt.mpr ht), Bool.false_eq_true, if_false, if_neg (Nat.not_le.mpr h8), id]
  exact (hq.modSu fun u => { u with timers := u.timers ++ [(t, .page (bits w.toNat 5 0))] }).suNext

theorem execFell_ends {e : Nat} (ho : wOp w = 0x12) (h8 : u.timers.length < 8) (he : suEffective u w = e) (ht : r.now + 2 ≤ e) (hp : bits w.toNat 6 4 ≤ 4) :
    suEnds (execFell n w s) n r { u with
      seq := u.seq.advance (r.now + 1), timers := u.timers ++ [(e - 2, .fell (bits w.toNat 7 7) (bits w.toNat 6 4) (bits w.toNat 3 0))]
      tokOut := addToken e (tokenWord (bits w.toNat 3 0) (bits w.toNat 6 4) 2 (bits w.toNat 7 7)) u.tokOut } := by
  refine suEnds_issue hi hr hx ho fun q hq => ?_
  simp only [hq.2, hq.now_eq, he, if_neg (Nat.not_lt.mpr hp)]
  exact hq.suTimed (decide_eq_false (Nat.not_lt.mpr ht)) h8 _ _ _

theorem execQwait_ends (ho : wOp w = 0x19) (h8 : u.conds.length < 8) (h64 : bits w.toNat 6 0 ≤ 64) :
    suEnds (execQwait n w s) n r { u with
      seq := u.seq.advance (r.now + 1), conds := u.conds ++ [.queue (bits w.toNat 25 16) (bit w.toNat 9) (bit w.toNat 8) (bits w.toNat 6 0)] } := by
  refine suEnds_issue hi hr hx ho fun q hq => ?_
  rw [if_neg (Nat.not_lt.mpr h64)]
  exact hq.suCond h8 _

/-- A record of a creel's occupancy joins a sample buffer that is not full (R185). -/
theorem execSamp_ends {v : Nat} (ho : wOp w = 0x28) (hk : bits w.toNat 9 8 = 0) (hp : kindOfPos (bits w.toNat 3 0) = .mm) (h256 : u.samples.length < 256)
    (hv : crOcc (creelAt (mmAt r (siteOf (heddleOf n) (bits w.toNat 3 0))) (bits w.toNat 7 4)) = v) :
    suEnds (execSamp n w s) n r { u with
      seq := u.seq.advance (r.now + 1)
      samples := u.samples ++ [BitVec.ofNat 64 ((r.now / 8 - suBase u) % 2 ^ 24 * 2 ^ 40 + bits w.toNat 3 0 * 2 ^ 36 + bits w.toNat 7 4 * 2 ^ 32 + min v 65535)] } := by
  refine suEnds_issue hi hr hx ho fun q hq => ?_
  have hval : sampValue n 0 (bits w.toNat 7 4) (bits w.toNat 3 0) q = some (v, q) := by
    rw [sampValue, if_pos rfl, if_pos hp, mmAt, hq.mm_eq, ← mmAt, hv]
  simp only [hk, hval, hq.2, State.pick, hq.now_eq, if_neg (Nat.not_le.mpr h256), zero_mul, add_zero, -Nat.reducePow]
  exact (hq.modSu fun u' => { u' with samples := u'.samples ++
    [BitVec.ofNat 64 ((r.now / 8 - suBase u) % 2 ^ 24 * 2 ^ 40 + bits w.toNat 3 0 * 2 ^ 36 + bits w.toNat 7 4 * 2 ^ 32 + min v 65535)] }).suNext

end

end Sys2Proof.Machine

open Sys2Proof Sys2Proof.Machine

/-- Settles O13: each word is one change of its SU after the issue. -/
theorem suWordsComplete : Obligations.SuWordsComplete := by
  refine ⟨fun n w s hi => ⟨?nop, ?wait, ?wt, ?loop, ?br, ?sett, ?addt⟩, ?timed, fun n w s hi => ⟨?cwait, ?qwait, ?samp⟩⟩
  case nop => exact fun ho => suEnds_issue hi rfl rfl ho fun _ hq => hq.suNext
  case wait => exact fun ho => execSuWait_ends hi rfl rfl ho
  case wt => exact fun ho ht => execWt_ends hi rfl rfl ho rfl ht
  case loop => exact fun ho hl => execSuLoop_ends hi rfl rfl ho hl
  case br => exact fun ho => execSuBr_ends hi rfl rfl ho
  case sett => exact fun ho => suEnds_write hi rfl rfl ho fun u => { u with tOff := bits w.toNat 31 0, tAc := bits w.toNat 34 32 }
  case addt => exact fun ho => suEnds_write hi rfl rfl ho fun u => { u with tOff := (u.tOff + bits w.toNat 31 0) % 2 ^ 32 }
  case timed =>
    intro n w s hi r u q e mask addr h8
    exact ⟨fun ho ht => execGo_ends hi rfl rfl ho h8 rfl ht, fun ho ht => execPage_ends hi rfl rfl ho h8 rfl ht,
      fun ho ht hp => execFell_ends hi rfl rfl ho h8 rfl ht hp⟩
  case cwait => exact fun ho h8 => suEnds_issue hi rfl rfl ho fun _ hq => hq.suCond h8 _
  case qwait => exact fun ho h8 h64 => execQwait_ends hi rfl rfl ho h8 h64
  case samp => exact fun ho hk hp h256 => execSamp_ends hi rfl rfl ho hk hp h256 rfl
end

section
/-! Site starts and halts (R95, R108, R155, R180): O16. -/
namespace Sys2Proof.Machine

theorem atSite_fitted {n : Nat} {f : State → State} {s : State} (h : sitePresent s.member n = true) : atSite n f s = .next (f s) := by
  rw [atSite, h, guardUnit_true]

/-! ## A start (R155, R180) -/

/-- A start leaves the start net of its SU. -/
def startTaken (su : Nat) (x : Nat × Nat × Nat × Nat) (s : State) : State := modSu su (fun u => { u with starts := u.starts.erase x }) s

theorem startTaken_frame (su : Nat) (x : Nat × Nat × Nat × Nat) (s : State) : startTaken su x s = { s with su := (startTaken su x s).su } := rfl

theorem starts_startTaken (su : Nat) (x : Nat × Nat × Nat × Nat) (s : State) : (∀ m, m ≠ su → suAt (startTaken su x s) m = suAt s m)
    ∧ suAt (startTaken su x s) su = { suAt s su with starts := (suAt s su).starts.erase x } :=
  ⟨fun _ hm => suAt_modSu_ne _ _ _ _ hm, suAt_modSu_self ..⟩

theorem siteRuns_startTaken (su n : Nat) (x : Nat × Nat × Nat × Nat) (s : State) : siteRuns (startTaken su x s) n = siteRuns s n := by
  rw [startTaken_frame]
  rfl

theorem stepBase_startTaken (su n : Nat) (x : Nat × Nat × Nat × Nat) (s : State) :
    stepBase (startTaken su x s) (areaOfSite (startTaken su x s) n) = stepBase s (areaOfSite s n) := by
  rw [startTaken_frame]
  rfl

/-- The sequencer has executed END at least one ACLK before e. -/
theorem Seq.free_holds {q : Seq} {e : Nat} (hr : q.running = false) (hn : q.next ≤ e) : q.holds e = false := by
  rw [Seq.holds, hr, decide_eq_false (Nat.not_lt.mpr hn), Bool.or_self]

/-- What a start that has left the start net does at its site: the program of an MX or SF site begins where the site executed END before. -/
def startReached (n su e addr pa : Nat) (s : State) : State :=
  if !siteRuns s n then s
  else
    let p := stepBase s (areaOfSite s n) / 8
    match kindOf n with
    | .mx => if (mxAt s n).seq.holds e then reportProg 0x4402 su pa s else modMx n (fun m => { m with seq := m.seq.begin addr e p }) s
    | .sf => if (sfAt s n).seq.holds e then reportProg 0x4402 su pa s else modSf n (fun m => { m with seq := m.seq.begin addr e p }) s
    | _ => s

theorem execSiteStart_reached {n e addr pa su : Nat} {s : State} (hp : sitePresent s.member n = true) (hsu : suOf (heddleOf n) = su)
    (hfirst : firstStart n (suAt s su).starts = some (e, n, addr, pa)) (he : e = s.now) (hdue : suStartDue su e s = s) :
    execSiteStart n s = .next (startReached n su e addr pa (startTaken su (e, n, addr, pa) s)) := by
  rw [execSiteStart, atSite_fitted hp]
  simp only [hsu, hfirst, hdue, runTo_past (Nat.le_of_eq he)]
  rfl

theorem startReached_mx {n su e addr pa : Nat} {s : State} (hruns : siteRuns s n = true) (hk : kindOf n = .mx) (hrun : (mxAt s n).seq.running = false)
    (hnext : (mxAt s n).seq.next ≤ e) :
    startReached n su e addr pa s = modMx n (fun m => { m with seq := m.seq.begin addr e (stepBase s (areaOfSite s n) / 8) }) s := by
  simp only [startReached, hruns, hk, Seq.free_holds hrun hnext, Bool.not_true, Bool.false_eq_true, if_false]

theorem startReached_sf {n su e addr pa : Nat} {s : State} (hruns : siteRuns s n = true) (hk : kindOf n = .sf) (hrun : (sfAt s n).seq.running = false)
    (hnext : (sfAt s n).seq.next ≤ e) :
    startReached n su e addr pa s = modSf n (fun m => { m with seq := m.seq.begin addr e (stepBase s (areaOfSite s n) / 8) }) s := by
  simp only [startReached, hruns, hk, Seq.free_holds hrun hnext, Bool.not_true, Bool.false_eq_true, if_false]

/-! ## A halt (R95, R108) -/

/-- A halted switch: its stores of flits and tokens are empty. -/
def switchHalted (n : Nat) (s : State) : State := modSw n (fun w => { w.cleared with stopped := true }) s

/-- The sequencer of a site stops, and what the site has in progress is gone. -/
def seqHalted (n : Nat) (s : State) : State :=
  let s := if kindOf n = .mx then
    modMx n (fun m => { m with seq := { m.seq with stopped := true }, macs := [], macsDone := [], spmac := none, outs := [], acts := [] }) s else s
  let s := if kindOf n = .sf then modSf n (fun f => { f with seq := { f.seq with stopped := true }, wb := [], acts := [] }) s else s
  if kindOf n = .su then modSu n (fun u => { u with seq := { u.seq with stopped := true }, timers := [], tokOut := [], starts := [] }) s else s

/-- A link is cleared with its site, with the stack or the port beyond it. -/
def linkHalted (t : Nat) (s : State) : State :=
  let s := modAtt t (fun q => { q with inS := [], outS := [], taken := [] }) s
  if t < 32 then modStack t Stack.cleared s else if t < 64 then modSht (t - 32) Shuttle.cleared s else s

/-- The links of a site are cleared with it. -/
def linksHalted (n : Nat) (s : State) : State := each ((List.range 4).filterMap fun p => (attOf s.member n p).map Prod.fst) linkHalted s

theorem execHaltReach_halts {n a : Nat} {s : State} (hp : sitePresent s.member n = true) (ha : areaOfSite s n = some a) (hh : (areaAt s a).halted = true)
    (hn : s.now % 8 = 0) : execHaltReach n s = .next (linksHalted n (seqHalted n (switchHalted n s))) := by
  have hpick : toPick ((s.now + 7) / 8) s = s := runTo_past (by omega)
  rw [execHaltReach, atSite_fitted hp]
  simp only [ha, hh, if_true, hpick]
  rfl

theorem seqHalted_frame (n : Nat) (s : State) :
    seqHalted n s = { s with mx := (seqHalted n s).mx, sf := (seqHalted n s).sf, su := (seqHalted n s).su } := by
  unfold seqHalted
  cases kindOf n <;> rfl

theorem seqHalted_ne {n m : Nat} (s : State) (h : m ≠ n) : mxAt (seqHalted n s) m = mxAt s m ∧ sfAt (seqHalted n s) m = sfAt s m := by
  unfold seqHalted
  cases kindOf n with
  | mx => exact ⟨mxAt_modMx_ne _ _ _ _ h, rfl⟩
  | sf => exact ⟨rfl, sfAt_modSf_ne _ _ _ _ h⟩
  | _ => exact ⟨rfl, rfl⟩

theorem mxAt_seqHalted {n : Nat} (s : State) (hk : kindOf n = .mx) : mxAt (seqHalted n s) n =
    { mxAt s n with seq := { (mxAt s n).seq with stopped := true }, macs := [], macsDone := [], spmac := none, outs := [], acts := [] } := by
  unfold seqHalted
  rw [hk]
  exact mxAt_modMx_self ..

theorem sfAt_seqHalted {n : Nat} (s : State) (hk : kindOf n = .sf) : sfAt (seqHalted n s) n =
    { sfAt s n with seq := { (sfAt s n).seq with stopped := true }, wb := [], acts := [] } := by
  unfold seqHalted
  rw [hk]
  exact sfAt_modSf_self ..

theorem linkHalted_frame (t : Nat) (s : State) :
    linkHalted t s = { s with att := (linkHalted t s).att, stks := (linkHalted t s).stks, sht := (linkHalted t s).sht } := by
  unfold linkHalted
  dsimp only
  split
  · rfl
  · split <;> rfl

theorem each_linkHalted_frame (l : List Nat) (s : State) :
    each l linkHalted s = { s with att := (each l linkHalted s).att, stks := (each l linkHalted s).stks, sht := (each l linkHalted s).sht } := by
  induction l generalizing s with
  | nil => rfl
  | cons t l ih =>
    have e : each (t :: l) linkHalted s = each l linkHalted (linkHalted t s) := rfl
    rw [e, ih, linkHalted_frame t s]

/-- A halted site: its switch is empty and stopped, its sequencer stopped; nothing else of the sites changes. -/
theorem haltedSite {n : Nat} {s q r t : State} (hq : switchHalted n s = q) (hr : seqHalted n q = r) (ht : linksHalted n r = t) :
    t.now = s.now ∧ (∀ m, m ≠ n → swAt t m = swAt s m ∧ mxAt t m = mxAt s m ∧ sfAt t m = sfAt s m)
    ∧ swAt t n = { (swAt s n).cleared with stopped := true } ∧ t.mm = s.mm
    ∧ (kindOf n = .mx → mxAt t n =
        { mxAt s n with seq := { (mxAt s n).seq with stopped := true }, macs := [], macsDone := [], spmac := none, outs := [], acts := [] })
    ∧ (kindOf n = .sf → sfAt t n = { sfAt s n with seq := { (sfAt s n).seq with stopped := true }, wb := [], acts := [] }) := by
  have hqs : q = { s with sw := q.sw } := hq ▸ rfl
  have hsw : ∀ m, m ≠ n → swAt q m = swAt s m := fun m hm => hq ▸ swAt_modSw_ne _ _ _ _ hm
  have hswn : swAt q n = { (swAt s n).cleared with stopped := true } := hq ▸ swAt_modSw_self ..
  have hmx : ∀ m, mxAt q m = mxAt s m := fun m => by rw [hqs]; rfl
  have hsf : ∀ m, sfAt q m = sfAt s m := fun m => by rw [hqs]; rfl
  have hrq : r = { q with mx := r.mx, sf := r.sf, su := r.su } := hr ▸ seqHalted_frame n q
  have hrne := fun m (hm : m ≠ n) => hr ▸ seqHalted_ne q hm
  have hrmx := fun hk => hr ▸ mxAt_seqHalted (n := n) q hk
  have hrsf := fun hk => hr ▸ sfAt_seqHalted (n := n) q hk
  have htr : t = { r with att := t.att, stks := t.stks, sht := t.sht } := ht ▸ each_linkHalted_frame _ r
  have swr : ∀ m, swAt t m = swAt q m := fun m => by rw [htr, hrq]; rfl
  have mxr : ∀ m, mxAt t m = mxAt r m := fun m => by rw [htr]; rfl
  have sfr : ∀ m, sfAt t m = sfAt r m := fun m => by rw [htr]; rfl
  refine ⟨by rw [htr, hrq, hqs], fun m hm => ⟨(swr m).trans (hsw m hm), ?_, ?_⟩, (swr n).trans hswn, by rw [htr, hrq, hqs], fun hk => ?_, fun hk => ?_⟩
  · exact (mxr m).trans ((hrne m hm).1.trans (hmx m))
  · exact (sfr m).trans ((hrne m hm).2.trans (hsf m))
  · rw [mxr, hrmx hk, hmx]
  · rw [sfr, hrsf hk, hsf]

end Sys2Proof.Machine

open Sys2Proof Sys2Proof.Machine

/-- Settles O16: a start is a change of its SU and of the site's sequencer, a halt of the site, its switch and its links. -/
theorem sitesStartAndStop : Obligations.SitesStartAndStop := by
  refine ⟨?start, ?halt⟩
  case start =>
    intro n e addr pa s hp hruns su hfirst he hdue begun gone
    have hex := execSiteStart_reached hp rfl hfirst he hdue
    have hruns' := (siteRuns_startTaken su n (e, n, addr, pa) s).trans hruns
    have hbase := stepBase_startTaken su n (e, n, addr, pa) s
    refine ⟨fun hk hrun hnext => ?_, fun hk hrun hnext => ?_⟩
    · rw [startReached_mx hruns' hk hrun hnext, hbase] at hex
      exact ⟨_, hex, rfl, starts_startTaken su (e, n, addr, pa) s, fun m hm => mxAt_modMx_ne _ _ _ _ hm, mxAt_modMx_self ..⟩
    · rw [startReached_sf hruns' hk hrun hnext, hbase] at hex
      exact ⟨_, hex, rfl, starts_startTaken su (e, n, addr, pa) s, fun m hm => sfAt_modSf_ne _ _ _ _ hm, sfAt_modSf_self ..⟩
  case halt =>
    intro n a s hp ha hh hn
    obtain ⟨hnow, hne, hsw, hmm, hmx, hsf⟩ := haltedSite (n := n) (s := s) rfl rfl rfl
    refine ⟨_, execHaltReach_halts hp ha hh hn, hnow, hne, ?_, ?_, ?_, ?_, ?_, ?_, hmm, hmx, hsf⟩
    · rw [hsw]
    · rw [hsw, Switch.cleared]
    · rw [hsw, Switch.cleared]
    · rw [hsw, Switch.cleared]
    · rw [hsw, Switch.cleared]
    · rw [siteRuns, hsw, Bool.not_true, Bool.and_false]
end

section
/-! The START of a root (R182): O14 fails, for a root's down flit carries the STATUS of every child the SU lists, heard in this barrier or not. -/
namespace Sys2Proof.Machine

/-- A root without children that may give START 2 in pick 1. -/
def rootJoin : Join :=
  { len := 0, d := 1, bpg := 0, nch := 0, root := true, dev := false, endPick := 1, opens := 0, ready := none, start := none, startSeen := 0 }

/-- A child that the SU last heard in pick 0, before the barrier of `rootJoin`, with a STATUS that is not 0. -/
def unheardKid : Kid := { heddle := 1, far := false, ready := 0, status := 1, seen := 0 }

/-- Pick 1 of a job whose root SU stands in `rootJoin` and still lists `unheardKid`. -/
def rootState : State :=
  { State.reset with
    now := 8
    areas := [(0, { Area.reset with
      defined := true, word := 0xF0C0, owner := Tri.of 0
      job := { (default : Job) with state := jRunning, steps := [{ (default : Step) with len := 0, v := 1 }], nextK := 1 } })]
    su := [(1026, { (default : Su) with seq := { (default : Seq) with running := true }, join := some rootJoin, kids := [unheardKid] })] }

/-- The SU stands at the first pick boundary from its end pick on. -/
theorem toPick_rootState : toPick (max ((rootState.now + 7) / 8) (rootJoin.endPick + (aregAt rootState 0).hold)) rootState = rootState :=
  runTo_past (by decide +kernel)

/-- It may become ready there. -/
theorem rootState_ready :
    sitePresent rootState.member 1026 = true ∧ kindOf 1026 = .su ∧ siteRuns rootState 1026 = true ∧ areaOfSite rootState 1026 = some 0
    ∧ (suAt rootState 1026).join = some rootJoin ∧ ((suAt rootState 1026).conds.all (condHolds rootState (heddleOf 1026))) = true
    ∧ commitReady rootState 0 0 = true := by decide +kernel

/-- It may give START there. -/
theorem rootState_starts :
    kidsReady (heard rootJoin (suAt rootState 1026)) rootJoin rootState.pick = true ∧ rootState.pwr.clamp = none
    ∧ joinSwaps rootState 0 0 (suAt rootState 1026).seq.bank = false := by decide +kernel

/-- What the SU sends down. -/
def sentDown (o : Out) : Option (List Nat) :=
  match o with
  | .next t => (suAt t 1026).downOut
  | _ => none

/-- The STATUS sent down is that of the child not heard in this barrier. -/
theorem sentDown_rootState : sentDown (exec (.joinReady 1026) rootState) = some [0, 1, 2] := by decide +kernel

end Sys2Proof.Machine

open Sys2Proof Sys2Proof.Machine

/-- Refutes O14: in `rootState` the root sends down the STATUS 1 of a child it last heard in pick 0, while its barrier runs from pick 1 on: the children
heard in the barrier have STATUS 0. -/
theorem not_joinsAgreeOnAStart : ¬ Obligations.JoinsAgreeOnAStart := by
  intro h
  obtain ⟨hp, hk, hruns, harea, hjoin, hconds, hcommit⟩ := rootState_ready
  obtain ⟨hkids, hclamp, hswap⟩ := rootState_starts
  have hready := h.2 1026 0 rootState rootJoin hp hk hruns harea hjoin rfl
  simp only [toPick_rootState] at hready
  obtain ⟨t, ht, -, -, -, -, -, -, hdown, -⟩ := (hready hconds hcommit).2 rfl rfl rfl Nat.one_pos hkids hclamp harea hswap
  have hsent := sentDown_rootState
  rw [ht, sentDown, hdown] at hsent
  exact absurd hsent (by decide +kernel)
end

section
/-! Schedule defects and join slack (R94, R98, R108, R153, R164, R172): O20. -/
namespace Sys2Proof.Machine

/-! ## What falls due at sites leaves the join slack of a switch (R94) -/

/-- The store of switches is canonical, and switch n has the inputs I. -/
def HasInputs (n : Nat) (I : Tab Inp) (s : State) : Prop := TabWf default s.sw = true ∧ (swAt s n).inp = I

namespace HasInputs
section
variable {n : Nat} {I : Tab Inp} {t : State}

theorem frame {r : State} (h : HasInputs n I t) (hs : r.sw = t.sw := by rfl) : HasInputs n I r := by
  rw [HasInputs, swAt, hs]
  exact h

theorem linkNoted {r : State} (h : HasInputs n I t) (hr : LinkNoted t r) : HasInputs n I r := h.frame (by rw [hr])

theorem report {code : Nat} {r : Report349} (h : HasInputs n I t) (hc : codeClass code = 3 ∨ codeClass code = 4 := by decide) :
    HasInputs n I (report code r t) := h.linkNoted (noted_report r t hc).linkNoted

theorem reportProg {code m p : Nat} (h : HasInputs n I t) (hc : codeClass code = 3 ∨ codeClass code = 4 := by decide) :
    HasInputs n I (reportProg code m p t) := h.report hc

theorem modSw {m : Nat} {g : Switch → Switch} (h : HasInputs n I t) (hg : ∀ w, (g w).inp = w.inp := by exact fun _ => rfl) : HasInputs n I (modSw m g t) := by
  refine ⟨tabWf_alter _ _ _ _ h.1, ?_⟩
  by_cases e : n = m
  · subst e
    rw [swAt_modSw_self, hg]
    exact h.2
  · rw [swAt_modSw_ne _ _ _ _ e]
    exact h.2

theorem modMx {m : Nat} {g : Mx → Mx} (h : HasInputs n I t) : HasInputs n I (modMx m g t) := h.frame
theorem modSf {m : Nat} {g : Sf → Sf} (h : HasInputs n I t) : HasInputs n I (modSf m g t) := h.frame
theorem modSu {m : Nat} {g : Su → Su} (h : HasInputs n I t) : HasInputs n I (modSu m g t) := h.frame
theorem modCurStep {a : Nat} {g : Step → Step} (h : HasInputs n I t) : HasInputs n I (modCurStep a g t) := h.frame

theorem ite {c : Prop} [Decidable c] {a b : State} (ha : HasInputs n I a) (hb : HasInputs n I b) : HasInputs n I (if c then a else b) := by
  split
  · exact ha
  · exact hb

theorem onlyIf {c : Bool} {f : State → State} (h : HasInputs n I t) (hf : ∀ q, HasInputs n I q → HasInputs n I (f q)) : HasInputs n I (onlyIf c f t) :=
  ite (hf _ h) h

theorem each {α : Type} {l : List α} {f : α → State → State} (h : HasInputs n I t) (hf : ∀ x q, HasInputs n I q → HasInputs n I (f x q)) :
    HasInputs n I (each l f t) := by
  induction l generalizing t with
  | nil => exact h
  | cons x l ih => exact ih (hf x t h)

theorem dated {u : Nat} {f : State → State} (h : HasInputs n I t) (hf : ∀ q, HasInputs n I q → HasInputs n I (f q)) : HasInputs n I (dated u f t) :=
  (hf { t with now := u } h.frame).frame

theorem rampCheck {t' h' : Nat} (h : HasInputs n I t) : HasInputs n I (rampCheck t' h' t) := by
  unfold Machine.rampCheck
  split
  · exact h
  · refine ite h ?_
    dsimp only
    split
    · exact h
    · exact h.modCurStep.dated fun _ hq => hq.report

theorem spClock {u m : Nat} (h : HasInputs n I t) : HasInputs n I (spClock u m t) := by
  unfold Machine.spClock
  split
  · exact h
  · refine ite h (onlyIf ?_ fun q hq => hq.modMx.reportProg)
    exact ite (modSw (onlyIf (onlyIf h fun _ hq => hq.reportProg) fun _ hq => hq.modMx)) h

theorem mxClock {u m : Nat} (h : HasInputs n I t) : HasInputs n I (mxClock u m t) :=
  ite h (modMx (each (each h.modMx.spClock fun _ _ hq => hq.reportProg) fun _ _ hq => hq.modMx.linkNoted (linkNoted_mxRaise ..)))

theorem sfClock {u m : Nat} (h : HasInputs n I t) : HasInputs n I (sfClock u m t) := by
  unfold Machine.sfClock
  refine ite h (each (each h.modSf fun _ _ hq => hq.reportProg) fun d q hq => ite hq.modSf ?_)
  have h3 : HasInputs n I (excUp m 4 1 (Machine.modSf m (fun f => d.act.perform f) q)) := hq.modSf.modSw
  dsimp only
  split
  · exact ite h3 (h3.linkNoted (linkNoted_noteSour ..))
  · exact h3

theorem siteClock {k u : Nat} (h : HasInputs n I t) : HasInputs n I (siteClock k u t) := by
  induction k generalizing t with
  | zero => exact h
  | succ k ih =>
    unfold Machine.siteClock
    split
    · exact h
    · exact ih (h.dated fun q hq => (hq.each fun _ _ hr => hr.mxClock).each fun _ _ hr => hr.sfClock)

theorem suClock {t' m : Nat} (h : HasInputs n I t) : HasInputs n I (suClock t' m t) := ite h h.modSu.modSw

end
end HasInputs

/-- When an ACLK ends, every marked head of join slack is popped, and flits beyond 16 are discarded (R94). -/
theorem inputs_settle {n t : Nat} {s : State} (hs : TabWf default s.sw = true) :
    (swAt (settle t s) n).inp = mapTab default (fun _ i => i.settled) (swAt s n).inp := by
  unfold settle
  extract_lets +onlyGivenNames tooFull s1 s2
  have h1 : HasInputs n (swAt s n).inp s1 :=
    ((HasInputs.each ⟨hs, rfl⟩ fun _ _ hq => hq.rampCheck).siteClock).each fun _ _ hq => hq.suClock
  have hreports : LinkNoted s2 (each tooFull (fun x s =>
      report 0x4510 { siteReport s x.1 with portio := x.2, page := (look default (swAt s x.1).outp x.2).page } s) s2) :=
    linkNoted_each (fun _ q => (noted_report _ q (.inr rfl)).linkNoted) s2
  have hlook : swAt s2 n = settleSwitch (swAt s1 n) := look_mapTab (f := fun _ w => settleSwitch w) h1.1 rfl
  rw [hreports.swAt_eq, hlook, settleSwitch, h1.2]

theorem input_runTo_next {n i : Nat} {s : State} (hs : TabWf default s.sw = true) (hi : TabWf default (swAt s n).inp = true) :
    look default (swAt (runTo (s.now + 1) s) n).inp i = (look default (swAt s n).inp i).settled := by
  have hrun : swAt (runTo (s.now + 1) s) n = swAt (settle (s.now + 1) s) n := by
    rw [runTo, if_neg (Nat.not_succ_le_self _)]
    rfl
  rw [hrun, inputs_settle hs]
  exact look_mapTab (f := fun _ i => i.settled) hi rfl

/-! ## A schedule defect halts the area (R108) -/

/-- Area a of a running job is halted; the others stay. -/
theorem report_defect_halts {code a : Nat} {r : Report349} {s : State} (hc : codeClass code = 4) (ha : r.area = some a) (hj : jobRuns s a = true) :
    (areaAt (report code r s) a).halted = true ∧ (areaAt (report code r s) a).job.state = jHalted
    ∧ ∀ b, b ≠ a → areaAt (report code r s) b = areaAt s b := by
  have hjob : jobRuns (reportNoted code r s) a = true := by
    rw [jobRuns, areaAt_reportNoted]
    exact hj
  rw [report_halts hc, haltArea, ha]
  simp only [hjob, if_true]
  refine ⟨?_, ?_, fun b hb => ?_⟩
  · rw [areaAt_modArea_self]
  · rw [areaAt_modArea_self]
  · rw [areaAt_modArea_ne _ _ _ _ hb, areaAt_reportNoted]

theorem reportPort_halts {code n p a : Nat} {out : Bool} {s : State} (hc : codeClass code = 4) (ha : areaOfSite s n = some a) (hj : jobRuns s a = true) :
    (areaAt (reportPort code n p out s) a).halted = true ∧ (areaAt (reportPort code n p out s) a).job.state = jHalted
    ∧ ∀ b, b ≠ a → areaAt (reportPort code n p out s) b = areaAt s b := report_defect_halts hc ha hj

theorem counted_reportPort_defect {code : Nat} (n p : Nat) (out : Bool) (s : State) (hc : codeClass code = 4) (hcode : 0x1903 < code) :
    counted (reportPort code n p out s) code n = counted s code n + 1 := counted_report_halts _ s hc hcode

/-! ## MX sequencer defects (R153, R164) -/

/-- What a word that raises MX_SEQ leaves: the area halted, the code counted, the next word in the next ACLK. -/
def MxDefect (n a : Nat) (r t : State) : Prop :=
  (areaAt t a).halted = true ∧ (areaAt t a).job.state = jHalted ∧ counted t 0x4116 n = counted r 0x4116 n + 1
  ∧ mxAt t n = { mxAt r n with seq := (mxAt r n).seq.advance (r.now + 1) } ∧ ∀ b, b ≠ a → areaAt t b = areaAt r b

theorem mxDefect_mxFault {n a : Nat} {r q : State} {x : Mx} (h : MxHas n r q x) (hx : mxAt r n = x) (ha : areaOfSite r n = some a) (hj : jobRuns r a = true) :
    MxDefect n a r (mxNext n 1 (mxFault 0x4116 n q)) := by
  have harea : areaOfSite q n = some a := by
    rw [h.1.1]
    exact ha
  have hareas : ∀ b, areaAt q b = areaAt r b := fun b => by
    rw [h.1.1]
    rfl
  have hcounts : counted q 0x4116 n = counted r 0x4116 n := by
    rw [h.1.1]
    rfl
  have hjob : jobRuns q a = true := by
    rw [jobRuns, hareas]
    exact hj
  obtain ⟨hhalt, hstate, hother⟩ := report_defect_halts (code := 0x4116) (r := { siteReport q n with paddr := (mxAt q n).seq.pc }) rfl harea hjob
  have hrep := reported_mxFault 0x4116 n q rfl
  refine ⟨hhalt, hstate, ?_, ?_, fun b hb => (hother b hb).trans (hareas b)⟩
  · exact (counted_reportProg (code := 0x4116) n _ q rfl (by decide)).trans (congrArg (· + 1) hcounts)
  · rw [mxNext, mxAt_modMx_self, hrep.mxAt_eq, hrep.now_eq, h.2, h.now_eq, hx]

/-- As `mxEnds_issue`, for a word that ends in a defect. -/
theorem mxIssue_defect {op n a : Nat} {w : W64} {s r : State} {x : Mx} {f : State → State} (hi : mxCanIssue n w s) (hr : mxAtIssue n s = r)
    (hx : mxAt r n = x) (ho : wOp w = op) (ha : areaOfSite r n = some a) (hj : jobRuns r a = true)
    (hf : ∀ q, mxAt q n = x → q.now = r.now → f q = mxNext n 1 (mxFault 0x4116 n q)) : ∃ t, mxIssue op n w f s = .next t ∧ MxDefect n a r t := by
  subst hr
  have hq : MxHas n (mxAtIssue n s) (excUp n 5 1 (mxAtIssue n s)) x := hx ▸ .issued n _
  refine ⟨_, mxIssue_run hi ho, ?_⟩
  rw [hf _ hq.2 hq.now_eq]
  exact mxDefect_mxFault hq hx ha hj

section
variable {n a : Nat} {w : W64} {s r : State} {x : Mx} (hi : mxCanIssue n w s) (hr : mxAtIssue n s = r) (hx : mxAt r n = x)
  (ha : areaOfSite r n = some a) (hj : jobRuns r a = true)
include hi hr hx ha hj

theorem execMxWpk_late (ho : wOp w = 0x03) (he : 8 * (x.seq.step + bits w.toNat 31 0) + bits w.toNat 34 32 < r.now + 1) :
    ∃ t, execMxWpk n w s = .next t ∧ MxDefect n a r t :=
  mxIssue_defect hi hr hx ho ha hj fun q hq hn => by simp only [hq, hn, if_pos he]

theorem execMxLoop_full (ho : wOp w = 0x04) (hl : 4 ≤ x.seq.loops.length) : ∃ t, execMxLoop n w s = .next t ∧ MxDefect n a r t :=
  mxIssue_defect hi hr hx ho ha hj fun q hq _ => by simp only [hq, enter_full hl]

end

/-! ## The end of a token window (R98) -/

/-- The tokens of an output latch are dropped. -/
def latchDropped (n p : Nat) (s : State) : State := modSw n (fun w => { w with outp := alter default w.outp p fun o => { o with latch := [] } }) s

theorem modSw_congr {n : Nat} {g g' : Switch → Switch} {s : State} (h : g (swAt s n) = g' (swAt s n)) : modSw n g s = modSw n g' s :=
  congrArg (fun w => { s with sw := put default s.sw n w }) h

/-- The end of the token window at ACLK e of an output port: what stood in its latch too long is dropped, each token with a report. -/
def windowEnded (n p e : Nat) (o : OutPort) (s : State) : State :=
  let must := fun x : TokWait => if p = 4 then x.needDlv else x.needFell
  let late := (o.waits.filter fun x => decide (x.te + 2 ≤ e) && must x).length + (o.latch.filter fun t => decide (t.arr + 2 ≤ e)).length
  let s := modSw n (fun w => { w with outp := alter default w.outp p (fun o =>
    { o with waits := o.waits.filter (fun x => decide (e < x.te + 2)), latch := o.latch.filter (fun t => decide (e < t.arr + 2)) }) }) s
  each (List.range late) (fun _ s => reportPort 0x4512 n p true s) s

/-- A token left alone in a latch is dropped and raises WRP_TOKEN. -/
theorem windowEnded_token {n p e : Nat} {s : State} {k : Tok} {o : OutPort} (ho : look default (swAt s n).outp p = o) (hw : o.waits = [])
    (hl : o.latch = [k]) (he : k.arr + 2 = e) : windowEnded n p e o s = reportPort 0x4512 n p true (latchDropped n p s) := by
  have hdrop : modSw n (fun w => { w with outp := alter default w.outp p (fun o =>
      { o with waits := o.waits.filter (fun x => decide (e < x.te + 2)), latch := o.latch.filter (fun t => decide (e < t.arr + 2)) }) }) s
      = latchDropped n p s := by
    refine modSw_congr ?_
    simp only [alter, ho, hw, hl, he, List.filter_nil, List.filter_cons, Nat.lt_irrefl, decide_false, Bool.false_eq_true, if_false]
  have hlate : (o.latch.filter fun t => decide (t.arr + 2 ≤ e)).length = 1 := by
    simp only [hl, he, List.filter_cons, Nat.le_refl, decide_true, if_true, List.filter_nil, List.length_cons, List.length_nil]
  rw [windowEnded, hdrop, hw, hlate]
  rfl

theorem execTokenWindowExpiry_drops {n p : Nat} {s : State} {k : Tok} {o : OutPort} (hp : sitePresent s.member n = true) (ho : look default (swAt s n).outp p = o)
    (hw : o.waits = []) (hl : o.latch = [k]) (hk : k.arr + 2 ≤ s.now) :
    execTokenWindowExpiry n p s = .next (reportPort 0x4512 n p true (latchDropped n p s)) := by
  have hends : o.waits.map (fun x => x.te + 2) ++ o.latch.map (fun t => t.arr + 2) = [k.arr + 2] := by
    rw [hw, hl]
    rfl
  rw [execTokenWindowExpiry, atSite_fitted hp]
  dsimp only
  rw [ho, hends]
  change Host.Outcome.next (windowEnded n p (k.arr + 2) o (runTo (k.arr + 2) s)) = _
  rw [runTo_past hk, windowEnded_token ho hw hl rfl]

/-- What the end of a token window leaves. -/
theorem latchDropped_reported {n p a : Nat} {s t : State} (ha : areaOfSite s n = some a) (hj : jobRuns s a = true)
    (ht : reportPort 0x4512 n p true (latchDropped n p s) = t) :
    look default (swAt t n).outp p = { look default (swAt s n).outp p with latch := [] } ∧ (∀ m, m ≠ n → swAt t m = swAt s m)
    ∧ counted t 0x4512 n = counted s 0x4512 n + 1 ∧ (areaAt t a).halted = true ∧ (areaAt t a).job.state = jHalted
    ∧ (∀ b, b ≠ a → areaAt t b = areaAt s b) ∧ t.mm = s.mm ∧ t.mx = s.mx ∧ t.sf = s.sf := by
  have hd : look default (swAt (latchDropped n p s) n).outp p = { look default (swAt s n).outp p with latch := [] } := by
    rw [latchDropped, swAt_modSw_self]
    exact look_alter_self default (swAt s n).outp p fun o => { o with latch := [] }
  have hne : ∀ m, m ≠ n → swAt (latchDropped n p s) m = swAt s m := fun m hm => swAt_modSw_ne _ _ _ _ hm
  have hframe : latchDropped n p s = { s with sw := (latchDropped n p s).sw } := rfl
  generalize latchDropped n p s = q at ht hd hne hframe
  have harea : areaOfSite q n = some a := by
    rw [hframe]
    exact ha
  have hareas : ∀ b, areaAt q b = areaAt s b := fun b => by
    rw [hframe]
    rfl
  have hjob : jobRuns q a = true := by
    rw [jobRuns, hareas]
    exact hj
  have hcounts : counted q 0x4512 n = counted s 0x4512 n := by
    rw [hframe]
    rfl
  have hrep : Reported q t := ht ▸ reported_reportPort n p true q rfl
  obtain ⟨hhalt, hstate, hother⟩ := reportPort_halts (code := 0x4512) (n := n) (p := p) (out := true) rfl harea hjob
  rw [ht] at hhalt hstate hother
  have hcount := counted_reportPort_defect (code := 0x4512) n p true q rfl (by decide)
  rw [ht, hcounts] at hcount
  refine ⟨by rw [hrep.swAt_eq, hd], fun m hm => (hrep.swAt_eq m).trans (hne m hm), hcount, hhalt, hstate, fun b hb => (hother b hb).trans (hareas b), ?_, ?_, ?_⟩
  · rw [hrep.mm_eq, hframe]
  · rw [hrep, hframe]
  · rw [hrep.sf_eq, hframe]

end Sys2Proof.Machine

open Sys2Proof Sys2Proof.Machine

/-- Settles O20: each defect is a report that halts its area, and the end of an ACLK settles the inputs of every switch. -/
theorem scheduleDefectsHaltTheArea : Obligations.ScheduleDefectsHaltTheArea := by
  refine ⟨?mx, ?slack, ?token⟩
  case mx =>
    intro n w s a hi r x ha hj halts
    have hhalts : ∀ o : Out, (∃ t, o = .next t ∧ MxDefect n a r t) → halts o := fun o h => h
    exact ⟨fun ho he => hhalts _ (execMxWpk_late hi rfl rfl ha hj ho he), fun ho hl => hhalts _ (execMxLoop_full hi rfl rfl ha hj ho hl)⟩
  case slack =>
    intro s n i hs hi q
    rw [input_runTo_next hs hi]
    exact ⟨rfl, List.length_take_le ..⟩
  case token =>
    intro n p a s k hp o hw hl hk ha hj
    exact ⟨_, execTokenWindowExpiry_drops hp rfl hw hl hk, latchDropped_reported ha hj rfl⟩
end

section
/-! SUPPORT. What the passing of time leaves of areas and SUs (R29), and the first unit of a canonical store that passes a test. -/
namespace Sys2Proof.Machine

/-! ## Time passes -/

/-- From s to t time passes: an area may be halted and its steps marked, an SU's timers may leave its queue and its STATUS take bits; the rest of
both stands. -/
structure Aged (s t : State) : Prop where
  wf : TabWf Area.reset s.areas = true → TabWf Area.reset t.areas = true
  area : ∀ b, areaAt t b = { areaAt s b with
    halted := (areaAt t b).halted
    job := { (areaAt s b).job with state := (areaAt t b).job.state, steps := (areaAt t b).job.steps, haltSeq := (areaAt t b).job.haltSeq } }
  su : ∀ n, suAt t n = { suAt s n with timers := (suAt t n).timers, status := (suAt t n).status }

namespace Aged

theorem refl (s : State) : Aged s s := ⟨id, fun _ => rfl, fun _ => rfl⟩

theorem trans {r s t : State} (h : Aged r s) (k : Aged s t) : Aged r t where
  wf := k.wf ∘ h.wf
  area b := by
    have e := k.area b
    rw [h.area b] at e
    exact e
  su n := by
    have e := k.su n
    rw [h.su n] at e
    exact e

section
variable {s t : State}

theorem frame {r : State} (h : Aged s t) (ha : r.areas = t.areas := by rfl) (hs : r.su = t.su := by rfl) : Aged s r := by
  refine h.trans ⟨fun hw => ha ▸ hw, fun b => ?_, fun n => ?_⟩
  · rw [show areaAt r b = areaAt t b by rw [areaAt, ha, areaAt]]
  · rw [show suAt r n = suAt t n by rw [suAt, hs, suAt]]

theorem modArea {a : Nat} {g : Area → Area} (h : Aged s t)
    (hg : ∀ x : Area, g x = { x with halted := (g x).halted, job := { x.job with state := (g x).job.state, steps := (g x).job.steps, haltSeq := (g x).job.haltSeq } } := by
      exact fun _ => rfl) : Aged s (modArea a g t) := by
  refine h.trans ⟨fun hw => tabWf_alter _ _ _ _ hw, fun b => ?_, fun _ => rfl⟩
  by_cases e : b = a
  · subst e
    rw [areaAt_modArea_self]
    exact hg _
  · rw [areaAt_modArea_ne _ _ _ _ e]

theorem modSu {m : Nat} {g : Su → Su} (h : Aged s t) (hg : ∀ u, g u = { u with timers := (g u).timers, status := (g u).status } := by exact fun _ => rfl) :
    Aged s (modSu m g t) := by
  refine h.trans ⟨id, fun _ => rfl, fun n => ?_⟩
  by_cases e : n = m
  · subst e
    rw [suAt_modSu_self]
    exact hg _
  · rw [suAt_modSu_ne _ _ _ _ e]

theorem modMx {m : Nat} {g : Mx → Mx} (h : Aged s t) : Aged s (modMx m g t) := h.frame
theorem modSf {m : Nat} {g : Sf → Sf} (h : Aged s t) : Aged s (modSf m g t) := h.frame
theorem modMm {m : Nat} {g : Mm → Mm} (h : Aged s t) : Aged s (modMm m g t) := h.frame
theorem modSw {m : Nat} {g : Switch → Switch} (h : Aged s t) : Aged s (modSw m g t) := h.frame
theorem modCurStep {a : Nat} {g : Step → Step} (h : Aged s t) : Aged s (modCurStep a g t) := h.modArea

theorem ite {c : Prop} [Decidable c] {a b : State} (ha : Aged s a) (hb : Aged s b) : Aged s (if c then a else b) := by
  split
  · exact ha
  · exact hb

theorem onlyIf {c : Bool} {f : State → State} (h : Aged s t) (hf : ∀ q, Aged s q → Aged s (f q)) : Aged s (onlyIf c f t) := ite (hf _ h) h

theorem each {α : Type} {l : List α} {f : α → State → State} (h : Aged s t) (hf : ∀ x q, Aged s q → Aged s (f x q)) : Aged s (each l f t) := by
  induction l generalizing t with
  | nil => exact h
  | cons x l ih => exact ih (hf x t h)

theorem dated {u : Nat} {f : State → State} (h : Aged s t) (hf : ∀ q, Aged s q → Aged s (f q)) : Aged s (dated u f t) :=
  (hf { t with now := u } h.frame).frame

theorem failStep {code : Nat} {r : Report349} (h : Aged s t) : Aged s (failStep code r t) := by
  unfold Machine.failStep
  split
  · exact h
  · refine ite h ?_
    dsimp only
    split
    · exact h.modCurStep.modSu
    · exact h.modCurStep

theorem haltArea {r : Report349} (h : Aged s t) : Aged s (haltArea r t) := by
  unfold Machine.haltArea
  split
  · exact h
  · exact ite h.modArea h

theorem report {code : Nat} {r : Report349} (h : Aged s t) (hc : codeClass code < 5 := by decide) : Aged s (report code r t) := by
  have h5 : ¬ (codeClass code = 5 ∨ codeClass code = 6) := by omega
  have h7 : ¬ codeClass code = 7 := by omega
  have hn : Aged s (reportNoted code r t) := h.frame (by rw [reportNoted_frame]) (by rw [reportNoted_frame])
  unfold Machine.report
  dsimp only
  rw [if_neg h5, if_neg h7]
  exact ite hn.failStep (ite hn.haltArea hn)

theorem reportProg {code m p : Nat} (h : Aged s t) (hc : codeClass code < 5 := by decide) : Aged s (reportProg code m p t) := h.report hc

theorem noteSour {a h' : Option Nat} (h : Aged s t) : Aged s (noteSour a h' t) := by
  unfold Machine.noteSour
  split
  · exact h
  · dsimp only
    split
    · exact h.modCurStep.modSu
    · exact h.modCurStep

theorem watchTrigger {code m : Nat} {u : WatchUnit} (h : Aged s t) : Aged s (watchTrigger code m u t) := by
  unfold Machine.watchTrigger Machine.watchAdd
  exact ite (ite h.frame (ite h.frame h.frame)) h.frame

theorem rampCheck {t' h' : Nat} (h : Aged s t) : Aged s (rampCheck t' h' t) := by
  unfold Machine.rampCheck
  split
  · exact h
  · refine ite h ?_
    dsimp only
    split
    · exact h
    · exact h.modCurStep.dated fun _ hq => hq.report

theorem spClock {u m : Nat} (h : Aged s t) : Aged s (spClock u m t) := by
  unfold Machine.spClock
  split
  · exact h
  · refine ite h (onlyIf ?_ fun q hq => hq.modMx.reportProg)
    exact ite (modSw (onlyIf (onlyIf h fun _ hq => hq.reportProg) fun _ hq => hq.modMx)) h

theorem mxRaise {m : Nat} {d : MxDue} (h : Aged s t) : Aged s (mxRaise m d t) := by
  unfold Machine.mxRaise
  split
  · exact ite h h.noteSour
  · exact h.reportProg.watchTrigger
  · exact h

theorem mxClock {u m : Nat} (h : Aged s t) : Aged s (mxClock u m t) :=
  ite h (modMx (each (each h.modMx.spClock fun _ _ hq => hq.reportProg) fun _ _ hq => hq.modMx.mxRaise))

theorem sfClock {u m : Nat} (h : Aged s t) : Aged s (sfClock u m t) := by
  unfold Machine.sfClock
  refine ite h (each (each h.modSf fun _ _ hq => hq.reportProg) fun d q hq => ite hq.modSf ?_)
  have h3 : Aged s (excUp m 4 1 (Machine.modSf m (fun f => d.act.perform f) q)) := hq.modSf.modSw
  dsimp only
  split
  · exact ite h3 h3.noteSour
  · exact h3

theorem siteClock {k u : Nat} (h : Aged s t) : Aged s (siteClock k u t) := by
  induction k generalizing t with
  | zero => exact h
  | succ k ih =>
    unfold Machine.siteClock
    split
    · exact h
    · exact ih (h.dated fun q hq => (hq.each fun _ _ hr => hr.mxClock).each fun _ _ hr => hr.sfClock)

theorem suClock {t' m : Nat} (h : Aged s t) : Aged s (suClock t' m t) := ite h h.modSu.modSw

theorem settle {t' : Nat} (h : Aged s t) : Aged s (settle t' t) := by
  unfold Machine.settle
  extract_lets +onlyGivenNames tooFull s1
  have h1 : Aged s s1 := ((h.each fun _ _ hq => hq.rampCheck).siteClock).each fun _ _ hq => hq.suClock
  exact each h1.frame fun x q hq => hq.report

theorem runTo {t' : Nat} (h : Aged s t) : Aged s (runTo t' t) := by
  unfold Machine.runTo
  exact ite h h.settle.frame

theorem toPick {p : Nat} (h : Aged s t) : Aged s (toPick p t) := h.runTo

theorem reportPort {code n p : Nat} {out : Bool} (h : Aged s t) (hc : codeClass code < 5 := by decide) : Aged s (reportPort code n p out t) := h.report hc

/-- A page selection raises schedule defects at most. -/
theorem selectPage {h' pg : Nat} (h : Aged s t) : Aged s (selectPage h' pg t) := by
  unfold Machine.selectPage
  refine each h fun n q hq => ite hq ?_
  dsimp only
  exact each (ite hq.modSw.modMm hq.modSw) fun _ _ hr => hr.reportPort

end

theorem word {s t : State} (h : Aged s t) (b : Nat) : (areaAt t b).word = (areaAt s b).word := by rw [h.area b]
theorem defined {s t : State} (h : Aged s t) (b : Nat) : (areaAt t b).defined = (areaAt s b).defined := by rw [h.area b]

end Aged

/-! ## The first unit that passes a test -/

section
variable {α β : Type}

theorem find?_fst_eq_findSome? (p : α → Bool) (t : Tab α) :
    (t.find? fun kv => p kv.2).map Prod.fst = t.findSome? fun kv => if p kv.2 then some kv.1 else none := by
  induction t with
  | nil => rfl
  | cons x t ih =>
    rw [List.find?_cons, List.findSome?_cons]
    cases p x.2 with
    | true => rfl
    | false => exact ih

theorem findSome?_filter_keys (p : Nat → Bool) (f : α → Option β) (t : Tab α) :
    (t.filter fun kv => p kv.1).findSome? (fun kv => f kv.2) = t.findSome? fun kv => if p kv.1 then f kv.2 else none := by
  induction t with
  | nil => rfl
  | cons x t ih =>
    rw [List.filter_cons, List.findSome?_cons]
    cases hp : p x.1 with
    | true => rw [if_pos rfl, if_pos rfl, List.findSome?_cons, ih]
    | false => rw [if_neg Bool.false_ne_true, if_neg Bool.false_ne_true, ih]

variable [DecidableEq α] {d : α} {f : Nat → α → Option β}

/-- In a canonical store the first unit that gives a value is that of the least key that gives one. -/
theorem findSome?_eq_some_iff {t : Tab α} (hw : TabWf d t = true) (hd : ∀ k, f k d = none) (y : β) :
    (t.findSome? fun kv => f kv.1 kv.2) = some y ↔ ∃ k, f k (look d t k) = some y ∧ ∀ j, j < k → f j (look d t j) = none := by
  induction t with
  | nil => simp only [List.findSome?_nil, look, hd, reduceCtorEq, false_and, exists_false]
  | cons x t ih =>
    obtain ⟨a, v⟩ := x
    simp only [TabWf, Bool.and_eq_true, List.all_eq_true, decide_eq_true_eq] at hw
    obtain ⟨⟨-, hlt⟩, hw⟩ := hw
    have here : look d ((a, v) :: t) a = v := if_pos rfl
    have below : ∀ j, j < a → f j (look d ((a, v) :: t) j) = none := fun j hj => by
      rw [look, if_neg (Nat.ne_of_lt hj), look_eq_default_of_lt fun y hy => lt_trans hj (hlt y hy), hd]
    rw [List.findSome?_cons]
    cases hv : f a v with
    | some b =>
      constructor
      · rintro ⟨⟩
        exact ⟨a, by rw [here, hv], below⟩
      · rintro ⟨k, hk, hb⟩
        rcases lt_trichotomy a k with h | rfl | h
        · have e := hb a h
          rw [here, hv] at e
          exact nomatch e
        · rwa [here, hv] at hk
        · exact nomatch (below k h).symm.trans hk
    | none =>
      have same : ∀ j, f j (look d ((a, v) :: t) j) = f j (look d t j) := fun j => by
        by_cases e : j = a
        · rw [e, here, hv, look_eq_default_of_lt hlt, hd]
        · rw [look, if_neg e]
      simp only [same]
      exact ih hw

/-- Canonical stores whose units give alike have the same first unit that gives. -/
theorem findSome?_congr {t u : Tab α} (ht : TabWf d t = true) (hu : TabWf d u = true) (hd : ∀ k, f k d = none)
    (h : ∀ k, f k (look d t k) = f k (look d u k)) : (t.findSome? fun kv => f kv.1 kv.2) = u.findSome? fun kv => f kv.1 kv.2 := by
  refine Option.ext fun y => ?_
  rw [findSome?_eq_some_iff ht hd, findSome?_eq_some_iff hu hd]
  simp only [h]

omit [DecidableEq α] in
/-- A unit that is not the default is listed. -/
theorem mem_of_look_ne {t : Tab α} {k : Nat} (h : look d t k ≠ d) : (k, look d t k) ∈ t := by
  induction t with
  | nil => exact absurd rfl h
  | cons x t ih =>
    by_cases e : k = x.1
    · rw [look, if_pos e, e]
      exact .head _
    · rw [look, if_neg e] at h ⊢
      exact .tail _ (ih h)

end

/-- Areas that stay defined with their words keep their regions. -/
theorem areaOfRegion_congr {s t : State} (hs : TabWf Area.reset s.areas = true) (ht : TabWf Area.reset t.areas = true)
    (h : ∀ b, (areaAt t b).defined = (areaAt s b).defined ∧ (areaAt t b).word = (areaAt s b).word) (r : Nat) : areaOfRegion t r = areaOfRegion s r := by
  rw [areaOfRegion, areaOfRegion, find?_fst_eq_findSome? (fun x : Area => x.defined && wCovers x.word r),
    find?_fst_eq_findSome? (fun x : Area => x.defined && wCovers x.word r)]
  refine findSome?_congr (d := Area.reset) (f := fun k x => if (x.defined && wCovers x.word r) = true then some k else none) ht hs (fun _ => rfl) fun k => ?_
  obtain ⟨hd, hw⟩ := h k
  rw [show look Area.reset t.areas k = areaAt t k from rfl, show look Area.reset s.areas k = areaAt s k from rfl, hd, hw]

/-- A change of an area that leaves it defined with its word leaves every region its area. -/
theorem areaOfSite_modArea {s : State} {a : Nat} {g : Area → Area} (hs : TabWf Area.reset s.areas = true)
    (hg : ∀ x, (g x).defined = x.defined ∧ (g x).word = x.word) (n : Nat) : areaOfSite (modArea a g s) n = areaOfSite s n := by
  refine areaOfRegion_congr hs (tabWf_alter _ _ _ _ hs) (fun b => ?_) _
  by_cases e : b = a
  · subst e
    rw [areaAt_modArea_self]
    exact hg _
  · rw [areaAt_modArea_ne _ _ _ _ e]
    exact ⟨rfl, rfl⟩

theorem Aged.areaOfSite {s t : State} (h : Aged s t) (hs : TabWf Area.reset s.areas = true) (n : Nat) : areaOfSite t n = areaOfSite s n :=
  areaOfRegion_congr hs (h.wf hs) (fun b => ⟨h.defined b, h.word b⟩) _

end Sys2Proof.Machine
end

section
/-! Jobs (R204, R343, R344, R439, R460): O42. -/
namespace Sys2Proof.Machine

/-! ## Stores after a change of every unit -/

/-- What holds of the default and of every changed unit holds of the units that a predicate picks. -/
theorem look_whereTab_all {α : Type} [DecidableEq α] {d : α} {t : Tab α} {k : Nat} {p : Nat → Bool} {f : α → α} {P : α → Prop} (hp : p k = true)
    (hd : P d) (hf : ∀ v, P (f v)) : P (look d (whereTab d p f t) k) := by
  unfold whereTab
  induction t with
  | nil => exact hd
  | cons x t ih =>
    obtain ⟨j, v⟩ := x
    rw [look_mapTab_cons]
    by_cases e : k = j ∧ (if p j = true then f v else v) ≠ d
    · rw [if_pos e, ← e.1, if_pos hp]
      exact hf v
    · rw [if_neg e]
      exact ih

/-- A change that is the same made twice, made at every SU of a list. -/
theorem suAt_each_modSu {f : Su → Su} (hf : ∀ u, f (f u) = f u) (l : List Nat) (s : State) (n : Nat) :
    suAt (each l (fun m => modSu m f) s) n = if n ∈ l then f (suAt s n) else suAt s n := by
  induction l generalizing s with
  | nil => rfl
  | cons m l ih =>
    refine (ih (modSu m f s)).trans ?_
    by_cases e : n = m
    · subst e
      rw [suAt_modSu_self, hf, ite_self, if_pos List.mem_cons_self]
    · rw [suAt_modSu_ne _ _ _ _ e]
      exact if_congr (by simp [e]) rfl rfl

theorem each_modSu_frame (f : Su → Su) (l : List Nat) (s : State) :
    each l (fun m => modSu m f) s = { s with su := (each l (fun m => modSu m f) s).su } := by
  induction l generalizing s with
  | nil => rfl
  | cons m l ih => exact ih (modSu m f s)

/-! ## Job commands (R343, R344, R460) -/

section
variable {p m : Nat} {s : State}

theorem execJobStart_good (h : areaGood s p m 0x0111 12) {c : Tab Byte} (hc : (mbxAt s p m).cmd = c) :
    execJobStart p m s = .next (
      if 2 ≤ par c 8 4 then mbxDone p m mBadParam (mbxTaken p m s)
      else if (areaAt s (wArea (hdrArea c))).job.state ≠ jLoaded then mbxDone p m mNoDraft (mbxTaken p m s)
      else if par c 0 8 < s.pick + 1000 then mbxDone p m mStartLate (mbxTaken p m s)
      else if par c 8 4 = 1 ∧ !(bit (draftOf s (wArea (hdrArea c))).flags 1) then mbxDone p m mNoExpect (mbxTaken p m s)
      else mbxDone p m mOk (jobBegin (wArea (hdrArea c)) (par c 0 8) (decide (par c 8 4 = 1)) (mbxTaken p m s))) := by
  subst hc
  obtain ⟨hg, hn, ho⟩ := h
  refine (mbxRun_good hg rfl).trans (congrArg _ ?_)
  exact onArea_owned (s := mbxTaken p m s) hn ho rfl

/-- Any port may ask for the status of a job. -/
theorem onArea_any {p m a : Nat} {c : Tab Byte} {f : Nat → State → State} {s : State} (hn : areaNamed s c = true) (ha : wArea (hdrArea c) = a) :
    onArea false p m c f s = f a s := by
  subst ha
  simp only [onArea, hn, Bool.not_true, Bool.false_eq_true, if_false, Bool.false_and]

theorem execJobStatus_good (h : mbxGood s p m 0x0112 0 .area) {c : Tab Byte} (hc : (mbxAt s p m).cmd = c) (hn : areaNamed s c = true) {x : Area}
    (hx : areaAt s (wArea (hdrArea c)) = x) :
    execJobStatus p m s = .next (mbxComplete p m mOk 0
      (leBytes 1 x.job.state ++ leBytes 7 0 ++ leBytes 8 (match x.job.committed with | some k => k | none => 2 ^ 64 - 1)
        ++ leBytes 8 (look default x.drafts x.bank).id ++ leBytes 8 x.job.haltSeq) (mbxTaken p m s)) := by
  subst hc hx
  refine (mbxRun_good h rfl).trans (congrArg _ ?_)
  exact onArea_any (s := mbxTaken p m s) hn rfl

theorem execRestoreResume_good (h : areaGood s p m 0x0604 16) {c : Tab Byte} (hc : (mbxAt s p m).cmd = c) (hop : par c 0 1 = 1) (hz : par c 1 7 = 0) :
    execRestoreResume p m s = .next (
      if (areaAt s (wArea (hdrArea c))).job.ras ≠ 3 then mbxDone p m mAreaBusy (mbxTaken p m s)
      else if par c 8 8 < s.pick + 1000 then mbxDone p m mStartLate (mbxTaken p m s)
      else mbxDone p m mOk (modArea (wArea (hdrArea c)) (fun y => { y with job := { y.job with resumeP := some (par c 8 8) } }) (mbxTaken p m s))) := by
  subst hc
  obtain ⟨hg, hn, ho⟩ := h
  have hown : (par (mbxAt s p m).cmd 0 1 == 1) = true := beq_iff_eq.2 hop
  refine (if_pos hown).trans ((mbxRun_good hg rfl).trans (congrArg _ ?_))
  refine (onArea_owned (s := mbxTaken p m s) hn ho rfl).trans ?_
  exact if_neg (not_not.2 hz)

end

/-! ## A job begins (R204, R344) -/

/-- An area's registers with the counters of a job cleared. -/
def AreaRegs.jobCleared (g : AreaRegs) : AreaRegs :=
  { g with energy := 0, fbrec := 0, fbdrop := 0, resend := 0, verified := 0, bad := 0, late := 0, auditBase := (0, 0) }

/-- An MX site with the skip counts of a job cleared. -/
def Mx.jobCleared (x : Mx) : Mx := { x with skip := { x.skip with total := (0, 0, 0), steps := [] } }

section
variable (a P : Nat) (exact : Bool) (s : State)

theorem areaAt_jobBegin_self : areaAt (jobBegin a P exact s) a = { areaAt s a with
    halted := false
    job := { (default : Job) with state := jRunning, p := P, exact := exact, ras := 1, haltSeq := (areaAt s a).job.haltSeq } } :=
  areaAt_modArea_self ..

theorem aregAt_jobBegin_self : aregAt (jobBegin a P exact s) a = (aregAt s a).jobCleared :=
  aregAt_modAreg_self a AreaRegs.jobCleared s

variable {a P exact s}

theorem areaAt_jobBegin_ne {b : Nat} (h : b ≠ a) : areaAt (jobBegin a P exact s) b = areaAt s b := areaAt_modArea_ne _ _ _ _ h

theorem aregAt_jobBegin_ne {b : Nat} (h : b ≠ a) : aregAt (jobBegin a P exact s) b = aregAt s b :=
  aregAt_modAreg_ne a b AreaRegs.jobCleared s h

theorem skip_jobBegin {n : Nat} (h : wHasSite (areaAt s a).word n = true) : (mxAt (jobBegin a P exact s) n).skip.total = (0, 0, 0) :=
  look_whereTab_all (t := s.mx) (f := Mx.jobCleared) (P := fun x : Mx => x.skip.total = (0, 0, 0)) h rfl fun _ => rfl

end

/-! ## The start pick (R204) -/

/-- An SU at ACLK t, the first of its job: word 0 of bank 0, T at offset 0, nothing queued or joined. -/
def Su.begun (t : Nat) (u : Su) : Su :=
  { u.idle with
    seq := { u.seq with bank := 0, pc := 0, running := true, next := t, loops := [], stopped := false }
    tOff := 0, tAc := 0, inStep := 0, goMask := 0 }

/-- A switch at ACLK t, the first of its area's job. -/
def Switch.begun (t : Nat) (w : Switch) : Switch := { w.setPage 0 t with stopped := false }

theorem outp_begun (t : Nat) (w : Switch) : (w.begun t).outp = (w.setPage 0 t).outp := by simp only [Switch.begun]

theorem Su.begun_begun (t : Nat) (u : Su) : (u.begun t).begun t = u.begun t := rfl

/-- The ports and pull plans of an area at the start of its job. -/
def onPage0 (w : Nat) (s : State) : State :=
  { s with sw := whereTab default (fun n => wHasSite w n) (Switch.begun s.now) s.sw, mm := whereTab default (fun n => wHasSite w n) (planPaged 0 s.now) s.mm }

theorem execJobStartPick_begins {b : Nat} {s g : State} (hb : b < 16) (hr : (areaAt s b).job.state = jRunning) (hk : (areaAt s b).job.nextK = 0)
    (hc : (areaAt s b).job.committed = none) (hs : areaSus s b = []) (hg : toPick (areaAt s b).job.p s = g) :
    exec (.jobStartPick b) s = .next (each (serviceSus g b) (fun n => modSu n (Su.begun g.now)) (onPage0 (areaAt g b).word g)) := by
  subst hg
  have e : exec (.jobStartPick b) s = execJobStartPick b s := rfl
  have hno : ¬ ((areaAt s b).job.state ≠ jRunning ∨ (areaAt s b).job.nextK ≠ 0 ∨ (areaAt s b).job.committed ≠ none ∨ (!(areaSus s b).isEmpty) = true) := by
    rw [hr, hk, hc, hs]
    simp
  rw [e, execJobStartPick, atArea, decide_eq_true hb, guardUnit_true]
  dsimp only
  rw [if_neg hno]
  rfl

section
variable {w n : Nat} {s : State} (hn : wHasSite w n = true)
include hn

theorem page_onPage0 {q : Nat} (hq : q < 5) : (look default (swAt (onPage0 w s) n).outp q).page = 0 := by
  refine look_whereTab_all (t := s.sw) (f := Switch.begun s.now) (P := fun x : Switch => (look default x.outp q).page = 0) hn rfl fun v => ?_
  rw [outp_begun, outp_setPage 0 s.now v hq]

theorem plan_onPage0 : (mmAt (onPage0 w s) n).page = 0 :=
  look_whereTab_all (t := s.mm) (f := planPaged 0 s.now) (P := fun x : Mm => x.page = 0) hn rfl fun _ => rfl

end

end Sys2Proof.Machine

open Sys2Proof Sys2Proof.Machine

/-- Settles O42: JOB_START by the first of its reasons to refuse that holds, the start pick, and the answers of the other two commands. -/
theorem jobsBeginAndReport : Obligations.JobsBeginAndReport := by
  intro p m s r c a x
  refine ⟨fun h => ?start, fun h hn => ?status, fun h hop hz => ?resume, fun b hb hr hk hc hs => ?pick⟩
  case start =>
    intro P fl
    have e : exec (.jobStart p m) s = _ := execJobStart_good h rfl
    have hle : fl < 2 → ¬ 2 ≤ fl := Nat.not_le.2
    refine ⟨fun hf hl => e.trans (congrArg _ ?_), fun hf hl hP => e.trans (congrArg _ ?_), fun hf hl hP hx => e.trans (congrArg _ ?_), fun hf hl hP hx => ?_⟩
    · rw [if_neg (hle hf), if_pos hl]
      rfl
    · rw [if_neg (hle hf), if_neg (not_not.2 hl), if_pos hP]
      rfl
    · have hbit : par c 8 4 = 1 ∧ (!(bit (draftOf s a).flags 1)) = true := ⟨hf, by rw [hx]; rfl⟩
      rw [if_neg (hle (by omega)), if_neg (not_not.2 hl), if_neg (Nat.not_lt.2 hP), if_pos hbit]
      rfl
    · have hbit : ¬ (par c 8 4 = 1 ∧ (!(bit (draftOf s a).flags 1)) = true) := fun hb => by
        rw [hx hb.1] at hb
        exact Bool.noConfusion hb.2
      rw [if_neg (hle hf), if_neg (not_not.2 hl), if_neg (Nat.not_lt.2 hP), if_neg hbit] at e
      have ht := mbxComplete_frame p m mOk 0 [] (jobBegin a P (decide (fl = 1)) r)
      obtain ⟨h3, hok⟩ := mbxAt_mbxComplete (p := p) (m := m) (st := mOk) (detail := 0) (rsp := []) (s := jobBegin a P (decide (fl = 1)) r)
        (mbxAt_mbxTaken_state p m s)
      refine ⟨_, e, h3, hok, ?_⟩
      have hj : areaAt (jobBegin a P (decide (fl = 1)) r) a = _ := areaAt_jobBegin_self ..
      have hg : aregAt (jobBegin a P (decide (fl = 1)) r) a = _ := aregAt_jobBegin_self ..
      have hsk : ∀ n, wHasSite x.word n = true → (mxAt (jobBegin a P (decide (fl = 1)) r) n).skip.total = (0, 0, 0) := fun n hn => skip_jobBegin hn
      have hne : ∀ b, b ≠ a → areaAt (jobBegin a P (decide (fl = 1)) r) b = areaAt r b ∧ aregAt (jobBegin a P (decide (fl = 1)) r) b = aregAt r b :=
        fun b hb => ⟨areaAt_jobBegin_ne hb, aregAt_jobBegin_ne hb⟩
      have hrest : (jobBegin a P (decide (fl = 1)) r).now = s.now ∧ (jobBegin a P (decide (fl = 1)) r).su = s.su ∧ (jobBegin a P (decide (fl = 1)) r).sf = s.sf
          ∧ (jobBegin a P (decide (fl = 1)) r).mm = s.mm ∧ (jobBegin a P (decide (fl = 1)) r).sw = s.sw ∧ (jobBegin a P (decide (fl = 1)) r).stks = s.stks :=
        ⟨rfl, rfl, rfl, rfl, rfl, rfl⟩
      generalize jobBegin a P (decide (fl = 1)) r = q at *
      obtain ⟨hnow, hrest⟩ := hrest
      rw [mbxDone, ht]
      exact ⟨hnow, congrArg Area.job hj, congrArg AreaRegs.energy hg, congrArg AreaRegs.fbrec hg, congrArg AreaRegs.fbdrop hg, congrArg AreaRegs.resend hg,
        congrArg AreaRegs.verified hg, hsk, hne, hrest⟩
  case status =>
    exact execJobStatus_good h rfl hn rfl
  case resume =>
    have e : exec (.restoreResume p m) s = _ := execRestoreResume_good h rfl hop hz
    refine ⟨fun h3 hP => e.trans (congrArg _ ?_), fun h3 hP => e.trans (congrArg _ ?_), fun h3 => e.trans (congrArg _ ?_)⟩
    · rw [if_neg (not_not.2 h3), if_neg (Nat.not_lt.2 hP)]
      rfl
    · rw [if_neg (not_not.2 h3), if_pos hP]
      rfl
    · rw [if_pos h3]
      rfl
  case pick =>
    intro g w
    have hf := each_modSu_frame (Su.begun g.now) (serviceSus g b) (onPage0 w g)
    have hsu := suAt_each_modSu (f := Su.begun g.now) (Su.begun_begun g.now) (serviceSus g b) (onPage0 w g)
    refine ⟨_, execJobStartPick_begins hb hr hk hc hs rfl, by rw [hf]; rfl, fun n hn => ?_, fun n hn => ?_, fun n q hq hn => ?_, fun hw n hn => ?_, by rw [hf]; rfl⟩
    · rw [hsu n, if_pos hn]
      exact ⟨rfl, rfl, rfl, rfl, rfl, rfl, rfl, rfl, rfl, rfl⟩
    · rw [hsu n, if_neg hn]
      rfl
    · rw [hf]
      exact ⟨page_onPage0 hn hq, plan_onPage0 hn⟩
    · obtain ⟨-, -, -, -, -, hsw, hmm, -⟩ := hw
      rw [hf]
      exact ⟨look_whereTab_out hsw hn, look_whereTab_out hmm hn⟩
end

section
/-! Exact digests, remapping and the resume pick (R214, R215, R428, R437-R439): O45. -/
namespace Sys2Proof.Machine

/-! ## Exact digests (R214, R215) -/

/-- The digest of an SU, folded from its heddle's counts. -/
def Su.folded (d : W64) (u : Su) : Su := { u with digest := d }

/-- A change of an SU that keeps its saved JOINs leaves the class of every step. -/
theorem stepClass_modSu {s : State} {n : Nat} {g : Su → Su} (hw : TabWf default s.su = true) (hg : ∀ u, (g u).savedJoin = u.savedJoin) (a k : Nat) :
    stepClass (modSu n g s) a k = stepClass s a k := by
  have haddr : openingAddr (modSu n g s) a k = openingAddr s a k := by
    unfold openingAddr
    rw [show draftFor (modSu n g s) a k = draftFor s a k from rfl]
    refine if_congr Iff.rfl rfl (congrArg (Option.getD · 0) ?_)
    rw [findSome?_filter_keys (fun i => areaOfSite (modSu n g s) i == some a) fun u : Su => (u.savedJoin.find? fun x => x.1 == k).map fun x => x.2.1,
      findSome?_filter_keys (fun i => areaOfSite s i == some a) fun u : Su => (u.savedJoin.find? fun x => x.1 == k).map fun x => x.2.1]
    refine findSome?_congr (d := default) (f := fun i (u : Su) => if (areaOfSite s i == some a) = true then (u.savedJoin.find? fun x => x.1 == k).map fun x => x.2.1 else none)
      (tabWf_alter _ _ _ _ hw) hw (fun i => ite_self _) fun i => ?_
    have hsaved : (suAt (modSu n g s) i).savedJoin = (suAt s i).savedJoin := by
      by_cases e : i = n
      · subst e
        rw [suAt_modSu_self, hg]
      · rw [suAt_modSu_ne _ _ _ _ e]
    rw [show look default (alter default s.su n g) i = suAt (modSu n g s) i from rfl, hsaved]
    rfl
  unfold stepClass
  rw [haddr]
  rfl

/-- What the area halts with where a digest differs: one record for each of the counts l (R215). -/
def countsReported (n cls : Nat) (l : List (Nat × Nat × Nat)) (g : State) : State :=
  each (l.drop 1) (fun x => writeRecord 0x4C11 (exactReport g n cls x)) (report 0x4C11 (exactReport g n cls (l.headD (0, 0, 0))) g)

theorem execExactDigest_ended {n a cls : Nat} {s : State} {st : Step} {want got : List Nat} {d : W64} (hp : sitePresent s.member n = true) (hk : kindOf n = .su)
    (ha : areaOfSite s n = some a) (hst : curStep s a = some st) (he : st.ended = true) (hw : TabWf default s.su = true)
    (hcls : (stepClass s a st.k).getD 0 = cls) (hwant : Config.expectOf ((reportSection (draftOf s a).recs 3).getD []) (heddleOf n) cls = want)
    (hgot : heddleCounts s (heddleOf n) = got) (hd : exactDigest (heddleOf n) got = d) :
    exec (.exactDigest n) s = .next (if (areaAt s a).job.exact = false ∨ exactDigest (heddleOf n) want = d then modSu n (Su.folded d) s
      else countsReported n cls (differing want got) (modSu n (Su.folded d) s)) := by
  have e : exec (.exactDigest n) s = execExactDigest n s := rfl
  rw [e, execExactDigest, onSite_of_kind hp hk]
  simp only [ha, hst, he, hgot, hd, Bool.not_true, Bool.false_eq_true, if_false]
  have hstep : (stepClass (modSu n (Su.folded d) s) a st.k).getD 0 = cls := by rw [stepClass_modSu (g := Su.folded d) hw (fun _ => rfl), hcls]
  rw [show modSu n (fun u => { u with digest := d }) s = modSu n (Su.folded d) s from rfl, hstep,
    show areaAt (modSu n (Su.folded d) s) a = areaAt s a from rfl, show draftOf (modSu n (Su.folded d) s) a = draftOf s a from rfl, hwant]
  refine congrArg _ ?_
  cases hx : (areaAt s a).job.exact with
  | false => rfl
  | true =>
    simp only [Bool.not_true, Bool.false_eq_true, Bool.true_eq_false, if_false, false_or]
    rfl

theorem mem_differing (want got : List Nat) (i w g : Nat) :
    (i, w, g) ∈ differing want got ↔ i < got.length ∧ w = want.getD i 0 ∧ g = got.getD i 0 ∧ w ≠ g := by
  unfold differing
  rw [List.mem_filterMap]
  constructor
  · rintro ⟨j, hj, h⟩
    split at h
    · exact nomatch h
    · next hne =>
      simp only [Option.some.injEq, Prod.mk.injEq] at h
      obtain ⟨rfl, rfl, rfl⟩ := h
      exact ⟨List.mem_range.mp hj, rfl, rfl, hne⟩
  · rintro ⟨hi, rfl, rfl, hne⟩
    exact ⟨i, List.mem_range.mpr hi, if_neg hne⟩

/-- The reports of counts that differ halt the area of a running job; the SUs stay. -/
theorem countsReported_halts {n a cls : Nat} {l : List (Nat × Nat × Nat)} {g : State} (ha : areaOfSite g n = some a) (hj : jobRuns g a = true) :
    (areaAt (countsReported n cls l g) a).job.state = jHalted ∧ ∀ m, suAt (countsReported n cls l g) m = suAt g m := by
  have hr := report_defect_frame (code := 0x4C11) (exactReport g n cls (l.headD (0, 0, 0))) g rfl
  obtain ⟨-, hh, -⟩ := report_defect_halts (code := 0x4C11) (r := exactReport g n cls (l.headD (0, 0, 0))) rfl ha hj
  have hf := each_frame (l.drop 1) (fun x => writeRecord 0x4C11 (exactReport g n cls x)) (fun _ _ => writeRecord_frame ..)
    (report 0x4C11 (exactReport g n cls (l.headD (0, 0, 0))) g)
  unfold countsReported
  refine ⟨?_, fun m => ?_⟩
  · rw [hf]
    exact hh
  · rw [hf, hr]
    rfl

/-! ## The return to service (R438, R439) -/

/-- What a job spans is read of its SUs, the fence map and the areas of sites. -/
theorem spansDevices_congr {s t : State} (hs : t.su = s.su) (hf : t.fence = s.fence) (ha : ∀ n, areaOfSite t n = areaOfSite s n) (a k : Nat) :
    spansDevices t a k = spansDevices s a k := by
  simp only [spansDevices, areaSus, suAt, siteFenced, hs, hf, ha]

/-- The area returned to service at pick p, its job spanning devices or not. -/
def Area.returned (span : Bool) (p : Nat) (x : Area) : Area :=
  { x with job := { x.job with ras := if span then 3 else 1, resumeP := if span then none else some (p + 1000), named1 := [], named2 := [] } }

theorem report_returned_frame (r : Report349) (s : State) :
    report 0x1E03 r s = { s with ports := (report 0x1E03 r s).ports, counts := (report 0x1E03 r s).counts } :=
  report_frame r s fun c h _ => by rw [show codeClass 0x1E03 = 1 from rfl]; omega

theorem returnToService_frame (a : Nat) (s : State) : returnToService a s =
    { modArea a (Area.returned (spansDevices s a (areaAt s a).job.nextK) s.pick) s with
      ports := (returnToService a s).ports, counts := (returnToService a s).counts } := by
  unfold returnToService
  extract_lets +onlyGivenNames k span src q
  have hq : q = { s with ports := q.ports, counts := q.counts } := report_returned_frame ..
  rw [hq]
  rfl

/-- A job of one device resumes 1,000 picks on; one that spans devices waits for the host. -/
theorem areaAt_returnToService (a : Nat) (s : State) :
    areaAt (returnToService a s) a = (areaAt s a).returned (spansDevices s a (areaAt s a).job.nextK) s.pick := by
  rw [returnToService_frame]
  exact areaAt_modArea_self ..

/-- What an area returned to service has in RAS_AREA and as its resume pick. -/
theorem returned_job (span : Bool) (p : Nat) (x : Area) :
    if span = true then (x.returned span p).job.ras = 3 ∧ (x.returned span p).job.resumeP = none
    else (x.returned span p).job.ras = 1 ∧ (x.returned span p).job.resumeP = some (p + 1000) := by
  cases span <;> exact ⟨rfl, rfl⟩

/-! ## Units watched (R444) -/

/-- Is a unit on the watch list? -/
def Watched (u : WatchUnit) (s : State) : Prop := ∃ e ∈ s.ras.watch, e.u = u

/-- Of the state only the watch list, what stands beside it, and counts differ. -/
def WatchOnly (s t : State) : Prop := t = { s with ras := t.ras, counts := t.counts }

theorem WatchOnly.trans {r s t : State} (h : WatchOnly r s) (k : WatchOnly s t) : WatchOnly r t := by
  unfold WatchOnly at *
  rw [h] at k
  exact k

section
variable (u : WatchUnit) (code : Nat) (s : State)

theorem watchOnly_watchAdd : WatchOnly s (watchAdd u code s) := by
  unfold watchAdd
  repeat' split
  all_goals rfl

theorem watch_watchAdd : (watchAdd u code s).ras.watch =
    if s.ras.watch.any (fun w => w.u == u) then s.ras.watch.map fun w => if w.u = u then { w with lastTrig := s.up, recur := w.recur + 1 } else w
    else if 1024 ≤ s.ras.watch.length then s.ras.watch
    else s.ras.watch ++ [{ u := u, steps := 0, code := code, added := s.pick, lastTrig := s.up, testedOk := true, lastTest := s.up, recur := 0 }] := by
  unfold watchAdd
  split
  · rfl
  · split <;> rfl

theorem length_watchAdd : (watchAdd u code s).ras.watch.length ≤ s.ras.watch.length + 1 := by
  rw [watch_watchAdd]
  split
  · rw [List.length_map]
    omega
  · split
    · omega
    · rw [List.length_append, List.length_singleton]

variable {u code s}

theorem watched_kept_watchAdd {v : WatchUnit} (h : Watched v s) : Watched v (watchAdd u code s) := by
  obtain ⟨e, he, rfl⟩ := h
  unfold Watched
  rw [watch_watchAdd]
  split
  · refine ⟨_, List.mem_map_of_mem he, ?_⟩
    split <;> rfl
  · split
    · exact ⟨e, he, rfl⟩
    · exact ⟨e, List.mem_append_left _ he, rfl⟩

/-- With room on the list a unit is watched from then on. -/
theorem watched_watchAdd (h : s.ras.watch.length < 1024) : Watched u (watchAdd u code s) := by
  by_cases hu : s.ras.watch.any (fun w => w.u == u) = true
  · obtain ⟨e, he, hu⟩ := List.any_eq_true.mp hu
    exact watched_kept_watchAdd ⟨e, he, eq_of_beq hu⟩
  · unfold Watched
    rw [watch_watchAdd, if_neg hu, if_neg (Nat.not_le.mpr h)]
    exact ⟨_, List.mem_append_right _ (.head _), rfl⟩

end

theorem watchOnly_each (l : List WatchUnit) (code : Nat) (s : State) : WatchOnly s (each l (fun u => watchAdd u code) s) := by
  induction l generalizing s with
  | nil => rfl
  | cons u l ih => exact (watchOnly_watchAdd u code s).trans (ih _)

theorem watched_kept_each {v : WatchUnit} {s : State} (h : Watched v s) (l : List WatchUnit) (code : Nat) : Watched v (each l (fun u => watchAdd u code) s) := by
  induction l generalizing s with
  | nil => exact h
  | cons u l ih => exact ih (watched_kept_watchAdd h)

theorem watched_each (l : List WatchUnit) (code : Nat) {s : State} (h : s.ras.watch.length + l.length ≤ 1024) :
    ∀ u ∈ l, Watched u (each l (fun u => watchAdd u code) s) := by
  induction l generalizing s with
  | nil => exact fun u hu => nomatch hu
  | cons v l ih =>
    rw [List.length_cons] at h
    have hlen := length_watchAdd v code s
    intro u hu
    rcases List.mem_cons.mp hu with rfl | hu
    · exact watched_kept_each (watched_watchAdd (show s.ras.watch.length < 1024 by omega)) l code
    · exact ih (s := watchAdd v code s) (by omega) u hu

/-! ## Remapping (R438) -/

/-- An area whose draft of a bank is patched with nothing. -/
def Area.unpatched (bank : Nat) (x : Area) : Area :=
  { x with drafts := alter default x.drafts bank fun d => { d with recs := patched d.recs [] } }

/-- Where every named unit passed its tests and was named in one run only, the units are watched and the area returns to service. -/
theorem execRemap_watched {a : Nat} {o : RemapOutcome} {s : State} {named : List WatchUnit} (ha : a < 16) (hj : (areaAt s a).job.state = jRunning)
    (hr : (areaAt s a).job.ras = 2) (hn : mergeUnits (areaAt s a).job.named1 (areaAt s a).job.named2 = named)
    (h : ∀ u ∈ named, o.failed.contains u = false ∧ ((areaAt s a).job.named1.contains u && (areaAt s a).job.named2.contains u) = false) :
    exec (.remap a o) s = .next (returnToService a (each named (fun u => watchAdd u 0x1E02) (modArea a (Area.unpatched (areaAt s a).bank) s))) := by
  subst hn
  have e : exec (.remap a o) s = execRemap a o s := rfl
  have hno : ¬ ((areaAt s a).job.state ≠ jRunning ∨ (areaAt s a).job.ras ≠ 2) := by
    rw [hj, hr]
    decide
  rw [e, execRemap, atArea, decide_eq_true ha, guardUnit_true]
  extract_lets +onlyGivenNames j named both fabric bad adj rest
  have hbad : bad = [] := List.filter_eq_nil_iff.mpr fun u hu => by
    obtain ⟨hf, hb⟩ := h u hu
    rw [show both u = false from hb, hf, Bool.or_false, Bool.and_false]
    decide
  have hadj : adj = [] := List.filter_eq_nil_iff.mpr fun u hu => by
    rw [show both u = false from (h u hu).2, Bool.and_false]
    decide
  have hrest : rest = named := List.filter_eq_self.mpr fun u _ => by
    rw [hbad, hadj]
    rfl
  rw [if_neg hno, hrest, hadj, hbad]
  rfl

theorem fenceEntry_frame (n : Nat) (f : Nat → Nat) (s : State) : fenceEntry n f s =
    { s with fence := { s.fence with sites := put 0 s.fence.sites n (f (look 0 s.fence.sites n)) }, ports := (fenceEntry n f s).ports, counts := (fenceEntry n f s).counts } := by
  unfold fenceEntry
  extract_lets +onlyGivenNames e e' src q
  split
  · exact report_frame _ q fun c h _ => by rw [show codeClass 0x1D20 = 1 from rfl]; omega
  · rfl

theorem allowCheck_frame (s : State) :
    allowCheck s = { s with bru := (allowCheck s).bru, ports := (allowCheck s).ports, counts := (allowCheck s).counts } := by
  unfold allowCheck
  extract_lets +onlyGivenNames c l tooFull src q
  split
  · rw [reportUnit, report_frame _ q fun c h _ => by rw [show codeClass 0x1D21 = 1 from rfl]; omega]
  · rfl

/-- A class 1 code is counted and recorded. -/
theorem report_notes {code : Nat} (r : Report349) (s : State) (hc : codeClass code = 1) : report code r s = reportNoted code r s := by
  simp only [report, hc, reportNoted]
  rfl

theorem counted_reportNoted_ne {c u code : Nat} (r : Report349) (s : State) (hc : 0x1903 < c) (hk : countKey c u ≠ countKey code r.unit) :
    counted (reportNoted code r s) c u = counted s c u := by
  unfold reportNoted
  split
  · exact (counted_each_pushRecord _ hc (recordPorts_lt _ r)).trans (counted_count_ne _ hk)
  · exact counted_count_ne _ hk

theorem counted_fenceEntry {c u n : Nat} (f : Nat → Nat) (s : State) (hc : 0x1903 < c) (hk : countKey c u ≠ countKey 0x1D20 n) :
    counted (fenceEntry n f s) c u = counted s c u := by
  unfold fenceEntry
  extract_lets +onlyGivenNames e e' q
  split
  · rw [fenceNew, report_notes _ _ rfl]
    exact counted_reportNoted_ne _ _ hc hk
  · rfl

theorem counted_allowCheck {c u : Nat} (s : State) (hc : 0x1903 < c) (hk : countKey c u ≠ countKey 0x1D21 hubIdx) :
    counted (allowCheck s) c u = counted s c u := by
  unfold allowCheck
  extract_lets +onlyGivenNames cs l tooFull q
  split
  · rw [reportUnit, report_notes _ _ rfl]
    exact counted_reportNoted_ne _ _ hc hk
  · rfl

theorem counted_endJob {c u a : Nat} (s : State) (hc : 0x1903 < c) (hk : countKey c u ≠ countKey 0x1D52 a) : counted (endJob a s) c u = counted s c u := by
  have hq : counted (modArea a Area.jobEnded (clearArea a (loadAborted a s))) c u = counted s c u := by
    rw [loadAborted_frame]
    rfl
  rw [endJob_eq]
  split
  · exact (counted_each_pushRecord _ hc (recordPorts_lt _ _)).trans ((counted_count_ne _ hk).trans hq)
  · exact hq

/-- The state once a site that failed is fenced with cause 0x21, the map in flash and compared with the allowances. -/
def siteRemoved (n : Nat) (s : State) : State := allowCheck (flashWrite (fenceEntry n (fencedEntry 0x21 true false false) s))

theorem siteRemoved_frame (n : Nat) (s : State) : siteRemoved n s = { s with
    fence := (siteRemoved n s).fence, mod := (siteRemoved n s).mod, bru := (siteRemoved n s).bru, ports := (siteRemoved n s).ports, counts := (siteRemoved n s).counts } := by
  have hf := fenceEntry_frame n (fencedEntry 0x21 true false false) s
  unfold siteRemoved
  generalize fenceEntry n (fencedEntry 0x21 true false false) s = q at hf
  rw [allowCheck_frame, hf]
  rfl

theorem sites_siteRemoved (n : Nat) (s : State) : look 0 (siteRemoved n s).fence.sites n = fencedEntry 0x21 true false false (look 0 s.fence.sites n) := by
  have hf := fenceEntry_frame n (fencedEntry 0x21 true false false) s
  unfold siteRemoved
  generalize fenceEntry n (fencedEntry 0x21 true false false) s = q at hf
  rw [allowCheck_frame]
  rw [show (flashWrite q).fence.sites = q.fence.sites from rfl]
  rw [hf]
  exact look_put_self ..

theorem counted_siteRemoved {n : Nat} (s : State) (hn : n < 2 ^ 32) : counted (siteRemoved n s) 0x8C05 hubIdx = counted s 0x8C05 hubIdx := by
  refine (counted_allowCheck _ (by decide) (by decide)).trans ?_
  refine counted_fenceEntry _ _ (by decide) ?_
  unfold countKey hubIdx
  omega

/-- A fenced entry has bit 15 set and its cause in bits 7:0. -/
theorem fencedEntry_bits (e : Nat) : bit (fencedEntry 0x21 true false false e) 15 = true ∧ fencedEntry 0x21 true false false e % 256 = 0x21 := by
  unfold fencedEntry orBits
  constructor
  · rw [bit_eq_testBit, Nat.testBit_or, show Nat.testBit (2 ^ 15 + 2 ^ 14 * b2n false + 2 ^ 13 * b2n false + 2 ^ 12 * b2n true) 15 = true by decide, Bool.or_true]
  · rw [show 256 = 2 ^ 8 by rfl, Nat.or_mod_two_pow]
    simp [b2n]

theorem execRemap_uncovered {a n : Nat} {o : RemapOutcome} {s : State} (ha : a < 16) (hj : (areaAt s a).job.state = jRunning)
    (hr : (areaAt s a).job.ras = 2) (hn : mergeUnits (areaAt s a).job.named1 (areaAt s a).job.named2 = [.site n]) (ho : o.failed = [.site n])
    (hs : ((draftOf s a).recs.find? fun r => r.type == 0x11) = none) :
    exec (.remap a o) s = .next (endJob a (count 0x8C05 hubIdx 1 (siteRemoved n s))) := by
  have e : exec (.remap a o) s = execRemap a o s := rfl
  have hno : ¬ ((areaAt s a).job.state ≠ jRunning ∨ (areaAt s a).job.ras ≠ 2) := by
    rw [hj, hr]
    decide
  have hpatch : remapPatch (siteRemoved n s) a [.site n] = none := by
    have hd : (draftOf (siteRemoved n s) a).recs.find? (fun r => r.type == 0x11) = none := by
      rw [siteRemoved_frame]
      exact hs
    simp only [remapPatch, hd]
    rfl
  rw [e, execRemap, atArea, decide_eq_true ha, guardUnit_true]
  extract_lets +onlyGivenNames j named both fabric bad adj rest
  have hbad : bad = [.site n] := by
    have hc : o.failed.contains (.site n) = true := by
      rw [ho]
      simp
    rw [show bad = List.filter (fun u => fabric u && (both u || o.failed.contains u)) [.site n] from congrArg _ hn, List.filter_cons, hc, Bool.or_true]
    rfl
  rw [if_neg hno, hbad]
  dsimp only
  rw [show (if ([WatchUnit.site n].isEmpty) = true then each [WatchUnit.site n] fenceUnit s else allowCheck (flashWrite (each [WatchUnit.site n] fenceUnit s)))
    = siteRemoved n s from rfl, hpatch]

theorem execRemapTimeout_due {a : Nat} {s : State} (ha : a < 16) (hj : (areaAt s a).job.state = jRunning) (hr : (areaAt s a).job.ras = 2)
    (ht : (areaAt s a).job.remapAt + 90 * second = s.up) : exec (.remapTimeout a) s = .next (returnToService a s) := by
  have e : exec (.remapTimeout a) s = execRemapTimeout a s := rfl
  have hno : ¬ ((areaAt s a).job.state ≠ jRunning ∨ (areaAt s a).job.ras ≠ 2) := by
    rw [hj, hr]
    decide
  rw [e, execRemapTimeout, atArea, decide_eq_true ha, guardUnit_true]
  dsimp only
  rw [if_neg hno, runTo_past (by omega)]

/-! ## The resume pick (R439) -/

/-- An SU once its barrier page is selected: the page of its JOIN. -/
def Su.paged (u : Su) : Su :=
  match u.join with
  | some j => { u with barrier := some j.bpg, timers := [] }
  | none => u

theorem Su.paged_join {u : Su} {j : Join} (h : u.join = some j) : u.paged = { u with barrier := some j.bpg, timers := [] } := by
  unfold Su.paged
  rw [h]

theorem Su.paged_paged (u : Su) : u.paged.paged = u.paged := by
  cases h : u.join with
  | none =>
    have e : u.paged = u := by unfold Su.paged; rw [h]
    rw [e, e]
  | some j =>
    rw [Su.paged_join h]
    exact Su.paged_join h

/-- An SU selects the barrier page of the JOIN that holds it. -/
def barrierPaged (n : Nat) (s : State) : State :=
  match (suAt s n).join with
  | some j => selectPage (heddleOf n) j.bpg (modSu n (fun u => { u with barrier := some j.bpg, timers := [] }) s)
  | none => s

theorem resumeAt_eq (a k P : Nat) (s : State) :
    resumeAt a k P s = each (areaSus (rejoinAll a k P (toPick P s)) a) barrierPaged (rejoinAll a k P (toPick P s)) := rfl

/-- Page selections of SUs leave the clock, and of a job what its state, steps and halt record are not. -/
structure Paged (l : List Nat) (s t : State) : Prop where
  now : t.now = s.now
  job : ∀ b, (areaAt t b).job.ras = (areaAt s b).job.ras ∧ (areaAt t b).job.resumeP = (areaAt s b).job.resumeP
  su : ∀ m, suAt t m = if m ∈ l then (suAt s m).paged else suAt s m

theorem paged_one (n : Nat) (s : State) : Paged [n] s (barrierPaged n s) := by
  unfold barrierPaged
  cases h : (suAt s n).join with
  | none =>
    refine ⟨rfl, fun _ => ⟨rfl, rfl⟩, fun m => ?_⟩
    by_cases e : m = n
    · rw [e, if_pos (List.mem_singleton.mpr rfl), Su.paged, h]
    · rw [if_neg fun hm => e (List.mem_singleton.mp hm)]
  | some j =>
    dsimp only
    generalize hq : modSu n (fun u => { u with barrier := some j.bpg, timers := [] }) s = q
    have hsel := sitesPaged_each j.bpg (heddleSites_nodup (heddleOf n)) q
    rw [← selectPage_eq] at hsel
    have hage := (Aged.refl q).selectPage (h' := heddleOf n) (pg := j.bpg)
    generalize selectPage (heddleOf n) j.bpg q = t at hsel hage
    have hsu : ∀ m, suAt t m = suAt q m := fun m => by
      rw [hsel.frame]
      rfl
    subst hq
    refine ⟨hsel.now, fun b => ?_, fun m => ?_⟩
    · rw [hage.area b]
      exact ⟨rfl, rfl⟩
    · rw [hsu]
      by_cases e : m = n
      · subst e
        rw [suAt_modSu_self, if_pos (List.mem_singleton.mpr rfl), Su.paged_join h]
      · rw [suAt_modSu_ne _ _ _ _ e, if_neg fun hm => e (List.mem_singleton.mp hm)]

theorem paged_each (l : List Nat) (s : State) : Paged l s (each l barrierPaged s) := by
  induction l generalizing s with
  | nil => exact ⟨rfl, fun _ => ⟨rfl, rfl⟩, fun _ => rfl⟩
  | cons n l ih =>
    have h1 := paged_one n s
    have h2 := ih (barrierPaged n s)
    refine ⟨h2.now.trans h1.now, fun b => ⟨(h2.job b).1.trans (h1.job b).1, (h2.job b).2.trans (h1.job b).2⟩, fun m => ?_⟩
    refine (h2.su m).trans ?_
    rw [h1.su m]
    by_cases e : m = n
    · subst e
      rw [if_pos (List.mem_singleton.mpr rfl), Su.paged_paged, ite_self, if_pos List.mem_cons_self]
    · rw [if_neg fun hm => e (List.mem_singleton.mp hm)]
      exact if_congr (by simp [e]) rfl rfl

theorem rejoin_running {k p pc bank : Nat} {loops : List Loop} {w : W64} {u : Su} (h : u.savedJoin.find? (fun x => x.1 == k) = some (k, pc, loops, bank, w)) :
    (u.rejoin k p).seq.running = true := by
  simp only [Su.rejoin, h]

/-- The area of a resumed job: its resume pick is past, RAS_AREA is 1. -/
def Area.resumed (x : Area) : Area := { x with job := { x.job with resumeP := none, ras := 1 } }

theorem execJobResume_due {a P : Nat} {s : State} (ha : a < 16) (hj : (areaAt s a).job.state = jRunning) (hP : (areaAt s a).job.resumeP = some P) :
    exec (.jobResume a) s = .next (resumeAt a (areaAt s a).job.nextK P (modArea a Area.resumed s)) := by
  have e : exec (.jobResume a) s = execJobResume a s := rfl
  rw [e, execJobResume, atArea, decide_eq_true ha, guardUnit_true]
  simp only [hP, hj, if_true]
  rfl

/-- At the resume pick an SU of the area whose JOIN of step k is saved joins its barrier again. -/
theorem suAt_resumeAt {a k P n pc bank : Nat} {loops : List Loop} {w : W64} {s : State} (hw : TabWf Area.reset s.areas = true)
    (hn : areaOfSite s n = some a) (hs : wHasSite (areaAt s a).word n = true) (hf : siteFenced s n = false) (hr : (suAt s n).seq.running = true)
    (h : (suAt s n).savedJoin.find? (fun x => x.1 == k) = some (k, pc, loops, bank, w)) :
    ∃ u : Su, u.savedJoin = (suAt s n).savedJoin ∧ suAt (resumeAt a k P s) n = (u.rejoin k P).paged := by
  have hage : Aged s (toPick P s) := (Aged.refl s).toPick
  have hfence : (toPick P s).fence = s.fence := by rw [show (toPick P s).fence = _ from congrArg State.fence (runTo_frame (8 * P) s)]
  have hu := hage.su n
  have hsite := hage.areaOfSite hw n
  have hword := hage.word a
  rw [resumeAt_eq]
  generalize toPick P s = q at *
  have hr' : (suAt q n).seq.running = true := by
    rw [hu]
    exact hr
  have hsaved : (suAt q n).savedJoin = (suAt s n).savedJoin := by rw [hu]
  have h' := hsaved ▸ h
  have hj : suAt (rejoinAll a k P q) n = (suAt q n).rejoin k P := suAt_rejoinAll (by rw [hword]; exact hs) hr' h'
  have hmem : n ∈ areaSus (rejoinAll a k P q) a := by
    have hrun := rejoin_running (p := P) h'
    rw [← hj] at hrun
    have hlist : (n, suAt (rejoinAll a k P q) n) ∈ (rejoinAll a k P q).su := mem_of_look_ne fun e => by
      rw [show suAt (rejoinAll a k P q) n = default from e] at hrun
      exact Bool.noConfusion hrun
    refine List.mem_map.mpr ⟨_, List.mem_filter.mpr ⟨hlist, ?_⟩, rfl⟩
    have hfen : siteFenced (rejoinAll a k P q) n = false := by
      rw [siteFenced, show (rejoinAll a k P q).fence = s.fence from hfence]
      exact hf
    have hsu : areaOfSite (rejoinAll a k P q) n = some a := hsite.trans hn
    rw [hrun, hfen, decide_eq_true hsu]
    rfl
  refine ⟨suAt q n, hsaved, ?_⟩
  rw [(paged_each _ _).su n, if_pos hmem, hj]

end Sys2Proof.Machine

open Sys2Proof Sys2Proof.Machine

/-- Settles O45: the fold of an SU's counts and its comparison, the two ends of a remapping, and the barrier joined again at the resume pick. -/
theorem digestsRemapsAndResumes : Obligations.DigestsRemapsAndResumes := by
  intro s hwf
  obtain ⟨-, -, -, hareas, -, -, -, -, -, hsus, -⟩ := id hwf
  refine ⟨?digest, ?remap, ?resume⟩
  case digest =>
    intro n a st hp hk ha hst he h d g counts want l
    have e := execExactDigest_ended hp hk ha hst he hsus rfl rfl rfl rfl
    refine ⟨fun hx => e.trans (congrArg _ (if_pos hx)), fun hx hd hj => ?_⟩
    have hneg : ¬ ((areaAt s a).job.exact = false ∨ want = d) := fun h => h.elim (fun hf => by rw [hx] at hf; exact Bool.noConfusion hf) hd
    obtain ⟨hhalt, hsu⟩ := countsReported_halts (n := n) (cls := (stepClass s a st.k).getD 0) (l := l) (g := g) ha (beq_iff_eq.mpr hj)
    refine ⟨_, e.trans (congrArg _ (if_neg hneg)), ?_, hhalt, fun i w c => mem_differing _ _ i w c, fun x r hl => ?_⟩
    · exact congrArg Su.digest ((hsu n).trans (suAt_modSu_self ..))
    · show countsReported n ((stepClass s a st.k).getD 0) l g = _
      rw [hl]
      rfl
  case remap =>
    intro a o ha hj hr j named back
    have hback : ∀ q : State, areaAt q a = { areaAt s a with drafts := (areaAt q a).drafts } → q.su = s.su → q.fence = s.fence →
        (∀ n, areaOfSite q n = areaOfSite s n) → back (returnToService a q) q.pick := fun q hq hsu hf hsite => by
      have hk : (areaAt q a).job.nextK = j.nextK := by rw [hq]
      have hjob := returned_job (spansDevices q a (areaAt q a).job.nextK) q.pick (areaAt q a)
      rw [← areaAt_returnToService, hk, spansDevices_congr hsu hf hsite] at hjob
      exact hjob
    refine ⟨fun hn hlen => ?_, fun n hn hp ho hsp => ?_, fun ht => ?_⟩
    · refine ⟨_, execRemap_watched ha hj hr rfl hn, ?_⟩
      have hfr := watchOnly_each named 0x1E02 (modArea a (Area.unpatched (areaAt s a).bank) s)
      have hwatch := watched_each named 0x1E02 (s := modArea a (Area.unpatched (areaAt s a).bank) s) hlen
      generalize each named (fun u => watchAdd u 0x1E02) (modArea a (Area.unpatched (areaAt s a).bank) s) = q at hfr hwatch
      have hq : areaAt q a = { areaAt s a with drafts := (areaAt q a).drafts } := by
        have hx : areaAt q a = (areaAt s a).unpatched (areaAt s a).bank := by
          rw [hfr]
          exact areaAt_modArea_self ..
        rw [hx]
        rfl
      have hsite : ∀ n, areaOfSite q n = areaOfSite s n := fun n => by
        rw [hfr]
        exact areaOfSite_modArea (g := Area.unpatched _) hareas (fun _ => ⟨rfl, rfl⟩) n
      have hnow : q.now = s.now := by rw [hfr]; rfl
      have hb := hback q hq (by rw [hfr]; rfl) (by rw [hfr]; rfl) hsite
      have ht := returnToService_frame a q
      have hx := areaAt_returnToService a q
      rw [show q.pick = s.pick by rw [State.pick, hnow, State.pick]] at hb
      refine ⟨hb, ?_, ?_, ?_, ?_, fun u hu => ?_⟩
      · rw [ht, hfr]; rfl
      · rw [hx]; rfl
      · rw [hx]; rfl
      · rw [ht]; exact hnow
      · rw [ht]; exact hwatch u hu
    · have hlt : n < 2 ^ 32 := by
        have hy := of_decide_eq_true (Bool.and_eq_true_iff.mp hp).2
        unfold siteY gridRows at hy
        split at hy <;> omega
      have hbits := fencedEntry_bits (look 0 s.fence.sites n)
      have hf : (endJob a (count 0x8C05 hubIdx 1 (siteRemoved n s))).fence = (siteRemoved n s).fence := by rw [endJob_frame]; rfl
      refine ⟨_, execRemap_uncovered ha hj hr hn ho hsp, ?_, ?_, ?_⟩
      · rw [areaAt_endJob_self]
        rfl
      · rw [counted_endJob _ (by decide) (by unfold countKey hubIdx; omega), counted_count_self, counted_siteRemoved s hlt]
      · rw [hf, sites_siteRemoved]
        exact hbits
    · refine ⟨_, execRemapTimeout_due ha hj hr ht, hback s rfl rfl rfl fun _ => rfl, ?_⟩
      rw [returnToService_frame]
      rfl
  case resume =>
    intro a P ha hj hP k
    have hw : TabWf Area.reset (modArea a Area.resumed s).areas = true := tabWf_alter _ _ _ _ hareas
    have hx : areaAt (modArea a Area.resumed s) a = (areaAt s a).resumed := areaAt_modArea_self ..
    have hage : Aged (modArea a Area.resumed s) (toPick P (modArea a Area.resumed s)) := (Aged.refl _).toPick
    have hpg := paged_each (areaSus (rejoinAll a k P (toPick P (modArea a Area.resumed s))) a) (rejoinAll a k P (toPick P (modArea a Area.resumed s)))
    rw [← resumeAt_eq] at hpg
    have hjob : (areaAt (rejoinAll a k P (toPick P (modArea a Area.resumed s))) a).job.ras = 1
        ∧ (areaAt (rejoinAll a k P (toPick P (modArea a Area.resumed s))) a).job.resumeP = none := by
      rw [show areaAt (rejoinAll a k P (toPick P (modArea a Area.resumed s))) a = areaAt (toPick P (modArea a Area.resumed s)) a from rfl, hage.area a, hx]
      exact ⟨rfl, rfl⟩
    refine ⟨_, execJobResume_due ha hj hP, (hpg.job a).2.trans hjob.2, (hpg.job a).1.trans hjob.1, hpg.now.trans (runTo_now ..), ?_⟩
    intro n pc loops bank jw hn hs hf hr h q
    have hsite : areaOfSite (modArea a Area.resumed s) n = some a := (areaOfSite_modArea (g := Area.resumed) hareas (fun _ => ⟨rfl, rfl⟩) n).trans hn
    obtain ⟨u, hu, ht⟩ := suAt_resumeAt (P := P) hw hsite (by rw [hx]; exact hs) hf hr h
    obtain ⟨hpc, hbank, -, -, hjoin⟩ := rejoin_saved (p := P) (hu.symm ▸ h)
    rw [ht, Su.paged_join hjoin]
    exact ⟨hjoin, rfl, hpc, hbank, rfl⟩
end

section
/-! SUPPORT. The records of a checked draft image, patches of its SPARES record included, lie in its area (R188, R190, R209, R210). -/
namespace Sys2Proof.Machine

/-! ## A heddle lies in one power region (R14) -/

theorem siteX_suOf_heddleOf (n : Nat) : siteX (suOf (heddleOf n)) = siteX n / 4 * 4 + 2 := by
  have hx : siteX n < 512 := Nat.mod_lt _ (by decide)
  unfold suOf siteOf heddleOf
  generalize siteX n = x at *
  generalize siteY n = y
  unfold siteX
  omega

theorem siteY_suOf_heddleOf (n : Nat) : siteY (suOf (heddleOf n)) = siteY n / 4 * 4 + 2 := by
  have hx : siteX n < 512 := Nat.mod_lt _ (by decide)
  unfold suOf siteOf heddleOf
  generalize siteX n = x at *
  generalize siteY n = y
  unfold siteY
  omega

theorem powerRegion_suOf_heddleOf (n : Nat) : powerRegion (suOf (heddleOf n)) = powerRegion n := by
  unfold powerRegion boltOf
  rw [siteX_suOf_heddleOf, siteY_suOf_heddleOf]
  omega

/-- The SU of a heddle is in the area of any of its sites. -/
theorem wHasSite_suOf_heddleOf (w n : Nat) : wHasSite w (suOf (heddleOf n)) = wHasSite w n := by
  rw [wHasSite, powerRegion_suOf_heddleOf, wHasSite]

/-! ## Records as they stand in an image (R188) -/

theorem fld_drop (l : List Byte) (a o n : Nat) : fld (l.drop a) o n = fld l (a + o) n := by
  rw [fld, sub, List.drop_drop, fld, sub]

/-- A record's payload stands 16 bytes after its header's start, as long as its header says. -/
theorem recsFrom_data {img : List Byte} {f o : Nat} {l : List Rec} (h : recsFrom f o (img.drop o) = some l) :
    ∀ r ∈ l, r.data = (img.drop (r.off + 16)).take (fld img (r.off + 8) 4) := by
  induction f generalizing o l with
  | zero =>
    unfold recsFrom at h
    split at h
    · cases h
      exact fun r hr => nomatch hr
    · exact nomatch h
  | succ f ih =>
    unfold recsFrom at h
    split at h
    · cases h
      exact fun r hr => nomatch hr
    · dsimp only at h
      split at h
      · exact nomatch h
      · obtain ⟨l', hl', rfl⟩ := Option.map_eq_some_iff.mp h
        rw [List.drop_drop] at hl'
        intro r hr
        rcases List.mem_cons.mp hr with rfl | hr
        · show ((img.drop o).drop 16).take (fld (img.drop o) 8 4) = (img.drop (o + 16)).take (fld img (o + 8) 4)
          rw [List.drop_drop, fld_drop]
        · exact ih hl' r hr

/-- The targets of records do not depend on where their list stands. -/
theorem recsFrom_targets (f o o' : Nat) (rest : List Byte) : (recsFrom f o rest).map (List.map Rec.target) = (recsFrom f o' rest).map (List.map Rec.target) := by
  induction f generalizing o o' rest with
  | zero => rfl
  | succ f ih =>
    unfold recsFrom
    split
    · rfl
    · dsimp only
      split
      · rfl
      · have e := ih (o + (16 + (fld rest 8 4 + 15) / 16 * 16)) (o' + (16 + (fld rest 8 4 + 15) / 16 * 16)) (rest.drop (16 + (fld rest 8 4 + 15) / 16 * 16))
        simpa only [Option.map_map, Function.comp_def, List.map_cons] using congrArg (Option.map (List.cons (fld rest 4 4))) e

theorem recInArea_congr {r q : Rec} (h : r.target = q.target) (w : Nat) : recInArea w r = recInArea w q := by
  simp only [recInArea, Rec.tgt, h]

/-! ## Patches (R209, R210) -/

theorem firstBad_eq_none {n : Nat} {ok : Nat → Bool} (h : firstBad n ok = none) {i : Nat} (hi : i < n) : ok i = true := by
  have e := List.find?_eq_none.mp h i (List.mem_range.mpr hi)
  simpa using e

/-- The patch of an entry in order lies in the area. -/
theorem spPatch_inArea {m w off i : Nat} {d : List Byte} (h : spareOk m w d i = true) : ∀ r ∈ (spPatch off d i).getD [], recInArea w r = true := by
  simp only [spareOk, Bool.and_eq_true] at h
  obtain ⟨-, h⟩ := h
  unfold spPatch at h ⊢
  split at h
  · exact nomatch h
  next l0 hl0 =>
  split at hl0
  · next hin =>
    have e := recsFrom_targets d.length (off + 16 + spOff d i) (0 + 16 + spOff d i) ((d.drop (spOff d i)).take (spLen d i))
    rw [hl0, Option.map_some] at e
    obtain ⟨l, hl, ht⟩ := Option.map_eq_some_iff.mp e
    rw [if_pos hin, hl]
    intro r hr
    have hmem : r.target ∈ l0.map Rec.target := ht ▸ List.mem_map_of_mem hr
    obtain ⟨q, hq, hqt⟩ := List.mem_map.mp hmem
    have hall := List.all_eq_true.mp h q hq
    simp only [Bool.and_eq_true] at hall
    rw [recInArea_congr hqt.symm]
    exact hall.1.1.2
  · exact nomatch hl0

theorem spareOk_of_matches {m w i : Nat} {d : List Byte} {s : State} (h : checkSpares m w d = none) (hi : i ∈ spareMatches s w d) : spareOk m w d i = true := by
  have hlt := List.mem_range.mp (List.mem_filter.mp hi).1
  exact firstBad_eq_none h (by omega)

theorem fenceCheck_inArea {s : State} {w : Nat} {img : List Byte} {spares : Option Rec} {patch : List Rec} (h : fenceCheck s w img spares = some patch)
    (hs : ∀ r, spares = some r → checkSpares s.member w r.data = none) : ∀ r ∈ patch, recInArea w r = true := by
  unfold fenceCheck at h
  dsimp only at h
  split at h
  · cases h
    exact fun r hr => nomatch hr
  · split at h
    · exact nomatch h
    · next sp =>
      split at h
      · exact nomatch h
      · split at h
        · cases h
          intro r hr
          obtain ⟨i, hi, hr⟩ := List.mem_flatMap.mp hr
          exact spPatch_inArea (spareOk_of_matches (hs sp rfl) hi) r hr
        · exact nomatch h

theorem patched_inArea {w : Nat} {l patch : List Rec} (hl : ∀ r ∈ l, recInArea w r = true) (hp : ∀ r ∈ patch, recInArea w r = true) :
    ∀ r ∈ patched l patch, recInArea w r = true := by
  intro r hr
  unfold patched at hr
  rcases List.mem_append.mp hr with hr | hr
  · obtain ⟨q, hq, rfl⟩ := List.mem_map.mp hr
    cases hf : patch.find? fun y => q.type == y.type && q.target == y.target && q.banksel == y.banksel with
    | none => exact hl q hq
    | some x => exact hp x (List.mem_of_find?_eq_some hf)
  · exact hp r (List.mem_filter.mp hr).1

/-! ## The checks (R190) -/

/-- The SPARES record that the header names is one of the image's records. -/
theorem coverRec_listed {m w : Nat} {img : List Byte} {sp : Rec} {l : List Rec} (h : coverRec m img = some sp) (hl : imageRecs img = some l)
    (hok : recsOk m w img l = true) : ∃ q ∈ l, q.type = 0x11 ∧ q.data = sp.data := by
  simp only [coverRec] at h
  split at h
  · next hc =>
    cases h
    obtain ⟨ho, -, -, hlen, -⟩ := hc
    have href : refOk l 0x11 (dRef img 1) = true := by
      simp only [recsOk, Bool.and_eq_true] at hok
      exact hok.1.1.2
    have hne : dRef img 1 ≠ (0, 0) := fun e => by
      rw [e] at ho
      omega
    rw [refOk, if_neg hne] at href
    have hmem : dRef img 1 ∈ (l.filter fun r => r.type == 0x11).map fun r => (r.off, r.data.length) := by
      rw [eq_of_beq href]
      exact .head _
    obtain ⟨q, hq, hqr⟩ := List.mem_map.mp hmem
    obtain ⟨hql, hqt⟩ := List.mem_filter.mp hq
    refine ⟨q, hql, eq_of_beq hqt, ?_⟩
    have hdata := recsFrom_data hl q hql
    rw [hdata, show q.off = (dRef img 1).1 from congrArg Prod.fst hqr]
  · exact nomatch h

/-- Check 7 of a SPARES record is that of its entries. -/
theorem checkRec_spares {m w : Nat} {s : State} {l : List Rec} {q : Rec} (hs : recShapeOk m q = true) (ht : q.type = 0x11) :
    checkRec s w l q = checkSpares s.member w q.data := by
  unfold recShapeOk at hs
  unfold checkRec
  cases hq : q.tgt with
  | site n => simp [hq, ht] at hs
  | att a => simp [hq, ht] at hs
  | area => simp [ht]
  | bad => simp [hq] at hs

theorem checkRecs_eq_none {s : State} {w : Nat} {l : List Rec} (h : checkRecs s w l = none) : ∀ r ∈ l, checkRec s w l r = none := fun r hr =>
  Option.map_eq_none_iff.mp (List.findSome?_eq_none_iff.mp h r hr)

/-- The records of an image that passes every check lie in the area: its own by check 6, the patches by check 7 of its SPARES record. -/
theorem checkImage_inArea {s : State} {w : Nat} {img : List Byte} {l : List Rec} (h : checkImage s w img = .inr l) : ∀ r ∈ l, recInArea w r = true := by
  unfold checkImage at h
  split at h
  · exact nomatch h
  split at h
  · exact nomatch h
  split at h
  · exact nomatch h
  split at h
  · exact nomatch h
  extract_lets +onlyGivenNames recs spares at h
  have hrecs : imageRecs img = recs := rfl
  clear_value recs
  split at h
  · exact nomatch h
  next patch hpatch =>
  split at h
  · exact nomatch h
  next l0 =>
  split at h
  · exact nomatch h
  next hok =>
  extract_lets +onlyGivenNames l1 gone src s1 at h
  have hmember : s1.member = s.member := by
    unfold s1
    split
    · rfl
    · rfl
  clear_value s1
  split at h
  · exact nomatch h
  next hcheck =>
  split at h
  · exact nomatch h
  rw [← Sum.inr.inj h]
  have hall : recsOk s.member w img l0 = true := by
    by_contra hno
    exact hok (by simp only [hno, Bool.not_false, Bool.true_or])
  have hl : ∀ r ∈ l0, recShapeOk s.member r = true ∧ recInArea w r = true := fun r hr => by
    simp only [recsOk, Bool.and_eq_true, List.all_eq_true] at hall
    exact (hall.1.1.1.1.1.2 r hr).1
  refine patched_inArea (fun r hr => (hl r hr).2) (fenceCheck_inArea hpatch fun sp hsp => ?_)
  obtain ⟨q, hq, ht, hd⟩ := coverRec_listed hsp hrecs hall
  have hc := checkRecs_eq_none hcheck q hq
  rw [checkRec_spares (hl q hq).1 ht, hmember, hd] at hc
  exact hc

theorem target_of_site {r : Rec} {n : Nat} (h : r.tgt = .site n) : n = r.target := by
  simp only [Rec.tgt] at h
  split at h
  · next hc =>
    cases h
    exact Nat.mod_eq_of_lt (by omega)
  · split at h
    · exact nomatch h
    · split at h
      · exact nomatch h
      · exact nomatch h

/-- The heddles of the load streams lie in the area of their records. -/
theorem streamsOf_inArea {w : Nat} {l : List Rec} (h : ∀ r ∈ l, recInArea w r = true) : ∀ x ∈ streamsOf l, wHasSite w (suOf x.1) = true := by
  intro x hx
  obtain ⟨k, hk, rfl⟩ := List.mem_map.mp hx
  obtain ⟨r, hr, rfl⟩ := List.mem_map.mp (List.mem_eraseDups.mp hk)
  obtain ⟨hr, hs⟩ := List.mem_filter.mp hr
  have hin := h r hr
  rw [wHasSite_suOf_heddleOf]
  simp only [Rec.isSite] at hs
  simp only [recInArea] at hin
  cases ht : r.tgt with
  | site n => exact (target_of_site ht) ▸ (by simpa only [ht] using hin)
  | att a => simp [ht] at hs
  | area => simp [ht] at hs
  | bad => simp [ht] at hs

end Sys2Proof.Machine
end

section
/-! Drafts load through their streams (R190-R197, R202): O28. -/
namespace Sys2Proof.Machine

/-! ## Stores and payloads -/

theorem length_sub (l : List Byte) (o n : Nat) : (sub l o n).length = n := by
  rw [sub, List.length_append, List.length_take, List.length_replicate]
  omega

theorem foldl_put_eq {α : Type} [DecidableEq α] (d : α) (l : List α) (t : Tab α) (k j : Nat) :
    look d (l.foldl (fun x v => (put d x.1 x.2 v, x.2 + 1)) (t, k)).1 j = if k ≤ j ∧ j < k + l.length then l.getD (j - k) d else look d t j := by
  induction l generalizing t k with
  | nil => exact (if_neg fun h => by simp only [List.length_nil] at h; omega).symm
  | cons v l ih =>
    refine (ih (put d t k v) (k + 1)).trans ?_
    rw [List.length_cons]
    rcases lt_trichotomy j k with h | rfl | h
    · rw [if_neg (by omega), if_neg (by omega), look_put_ne _ _ _ _ _ (by omega)]
    · rw [if_neg (by omega), if_pos (by omega), look_put_self, Nat.sub_self]
      rfl
    · rw [look_put_ne _ _ _ _ _ (by omega), show j - k = (j - (k + 1)) + 1 by omega, List.getD_cons_succ]
      exact if_congr (by omega) rfl rfl

/-- Values stored from key k on, read at the key of the i-th. -/
theorem look_putMany {α : Type} [DecidableEq α] (d : α) (k i : Nat) (l : List α) (t : Tab α) :
    look d (putMany d k l t) (k + i) = if i < l.length then l.getD i d else look d t (k + i) := by
  refine (foldl_put_eq d l t k (k + i)).trans ?_
  rw [Nat.add_sub_cancel_left]
  exact if_congr (by omega) rfl rfl

/-! ## The loading of a bank (R189, R195, R198) -/

/-- From s to t switches, sites and the count of free values may change, and nothing else. -/
def SitesOnly (s t : State) : Prop := t = { s with freeCtr := t.freeCtr, sw := t.sw, mm := t.mm, mx := t.mx, sf := t.sf, su := t.su }

namespace SitesOnly

theorem refl (s : State) : SitesOnly s s := rfl

theorem trans {r s t : State} (h : SitesOnly r s) (k : SitesOnly s t) : SitesOnly r t := by
  unfold SitesOnly at *
  rw [k, h]

theorem each {α : Type} {l : List α} {f : α → State → State} {s t : State} (h : SitesOnly s t) (hf : ∀ x q, SitesOnly q (f x q)) :
    SitesOnly s (each l f t) := by
  induction l generalizing t with
  | nil => exact h
  | cons x l ih => exact ih (h.trans (hf x t))

end SitesOnly

theorem sitesOnly_clearBank (b w : Nat) (s : State) : SitesOnly s (clearBank b w s) := rfl
theorem sitesOnly_coldStart (w : Nat) (s : State) : SitesOnly s (coldStart w s) := rfl
theorem sitesOnly_loadRoutes (w : Nat) (s : State) : SitesOnly s (loadRoutes w s) :=
  SitesOnly.each (l := loadTrees s w) rfl fun _ _ => rfl

theorem su_each {α : Type} {f : α → State → State} (h : ∀ x q, (f x q).su = q.su) (l : List α) (s : State) : (each l f s).su = s.su := by
  induction l generalizing s with
  | nil => rfl
  | cons x l ih => exact (ih (f x s)).trans (h x s)

theorem su_loadRoutes (w : Nat) (s : State) : (loadRoutes w s).su = s.su := by
  unfold loadRoutes
  refine (su_each ?_ _ _).trans rfl
  exact fun _ _ => rfl

/-- An SU with bank b of its program cleared and no stream begun. -/
def Su.emptied (b : Nat) (u : Su) : Su :=
  { u with prog := keepTab (fun k => decide (k / 512 ≠ b)) u.prog, loadPos := 0, loadBuf := [], loadLast := false, loadBad := false }

/-- The sites of an area as a load into a bank begins: the bank cleared, in a cold load creels and rings disabled and load routes written. -/
def loadCleared (cold : Bool) (bank w : Nat) (s : State) : State := if cold then loadRoutes w (coldStart w (clearBank bank w s)) else clearBank bank w s

theorem sitesOnly_loadCleared (cold : Bool) (bank w : Nat) (s : State) : SitesOnly s (loadCleared cold bank w s) := by
  unfold loadCleared
  split
  · exact ((sitesOnly_clearBank bank w s).trans (sitesOnly_coldStart w _)).trans (sitesOnly_loadRoutes w _)
  · exact sitesOnly_clearBank bank w s

/-- No stream to an SU of the area has come when its load begins. -/
theorem loadLast_loadCleared {cold : Bool} {bank w n : Nat} {s : State} (h : wHasSite w n = true) : (suAt (loadCleared cold bank w s) n).loadLast = false := by
  have e : (loadCleared cold bank w s).su = (clearBank bank w s).su := by
    unfold loadCleared
    split
    · exact su_loadRoutes w _
    · rfl
  rw [suAt, e]
  exact look_whereTab_all (t := s.su) (f := Su.emptied bank) (P := fun u : Su => u.loadLast = false) h rfl fun _ => rfl

/-! ## The draft-load command (R190-R192, R197, R202) -/

section
variable (a p m : Nat) (img : List Byte) (l : List Rec) (s : State)

/-- The draft of an image, its first step the one after the running draft's last. -/
def loadDraft : Draft :=
  { id := dId img, flags := dFlags img, steps := dSteps img, commitV := dCommitV img, fill := dFill img, content := sub img 0x50 32
    fenceDigest := sub img 0x30 32, recs := l, first := if !hasJob s a then 0 else (draftOf s a).first + (draftOf s a).steps }

/-- The load that begins for mailbox m of port p. -/
def loadStarted : Load :=
  { bank := if !hasJob s a then 0 else 1 - (areaAt s a).bank, draft := loadDraft a img l s, streams := streamsOf l, sent := [], port := p, m := m }

/-- The state in which the load has begun. -/
def loadBegun : State :=
  let x := loadStarted a p m img l s
  modArea a (fun y => { y with load := some x, complete := 0, drafts := keepTab (fun b => b != x.bank) y.drafts })
    (loadCleared (!hasJob s a) x.bank (areaAt s a).word s)

theorem startLoad_eq : startLoad a p m img l s =
    if !(!hasJob s a) && decide ((draftOf s a).first + (draftOf s a).steps ≤ (areaAt s a).job.top) then mbxComplete p m 0x8C09 0 (leBytes 8 (dId img)) s
    else coldDone a (loadBegun a p m img l s) := rfl

variable {a p m img l s}

/-- The load command for an image read without sour grains that fits, on an area that may load it. -/
theorem draftLoad_read {c : Tab Byte} {d : Nat} (hd : par c 0 8 = d) (hl : (areaAt s a).load = none) (hj : (areaAt s a).job.state ≠ jHalted)
    (hw : (areaAt s a).swapOpen = false) (hlt : d < 2 ^ 41) (hk : stackPresent s.member (dpaStack d) = true)
    (ha : ∀ b, areaOfAtt s (dpaStack d) = some b → b = a) (hu : dpaOff d + 256 ≤ userEnd)
    (h1 : elasticRead d 256 false s = (img.take 256, 0, s)) (hh : headerOk (img.take 256) = true) (hok : dpaOk s.member d (dLen (img.take 256)) = true)
    (hle : 256 ≤ img.length) (h2 : elasticRead (d + 256) (dLen (img.take 256) - 256) false s = (img.drop 256, 0, s)) :
    draftLoad p m c a s = (checkImage s (areaAt s a).word img).elim (fun e => mbxComplete p m e.1 e.2 (leBytes 8 (dId img)) s)
      (fun l => startLoad a p m img l s) := by
  subst hd
  have hno : ¬ ((!stackPresent s.member (dpaStack (par c 0 8))) = true ∨ userEnd ≤ dpaOff (par c 0 8)) := by
    rw [hk]
    simp only [Bool.not_true, Bool.false_eq_true, false_or]
    omega
  have hbusy : ¬ ((areaAt s a).load.isSome = true ∨ (areaAt s a).job.state = jHalted ∨ (areaAt s a).swapOpen = true) := by
    rw [hl, hw]
    simp only [Option.isSome_none, Bool.false_eq_true, hj, or_self, not_false_eq_true]
  have hhead : ¬ ((img.take 256).length < 256 ∨ (!headerOk (img.take 256)) = true ∨ (!dpaOk s.member (par c 0 8) (dLen (img.take 256))) = true) := by
    rw [hh, hok, List.length_take, Nat.min_eq_left hle]
    simp only [Nat.lt_irrefl, Bool.not_true, Bool.false_eq_true, or_self, not_false_eq_true]
  have hmin : min 256 (userEnd - dpaOff (par c 0 8)) = 256 := Nat.min_eq_left (by omega)
  unfold draftLoad
  dsimp only
  rw [if_neg (Nat.not_le.2 hlt), if_neg hno, hmin, h1]
  dsimp only
  rw [if_neg hbusy]
  refine (if_neg ?_).trans ?_
  · cases e : areaOfAtt s (dpaStack (par c 0 8)) with
    | none => exact Bool.false_ne_true
    | some b => simp only [ha b e, ne_eq, not_true_eq_false, decide_false, Bool.false_eq_true, not_false_eq_true]
  · rw [if_neg hhead, h2]
    dsimp only
    rw [List.take_append_drop, if_neg (not_not.2 rfl)]
    cases checkImage s (areaAt s a).word img with
    | inl e => rfl
    | inr l => rfl

theorem bank_loadStarted : (loadStarted a p m img l s).bank = if hasJob s a = true then 1 - (areaAt s a).bank else 0 := by
  unfold loadStarted
  cases hasJob s a with
  | true => rfl
  | false => rfl

/-- With a job, or with a stream that has not come, a load goes on. -/
theorem coldDone_unfinished (h : hasJob s a = true ∨ ∃ l, (areaAt s a).load = some l ∧ loadComplete s l = false) : coldDone a s = s := by
  unfold coldDone
  split
  · next l hl =>
    rcases h with h | ⟨l', hl', h⟩
    · rw [h]
      rfl
    · rw [hl'] at hl
      cases hl
      rw [h, Bool.and_false, if_neg Bool.false_ne_true]
  · rfl

theorem areaAt_loadBegun_self : areaAt (loadBegun a p m img l s) a = { areaAt s a with
    load := some (loadStarted a p m img l s), complete := 0, drafts := keepTab (fun b => b != (loadStarted a p m img l s).bank) (areaAt s a).drafts } := by
  unfold loadBegun
  dsimp only
  rw [areaAt_modArea_self, sitesOnly_loadCleared]
  rfl

theorem sitesOnly_loadBegun : SitesOnly { s with areas := (loadBegun a p m img l s).areas } (loadBegun a p m img l s) := by
  unfold loadBegun
  have h := sitesOnly_loadCleared (!hasJob s a) (loadStarted a p m img l s).bank (areaAt s a).word s
  dsimp only
  generalize loadCleared (!hasJob s a) (loadStarted a p m img l s).bank (areaAt s a).word s = q at *
  rw [h]
  rfl

theorem areaAt_loadBegun_ne {b : Nat} (h : b ≠ a) : areaAt (loadBegun a p m img l s) b = areaAt s b := by
  unfold loadBegun
  dsimp only
  rw [areaAt_modArea_ne _ _ _ _ h, sitesOnly_loadCleared]
  rfl

/-- A load with streams in its area does not end as it begins. -/
theorem coldDone_loadBegun (hne : streamsOf l ≠ []) (hin : ∀ r ∈ l, recInArea (areaAt s a).word r = true) :
    coldDone a (loadBegun a p m img l s) = loadBegun a p m img l s := by
  refine coldDone_unfinished (.inr ⟨loadStarted a p m img l s, by rw [areaAt_loadBegun_self], ?_⟩)
  obtain ⟨x, hx⟩ := List.exists_mem_of_ne_nil _ hne
  refine List.all_eq_false.2 ⟨x, hx, ?_⟩
  have e : (suAt (loadBegun a p m img l s) (suOf x.1)).loadLast = false :=
    loadLast_loadCleared (streamsOf_inArea hin x hx)
  simp only [e, Bool.false_and, Bool.false_eq_true, not_false_eq_true]

end

theorem execDraftLoad_good {p m : Nat} {s : State} (h : mbxGood s p m 0x0110 8 .area) {c : Tab Byte} (hc : (mbxAt s p m).cmd = c)
    (hn : areaNamed s c = true) (ho : (areaAt s (wArea (hdrArea c))).owner.val = p) :
    execDraftLoad p m s = .next (draftLoad p m c (wArea (hdrArea c)) (mbxTaken p m s)) := by
  subst hc
  refine (mbxRun_good h rfl).trans (congrArg _ ?_)
  exact onArea_owned (s := mbxTaken p m s) hn ho rfl

/-! ## Records written (R194, R198) -/

/-- From s to t records are written into banks: of an SU only its program may change. -/
structure RecordsWritten (s t : State) : Prop where
  sites : SitesOnly s t
  su : ∀ n, suAt t n = { suAt s n with prog := (suAt t n).prog }

namespace RecordsWritten

theorem refl (s : State) : RecordsWritten s s := ⟨rfl, fun _ => rfl⟩

theorem trans {r s t : State} (h : RecordsWritten r s) (k : RecordsWritten s t) : RecordsWritten r t where
  sites := h.sites.trans k.sites
  su n := by
    have e := k.su n
    rw [h.su n] at e
    exact e

theorem writeRec (b : Nat) (r : Rec) (s : State) : RecordsWritten s (writeRec b r s) := by
  unfold Machine.writeRec
  dsimp only
  split
  · exact ⟨rfl, fun _ => rfl⟩
  split
  · exact ⟨rfl, fun _ => rfl⟩
  split
  · exact ⟨rfl, fun _ => rfl⟩
  split
  · exact ⟨rfl, fun _ => rfl⟩
  split
  · refine ⟨rfl, fun n => ?_⟩
    by_cases e : n = r.target
    · rw [e, suAt_modSu_self]
    · rw [suAt_modSu_ne _ _ _ _ e]
  split
  · exact ⟨rfl, fun _ => rfl⟩
  · exact refl s

theorem each (b : Nat) (l : List Rec) (s : State) : RecordsWritten s (each l (Machine.writeRec b) s) := by
  induction l generalizing s with
  | nil => exact refl s
  | cons r l ih => exact (writeRec b r s).trans (ih _)

end RecordsWritten

/-- An MX site with a record in bank b of its program. -/
def Mx.programmed (b : Nat) (d : List Byte) (x : Mx) : Mx := { x with prog := putMany 0 (b * 256) (words d) x.prog }

theorem writeRec_mx {b : Nat} {r : Rec} {s : State} (h : r.type = 3) : writeRec b r s = modMx r.target (Mx.programmed b r.data) s := by
  have h1 : ¬ r.type = 1 := by omega
  have h2 : ¬ r.type = 2 := by omega
  unfold writeRec
  dsimp only
  rw [if_neg h1, if_neg h2, if_pos h]
  rfl

theorem partRec_short {l : List Byte} (h : l.length < 24) : partRec l = [] := if_pos h

/-! ## Load flits (R193, R194) -/

/-- An SU that has accepted n bytes of its stream: the bytes of no complete record yet, whether the flit was the last, whether a record was bad. -/
def Su.accepted (n : Nat) (last : Bool) (rem : List Byte) (bad : Bool) (u : Su) : Su :=
  { u with loadPos := u.loadPos + n, loadBuf := rem, loadLast := last, loadBad := u.loadBad || bad }

/-- An area whose load sends the stream of a heddle again from a position. -/
def Area.streamAgain (h pos : Nat) (x : Area) : Area := { x with load := x.load.map fun l => { l with sent := put 0 l.sent h pos } }

theorem suAt_modSu_accepted {s q : State} (h : RecordsWritten s q) (su n : Nat) (last : Bool) (rem : List Byte) (bad : Bool) :
    suAt (modSu su (Su.accepted n last rem bad) q) su = { (suAt s su).accepted n last rem bad with prog := (suAt q su).prog } := by
  rw [suAt_modSu_self, h.su su]
  rfl

theorem each_id {α : Type} (l : List α) (s : State) : each l (fun _ q => q) s = s := by
  induction l with
  | nil => rfl
  | cons x l ih => exact ih

section
variable {a su : Nat} {l : Load} {s : State}

/-- An SU of an area with a job accepts bytes: it writes the records complete and the part of the next that has come. -/
theorem acceptLoad_job {pay buf rem : List Byte} {rs : List Rec} {bad last : Bool} (h : hasJob s a = true) (hb : (suAt s su).loadBuf ++ pay = buf)
    (hx : drainRecs (buf.length + 1) buf = (rem, rs, bad)) :
    acceptLoad a su l pay last s = modSu su (Su.accepted pay.length last rem bad) (each (rs ++ partRec rem) (writeRec l.bank) s) := by
  have hw := (RecordsWritten.each l.bank (rs ++ partRec rem) s).sites
  unfold acceptLoad
  dsimp only
  rw [hb, hx, h]
  dsimp only
  rw [show each (rs.filter fun r => decide (crc32c r.data = r.crc)) (fun r q => if (!true) = true then coldSite r q else q) = id from
    funext fun q => each_id _ q]
  refine coldDone_unfinished (.inl ?_)
  generalize each (rs ++ partRec rem) (writeRec l.bank) s = q at *
  rw [hw]
  exact h

variable {f : Flit} (ha : areaOfSite s su = some a) (hl : (areaAt s a).load = some l) (hc : 0 < lfCount f) (hb : (suAt s su).barrier = none)
include ha hl hc hb

theorem takeLoad_elsewhere (ho : lfOffset f ≠ (suAt s su).loadPos) : takeLoad su f s = modArea a (Area.streamAgain (heddleOf su) (suAt s su).loadPos) s := by
  have hno : f.sour ≠ 0 ∨ lfOffset f ≠ (suAt s su).loadPos ∨ lfHeddle f ≠ heddleOf su ∨ 96 < lfCount f := .inr (.inl ho)
  simp only [takeLoad, ha, hl, hb, Option.isSome_none, Bool.false_eq_true, if_false, Nat.pos_iff_ne_zero.1 hc, if_pos hno]
  rfl

theorem takeLoad_next (ho : lfOffset f = (suAt s su).loadPos) (hs : f.sour = 0) (hh : lfHeddle f = heddleOf su) (h96 : lfCount f ≤ 96) :
    takeLoad su f s = acceptLoad a su l (sub (rowBytes f.data) 32 (lfCount f)) (lfLast f) s := by
  have hno : ¬ (f.sour ≠ 0 ∨ lfOffset f ≠ (suAt s su).loadPos ∨ lfHeddle f ≠ heddleOf su ∨ 96 < lfCount f) := by
    rw [ho, hs, hh]
    simp only [ne_eq, not_true_eq_false, false_or]
    omega
  simp only [takeLoad, ha, hl, hb, Option.isSome_none, Bool.false_eq_true, if_false, Nat.pos_iff_ne_zero.1 hc, if_neg hno]

end

section
variable {n : Nat} {s : State} {d : Deliv} {rest : List Deliv}

theorem swAt_deliveryTaken_self (hd : (swAt s n).deliv = d :: rest) : swAt (deliveryTaken n s) n = { swAt s n with deliv := rest } := by
  have e : swAt (deliveryTaken n s) n = { swAt s n with deliv := (swAt s n).deliv.drop 1 } := swAt_modSw_self ..
  rw [e, hd]
  rfl

/-- The load flit at the head of an SU's deliveries reaches it. -/
theorem execLoadFlit_delivered (hp : sitePresent s.member n = true) (hk : kindOf n = .su) (hd : (swAt s n).deliv = d :: rest) (hdue : d.due = s.now)
    (htag : d.tag = none) (hw : awaitsTag (swAt s n) d = false) (hkind : bits (laneOf d.flit.data 7).toNat 1 0 = 3) :
    exec (.loadFlit n) s = .next (takeLoad n d.flit (deliveryTaken n s)) := by
  have e : exec (.loadFlit n) s = execLoadFlit n s := rfl
  have hh : headDeliv s n = some d := by simp only [headDeliv, hd, List.head?_cons, Option.filter_some, hw, Bool.not_false, if_true]
  have hl : loadFlitHead s n = some d := by simp only [loadFlitHead, hh, htag, hkind, and_self, if_true]
  have ht : takeDeliv n d s = deliveryTaken n s := by
    rw [takeDeliv, runTo_past (Nat.le_of_eq hdue)]
    rfl
  rw [e, execLoadFlit, onSite_of_kind hp hk]
  simp only [hl, ht]

end

/-! ## Fill slots (R196) -/

/-- The load flit of the next fill slot for heddle h and the bytes of its stream that it carries: a blank without a job or where the stream is sent. -/
def fillFlit (l : Load) (job : Bool) (h : Nat) : Flit × Nat :=
  let b := (streamOf l h).getD []
  let o := look 0 l.sent h
  let pay := (b.drop o).take 96
  if job && decide (0 < pay.length) then (loadFlit h o pay (decide (b.length ≤ o + 96)), pay.length) else (loadFlit h 0 [] false, 0)

section
variable {l : Load} {h : Nat} {b : List Byte}

theorem fillFlit_stream (hs : streamOf l h = some b) (ho : look 0 l.sent h < b.length) : fillFlit l true h =
    (loadFlit h (look 0 l.sent h) ((b.drop (look 0 l.sent h)).take 96) (decide (b.length ≤ look 0 l.sent h + 96)), ((b.drop (look 0 l.sent h)).take 96).length) := by
  have hpay : 0 < ((b.drop (look 0 l.sent h)).take 96).length := by
    rw [List.length_take, List.length_drop]
    omega
  simp only [fillFlit, hs, Option.getD_some, decide_eq_true hpay, Bool.and_self, if_true]

theorem fillFlit_blank {job : Bool} (hs : streamOf l h = none ∨ job = false ∨ ∃ b, streamOf l h = some b ∧ b.length ≤ look 0 l.sent h) :
    fillFlit l job h = (loadFlit h 0 [] false, 0) := by
  refine if_neg fun hc => ?_
  obtain ⟨hj, hpay⟩ := Bool.and_eq_true_iff.1 hc
  have hpay := of_decide_eq_true hpay
  rw [List.length_take, List.length_drop] at hpay
  rcases hs with hs | hs | ⟨b, hs, hb⟩
  · rw [hs] at hpay
    simp at hpay
  · rw [hs] at hj
    exact Bool.false_ne_true hj
  · rw [hs, Option.getD_some] at hpay
    omega

end

/-- An attachment with one more of a step's fill slots for heddle h in its scheduled outbound partition. -/
def Attach.filledBy (h : Nat) (e : QEntry) (x : Attach) : Attach := { x with outS := x.outS ++ [e], filled := alter 0 x.filled h (· + 1) }

/-- An area whose load has sent c more bytes of the stream of heddle h. -/
def Area.streamSent (h c : Nat) (x : Area) : Area := { x with load := x.load.map fun l => { l with sent := alter 0 l.sent h (· + c) } }

/-- The state in which attachment k has put flit x.1, carrying x.2 bytes of the load of area a, into a fill slot for heddle h. -/
def slotFilled (k h a link : Nat) (x : Flit × Nat) (s : State) : State :=
  modArea a (Area.streamSent h x.2) (modAtt k (Attach.filledBy h { flit := x.1, link := link, arr := s.now }) s)

theorem attAt_slotFilled (k h a link : Nat) (x : Flit × Nat) (s : State) :
    attAt (slotFilled k h a link x s) k = (attAt s k).filledBy h { flit := x.1, link := link, arr := s.now } := attAt_modAtt_self ..

theorem areaAt_slotFilled (k h a link : Nat) (x : Flit × Nat) (s : State) : areaAt (slotFilled k h a link x s) a = (areaAt s a).streamSent h x.2 :=
  areaAt_modArea_self ..

section
variable {k h a link n : Nat} {l : Load} {s : State} (hp : attPresent s.member k = true)
include hp

theorem execFillSlot_none (ha : areaOfAtt s k = some a) (hf : fillLink s k h = none) : exec (.fillSlot k h) s = .next s := by
  have e : exec (.fillSlot k h) s = execFillSlot k h s := rfl
  simp only [e, execFillSlot, atAtt, hp, guardUnit_true, ha, hf]

variable (ha : areaOfAtt s k = some a) (hf : fillLink s k h = some (link, n))
include ha hf

theorem execFillSlot_used (hu : n ≤ look 0 (attAt s k).filled h) : exec (.fillSlot k h) s = .next s := by
  have e : exec (.fillSlot k h) s = execFillSlot k h s := rfl
  simp only [e, execFillSlot, atAtt, hp, guardUnit_true, ha, hf, if_pos hu]

theorem execFillSlot_fills (hl : (areaAt s a).load = some l) (hu : look 0 (attAt s k).filled h < n) (hr : (attAt s k).outS.length < (attAt s k).sOut) :
    exec (.fillSlot k h) s = .next (slotFilled k h a link (fillFlit l (hasJob s a) h) s) := by
  have e : exec (.fillSlot k h) s = execFillSlot k h s := rfl
  rw [e, execFillSlot, atAtt, hp, guardUnit_true]
  simp only [ha, hf, if_neg (Nat.not_le.2 hu), if_pos hr, hl]
  cases hs : streamOf l h with
  | none =>
    rw [fillFlit_blank (.inl hs)]
    rfl
  | some b =>
    simp only [fillFlit, hs, Option.getD_some]
    rfl

end

/-! ## A warm load completes (R197) -/

theorem mbxAt_mbxComplete_rsp {p m st detail : Nat} {rsp : List Byte} {s : State} (h : (mbxAt s p m).state = 2) :
    bytesAt (mbxAt (mbxComplete p m st detail rsp s) p m).rsp 32 rsp.length = rsp := by
  have h' : ¬ (look default (portAt s p).mbx m).state ≠ 2 := not_not.2 h
  simp only [mbxComplete, if_neg h', mbxAt, msix, portAt_modPort_self, look_put_self]
  generalize hh : leBytes 2 _ ++ _ ++ _ ++ _ ++ _ ++ _ ++ _ = hdr
  have hlen : hdr.length = 32 := by
    rw [← hh]
    simp only [List.length_append, length_leBytes]
  have e := take_drop_bytesAt (putBytes [] 0 (hdr ++ rsp)) (a := 0) (n := (hdr ++ rsp).length) (i := 32) (k := rsp.length) (by
    rw [List.length_append, hlen])
  rw [bytesAt_putBytes_self, ← hlen, List.drop_left, List.take_length] at e
  rw [← hlen]
  exact (Nat.zero_add hdr.length ▸ e).symm

/-- An area whose warm load has completed: the draft stands in its bank, the next swap may take it. -/
def Area.loaded (l : Load) (x : Area) : Area := { x with load := none, complete := 1, drafts := put default x.drafts l.bank l.draft }

/-- The state after the warm load l of area a, before its command completes. -/
def warmLoaded (a : Nat) (l : Load) (s : State) : State :=
  modArea a (fun x => { x with complete := 1 }) (modArea a (fun x => { x with load := none, drafts := put default x.drafts l.bank l.draft }) s)

theorem areaAt_warmLoaded_self (a : Nat) (l : Load) (s : State) : areaAt (warmLoaded a l s) a = (areaAt s a).loaded l := by
  rw [warmLoaded, areaAt_modArea_self, areaAt_modArea_self]
  rfl

theorem areaAt_warmLoaded_ne {a b : Nat} (l : Load) (s : State) (h : b ≠ a) : areaAt (warmLoaded a l s) b = areaAt s b := by
  rw [warmLoaded, areaAt_modArea_ne _ _ _ _ h, areaAt_modArea_ne _ _ _ _ h]

theorem execWarmLoadComplete_complete {a : Nat} {l : Load} {s : State} (ha : a < 16) (hl : (areaAt s a).load = some l) (hj : hasJob s a = true)
    (hf : (draftOf s a).fill ≠ 0) (hc : loadComplete s l = true) :
    exec (.warmLoadComplete a) s = .next (mbxComplete l.port l.m mOk 0 (leBytes 8 l.draft.id) (warmLoaded a l s)) := by
  have e : exec (.warmLoadComplete a) s = execWarmLoadComplete a s := rfl
  rw [e, execWarmLoadComplete, atArea, decide_eq_true ha, guardUnit_true]
  simp only [hl, hj, hc, decide_eq_true hf, Bool.and_self, if_true, finishLoad, Bool.not_true, Bool.false_eq_true, if_false]
  rfl

end Sys2Proof.Machine

open Sys2Proof Sys2Proof.Machine

/-- Settles O28: the load command by the checks of its image; load flits, fill slots and the end of a warm load case by case. -/
theorem draftsLoadThroughTheirStreams : Obligations.DraftsLoadThroughTheirStreams := by
  refine ⟨fun p m s img h => ?command, fun s a l hl ha => ⟨fun su d rest hp hk hs hd hdue htag hw hkind hb hsour hh hpos h96 => ⟨fun ho => ?elsewhere, ?next⟩,
    fun k h hp hs hroom => ?slot, fun hj hf hc h2 => ?complete⟩⟩
  case command =>
    intro r c a d hn ho hl hj hw hlt hk hat hu h1 hhead hok hle hlen h2
    have e : exec (.draftLoad p m) s = _ := execDraftLoad_good h rfl hn ho
    have hread := draftLoad_read (a := a) (p := p) (m := m) (s := r) (c := c) rfl hl hj hw hlt hk hat hu h1 hhead hok (hlen ▸ hle) h2
    cases hc : checkImage r (areaAt s a).word img with
    | inl x =>
      have hc : checkImage r (areaAt r a).word img = .inl x := hc
      rw [hread, hc] at e
      exact e
    | inr l =>
      have hc : checkImage r (areaAt r a).word img = .inr l := hc
      rw [hread, hc, Sum.elim_inr, startLoad_eq] at e
      refine ⟨fun hjob hlate => e.trans (congrArg _ (if_pos ?_)), fun hearly hne _ => ?_⟩
      · rw [Bool.not_not]
        exact Bool.and_eq_true_iff.2 ⟨hjob, decide_eq_true hlate⟩
      · have hstart : ¬ (!(!hasJob r a) && decide ((draftOf r a).first + (draftOf r a).steps ≤ (areaAt r a).job.top)) = true := fun hb => by
          obtain ⟨hjob, hlate⟩ := Bool.and_eq_true_iff.1 hb
          rw [Bool.not_not] at hjob
          exact absurd (hearly hjob) (Nat.not_lt.2 (of_decide_eq_true hlate))
        rw [if_neg hstart, coldDone_loadBegun hne (checkImage_inArea hc)] at e
        have hself : areaAt (loadBegun a p m img l r) a = _ := areaAt_loadBegun_self
        have hother : ∀ b, b ≠ a → areaAt (loadBegun a p m img l r) b = areaAt s b := fun b hb => areaAt_loadBegun_ne hb
        have hsites := sitesOnly_loadBegun (a := a) (p := p) (m := m) (img := img) (l := l) (s := r)
        generalize loadBegun a p m img l r = q at *
        refine ⟨q, loadStarted a p m img l r, e, congrArg Area.load hself, rfl, rfl, rfl, rfl, bank_loadStarted, rfl, rfl, ?_, hother, ?_, ?_⟩
        · rw [hsites]
          exact mbxAt_mbxTaken_state p m s
        · rw [hsites]
          rfl
        · rw [hsites]
          rfl
  case elsewhere =>
    have e := (execLoadFlit_delivered hp hk hd hdue htag hw hkind).trans
      (congrArg _ (takeLoad_elsewhere (s := deliveryTaken su s) hs hl hpos hb ho))
    refine ⟨_, e, rfl, ?_, swAt_deliveryTaken_self hd⟩
    rw [areaAt_modArea_self]
    exact congrArg (Option.map _) hl
  case next =>
    intro buf rem rs ho hj hx hcrc
    have hlen : (sub (rowBytes d.flit.data) 32 (lfCount d.flit)).length = lfCount d.flit := length_sub ..
    have e := (execLoadFlit_delivered hp hk hd hdue htag hw hkind).trans
      (congrArg _ ((takeLoad_next (s := deliveryTaken su s) hs hl hpos hb ho hsour hh h96).trans (acceptLoad_job hj rfl hx)))
    rw [hlen] at e
    have hwr := RecordsWritten.each l.bank (rs ++ partRec rem) (deliveryTaken su s)
    have hsw := swAt_deliveryTaken_self hd
    have hself := suAt_modSu_accepted hwr su (lfCount d.flit) (lfLast d.flit) rem false
    refine ⟨_, e, ?_, ?_, congrArg Su.loadPos hself, congrArg Su.loadLast hself, congrArg Su.loadBuf hself,
      (congrArg Su.loadBad hself).trans (Bool.or_false _), fun hrs hrem => ?_, fun r hrs ht hrem => ?_⟩
    · have hs := hwr.sites
      generalize each (rs ++ partRec rem) (writeRec l.bank) (deliveryTaken su s) = q at *
      rw [hs]
      rfl
    · have hs := hwr.sites
      generalize each (rs ++ partRec rem) (writeRec l.bank) (deliveryTaken su s) = q at *
      rw [hs]
      rfl
    · rw [hrs, partRec_short hrem]
      exact ⟨rfl, hsw⟩
    · have hone : each (rs ++ partRec rem) (writeRec l.bank) (deliveryTaken su s) = modMx r.target (Mx.programmed l.bank r.data) (deliveryTaken su s) := by
        rw [hrs, partRec_short hrem]
        exact writeRec_mx ht
      rw [hone]
      refine ⟨rfl, fun n hn => mxAt_modMx_ne _ _ _ _ hn, fun i => ?_⟩
      have hmx : mxAt (modMx r.target (Mx.programmed l.bank r.data) (deliveryTaken su s)) r.target = (mxAt s r.target).programmed l.bank r.data :=
        mxAt_modMx_self ..
      exact (congrArg (fun x : Mx => look 0 x.prog (l.bank * 256 + i)) hmx).trans (look_putMany ..)
  case slot =>
    intro o used
    cases hf : fillLink s k h with
    | none => exact ⟨s, execFillSlot_none hp hs hf, fun _ => rfl, fun _ _ hx => nomatch hx⟩
    | some x =>
      obtain ⟨link, n⟩ := x
      by_cases hu : n ≤ used
      · refine ⟨s, execFillSlot_used hp hs hf hu, fun _ => rfl, fun link' n' hx => ?_⟩
        cases hx
        exact ⟨fun _ => rfl, fun hlt => absurd hu (Nat.not_le.2 hlt)⟩
      · refine ⟨_, execFillSlot_fills hp hs hf hl (Nat.not_le.1 hu) hroom, fun hx => (nomatch hx), fun link' n' hx => ?_⟩
        cases hx
        have hatt := attAt_slotFilled k h a link (fillFlit l (hasJob s a) h) s
        refine ⟨fun hle => absurd hle hu, fun _ => ⟨(fillFlit l (hasJob s a) h).1, rfl, hatt.trans ?_, ?_, fun b hb hj ho => ?_, fun hb => ?_⟩⟩
        · rw [hatt]
          rfl
        · rw [hatt]
          exact look_alter_self 0 (attAt s k).filled h (· + 1)
        · rw [hj, fillFlit_stream hb ho, areaAt_slotFilled]
          exact ⟨rfl, congrArg (Option.map _) hl⟩
        · rw [fillFlit_blank hb]
  case complete =>
    have h2' : (mbxAt (warmLoaded a l s) l.port l.m).state = 2 := h2
    have hframe := mbxComplete_frame l.port l.m mOk 0 (leBytes 8 l.draft.id) (warmLoaded a l s)
    obtain ⟨h3, hok⟩ := mbxAt_mbxComplete (st := mOk) (detail := 0) (rsp := leBytes 8 l.draft.id) h2'
    have hrsp := mbxAt_mbxComplete_rsp (st := mOk) (detail := 0) (rsp := leBytes 8 l.draft.id) h2'
    refine ⟨_, execWarmLoadComplete_complete ha hl hj hf hc, ?_, fun b hb => ?_, ?_, h3, hok, hrsp⟩
    · rw [hframe]
      rfl
    · rw [hframe]
      exact areaAt_warmLoaded_ne l s hb
    · rw [hframe]
      exact areaAt_warmLoaded_self a l s
end
